-- ==== Sys2Proof/Word.lean ====
section
/-! DEFINITION. The word types of the HW2 and their plainest arithmetic (R3). -/

namespace Sys2Proof

/-- One byte. -/
abbrev Byte := BitVec 8
/-- A 16-bit word. -/
abbrev W16 := BitVec 16
/-- A 32-bit word, the unit of the SECDED (39,32) code. -/
abbrev W32 := BitVec 32
/-- A 64-bit word: a register, an address, a TIS instruction. -/
abbrev W64 := BitVec 64
/-- A line: a 64 B coherence granule, byte 0 in the least significant bits (R3). -/
abbrev Line := BitVec 512

end Sys2Proof
end

