-- ==== Sys2Proof/Syntax.lean ====
section
/-! DEFINITION. The commands of the HW2: one constructor per row of the table of operations and events,
with the operands that a command of that row carries. A TIS instruction carries only its tile: the word it
executes is the one that the sequencer fetches at its program counter. -/

namespace Sys2Proof

/-- A logical tile (R41). -/
abbrev TileId := Fin 384
/-- A ring (R206). -/
abbrev RingId := Fin 8192
/-- A peg (R221). -/
abbrev PegId := Fin 65536
/-- A fabric port. -/
abbrev PortId := Fin 64
/-- A home agent (R230). -/
abbrev HomeId := Fin 40
/-- A host core. -/
abbrev CoreId := Fin 96
/-- A reduction job. -/
abbrev JobId := Fin 256
/-- A shard (R168). -/
abbrev ShardId := Fin 1048576
/-- A tile group (R192). -/
abbrev GroupId := Fin 32
/-- A PCI Express root port. -/
abbrev RpId := Fin 4

/-- An agent that reads or writes a register, an aperture or memory: who sends the access. -/
inductive Agent where
  /-- A host core. -/
  | core (c : CoreId)
  /-- The basecamp controller. -/
  | basecamp
  /-- The external host, through the endpoint. -/
  | host
  /-- A device behind a root port. -/
  | rootPort (p : RpId)
  /-- Another HW2 device, by a fabric-global address. -/
  | fabric (dev : BitVec 12)
  /-- A tile's own program or units. -/
  | tile (n : TileId)
  /-- A unit of the device that runs descriptors (COPY, FILL, CHECKPOINT and so on) for a ring. -/
  | engine (r : RingId)
  deriving DecidableEq, Repr


/-- The status of a PCI Express completion: successful, UR, CA (R321, R326). -/
inductive CplStatus where
  | sc | ur | ca
  deriving DecidableEq, Repr

/-- A memory BAR of the endpoint and an offset in it (R315). -/
inductive BarAddr where
  | csr (offset : BitVec 31)
  | awning (offset : BitVec 28)
  deriving DecidableEq, Repr

/-- An event that is a loss of the external host's link (R323): the last leaves L0 as Recovery does, by a loss of lock of the PLL
(R362). -/
inductive LinkLoss where
  | perst | hotReset | linkDisable | functionReset | recovery | detect | pllUnlock
  deriving DecidableEq, Repr

/-- A configuration request of the external host, as far as the manual gives it an effect (R314, R315, R322, R325): the code of a maximum
payload size or read request size is its power of two above 128 B, `clearErrors` writes ones to error status bits, and `readBar` reads one of the six
BAR registers. -/
inductive ConfigRequest where
  | busMaster (on : Bool)
  | msix (enable functionMask : Bool)
  | bar (index : Fin 2) (base : W64)
  | readIds
  | readBar (index : Fin 6)
  | payload (code : Fin 3)
  | readRequest (code : Fin 6)
  | power (d3hot : Bool)
  | clearErrors (bits : W32)
  | readErrors
  | readCommand
  | readMsix
  | readControl
  | readPower
  deriving DecidableEq, Repr

/-- The size of an access, and whether it is an AMO, LR or SC of a core (R310). -/
structure SizedAccess (N : Type) where
  size : N
  atomic : Bool
  deriving DecidableEq, Repr

/-- An error in a line of a core's cache (R312): of a single bit, or uncorrectable, found by an access that would retire or not. -/
inductive CacheError where
  | single
  | double (retires : Bool)
  deriving DecidableEq, Repr

/-- The clock monitors whose fault resets the device (R362). -/
inductive ClockMonitor where
  | reference | rootPll | cclk | mclk | aclk | sclk | bclk | memoryPhy
  deriving DecidableEq, Repr

/-- A unit that can be reset alone (R375). -/
abbrev UnitId := Fin 549


/-- The head of a frame that the management port receives (R349, R421): its source, its destination and its EtherType. -/
structure Ether where
  src : BitVec 48
  dst : BitVec 48
  etherType : W16
  deriving DecidableEq, Repr

/-- The commands: operations that an agent performs on the device and events that befall it, one constructor per
row of the table. -/
inductive Instr where
  /-- REGISTER_WRITE (R7): A write to a register that has no row of its own sets RW fields, clears W1C bits and starts nothing else. -/
  | registerWrite (agent : Agent) (addr : BitVec 48) (access : SizedAccess (BitVec 4)) (data : W64)
  /-- REGISTER_READ_CLEAR (R7): A read of an RC field returns its value and clears it, with collisions resolved under R8 and R9. -/
  | registerReadClear (agent : Agent) (addr : BitVec 48) (access : SizedAccess (BitVec 4))
  /-- SEQ_START (R47): START written to SEQ.CTRL starts an IDLE sequencer at SEQ.ENTRY with s1 to s31 zeroed, or is discarded under R37. -/
  | seqStart (n : TileId)
  /-- SEQ_HALT (R38): HALT written to SEQ.CTRL stops a running sequencer at the next instruction boundary once launched work completes. -/
  | seqHalt (n : TileId)
  /-- SEQ_RESUME (R37): RESUME written to SEQ.CTRL continues a HALTED sequencer at its program counter, or is discarded. -/
  | seqResume (n : TileId)
  /-- PROGRAM_MEMORY_WRITE (R36): A write to tile program memory is accepted while IDLE or HALTED and otherwise discarded with a TILE_PROG_BUSY record. -/
  | programMemoryWrite (agent : Agent) (n : TileId) (offset : W16) (size : Nat) (data : W64)
  /-- VEC_REGISTER_WRITE (R77): A write to VEC.SR_KEY, SR_INDEX, SREG, PREG or VREG_DATA is accepted only while the sequencer is IDLE or HALTED. -/
  | vecRegisterWrite (agent : Agent) (n : TileId) (offset : BitVec 13) (size : Nat) (data : W64)
  /-- AGEN_SETUP_WRITE (R95): A write to AGEN.SETUP is accepted only while the sequencer is IDLE or HALTED. -/
  | agenSetupWrite (agent : Agent) (n : TileId) (a w : Fin 8) (data : W64)
  /-- APERTURE_ACCESS (R35): Another agent's read or write of a tile SRAM aperture is performed as a bank requester, or refused for an unpopulated bank. -/
  | apertureAccess (agent : Agent) (n : TileId) (offset : BitVec 23) (access : SizedAccess Nat) (write : Option (List Byte))
  /-- CORRECTED_WORD_WRITE_BACK (R34): The scheduled write-back of a corrected SRAM word takes a bank cycle at the lowest grant order. -/
  | correctedWordWriteBack (n : TileId)
  /-- SEQUENCER_WATCHDOG (R39): The sequencer watchdog count reaches its limit and the sequencer enters FAULTED with a TILE_WATCHDOG record. -/
  | sequencerWatchdog (n : TileId)
  /-- FETCH_PAST_PROGRAM_END (R475): A fetch at 0x1_0000 fetches nothing and, once launched work completes, faults the sequencer with TILE_ILLEGAL. -/
  | fetchPastProgramEnd (n : TileId)
  /-- NOP (R54): The instruction does nothing. -/
  | nop (n : TileId)
  /-- HALT (R54): The halt instruction enters HALTED with halt_cause 2. -/
  | halt (n : TileId)
  /-- END (R54): END waits for all work, enters IDLE and reports task completion to the scheduler. -/
  | endProgram (n : TileId)
  /-- BR (R54): Branches unconditionally. -/
  | br (n : TileId)
  /-- BEQ (R54): Branches if two scalar registers are equal. -/
  | beq (n : TileId)
  /-- BNE (R54): Branches if two scalar registers differ. -/
  | bne (n : TileId)
  /-- BLT (R54): Branches on signed less-than. -/
  | blt (n : TileId)
  /-- BLTU (R54): Branches on unsigned less-than. -/
  | bltu (n : TileId)
  /-- BNZD (R54): Decrements a scalar register and branches if the result is not zero. -/
  | bnzd (n : TileId)
  /-- BPANY (R54): Branches if any bit of a predicate is 1. -/
  | bpany (n : TileId)
  /-- BPNONE (R54): Branches if every bit of a predicate is 0. -/
  | bpnone (n : TileId)
  /-- WAIT (R55): Waits for the passes, drains, transfers, vector work or write acknowledgements selected by imm. -/
  | wait (n : TileId)
  /-- PWAIT (R56): Waits until a peg satisfies the given condition. -/
  | pwait (n : TileId)
  /-- PSIG (R57): Adds to a peg once all earlier work has completed and been acknowledged. -/
  | psig (n : TileId)
  /-- SRKEY (R54): Sets VEC.SR_KEY from two scalar registers and zeroes VEC.SR_INDEX. -/
  | srkey (n : TileId)
  /-- ADD (R54): Scalar addition modulo 2^64. -/
  | add (n : TileId)
  /-- SUB (R54): Scalar subtraction modulo 2^64. -/
  | sub (n : TileId)
  /-- MUL (R54): Low 64 bits of a scalar product. -/
  | mul (n : TileId)
  /-- AND (R54): Scalar bitwise AND. -/
  | andS (n : TileId)
  /-- OR (R54): Scalar bitwise OR. -/
  | orS (n : TileId)
  /-- XOR (R54): Scalar bitwise exclusive or. -/
  | xorS (n : TileId)
  /-- SHL (R54): Scalar shift left. -/
  | shl (n : TileId)
  /-- SHR (R54): Scalar logical shift right. -/
  | shr (n : TileId)
  /-- SRA (R54): Scalar arithmetic shift right. -/
  | sra (n : TileId)
  /-- SLT (R54): Sets 1 on signed less-than, else 0. -/
  | slt (n : TileId)
  /-- SLTU (R54): Sets 1 on unsigned less-than, else 0. -/
  | sltu (n : TileId)
  /-- ADDI (R54): Adds the immediate to a scalar register. -/
  | addi (n : TileId)
  /-- LI (R54): Loads the immediate into a scalar register. -/
  | li (n : TileId)
  /-- LIH (R54): Loads the immediate into the upper half of a scalar register. -/
  | lih (n : TileId)
  /-- LD (R54): Loads 64 bits from tile SRAM into a scalar register. -/
  | ld (n : TileId)
  /-- ST (R54): Stores a scalar register to tile SRAM. -/
  | st (n : TileId)
  /-- RDSYS (R54): Reads the logical tile ID, the ACLK cycle count or station time. -/
  | rdsys (n : TileId)
  /-- PCNT (R54): Counts the 1 bits of a predicate. -/
  | pcnt (n : TileId)
  /-- LAUNCH (R59): Latches masks and set-ups and starts or queues an array pass. -/
  | launch (n : TileId)
  /-- DRAIN (R61): Converts an accumulator set and writes it row by row once its pass completes. -/
  | drain (n : TileId)
  /-- AGLD (R62): Loads a 64 B set-up block into the loaded position of an AGEN. -/
  | agld (n : TileId)
  /-- XFER (R94): Starts a stand-alone transfer walk on an AGEN. -/
  | xfer (n : TileId)
  /-- VADD (R63): Lane-wise addition. -/
  | vadd (n : TileId)
  /-- VSUB (R63): Lane-wise subtraction. -/
  | vsub (n : TileId)
  /-- VMUL (R63): Lane-wise multiplication. -/
  | vmul (n : TileId)
  /-- VFMA (R63): Lane-wise fused multiply-add, rounded once. -/
  | vfma (n : TileId)
  /-- VMAX (R63): Lane-wise maximum. -/
  | vmax (n : TileId)
  /-- VMIN (R63): Lane-wise minimum. -/
  | vmin (n : TileId)
  /-- VABS (R63): Lane-wise absolute value. -/
  | vabs (n : TileId)
  /-- VNEG (R63): Lane-wise negation. -/
  | vneg (n : TileId)
  /-- VRCP (R64): Correctly rounded reciprocal. -/
  | vrcp (n : TileId)
  /-- VRSQRT (R64): Correctly rounded reciprocal square root. -/
  | vrsqrt (n : TileId)
  /-- VEXP2 (R64): Correctly rounded power of two. -/
  | vexp2 (n : TileId)
  /-- VLOG2 (R64): Correctly rounded base-2 logarithm. -/
  | vlog2 (n : TileId)
  /-- VAND (R63): Lane-wise AND. -/
  | vand (n : TileId)
  /-- VOR (R63): Lane-wise OR. -/
  | vor (n : TileId)
  /-- VXOR (R63): Lane-wise exclusive or. -/
  | vxor (n : TileId)
  /-- VSHL (R63): Lane-wise shift left. -/
  | vshl (n : TileId)
  /-- VSHR (R63): Lane-wise logical shift right. -/
  | vshr (n : TileId)
  /-- VSRA (R63): Lane-wise arithmetic shift right. -/
  | vsra (n : TileId)
  /-- VADDS (R63): Lane-wise saturating INT32 addition. -/
  | vadds (n : TileId)
  /-- VCMP (R63): Lane-wise comparison into a predicate. -/
  | vcmp (n : TileId)
  /-- VSEL (R63): Lane-wise selection under a predicate. -/
  | vsel (n : TileId)
  /-- VBCAST (R63): Broadcasts a scalar to every lane or element. -/
  | vbcast (n : TileId)
  /-- VIOTA (R63): Writes a scalar plus the lane index into each lane. -/
  | viota (n : TileId)
  /-- VMOV (R63): Copies a vector register bit for bit. -/
  | vmov (n : TileId)
  /-- VPERM (R65): Permutes lanes by an index vector. -/
  | vperm (n : TileId)
  /-- VXSWZ (R65): Swizzles lanes by XOR with an immediate. -/
  | vxswz (n : TileId)
  /-- VROT (R65): Rotates lanes. -/
  | vrot (n : TileId)
  /-- VSLIDE (R65): Slides lanes with zero fill. -/
  | vslide (n : TileId)
  /-- VEXT (R65): Extracts one lane into a scalar register. -/
  | vext (n : TileId)
  /-- VINS (R65): Inserts a scalar into one lane. -/
  | vins (n : TileId)
  /-- VCOMP (R65): Compresses the selected lanes and writes their count. -/
  | vcomp (n : TileId)
  /-- VEXPN (R65): Expands lanes to the selected positions. -/
  | vexpn (n : TileId)
  /-- VPHX (R66): Writes Philox4x32-10 output words into the lanes. -/
  | vphx (n : TileId)
  /-- VCVT (R67): Converts 256 elements between formats with rounding, scaling and health counting. -/
  | vcvt (n : TileId)
  /-- VLD (R71): Loads one bank row per chunk into a vector register. -/
  | vld (n : TileId)
  /-- VST (R71): Stores a vector register one bank row per chunk. -/
  | vst (n : TileId)
  /-- VLDL (R71): Loads 1 KiB of consecutive SRAM. -/
  | vldl (n : TileId)
  /-- VSTL (R71): Stores 1 KiB of consecutive SRAM. -/
  | vstl (n : TileId)
  /-- VLDC (R71): Loads columns of SRAM banks. -/
  | vldc (n : TileId)
  /-- VSTC (R71): Stores columns of SRAM banks. -/
  | vstc (n : TileId)
  /-- VRACC (R71): Reads long sums of an accumulator set. -/
  | vracc (n : TileId)
  /-- VWACC (R71): Writes long sums of an accumulator set. -/
  | vwacc (n : TileId)
  /-- PAND (R74): Predicate AND. -/
  | pand (n : TileId)
  /-- POR (R74): Predicate OR. -/
  | por (n : TileId)
  /-- PXOR (R74): Predicate exclusive or. -/
  | pxor (n : TileId)
  /-- PNOT (R74): Predicate NOT. -/
  | pnot (n : TileId)
  /-- PLT (R74): Sets predicate bits below a scalar count. -/
  | plt (n : TileId)
  /-- PNZ (R74): Sets predicate bits for non-zero lanes. -/
  | pnz (n : TileId)
  /-- QUEUED_PASS_START (R91): A queued pass starts once the running pass ends and its first slices are staged. -/
  | queuedPassStart (n : TileId) (m : Fin 4)
  /-- HAND_OFF (R89): At a chunk or pass end cells hand off their sums and the set addition rounds them into the named set. -/
  | handOff (n : TileId) (m : Fin 4)
  /-- CHECK_POINT (R388): Row and column checksums are compared with the cell sums at a check point. -/
  | checkPoint (n : TileId) (m : Fin 4)
  /-- PASS_COMPLETE (R90): An array pass completes after its last check point has passed. -/
  | passComplete (n : TileId) (m : Fin 4)
  /-- DRAIN_START (R92): A drain begins reading its set once the filling pass has completed. -/
  | drainStart (n : TileId) (m : Fin 4)
  /-- DRAIN_COMPLETE (R92): A drain completes when every write has been acknowledged. -/
  | drainComplete (n : TileId) (m : Fin 4)
  /-- XFER_COMPLETE (R94): A transfer completes when every write has been acknowledged. -/
  | xferComplete (n : TileId) (a : Fin 8)
  /-- GOV_COMMIT (R11): Writing RED.GOV_COMMIT applies the staged governor fields together. -/
  | govCommit
  /-- STASH_COMMIT (R127): Writing PIPE.STASH_COMMIT checks the staged stash configuration and accepts or refuses it. -/
  | stashCommit
  /-- STASH_COMMIT_EFFECT (R134): A passed stash commit takes effect at the next step boundary. -/
  | stashCommitEffect
  /-- STASH_JOURNAL_ENTRY (R133): The stash switch entry is written to the posting ring's journal once room allows. -/
  | stashJournalEntry
  /-- JOB_COMMIT (R141): Writing RED.JOB_COMMIT binds or unbinds a reduction job after checking its job block. -/
  | jobCommit (j : JobId)
  /-- SCALE (R150): Rank 0 receives a SCALE packet and, when all have arrived, sends SCALE_RESULT. -/
  | scale
  /-- SCALE_RESULT (R150): A participant receives E, h and checked, or an abort, and starts conversion and contribution. -/
  | scaleResult
  /-- CONTRIB (R156): A CONTRIB packet is added by its reduction port, or stored early, and its credit returned. -/
  | contrib
  /-- CHECK (R164): The owner receives checker sums and compares them lane by lane. -/
  | check
  /-- RESULT (R161): A participant receives and stores the sums of one fragment. -/
  | result
  /-- TRAILER (R160): Rank 0 or the checker adds a participant's trailer into the totals. -/
  | trailer
  /-- TOTAL (R160): A participant receives the job totals. -/
  | total
  /-- CREDIT (R142): A sender receives returned credits. -/
  | credit
  /-- ABORT (R166): A participant receives an ABORT and ends the bucket with the matching status. -/
  | abort
  /-- BUCKET_SCAN_COMPLETE (R149): The scan ends and the participant sends its exponent word to rank 0. -/
  | bucketScanComplete (j : JobId) (seq : W32)
  /-- BUCKET_FINISH (R161): With every result and total held, the participant writes or hands off the result and completes the descriptor. -/
  | bucketFinish (j : JobId)
  /-- BUCKET_TIMEOUT (R166): No packet of a bucket is processed within the job timeout and the job becomes broken. -/
  | bucketTimeout (j : JobId) (seq : W32)
  /-- STATE_COMMIT (R11): Writing STATE.COMMIT checks the staged state engine fields. -/
  | stateCommit
  /-- STATE_COMMIT_EFFECT (R11): A passed state commit takes effect once no shard is staging, ready or updating. -/
  | stateCommitEffect
  /-- STATE_HANDOFF (R172): The state engine accepts a mode 2 hand-off and stages its runs, or waits. -/
  | stateHandoff (j : JobId)
  /-- SHARD_UPDATE_COMPLETE (R181): An update ends with working copies re-derived, digest written and changed blocks marked. -/
  | shardUpdateComplete (x : ShardId)
  /-- POOL_SLOT_GRANT (R184): The state-miss queue grants a tier 1 shard a pool slot and starts the copy-up. -/
  | poolSlotGrant
  /-- STATE_COPY_UP_COMPLETE (R184): A tier 1 shard's state is in the pool and its update may run. -/
  | stateCopyUpComplete (x : ShardId)
  /-- APPLY (R176): APPLY starts or skips the gated updates of its shards for a step. -/
  | apply (r : RingId) (idx : W32)
  /-- CHECKPOINT (R189): CHECKPOINT writes records of changed blocks to the stream. -/
  | checkpoint (r : RingId) (idx : W32)
  /-- DIGEST_CHECK (R187): DIGEST_CHECK compares local and peer shard digests. -/
  | digestCheck (r : RingId) (idx : W32)
  /-- REDERIVE (R191): REDERIVE re-derives working copies and digests of idle shards. -/
  | rederive (r : RingId) (idx : W32)
  /-- PIPE_COMMIT (R193): Writing PIPE.COMMIT checks the staged scheduler configuration. -/
  | pipeCommit
  /-- PIPE_COMMIT_EFFECT (R193): A passed scheduler commit takes effect when no STEP descriptor is in progress. -/
  | pipeCommitEffect
  /-- STEP (R195): A STEP descriptor starts, is checked and has its release order computed. -/
  | step (r : RingId) (idx : W32)
  /-- TASK_RELEASE (R199): The scheduler releases the next task of the release order. -/
  | taskRelease
  /-- TASK_START (R200): A released task starts the sequencers of its group with the task arguments. -/
  | taskStart (g : GroupId)
  /-- TASK_COMPLETE (R200): A task completes when every tile of its group has executed END. -/
  | taskComplete (g : GroupId)
  /-- TASK_FAULT (R204): A tile of a task's group enters FAULTED and the step is wound down with ABORTED_FAULT. -/
  | taskFault (g : GroupId)
  /-- RING_COMMIT (R207): Writing RING.COMMIT checks staged ring fields and may arm the ring. -/
  | ringCommit (r : RingId) (arm : Bool)
  /-- DOORBELL (R208): Writing RING.DOORBELL publishes descriptors or is refused with a RING_DOORBELL record. -/
  | doorbell (r : RingId) (tail : W32)
  /-- ADMIT_COMMIT (R11): Writing PIPE.ADMIT_COMMIT applies the staged admission fields. -/
  | admitCommit
  /-- DESCRIPTOR_ADMISSION (R209): The arbiter admits the descriptor at HEAD of a selected ring and allocates a tracker entry. -/
  | descriptorAdmission
  /-- DESCRIPTOR_START (R215): An admitted descriptor starts when its conditions hold, after its header and op block checks. -/
  | descriptorStart (r : RingId) (idx : W32)
  /-- FENCE (R216): FENCE completes with OK at its start. -/
  | fence (r : RingId) (idx : W32)
  /-- COPY (R229): COPY copies count bytes line by line. -/
  | copy (r : RingId) (idx : W32) (lines : Nat)
  /-- FILL (R229): FILL writes a 64-bit pattern over its destination. -/
  | fill (r : RingId) (idx : W32) (lines : Nat)
  /-- DESCRIPTOR_COMPLETION (R217): An operation ends and, once its writes are acknowledged, its journal entry is written. -/
  | descriptorCompletion (r : RingId) (idx : W32)
  /-- JOURNAL_ROOM (R219): A completion waiting for journal room writes its entry once room appears. -/
  | journalRoom (r : RingId)
  /-- COMPLETION_SIGNAL (R217): After the journal entry is acknowledged the descriptor signals or faults its peg and frees its tracker entry. -/
  | completionSignal (r : RingId) (idx : W32)
  /-- RING_STOP_COMMAND (R227): STOP written to RING.CTRL stops admission and puts the ring in STOPPING. -/
  | ringStopCommand (r : RingId)
  /-- RING_DISABLE (R227): DISABLE written to RING.CTRL returns a STOPPED ring to DISABLED. -/
  | ringDisable (r : RingId)
  /-- RING_AGE (R228): A descriptor's age exceeds the limit and a RING_AGE record is written. -/
  | ringAge (r : RingId)
  /-- PEG_ADD (R221): A write to PEG.ADD adds to a peg and may set its fault bit. -/
  | pegAdd (p : PegId) (data : W64)
  /-- PEG_VALUE_WRITE (R222): A write to PEG.VALUE sets the count and fault bit. -/
  | pegValueWrite (p : PegId) (data : W64)
  /-- PEG_UPDATE (R222): The peg unit applies one update and re-evaluates every waiter. -/
  | pegUpdate (p : PegId) (add : BitVec 63) (fault : Bool)
  /-- HBMC_COMMIT (R244): Writing HBMC.COMMIT or LPMC COMMIT applies scrub and repair fields, clamping the period. -/
  | hbmcCommit (i : Fin 24)
  /-- MEMORY_TRAINING_COMPLETE (R237): Stacks and LPDDR5X channels finish training and zeroing, or the tier is disabled. -/
  | memoryTrainingComplete (hbmFail : Bool) (lpFail : Option (Fin 64))
  /-- LP_BACKGROUND_ZEROING_DONE (R239): Background zeroing passes the top of every channel and init_done sets. -/
  | lpBackgroundZeroingDone (q : Fin 8)
  /-- CORRECTED_LINE_WRITE_BACK (R240): The home writes back a corrected line unless a newer write overtook it. -/
  | correctedLineWriteBack (h : HomeId)
  /-- PATROL_SCRUB_READ (R243): The scrubber reads the next check group, correcting or recording errors. -/
  | patrolScrubRead (h : HomeId) (ecs : W32)
  /-- ROW_REPAIR (R245): A marked row is repaired by soft post-package repair. -/
  | rowRepair (h : HomeId)
  /-- RD_SHARED (R269): A home receives RdShared and grants a copy, snooping an owner if needed. -/
  | rdShared (c : CoreId) (addr : W64) (retires : Bool)
  /-- RD_OWN (R269): A home receives RdOwn and grants ownership after invalidating others. -/
  | rdOwn (c : CoreId) (addr : W64) (retires : Bool)
  /-- UPGRADE (R269): A home receives Upgrade and grants ownership without data or as RdOwn. -/
  | upgrade (c : CoreId) (addr : W64) (retires : Bool)
  /-- RD_NA (R269): A home serves a non-caching read. -/
  | rdNa (agent : Agent) (addr : BitVec 48)
  /-- WR_NA (R269): A home performs a non-caching whole-line write and acknowledges it. -/
  | wrNa (agent : Agent) (addr : BitVec 48) (data : Line)
  /-- WR_PART (R269): A home merges and writes a byte-enabled write and acknowledges it. -/
  | wrPart (agent : Agent) (addr : BitVec 48) (mask : W64) (data : Line)
  /-- SNP_SHARED (R273): An owner core receives SnpShared and downgrades, forwarding data. -/
  | snpShared (c : CoreId) (evicting : Bool)
  /-- SNP_INV (R273): A core receives SnpInv and invalidates, forwarding data if asked. -/
  | snpInv (c : CoreId) (evicting : Bool)
  /-- SNP_CUR (R269): An owner receives SnpCur and sends its current data, keeping its state. -/
  | snpCur (c : CoreId) (evicting : Bool)
  /-- CMP_S (R269): A core receives a shared grant. -/
  | cmpS (c : CoreId)
  /-- CMP_E (R275): A core receives an exclusive clean grant and starts its hold. -/
  | cmpE (c : CoreId) (mask : W64) (data : Line)
  /-- CMP_M (R275): A core receives an owned grant and starts its hold. -/
  | cmpM (c : CoreId) (mask : W64) (data : Line)
  /-- COMP_ACK (R273): A home receives CompAck, closes the transaction and starts the hold count. -/
  | compAck (c : CoreId)
  /-- SNP_ACK (R274): A home receives a snoop answer and proceeds with the grant or the WB data. -/
  | snpAck (c : CoreId)
  /-- WR_ACK (R257): A non-caching agent receives acknowledgement of its write. -/
  | wrAck
  /-- WB_ACK (R272): A core receives acknowledgement of its write-back. -/
  | wbAck (c : CoreId)
  /-- DENY (R263): A core receives a bias denial and raises an access fault if the access retires. -/
  | deny (c : CoreId)
  /-- DATA (R272): A requester receives a line from the SLC or memory. -/
  | data (agent : Agent)
  /-- FWD_DATA (R273): A requester receives a line cache to cache. -/
  | fwdData (c : CoreId)
  /-- SNP_DATA (R273): A home receives snoop data and writes memory. -/
  | snpData (c : CoreId)
  /-- WB_DIRTY (R274): A home absorbs a dirty eviction. -/
  | wbDirty (c : CoreId) (addr : BitVec 48)
  /-- WB_CLEAN (R274): A home absorbs a clean owned eviction. -/
  | wbClean (c : CoreId) (addr : BitVec 48)
  /-- HOLD_EXPIRY (R275): A core's minimum hold expires and waiting requests may proceed. -/
  | holdExpiry (addr : BitVec 48)
  /-- RETRY_GRANT (R271): The oldest retry-class request takes way 19 and buffer 15. -/
  | retryGrant (h : HomeId)
  /-- BIAS_COMMIT (R264): Writing HOME.BIAS_COMMIT checks and starts a bias flip. -/
  | biasCommit
  /-- BIAS_FLIP_COMPLETE (R265): Every home has finished its walk and recalls, the run takes its bias and the peg signals. -/
  | biasFlipComplete
  /-- DATA_FLIT (R281): A port receives a DATA flit and accepts or discards it, sending nak as needed. -/
  | dataFlit (p : PortId) (flit : BitVec 2048) (corrected : W16) (bad : Bool)
  /-- IDLE_FLIT (R280): A port receives an IDLE flit carrying acks and credits. -/
  | idleFlit (p : PortId) (flit : BitVec 2048) (corrected : W16) (bad : Bool)
  /-- ACK_TIMEOUT (R282): The oldest unacknowledged flit waits ack_timeout and a replay starts. -/
  | ackTimeout (p : PortId)
  /-- RETRAIN_TIMEOUT (R284): A retrain that does not complete in 2 ms puts the port DOWN. -/
  | retrainTimeout (p : PortId)
  /-- PORT_TRAINING_ATTEMPT (R284): A DOWN port attempts training once per second. -/
  | portTrainingAttempt (p : PortId)
  /-- HELLO (R297): A port receives a HELLO and may become UP and update its candidate. -/
  | hello (p : PortId) (flit : BitVec 2048) (corrected : W16) (bad : Bool)
  /-- HELLO_TIMER (R297): The HELLO interval expires and a HELLO is sent. -/
  | helloTimer (p : PortId)
  /-- RD (R304): A destination performs a fabric line read and answers RDDATA or ERR. -/
  | rd
  /-- WR (R305): A destination performs a fabric line write and answers WRACK. -/
  | wr
  /-- WRP (R305): A destination merges a byte-enabled fabric write and answers WRACK. -/
  | wrp
  /-- PEGADD (R305): A destination adds to a peg and answers WRACK. -/
  | pegadd
  /-- RDREG (R304): A destination performs an 8 B register read. -/
  | rdreg
  /-- WRREG (R305): A destination performs an 8 B register write and answers WRACK. -/
  | wrreg
  /-- RDDATA (R306): An originator receives read data for an open request. -/
  | rddata
  /-- WRACK (R305): An originator receives acknowledgement of a fabric write. -/
  | wrack
  /-- ERR (R306): An originator receives ERR and ends the request's work. -/
  | err
  /-- REQUEST_TIMEOUT (R306): A fabric request receives no response within req_timeout. -/
  | requestTimeout (tag : BitVec 16) (gen : BitVec 8)
  /-- TAKEOVER_REQ (R285): A neighbour discards partial packets of a DOWN port and answers TAKEOVER_ACK. -/
  | takeoverReq (p q : PortId)
  /-- TAKEOVER_ACK (R285): The device routes again the packets beyond the acknowledged seq. -/
  | takeoverAck (p q : PortId) (seq : BitVec 12)
  /-- REGISTER (R300): The root records a REGISTER, or a device passes it on through its parent port. -/
  | register (p : PortId) (serial : W64) (eligible : Bool) (slot : BitVec 6) (heldId : Option (BitVec 12)) (links : List (PortId × W64 × PortId))
  /-- ASSIGN (R300): A device receives its ID assignment or passes it along the source route. -/
  | assign (p : PortId) (route : List PortId) (id : BitVec 12) (epoch : W16)
  /-- ROUTE (R300): A device receives a routing table part and installs ID and table when complete. -/
  | route (p : PortId) (route : List PortId) (part : Byte) (entries : List (W64 × W64))
  /-- READY (R300): The root receives READY from a device. -/
  | ready (p : PortId) (serial : W64)
  /-- REASSIGN (R303): A device receives REASSIGN, floods it and restarts election and registration. -/
  | reassign (p : PortId)
  /-- ROOT_DECLARE (R299): An eligible device that saw no lower offer for settle ms declares itself root. -/
  | rootDeclare
  /-- NO_ROOT_TIMEOUT (R299): With no eligible device, after 2 × settle ms a FAB_NO_ROOT record is written. -/
  | noRootTimeout
  /-- CANDIDATE_STABLE (R300): A device whose candidate is stable for settle ms sends its REGISTER. -/
  | candidateStable
  /-- REGISTRATION_SETTLE (R300): The root, after settle ms without a new REGISTER, assigns IDs and distributes tables. -/
  | registrationSettle
  /-- TABLE_REDISTRIBUTION (R474): Settle ms after a changed REGISTER the root recomputes and redistributes every table. -/
  | tableRedistribution
  /-- FAB_PORT_COMMIT (R279): Writing FAB.PORT_COMMIT applies a port's staged enable. -/
  | fabPortCommit (p : PortId)
  /-- FAB_COMMIT (R289): Writing FAB.COMMIT checks and applies global fabric fields. -/
  | fabCommit
  /-- ROUTE_COMMIT (R296): Writing FAB.ROUTE_COMMIT installs the staged routing entries together. -/
  | routeCommit
  /-- DISC_REASSIGN (R303): Writing reassign to FAB.DISC_CTRL floods REASSIGN. -/
  | discReassign
  /-- CORE_RESIDUE_MISMATCH (R311): A residue mismatch at retirement re-executes the instruction or stops the core. -/
  | coreResidueMismatch (c : CoreId) (again : Bool)
  /-- CORE_CACHE_UE (R312): An uncorrectable core cache error refetches a clean line or loses a dirty one with a CORE_UE record. -/
  | coreCacheUe (c : CoreId) (addr : BitVec 48) (error : CacheError)
  /-- CORE_HANG (R313): The core retirement watchdog expires and the core stops. -/
  | coreHang (c : CoreId)
  /-- TLP_POSTED_WRITE (R316): The endpoint receives a posted write and performs it in PCI Express order. -/
  | tlpPostedWrite (bar : BarAddr) (data : List Byte) (poisoned : Bool)
  /-- TLP_READ (R316): The endpoint receives a read and completes it after earlier posted writes. -/
  | tlpRead (bar : BarAddr) (len : BitVec 13) (poisoned : Bool)
  /-- AWN_COMMIT (R317): Writing AWN.COMMIT applies the staged awning base. -/
  | awnCommit
  /-- EP_COMMIT (R11): Writing PCIE.EP_COMMIT applies staged endpoint fields. -/
  | epCommit
  /-- RP_COMMIT (R11): Writing PCIE.RP_COMMIT applies a root port's staged fields. -/
  | rpCommit (p : RpId)
  /-- HOST_READ (R321): HOST_READ reads host memory into device memory. -/
  | hostRead (r : RingId) (idx : W32) (n : Nat)
  /-- HOST_WRITE (R320): HOST_WRITE writes device data to host memory with periodic flush reads. -/
  | hostWrite (r : RingId) (idx : W32) (n : Nat)
  /-- HOST_MSIX (R319): HOST_MSIX sends or pends a run of MSI-X vectors. -/
  | hostMsix (r : RingId) (idx : W32) (n : Nat)
  /-- FLUSH_READ_COMPLETION (R320): A flush read completes and earlier posted host writes count as acknowledged. -/
  | flushReadCompletion (tag : BitVec 14)
  /-- READ_COMPLETION (R321): A completion for a HOST_READ arrives and its data is written or the operation aborts. -/
  | readCompletion (tag : BitVec 14) (st : CplStatus) (data : List Byte) (poisoned : Bool)
  /-- COMPLETION_TIMEOUT (R321): A HOST_READ request gets no completion within the timeout. -/
  | completionTimeout (tag : BitVec 14)
  /-- HOST_LINK_LOSS (R324): A loss of the host link stops TLPs and ends host-bound descriptors with HOST_LINK_LOST. -/
  | hostLinkLoss (e : LinkLoss)
  /-- RP_WINDOW_LOAD (R326): A core load in a root-port window becomes a memory read TLP. -/
  | rpWindowLoad (c : CoreId) (p : RpId) (offset : BitVec 21) (access : SizedAccess (BitVec 4))
  /-- RP_WINDOW_STORE (R326): A core store in a root-port window becomes a posted write TLP. -/
  | rpWindowStore (c : CoreId) (p : RpId) (offset : BitVec 21) (access : SizedAccess (BitVec 4)) (data : W64)
  /-- RP_CFG_READ (R326): A read of PCIE.RP_CFG_DATA performs a configuration read. -/
  | rpCfgRead (agent : Agent) (p : RpId) (o : BitVec 3) (size : BitVec 4)
  /-- RP_CFG_WRITE (R326): A write of PCIE.RP_CFG_DATA performs a configuration write. -/
  | rpCfgWrite (agent : Agent) (p : RpId) (o : BitVec 3) (size : BitVec 4) (data : W64)
  /-- RP_LINK_DOWN (R327): A root port leaves L0 and writes an RP_LINK_DOWN record. -/
  | rpLinkDown (p : RpId) (pll : Bool)
  /-- RP_INBOUND_REQUEST (R328): An inbound root-port request is decoded by key and placed, delivered as MSI, or refused. -/
  | rpInboundRequest (p : RpId) (addr : W64) (len : Nat) (write : Option (List Byte)) (poisoned : Bool)
  /-- DPL_COMMIT (R330): Writing DPL.COMMIT checks and applies the region table. -/
  | dplCommit
  /-- DPL_EPOCH_ADVANCE (R330): Requests under the previous table are all done and DPL.STATUS.epoch increments. -/
  | dplEpochAdvance
  /-- CONFIGURATION_LOAD (R344): The ROM reads, verifies and applies the image in the order of the load sequence. -/
  | configurationLoad (reads : List (List Byte))
  /-- FUSE_ADVANCE_ROLLBACK (R343): FUSE.PROG_CMD op 1 advances the rollback counter. -/
  | fuseAdvanceRollback (unlock : W32) (target : BitVec 6)
  /-- FUSE_PROGRAM_SLOT (R343): FUSE.PROG_CMD op 2 programs a key slot. -/
  | fuseProgramSlot (unlock : W32) (slot : BitVec 2)
  /-- FUSE_REVOKE_SLOT (R343): FUSE.PROG_CMD op 3 revokes a key slot. -/
  | fuseRevokeSlot (unlock : W32) (slot : BitVec 2)
  /-- FUSE_PROG_COMPLETE (R343): Fuse blowing ends with read-back, possibly error 5 and a FUSE_PROG record. -/
  | fuseProgComplete (failed : Option Nat)
  /-- ANNOUNCE_TIMER (R349): In recovery or hold the ROM broadcasts ANNOUNCE every second. -/
  | announceTimer
  /-- ANNOUNCE_FRAME (R422): In run the firmware answers a received ANNOUNCE with one ANNOUNCE. -/
  | announceFrame (src : Ether) (seq : W16)
  /-- DATA_FRAME (R350): A DATA frame writes the load buffer and is answered by ACK. -/
  | dataFrame (src : Ether) (seq : W16) (offset : W32) (data : List Byte)
  /-- LOAD_FRAME (R350): A LOAD frame runs a load from the buffer or the NVM and answers RESULT. -/
  | loadFrame (src : Ether) (seq : W16) (offset : W32) (reads : List (List Byte))
  /-- ATTEST (R353): An attestation request returns a report signed with the alias key. -/
  | attest (src : Ether) (seq : W16) (nonce : BitVec 256)
  /-- CERT (R422): A CERT request returns the alias certificate. -/
  | cert (src : Ether) (seq : W16)
  /-- TELEMETRY (R422): A TELEMETRY request returns time, power, energy and temperatures. -/
  | telemetry (src : Ether) (seq : W16)
  /-- REG_READ (R422): A REG_READ frame returns a register read by the basecamp controller. -/
  | regRead (src : Ether) (seq : W16) (offset : W64)
  /-- REG_WRITE (R422): A REG_WRITE frame from the peer writes a register. -/
  | regWrite (src : Ether) (seq : W16) (offset value : W64)
  /-- CHAIN_READ (R422): A CHAIN_READ frame returns words of a readout chain. -/
  | chainRead (src : Ether) (seq : W16) (chain : W16) (first : W32)
  /-- ENTER (R354): ENTER starts a re-pitch and holds the compute field. -/
  | enter
  /-- REPITCH_FIELD_IDLE (R354): The field becomes idle and GL[11:0] enter load phase. -/
  | repitchFieldIdle
  /-- REPITCH_IDLE_TIMEOUT (R354): The field is not idle within 1 s and the hold is released with error 1. -/
  | repitchIdleTimeout
  /-- VERIFY (R356): VERIFY checks the flash image and reports verify_code. -/
  | verify (reads : List (List Byte))
  /-- LEAVE (R356): LEAVE returns GL[11:0] to run phase and releases the hold. -/
  | leave
  /-- REPITCH_TIME_LIMIT (R356): A re-pitch still in load phase 120 s after ENTER ends with error 3. -/
  | repitchTimeLimit
  /-- XSPI_READ (R336): BOOT.XSPI_CMD issues a flash read into the load buffer. -/
  | xspiRead (addrEn write : Bool) (length : BitVec 9) (address : W32)
  /-- XSPI_WRITE_ENABLE (R336): BOOT.XSPI_CMD issues Write Enable. -/
  | xspiWriteEnable (addrEn write : Bool) (length : BitVec 9) (address : W32)
  /-- XSPI_READ_STATUS (R336): BOOT.XSPI_CMD issues Read Status. -/
  | xspiReadStatus (addrEn write : Bool) (length : BitVec 9) (address : W32)
  /-- XSPI_PAGE_PROGRAM (R336): BOOT.XSPI_CMD issues a 4-byte Page Program from the load buffer. -/
  | xspiPageProgram (addrEn write : Bool) (length : BitVec 9) (address : W32)
  /-- XSPI_SECTOR_ERASE (R336): BOOT.XSPI_CMD issues a 64 KiB Sector Erase. -/
  | xspiSectorErase (addrEn write : Bool) (length : BitVec 9) (address : W32)
  /-- XSPI_COMMAND_COMPLETE (R355): An xSPI command finishes and xspi_busy clears. -/
  | xspiCommandComplete (data : List Byte)
  /-- BROWNOUT (R451): A rail below its brownout threshold for 1 µs raises a BROWNOUT reset. -/
  | brownout
  /-- PIN_RESET (R365): RESET_N, or PERST_N with perst_scope 1, held low raises a PIN reset. -/
  | pinReset (perst : Bool)
  /-- SOFTWARE_RESET (R364): Writing the key to RST.SW_RESET raises a SOFTWARE reset. -/
  | softwareReset (key : W32)
  /-- CLOCK_FAIL (R362): A clock monitor detects a fault and raises a CLOCK_FAIL reset. -/
  | clockFail (m : ClockMonitor)
  /-- RELEASE_CLOCK_TIMEOUT (R368): A domain's clocks fail to become stable within 2 ms and CLOCK_FAIL follows. -/
  | releaseClockTimeout
  /-- BASECAMP_LOCKUP (R371): The basecamp controller retires nothing for 1 s and a LOCKUP reset follows. -/
  | basecampLockup
  /-- MESH_DEADLOCK (R372): No mesh message sinks for 10 ms and a LOCKUP reset follows. -/
  | meshDeadlock
  /-- WATCHDOG (R373): The basecamp watchdog expires and a WATCHDOG reset follows. -/
  | watchdog
  /-- WDT_ENABLE (R373): A write to RST.WDT_CTRL sets limit and enable, ignored once enabled. -/
  | wdtEnable (enable : Bool) (limit : W32)
  /-- WDT_KICK (R373): Writing the kick key to RST.WDT_KICK restarts the watchdog count. -/
  | wdtKick (key : W32)
  /-- DOMAIN_RELEASE (R368): A domain is released once its gap, clocks and further condition hold. -/
  | domainRelease (gl : W32)
  /-- UNIT_RESET_COMMAND (R375): RESET written to RST.UNIT requests the unit to become idle. -/
  | unitResetCommand (u : UnitId)
  /-- UNIT_IDLE (R375): The unit becomes idle and its reset is applied. -/
  | unitIdle (u : UnitId)
  /-- UNIT_RESET_TIMEOUT (R375): RST.UNIT_TIMEOUT expires and the reset is forced. -/
  | unitResetTimeout (u : UnitId)
  /-- UNIT_RESET_HOLD_END (R376): The unit reset is released after 1,024 cycles and a UNIT_RESET record is written. -/
  | unitResetHoldEnd (u : UnitId)
  /-- UNIT_RELEASE (R375): RELEASE written to RST.UNIT starts a held host core at RST.CORE_VECTOR. -/
  | unitRelease (u : UnitId)
  /-- FAULT_RECORD (R394): The collector receives a record, numbers it and writes, holds or loses it. -/
  | faultRecord
  /-- FLT_COMMIT (R409): Writing FLT.COMMIT checks and applies the fault ring fields and flushes early records. -/
  | fltCommit
  /-- FAULT_PIN_CLEAR (R401): Writing 1 to FLT.STATUS.pin deasserts FAULT_N unless a condition still holds. -/
  | faultPinClear
  /-- FREEZE (R404): FREEZE_N sampled asserted stops every clock but BCLK and TCK. -/
  | freeze
  /-- FREEZE_KEY (R404): Writing the key to FRZ.CTRL enters the freeze. -/
  | freezeKey
  /-- CHAIN_DATA_READ (R407): A read of FRZ.CHAIN_DATA returns the selected word and advances the index. -/
  | chainDataRead
  /-- TIME_SET (R415): A write to TIME.SET steps station time forward or is refused. -/
  | timeSet (t : W64)
  /-- TIME_COMMIT (R414): Writing TIME.COMMIT checks and applies rate, slew and state request. -/
  | timeCommit
  /-- SLEW_COMPLETE (R410): The remaining slew reaches zero and the slew term stops. -/
  | slewComplete
  /-- HOLDOVER_TIMEOUT (R416): No commit for holdover_s seconds while LOCKED enters HOLDOVER. -/
  | holdoverTimeout
  /-- PPS_IN_EDGE (R417): An accepted PPS edge on GL[0] is stamped into TIME.PPS_IN. -/
  | ppsInEdge
  /-- PPS_OUT (R417): Station time crosses a whole second and GL[1] rises, falling 100 ms later. -/
  | ppsOut
  /-- TELEMETRY_SAMPLE (R418): Sensors and power monitors update once per ms and alerts are evaluated. -/
  | telemetrySample (temps : List W16) (power energy : W64)
  /-- SIDEBAND_FALLING_EDGE (R438): A falling edge on SBI0 or SBI1 sets its latch. -/
  | sidebandFallingEdge (i : Fin 2)
  /-- TIME_MARK (R440): Every mark_ms ms a time mark frame is queued on the trace port. -/
  | timeMark
  /-- TAP_RESET (R443): TRST_N resets the TAP and selects IDCODE. -/
  | tapReset
  /-- EXTEST (R444): Selects the boundary register for external test while RESET_N is low. -/
  | extest (resetLow : Bool)
  /-- SAMPLE_PRELOAD (R444): Samples or preloads the boundary register. -/
  | samplePreload (cells : List Bool)
  /-- IDCODE (R444): Selects the 32-bit IDCODE register. -/
  | idcode
  /-- HIGHZ (R445): Places outputs in high impedance while RESET_N is low. -/
  | highz (resetLow : Bool)
  /-- CLAMP (R445): Clamps outputs to boundary values while RESET_N is low. -/
  | clamp (resetLow : Bool)
  /-- EXTEST_PULSE (R444): IEEE 1149.6 pulse test on AC pairs. -/
  | extestPulse (resetLow : Bool)
  /-- EXTEST_TRAIN (R444): IEEE 1149.6 train test on AC pairs. -/
  | extestTrain (resetLow : Bool)
  /-- DEVRESET (R444): Raises a DEBUG reset at Update-IR. -/
  | devreset
  /-- FRZ_SEL (R446): Writes FRZ.CHAIN_SEL at Update-DR while frozen and allowed. -/
  | frzSel (chain : W16) (word : W32)
  /-- FRZ_READ (R446): Captures the selected chain word and advances the index. -/
  | frzRead
  /-- FRZ_LEN (R446): Captures FRZ.CHAIN_LEN. -/
  | frzLen
  /-- BYPASS (R444): Selects the bypass register. -/
  | bypass
  /-- VDD_AON_FALL (R451): A fall of VDD_AON below 0.700 V resets everything, including the cause latch, so the next rise records POR. -/
  | vddAonFall
  /-- REDUCE (R146): A REDUCE descriptor starts, takes its sequence number and opens its bucket, or completes at once with EMPTY or ABORTED_FAULT. -/
  | reduce (r : RingId) (idx : W32)
  /-- LANES_TRAINED (R284): A fabric port's lane training or retrain completes, and the port moves to HELLO exchange or resumes with its sequence numbers. -/
  | lanesTrained (p : PortId)
  /-- PCS_LOSS_OF_LOCK (R284): A loss of PCS lock, including a SerDes PLL loss of lock, makes the port retrain. -/
  | pcsLossOfLock (p : PortId) (pll : Bool)
  /-- NAK_REPEAT (R281): A receiver still waiting for the expected seq repeats its nak once per ack timeout. -/
  | nakRepeat (p : PortId)
  /-- PTP_FRAME (R421): The management MAC receives a PTP frame and stamps it with station time for the firmware's discipline. -/
  | ptpFrame (bytes : List Byte)
  /-- LINK_UP (R325): The endpoint or a root port link reaches L0, which sets link_up and lets work toward that link resume. -/
  | linkUp (p : Option RpId) (rate : BitVec 3) (width : BitVec 5)
  /-- PCIE_CONFIGURATION_REQUEST (R322): The endpoint receives a configuration request from the external host, which can change Bus Master Enable or MSI-X Enable. -/
  | pcieConfigurationRequest (q : ConfigRequest)
  /-- RP_READ_COMPLETION (R326): A completion for a root-port window load or configuration read arrives and returns its data, or all ones on UR or CA. -/
  | rpReadCompletion (p : RpId) (tag : BitVec 14) (st : CplStatus) (data : W64)
  /-- RP_ACCESS_TIMEOUT (R326): A root-port window load or configuration read gets no completion within 1 ms and returns all ones with an RP_ACCESS record. -/
  | rpAccessTimeout (p : RpId) (tag : BitVec 14)
  /-- RP_PERST_DEASSERT (R442): RP_PERST_N[p] is deasserted 100 ms after D8 release when the port is enabled. -/
  | rpPerstDeassert (p : RpId)
  /-- ROW_REPAIR_COMPLETE (R245): A soft repair finishes writing the spare row, releases the bank and clears repair_busy. -/
  | rowRepairComplete (h : HomeId)
  deriving DecidableEq, Repr

end Sys2Proof
end

