-- ==== Sys2Proof/Decode.lean ====
section
/-! DEFINITION. The command that a word spells by the bits of the table. The table of operations and events gives no row any bits. -/

namespace Sys2Proof

/-- The command of a word: none, as no row of the table has bits. DESIGN CHOICE: log entry 12. -/
def decodeTableWord (_nbits _w : Nat) : Option Instr := none

end Sys2Proof
end

