-- ==== Sys2Proof/Machine/KMap.lean ====
section
/-! DEFINITION. Sparse tables in one canonical form: a list of key and value pairs in rising rank, with
no entry equal to what an absent key reads as. Equal tables are then equal data. Byte strings as
little-endian numbers (R3). -/

namespace Sys2Proof

/-- What key `k` holds: its entry, or the default `d`. -/
def kget {κ β : Type} [DecidableEq κ] (d : β) : List (κ × β) → κ → β
  | [], _ => d
  | (k', v) :: m, k => if k' = k then v else kget d m k

/-- The table without the entry of key `k`. -/
def kdel {κ β : Type} [DecidableEq κ] : List (κ × β) → κ → List (κ × β)
  | [], _ => []
  | (k', v) :: m, k => if k' = k then kdel m k else (k', v) :: kdel m k

/-- Put an entry in its place by rank. -/
def kins {κ β : Type} (rank : κ → Nat) (k : κ) (v : β) : List (κ × β) → List (κ × β)
  | [] => [(k, v)]
  | (k', v') :: m => if rank k < rank k' then (k, v) :: (k', v') :: m else (k', v') :: kins rank k v m

/-- Set key `k` to `v`; a value equal to the default leaves no entry. -/
def kset {κ β : Type} [DecidableEq κ] [DecidableEq β] (rank : κ → Nat) (d : β) (m : List (κ × β)) (k : κ) (v : β) :
    List (κ × β) :=
  if v = d then kdel m k else kins rank k v (kdel m k)

/-- A table keyed by numbers. -/
abbrev NMap (β : Type) := List (Nat × β)

/-- Set an entry of a table keyed by numbers. -/
def nset {β : Type} [DecidableEq β] (d : β) (m : NMap β) (k : Nat) (v : β) : NMap β :=
  kset (fun n => n) d m k v

/-- The canonical form of a table keyed by numbers: keys strictly rising, and no entry at the default. -/
def NMap.wf {β : Type} [DecidableEq β] (d : β) (m : NMap β) : Bool :=
  decide ((m.map Prod.fst).Pairwise (· < ·)) && m.all (fun e => e.2 != d)

/-- Insert a number into a rising list without repeats. -/
def setIns (x : Nat) : List Nat → List Nat
  | [] => [x]
  | y :: l => if x < y then x :: y :: l else if x = y then y :: l else y :: setIns x l

/-- Remove a number from a list. -/
def setDel (x : Nat) (l : List Nat) : List Nat := l.filter (· != x)

/-- The byte string of a number, little-endian, `n` bytes (R3). -/
def leBytes : Nat → Nat → List (BitVec 8)
  | 0, _ => []
  | n + 1, v => BitVec.ofNat 8 v :: leBytes n (v / 256)

/-- The number that a little-endian byte string holds (R3). -/
def leNat : List (BitVec 8) → Nat
  | [] => 0
  | b :: l => b.toNat + 256 * leNat l

/-- Replace the first entry that `p` picks by `f` of it. -/
def modifyFirst {α : Type} (p : α → Bool) (f : α → α) : List α → List α
  | [] => []
  | x :: l => if p x then f x :: l else x :: modifyFirst p f l

/-- Take the first entry that `p` picks out of a list, leaving the rest in order. -/
def popFirst {α : Type} (p : α → Bool) : List α → Option (α × List α)
  | [] => none
  | x :: l => if p x then some (x, l) else (popFirst p l).map (fun r => (r.1, x :: r.2))

/-- Bits `lo + width - 1` down to `lo` of a number. -/
def bitsOf (v lo width : Nat) : Nat := v / 2 ^ lo % 2 ^ width

/-- Clamp a sum at the largest value of `width` bits (a counter that saturates). -/
def satAdd (width a b : Nat) : Nat := min (a + b) (2 ^ width - 1)

/-- The signed reading of a bit vector of `w` bits held in a number. -/
def sgn (w v : Nat) : Int := if v % 2 ^ w < 2 ^ (w - 1) then (v % 2 ^ w : Nat) else (v % 2 ^ w : Nat) - (2 ^ w : Nat)

end Sys2Proof
end

