-- ==== Sys2Proof/Machine/Numerics.lean ====
section
/-! DEFINITION. Numerics: the formats (R96, R97), rounding on a grid (R98, R99), the generator (R100 to R102), floating-point
arithmetic (R64), and conversions (R67 to R69, R103, R104). -/

namespace Sys2Proof.Machine

/-! ## Numbers -/

/-- The number of bits of a natural number. -/
def bitLen (m : Nat) : Nat := if m = 0 then 0 else Nat.log2 m + 1

/-- An exact value: ±m × 2^e with its sign kept for zero, an infinity, or NaN. -/
inductive Num where
  | nan
  | inf (neg : Bool)
  | fin (neg : Bool) (m : Nat) (e : Int)
  deriving DecidableEq, Repr

/-- Whether a value is a zero. -/
def Num.isZero : Num → Bool
  | .fin _ 0 _ => true
  | _ => false

/-- Whether a value is finite. -/
def Num.isFin : Num → Bool
  | .fin _ _ _ => true
  | _ => false

/-- The value times 2^k. -/
def Num.scale (k : Int) : Num → Num
  | .fin n m e => .fin n m (e + k)
  | x => x

/-- A signed value m × 2^e as a number; an exact zero takes the sign given. -/
def Num.ofInt (zeroNeg : Bool) (v : Int) (e : Int) : Num :=
  if v = 0 then .fin zeroNeg 0 e else .fin (v < 0) v.natAbs e

/-- The signed significand of a finite value brought to exponent `e`, which is not above its own. -/
def alignTo (neg : Bool) (m : Nat) (e' e : Int) : Int :=
  let v : Int := (m : Int) * 2 ^ (e' - e).toNat
  if neg then -v else v

/-! ## Formats (R96) -/

/-- A floating-point format: mantissa bits, exponent bits, bias; whether its exponent of all ones is for infinity and NaN alone
(IEEE), and its largest finite magnitude as a bit pattern. -/
structure FloatFmt where
  mbits : Nat
  ebits : Nat
  bias : Nat
  ieee : Bool
  maxBits : Nat
  deriving DecidableEq, Repr

/-- FP32. -/
def fp32 : FloatFmt := ⟨23, 8, 127, true, 0x7F7FFFFF⟩
/-- BF16. -/
def bf16 : FloatFmt := ⟨7, 8, 127, true, 0x7F7F⟩
/-- FP16. -/
def fp16 : FloatFmt := ⟨10, 5, 15, true, 0x7BFF⟩
/-- FP8 E4M3. -/
def e4m3 : FloatFmt := ⟨3, 4, 7, false, 0x7E⟩
/-- FP8 E5M2. -/
def e5m2 : FloatFmt := ⟨2, 5, 15, true, 0x7B⟩
/-- FP6 E3M2. -/
def e3m2 : FloatFmt := ⟨2, 3, 3, false, 0x1F⟩
/-- FP6 E2M3. -/
def e2m3 : FloatFmt := ⟨3, 2, 1, false, 0x1F⟩
/-- FP4 E2M1. -/
def e2m1 : FloatFmt := ⟨1, 2, 1, false, 0x7⟩

/-- The width of a format. -/
def FloatFmt.width (f : FloatFmt) : Nat := 1 + f.ebits + f.mbits

/-- The exponent of the least subnormal. -/
def FloatFmt.emin (f : FloatFmt) : Int := 1 - (f.bias : Int) - f.mbits

/-- The canonical quiet NaN that the device writes: R64 for the IEEE formats, R69 for FP8; +0 for FP6 and FP4, which have none. -/
def FloatFmt.nanBits (f : FloatFmt) : Nat :=
  if f.mbits = 3 ∧ f.ebits = 4 ∨ f.mbits = 2 ∧ f.ebits = 5 then 0x7F
  else if f.ieee then (2 ^ f.ebits - 1) * 2 ^ f.mbits + 2 ^ (f.mbits - 1)
  else 0

/-- The value of a bit pattern (R96). -/
def FloatFmt.decode (f : FloatFmt) (b : Nat) : Num :=
  let neg := bitsOf b (f.ebits + f.mbits) 1 == 1
  let x := bitsOf b f.mbits f.ebits
  let m := bitsOf b 0 f.mbits
  if f.ieee ∧ x = 2 ^ f.ebits - 1 then (if m = 0 then .inf neg else .nan)
  else if f.mbits = 3 ∧ f.ebits = 4 ∧ x = 15 ∧ m = 7 then .nan
  else if x = 0 then .fin neg m f.emin
  else .fin neg (m + 2 ^ f.mbits) (f.emin + (x : Int) - 1)

/-! ## Rounding (R98, R99) -/

/-- Round m × 2^e to a multiple of 2^q: the multiple, in mode 0 to nearest even, 1 toward zero, 2 toward −∞, 3 toward +∞, 4
stochastic with word `r`. -/
def roundAt (mode r : Nat) (neg : Bool) (m : Nat) (e q : Int) : Nat :=
  if q ≤ e then m * 2 ^ (e - q).toNat
  else
    let k0 := (q - e).toNat
    -- far below the grid every mode sees only a non-zero remainder below 2^-32 of a step
    let (m, k) := if bitLen m + 40 < k0 then (min m 1, 50) else (m, k0)
    let lo := m / 2 ^ k
    let rem := m % 2 ^ k
    if rem = 0 then lo
    else match mode with
      | 0 => if 2 * rem > 2 ^ k ∨ (2 * rem = 2 ^ k ∧ lo % 2 = 1) then lo + 1 else lo
      | 1 => lo
      | 2 => if neg then lo + 1 else lo
      | 3 => if neg then lo else lo + 1
      | _ => if r < rem * 2 ^ 32 / 2 ^ k then lo + 1 else lo

/-- A finite magnitude rounded to the grid of a format (R98): a multiple and its exponent, no upper bound on the exponent.
DEDUCED: log entry 19. -/
def FloatFmt.roundMag (f : FloatFmt) (mode r : Nat) (neg : Bool) (m : Nat) (e : Int) : Nat × Int :=
  let q := max f.emin (e + (bitLen m : Int) - 1 - f.mbits)
  (roundAt mode r neg m e q, q)

/-- Magnitude comparison: a × 2^p > b × 2^q. -/
def magGt (a : Nat) (p : Int) (b : Nat) (q : Int) : Bool :=
  let l := min p q
  b * 2 ^ (q - l).toNat < a * 2 ^ (p - l).toNat

/-- The largest finite magnitude of a format. -/
def FloatFmt.maxMag (f : FloatFmt) : Nat × Int :=
  match f.decode f.maxBits with
  | .fin _ m e => (m, e)
  | _ => (0, 0)

/-- The bit pattern of a magnitude on the grid and in range, without sign. -/
def FloatFmt.encodeMag (f : FloatFmt) (n : Nat) (q : Int) : Nat :=
  if n < 2 ^ f.mbits then n
  else if n = 2 ^ (f.mbits + 1) then ((q - f.emin).toNat + 2) * 2 ^ f.mbits
  else ((q - f.emin).toNat + 1) * 2 ^ f.mbits + (n - 2 ^ f.mbits)

/-- The sign bit of a format. -/
def FloatFmt.signBit (f : FloatFmt) (neg : Bool) : Nat := if neg then 2 ^ (f.ebits + f.mbits) else 0

/-- Infinity of a format with infinities. DEDUCED: log entry 19. -/
def FloatFmt.infBits (f : FloatFmt) : Nat := (2 ^ f.ebits - 1) * 2 ^ f.mbits

/-- A finite value rounded to a format: its pattern, or none where it lies beyond the largest finite magnitude.
DEDUCED: log entry 19. -/
def FloatFmt.roundFin (f : FloatFmt) (mode r : Nat) (neg : Bool) (m : Nat) (e : Int) : Option Nat :=
  let (n, q) := f.roundMag mode r neg m e
  if magGt n q f.maxMag.1 f.maxMag.2 then none else some (f.signBit neg + f.encodeMag n q)

/-- A result of floating-point arithmetic (R64, R98): NaN is canonical, and a rounded value beyond the largest finite magnitude
becomes infinite. DEDUCED: log entry 19. -/
def FloatFmt.result (f : FloatFmt) (mode : Nat) : Num → Nat
  | .nan => f.nanBits
  | .inf neg => f.signBit neg + f.infBits
  | .fin neg m e => (f.roundFin mode 0 neg m e).getD (f.signBit neg + f.infBits)

/-! ## Exact arithmetic (R64) -/

/-- The exact sum; an exact zero sum of unlike signs is +0, or −0 in mode 2. -/
def Num.add (mode : Nat) (a b : Num) : Num :=
  match a, b with
  | .nan, _ => .nan
  | _, .nan => .nan
  | .inf x, .inf y => if x = y then .inf x else .nan
  | .inf x, _ => .inf x
  | _, .inf y => .inf y
  | .fin x m e, .fin y n g =>
    let l := min e g
    Num.ofInt (if x = y then x else mode == 2) (alignTo x m e l + alignTo y n g l) l

/-- The value with its sign changed. -/
def Num.neg : Num → Num
  | .nan => .nan
  | .inf x => .inf (!x)
  | .fin x m e => .fin (!x) m e

/-- The exact product. -/
def Num.mul (a b : Num) : Num :=
  match a, b with
  | .nan, _ => .nan
  | _, .nan => .nan
  | .inf x, .inf y => .inf (x != y)
  | .inf x, .fin y m _ => if m = 0 then .nan else .inf (x != y)
  | .fin x m _, .inf y => if m = 0 then .nan else .inf (x != y)
  | .fin x m e, .fin y n g => .fin (x != y) (m * n) (e + g)

/-- The order of two values that are not NaN, −0 below +0: less. -/
def Num.lt (a b : Num) : Bool :=
  match a, b with
  | .inf x, .inf y => x && !y
  | .inf x, _ => x
  | _, .inf y => !y
  | .fin x m e, .fin y n g =>
    let l := min e g
    let u := alignTo x m e l
    let v := alignTo y n g l
    u < v || (u == v && x && !y)
  | _, _ => false

/-- Numeric equality of two values that are not NaN; −0 equals +0. -/
def Num.eq (a b : Num) : Bool :=
  match a, b with
  | .inf x, .inf y => x == y
  | .fin x m e, .fin y n g => let l := min e g; alignTo x m e l == alignTo y n g l
  | _, _ => false

/-- The larger of two values (R64): the numeric operand where one is NaN. -/
def Num.max (a b : Num) : Num :=
  match a, b with
  | .nan, y => y
  | x, .nan => x
  | x, y => if Num.lt x y then y else x

/-- The smaller of two values (R64). -/
def Num.min (a b : Num) : Num :=
  match a, b with
  | .nan, y => y
  | x, .nan => x
  | x, y => if Num.lt y x then y else x

/-- A value just off m × 2^e where it is inexact: one bit below decides every rounding. -/
def sticky (neg : Bool) (m : Nat) (e : Int) (inexact : Bool) : Num :=
  .fin neg (2 * m + (if inexact then 1 else 0)) (e - 1)

/-- The reciprocal (R64), as a value that rounds as the exact one does. DEDUCED: log entry 20. -/
def Num.rcp : Num → Num
  | .nan => .nan
  | .inf x => .fin x 0 0
  | .fin x m e =>
    if m = 0 then .inf x
    else
      let k := bitLen m + 64
      sticky x (2 ^ k / m) (-(k : Int) - e) (2 ^ k % m != 0)

/-- The integer square root, one bit of the root at a time. -/
def isqrtBits (v : Nat) : Nat → Nat → Nat
  | 0, r => r
  | n + 1, r => isqrtBits v n (if (r + 2 ^ n) * (r + 2 ^ n) ≤ v then r + 2 ^ n else r)

/-- The integer square root of a number below 4^`n`. -/
def isqrt (n v : Nat) : Nat := isqrtBits v n 0

/-- The reciprocal square root (R64). DEDUCED: log entry 20. -/
def Num.rsqrt : Num → Num
  | .nan => .nan
  | .inf x => if x then .nan else .fin false 0 0
  | .fin x m e =>
    if m = 0 then .inf x
    else if x then .nan
    else
      let (m, e) := if e % 2 = 0 then (m, e) else (2 * m, e - 1)
      let r := isqrt 65 (2 ^ 128 / m)
      sticky false r (-(64 : Int) - e / 2) (r * r * m != 2 ^ 128)

/-- The quotient (R64), as a value that rounds as the exact one does. -/
def Num.div (a b : Num) : Num :=
  match a, b with
  | .nan, _ => .nan
  | _, .nan => .nan
  | .inf _, .inf _ => .nan
  | .inf x, .fin y _ _ => .inf (x != y)
  | .fin x _ _, .inf y => .fin (x != y) 0 0
  | .fin x m e, .fin y n g =>
    if n = 0 then (if m = 0 then .nan else .inf (x != y))
    else if m = 0 then .fin (x != y) 0 0
    else
      let k := bitLen n + 64
      sticky (x != y) (m * 2 ^ k / n) (e - g - k) (m * 2 ^ k % n != 0)

/-- The square root (R64) of a value of at most 32 significant bits, as a value that rounds as the exact one does. -/
def Num.sqrt : Num → Num
  | .nan => .nan
  | .inf x => if x then .nan else .inf false
  | .fin x m e =>
    if m = 0 then .fin x 0 0
    else if x then .nan
    else
      let (m, e) := if e % 2 = 0 then (m, e) else (2 * m, e - 1)
      let r := isqrt 84 (m * 2 ^ 128)
      sticky false r (e / 2 - 64) (r * r != m * 2 ^ 128)

/-- The constants 2^(2^-i), i = 1, 2, …, as fixed point with 128 fraction bits, `n` of them. -/
def exp2Consts : Nat → Nat → List Nat
  | 0, _ => []
  | n + 1, c => let d := isqrt 130 (c * 2 ^ 128); d :: exp2Consts n d

/-- 2^(f / 2^53) as fixed point with 128 fraction bits. DEDUCED: log entry 20. -/
def exp2Frac (f : Nat) : Nat :=
  ((exp2Consts 53 (2 ^ 129)).zipIdx).foldl (fun p c => if f.testBit (52 - c.2) then p * c.1 / 2 ^ 128 else p) (2 ^ 128)

/-- 2^a (R64): exact for an integer a; otherwise a value that rounds as the exact one does. DEDUCED: log entry 20. -/
def Num.exp2 : Num → Num
  | .nan => .nan
  | .inf x => if x then .fin false 0 0 else .inf false
  | .fin x m e =>
    if m = 0 then .fin false 1 0
    else if e + (bitLen m : Int) < -29 then
      (if x then .fin false (2 ^ 60 - 1) (-60) else .fin false (2 ^ 60 + 1) (-60))
    else if e + (bitLen m : Int) > 20 then
      (if x then sticky false 1 (-(2 ^ 20 : Int)) true else sticky false 1 (2 ^ 20) true)
    else
      -- the exponent of an FP32 value of at least 2^-30 is at least -53
      let v := alignTo x m e (-53)
      let i := v.fdiv (2 ^ 53)
      let f := (v - i * 2 ^ 53).toNat
      if f = 0 then .fin false 1 i else sticky false (exp2Frac f) (i - 128) true

/-- Fraction bits of log2 of y / 2^320, y in [2^320, 2^321): `n` of them, by repeated squaring. DEDUCED: log entry 20. -/
def log2Bits : Nat → Nat → Nat → Nat
  | 0, _, acc => acc
  | n + 1, y, acc =>
    let z := y * y / 2 ^ 320
    if 2 ^ 321 ≤ z then log2Bits n (z / 2) (2 * acc + 1) else log2Bits n z (2 * acc)

/-- log2 of a (R64): exact for a power of two; otherwise a value that rounds as the exact one does. DEDUCED: log entry 20. -/
def Num.log2 : Num → Num
  | .nan => .nan
  | .inf x => if x then .nan else .inf false
  | .fin x m e =>
    if m = 0 then .inf true
    else if x then .nan
    else
      let n := bitLen m - 1
      let i : Int := e + n
      if m = 2 ^ n then Num.ofInt false i 0
      else
        let v : Int := i * 2 ^ 110 + (log2Bits 110 (m * 2 ^ (320 - n)) 0 : Nat)
        if 0 ≤ v then sticky false v.toNat (-110) true else sticky true (-v - 1).toNat (-110) true

/-! ## The generator (R100) -/

/-- One round of Philox4x32 on a counter and a key. -/
def philoxRound (c : Nat × Nat × Nat × Nat) (k : Nat × Nat) : Nat × Nat × Nat × Nat :=
  let p0 := 0xD2511F53 * c.1
  let p1 := 0xCD9E8D57 * c.2.2.1
  (bitsOf p1 32 32 ^^^ c.2.1 ^^^ k.1, bitsOf p1 0 32, bitsOf p0 32 32 ^^^ c.2.2.2 ^^^ k.2, bitsOf p0 0 32)

/-- `n` rounds. -/
def philoxRounds : Nat → Nat × Nat × Nat × Nat → Nat × Nat → Nat × Nat × Nat × Nat
  | 0, c, _ => c
  | n + 1, c, k => philoxRounds n (philoxRound c k) ((k.1 + 0x9E3779B9) % 2 ^ 32, (k.2 + 0xBB67AE85) % 2 ^ 32)

/-- Word `i` of the Philox4x32-10 output. -/
def philox (c : Nat × Nat × Nat × Nat) (k : Nat × Nat) (i : Nat) : Nat :=
  let o := philoxRounds 10 c k
  match i with | 0 => o.1 | 1 => o.2.1 | 2 => o.2.2.1 | _ => o.2.2.2

/-- The word of element index `n` for stochastic rounding by VCVT and DRAIN (R101). -/
def srWord (srKey : W64) (tile n : Nat) : Nat :=
  let n := n % 2 ^ 64
  philox (bitsOf (n / 4) 0 32, bitsOf (n / 4) 32 32, tile, 0x53520000)
    (bitsOf srKey.toNat 0 32, bitsOf srKey.toNat 32 32) (n % 4)

/-- The word of a stochastic set addition (R102): chunk, the entry before the addition, f of the hand-off value. -/
def setWord (srKey : W64) (tile chunk entry f : Nat) : Nat :=
  philox (chunk % 2 ^ 32, entry, f, (0x4C530000 + tile) % 2 ^ 32)
    (bitsOf srKey.toNat 0 32, bitsOf srKey.toNat 32 32) 0

/-! ## Format codes (R53) -/

/-- The floating-point element format of a code, MX formats included. -/
def floatOf : Nat → Option FloatFmt
  | 0 => some fp32
  | 1 => some bf16
  | 2 => some fp16
  | 3 => some e4m3
  | 4 => some e5m2
  | 5 => some e3m2
  | 6 => some e2m3
  | 7 => some e2m1
  | 10 => some e4m3
  | 11 => some e5m2
  | 12 => some e3m2
  | 13 => some e2m3
  | 14 => some e2m1
  | 15 => some bf16
  | _ => none

/-- The code is an MX format. -/
def isMx (c : Nat) : Bool := 10 ≤ c && c ≤ 14

/-- Bits of an element in a register or container: FP6 in 8-bit containers. -/
def elemBits (c : Nat) : Nat :=
  match c with
  | 0 => 32 | 9 => 32 | 1 => 16 | 2 => 16 | 15 => 16 | 7 => 4 | 14 => 4 | _ => 8

/-- The value of an element's bits in a format of R53. -/
def decodeElem (c b : Nat) : Num :=
  match floatOf c with
  | some f => f.decode (b % 2 ^ f.width)
  | none => if c = 8 then Num.ofInt false (sgn 8 b) 0 else Num.ofInt false (sgn 32 b) 0

/-- The largest power of two at or below the largest element (R104). -/
def emaxOf : Nat → Int
  | 10 => 8 | 11 => 15 | 12 => 4 | 13 => 2 | _ => 2

/-! ## Conversions (R69, R103, R104) -/

/-- What a conversion counts besides the element (R114). -/
inductive HealthEvent where
  | none | zero | saturation | nonfinite
  deriving DecidableEq, Repr

/-- A finite value rounded to an integer format: the value clamped, and whether it was. -/
def roundInt (bits mode r : Nat) (neg : Bool) (m : Nat) (e : Int) : Nat × Bool :=
  let n := roundAt mode r neg m e 0
  let v : Int := if neg then -(n : Int) else n
  let hi : Int := 2 ^ (bits - 1) - 1
  let lo : Int := -(2 ^ (bits - 1) : Int)
  let c := Max.max lo (Min.min hi v)
  ((c % (2 ^ bits : Int)).toNat, c != v)

/-- Convert one value to the format of a code (R69, R103): its bits and what is counted (R114). A finite MX element beyond range
becomes the largest finite magnitude whatever `sat`, and counts nothing; infinities and NaN go by the element format (R104). -/
def convert (c mode r : Nat) (sat : Bool) (v : Num) : Nat × HealthEvent :=
  let zeroed (b : Nat) (mask : Nat) (m : Nat) : HealthEvent := if m ≠ 0 ∧ b % mask = 0 then .zero else .none
  match floatOf c with
  | none =>
    let bits := if c = 8 then 8 else 32
    (match v with
    | .nan => (0, .nonfinite)
    | .inf _ => (0, .nonfinite)
    | .fin neg m e =>
      let (b, cl) := roundInt bits mode r neg m e
      (b, if cl then .saturation else if m ≠ 0 ∧ b = 0 then .zero else .none))
  | some f =>
    match v with
    | .nan => (f.nanBits, .nonfinite)
    | .inf neg =>
      (if f.ieee then f.signBit neg + f.infBits
       else if f.ebits = 4 then (if sat then f.signBit neg + f.maxBits else 0x7F)
       else f.signBit neg + f.maxBits, .nonfinite)
    | .fin neg m e =>
      match f.roundFin mode r neg m e with
      | some b => (b, zeroed b (2 ^ (f.ebits + f.mbits)) m)
      | none =>
        (if sat || isMx c || (!f.ieee && f.ebits != 4) then f.signBit neg + f.maxBits
         else if f.ieee then f.signBit neg + f.infBits
         else 0x7F, if isMx c then .none else .saturation)

/-- floor(log2) of a finite non-zero magnitude. -/
def floorLog2 (m : Nat) (e : Int) : Int := e + (bitLen m : Int) - 1

/-- The scale code of a block of values for an MX format (R104). -/
def mxScale (c : Nat) (vs : List Num) : Nat :=
  if vs.any (fun v => !v.isFin) then 0xFF
  else
    match vs.filterMap (fun v => match v with | .fin _ m e => if m = 0 then none else some (floorLog2 m e) | _ => none) with
    | [] => 0x7F
    | x :: l => (Max.max 0 (Min.min 254 (l.foldl Max.max x - emaxOf c + 127))).toNat

/-- The factor exponent that elements of a block with a scale code take before rounding (R104). -/
def mxFactor (code : Nat) : Int := if code = 0xFF then 0 else 127 - (code : Int)

/-- The value of an MX element under its block's scale (R97). -/
def mxValue (code : Nat) (v : Num) : Num := if code = 0xFF then .nan else v.scale ((code : Int) - 127)

end Sys2Proof.Machine
end

