-- ==== Sys2Proof/Config.lean ====
section
/-! DEFINITION. What the manual leaves open: values that an implementation fixes or that no rule states. Each is an opaque
constant: no proof can see its value, and a claim holds whatever it is. -/

namespace Sys2Proof

/-- A free value: the n-th that a run takes. Where the manual states that a value results and not which, the machine takes the next one.
DESIGN CHOICE: log entry 9. -/
opaque Config.freeValue : Nat → BitVec 512

/-- The fixed hash of a line address that chooses a directory set (R268), used modulo 8,192. DESIGN CHOICE: log entry 10. -/
opaque Config.dirHash : Nat → Nat

/-- The ingress port of a home at which requests of a unit arrive: home, unit kind, unit index, used modulo 8 (R258).
DESIGN CHOICE: log entries 10, 62. -/
opaque Config.ingressPort : Nat → Nat → Nat → Nat

/-- The line that a core with a full cache evicts for a new one: core, new line; an index used modulo the lines held (R16).
DESIGN CHOICE: log entries 10, 64. -/
opaque Config.l2Victim : Nat → Nat → Nat

/-- The L1 cache that takes a shared line which a core fills: true the instruction cache, where the access was a fetch (R308).
DESIGN CHOICE, PRESUMED: log entries 10, 127. -/
opaque Config.l1Fetch : Nat → Bool

/-- The line that a full L1 cache gives up for a new one: an index used modulo the lines held (R308).
DESIGN CHOICE, PRESUMED: log entries 10, 127. -/
opaque Config.l1Victim : Nat → Nat

/-- The content of the boot ROM, by byte (R333). DESIGN CHOICE: log entries 10, 120. -/
opaque Config.romByte : Nat → Byte

/-- The DRAM row that holds a line of a home agent, from the home and the line's unit in its channel (R232, R245).
DESIGN CHOICE: log entry 10. -/
opaque Config.dramRow : Nat → Nat → Nat

/-- The bank that holds a DRAM row of a home agent (R245). DESIGN CHOICE: log entry 10. -/
opaque Config.bankOfRow : Nat → Nat → Nat

/-- The spare rows of a bank beyond the first. DESIGN CHOICE: log entry 10. -/
opaque Config.spareRows : Nat

/-- The spare rows of a bank: at least one, as R245 has the repair write to "the spare row" (R246). DESIGN CHOICE: log entry 10. -/
def Config.sparesPerBank : Nat := Config.spareRows + 1

/-- The payload of a management packet, by its type and a number that tells its content apart: no rule states its layout (R286).
DESIGN CHOICE: log entry 10. -/
opaque Config.mgmtBytes : Nat → Nat → List Byte

/-- The trim IDs that exist (R344): the manual lists none. DESIGN CHOICE: log entry 10. -/
opaque Config.trimKnown : W32 → Bool

/-- The bank that a MEM_REPAIR entry names, of a home: pseudo-channel or channel, bank, rank (R338). DESIGN CHOICE: log entry 10. -/
opaque Config.repairBank : Nat → Nat → Nat → Nat → Nat

/-- What reads of the configuration flash return, where a command that reads it does not say: a function of a free-value counter (R356).
DESIGN CHOICE: log entry 10. -/
opaque Config.flash : Nat → List (List Byte)

/-- How far an xSPI command has come at a station time: an index, used modulo its length, of a clock edge (R437).
DESIGN CHOICE: log entries 10, 128. -/
opaque Config.xspiEdge : Nat → Nat

/-- The level that the board drives on a guyline pin at a station time, where the device does not drive it (R438, R439).
DESIGN CHOICE, DEDUCED: log entries 10, 98. -/
opaque Config.pinLevel : Nat → Nat → Bool

end Sys2Proof
end

