-- ==== Sys2Proof/Machine/Regs.lean ====
section
/-! DEFINITION. The registers of the HW2, from the register tables of the manual's chapters: one
constructor of `Reg` per register (its block instance and its array indices are its arguments), the
field table with bits, access code and reset value (R7, R10, R11), the local offset (R5, R254), and
the register found at a slot of the local map. -/

namespace Sys2Proof

/-- A register of the device, named as the manual names it (BLOCK.NAME), with its instance and array indices. -/
inductive Reg where
  | tileId (n : Nat)  -- TILE.ID (02)
  | tileCtrl (n : Nat)  -- TILE.CTRL (02)
  | tileStatus (n : Nat)  -- TILE.STATUS (02)
  | tileFault (n : Nat)  -- TILE.FAULT (02)
  | tileSramCeCount (n : Nat)  -- TILE.SRAM_CE_COUNT (02)
  | tileArrayStall (n : Nat)  -- TILE.ARRAY_STALL (02)
  | tileHealthTag (n k : Nat)  -- TILE.HEALTH_TAG (02)
  | tileHealthCnt (n k c : Nat)  -- TILE.HEALTH_CNT (02)
  | seqCtrl (n : Nat)  -- SEQ.CTRL (02)
  | seqEntry (n : Nat)  -- SEQ.ENTRY (02)
  | seqStatus (n : Nat)  -- SEQ.STATUS (02)
  | seqWatchdog (n : Nat)  -- SEQ.WATCHDOG (02)
  | maRowMask (n m : Nat)  -- MA.ROW_MASK (02)
  | maColMask (n m : Nat)  -- MA.COL_MASK (02)
  | maRepair (n m : Nat)  -- MA.REPAIR (02)
  | maStatus (n m : Nat)  -- MA.STATUS (02)
  | maPassCount (n m : Nat)  -- MA.PASS_COUNT (02)
  | maCheckFail (n m : Nat)  -- MA.CHECK_FAIL (02)
  | tileMap (n : Nat)  -- TILE.MAP (02)
  | tileMapStatus  -- TILE.MAP_STATUS (02)
  | vecSrKey (n : Nat)  -- VEC.SR_KEY (03)
  | vecSrIndex (n : Nat)  -- VEC.SR_INDEX (03)
  | vecRetired (n : Nat)  -- VEC.RETIRED (03)
  | vecVregSel (n : Nat)  -- VEC.VREG_SEL (03)
  | vecSreg (n k : Nat)  -- VEC.SREG (03)
  | vecPreg (n k w : Nat)  -- VEC.PREG (03)
  | vecVregData (n w : Nat)  -- VEC.VREG_DATA (03)
  | agenSetup (n a w : Nat)  -- AGEN.SETUP (04)
  | agenStatus (n a : Nat)  -- AGEN.STATUS (04)
  | agenSlices (n a : Nat)  -- AGEN.SLICES (04)
  | agenBlocks (n a : Nat)  -- AGEN.BLOCKS (04)
  | agenHits (n a : Nat)  -- AGEN.HITS (04)
  | agenHolds (n a : Nat)  -- AGEN.HOLDS (04)
  | redGovBase  -- RED.GOV_BASE (05)
  | redGovCtrl  -- RED.GOV_CTRL (05)
  | redGovThresh  -- RED.GOV_THRESH (05)
  | redGovCommit  -- RED.GOV_COMMIT (05)
  | redGovStatus  -- RED.GOV_STATUS (05)
  | pipeStashCfg  -- PIPE.STASH_CFG (06)
  | pipeStashHbmBase  -- PIPE.STASH_HBM_BASE (06)
  | pipeStashHbmSize  -- PIPE.STASH_HBM_SIZE (06)
  | pipeStashLpBase  -- PIPE.STASH_LP_BASE (06)
  | pipeStashLpSize  -- PIPE.STASH_LP_SIZE (06)
  | pipeStashCommit  -- PIPE.STASH_COMMIT (06)
  | pipeStashStatus  -- PIPE.STASH_STATUS (06)
  | pipeStashUsed  -- PIPE.STASH_USED (06)
  | pipeStashSpills  -- PIPE.STASH_SPILLS (06)
  | pipeStashSwitches  -- PIPE.STASH_SWITCHES (06)
  | pipeStashHolds  -- PIPE.STASH_HOLDS (06)
  | pipeStashBlock (b : Nat)  -- PIPE.STASH_BLOCK (06)
  | redBuckets  -- RED.BUCKETS (07)
  | redChecked  -- RED.CHECKED (07)
  | redMismatch  -- RED.MISMATCH (07)
  | redNonfinite  -- RED.NONFINITE (07)
  | redEarly  -- RED.EARLY (07)
  | redDiscarded  -- RED.DISCARDED (07)
  | redPortTakes  -- RED.PORT_TAKES (07)
  | redJobCfg (j : Nat)  -- RED.JOB_CFG (07)
  | redJobCommit (j : Nat)  -- RED.JOB_COMMIT (07)
  | redJobStatus (j : Nat)  -- RED.JOB_STATUS (07)
  | redJobEarly (j : Nat)  -- RED.JOB_EARLY (07)
  | stateCtrl  -- STATE.CTRL (08)
  | stateShardBase  -- STATE.SHARD_BASE (08)
  | statePoolBase  -- STATE.POOL_BASE (08)
  | statePoolSize  -- STATE.POOL_SIZE (08)
  | stateCommit  -- STATE.COMMIT (08)
  | stateStatus  -- STATE.STATUS (08)
  | stateUpdates  -- STATE.UPDATES (08)
  | stateMisses  -- STATE.MISSES (08)
  | stateWaits  -- STATE.WAITS (08)
  | stateErrors  -- STATE.ERRORS (08)
  | stateDigestMismatch  -- STATE.DIGEST_MISMATCH (08)
  | stateMap (j : Nat)  -- STATE.MAP (08)
  | pipeCfg  -- PIPE.CFG (09)
  | pipeLenLimit  -- PIPE.LEN_LIMIT (09)
  | pipeLenWeight  -- PIPE.LEN_WEIGHT (09)
  | pipeCommit  -- PIPE.COMMIT (09)
  | pipeStatus  -- PIPE.STATUS (09)
  | pipeStep  -- PIPE.STEP (09)
  | pipeProgress  -- PIPE.PROGRESS (09)
  | pipeBubble  -- PIPE.BUBBLE (09)
  | pipeLong  -- PIPE.LONG (09)
  | pipeTasks  -- PIPE.TASKS (09)
  | pipeSteps  -- PIPE.STEPS (09)
  | pipeGroup (g w : Nat)  -- PIPE.GROUP (09)
  | pipeBlock (b : Nat)  -- PIPE.BLOCK (09)
  | ringBase (r : Nat)  -- RING.BASE (10)
  | ringSize (r : Nat)  -- RING.SIZE (10)
  | ringJournalBase (r : Nat)  -- RING.JOURNAL_BASE (10)
  | ringCfg (r : Nat)  -- RING.CFG (10)
  | ringCommit (r : Nat)  -- RING.COMMIT (10)
  | ringCtrl (r : Nat)  -- RING.CTRL (10)
  | ringDoorbell (r : Nat)  -- RING.DOORBELL (10)
  | ringHead (r : Nat)  -- RING.HEAD (10)
  | ringTail (r : Nat)  -- RING.TAIL (10)
  | ringJournalTail (r : Nat)  -- RING.JOURNAL_TAIL (10)
  | ringJournalHead (r : Nat)  -- RING.JOURNAL_HEAD (10)
  | ringStatus (r : Nat)  -- RING.STATUS (10)
  | ringStats (r : Nat)  -- RING.STATS (10)
  | ringJournalWaits (r : Nat)  -- RING.JOURNAL_WAITS (10)
  | pegValue (p : Nat)  -- PEG.VALUE (10)
  | pegAdd (p : Nat)  -- PEG.ADD (10)
  | pegMirror (p : Nat)  -- PEG.MIRROR (10)
  | pegWaiters (p : Nat)  -- PEG.WAITERS (10)
  | pipePrioWeight  -- PIPE.PRIO_WEIGHT (10)
  | pipeAgeLimit  -- PIPE.AGE_LIMIT (10)
  | pipeAdmitCommit  -- PIPE.ADMIT_COMMIT (10)
  | pipeTracker  -- PIPE.TRACKER (10)
  | hbmcStatus (i : Nat)  -- HBMC.STATUS (11)
  | hbmcCeCount (i : Nat)  -- HBMC.CE_COUNT (11)
  | hbmcUeCount (i : Nat)  -- HBMC.UE_COUNT (11)
  | hbmcStackEcs (i : Nat)  -- HBMC.STACK_ECS (11)
  | hbmcScrubCfg (i : Nat)  -- HBMC.SCRUB_CFG (11)
  | hbmcScrubStatus (i : Nat)  -- HBMC.SCRUB_STATUS (11)
  | hbmcRepairCfg (i : Nat)  -- HBMC.REPAIR_CFG (11)
  | hbmcRepairStatus (i : Nat)  -- HBMC.REPAIR_STATUS (11)
  | hbmcCommit (i : Nat)  -- HBMC.COMMIT (11)
  | lpmcPop (q : Nat)  -- LPMC.POP (11)
  | hbmcHbmSize  -- HBMC.HBM_SIZE (11)
  | hbmcLpSize  -- HBMC.LP_SIZE (11)
  | homeId (h : Nat)  -- HOME.ID (12)
  | homeStatus (h : Nat)  -- HOME.STATUS (12)
  | homeSnoops (h : Nat)  -- HOME.SNOOPS (12)
  | homeC2c (h : Nat)  -- HOME.C2C (12)
  | homeHoldWaits (h : Nat)  -- HOME.HOLD_WAITS (12)
  | homeSlcHits (h : Nat)  -- HOME.SLC_HITS (12)
  | homeSlcMisses (h : Nat)  -- HOME.SLC_MISSES (12)
  | homeBiasDenied (h : Nat)  -- HOME.BIAS_DENIED (12)
  | dirOccupancy (h : Nat)  -- DIR.OCCUPANCY (12)
  | dirEvictions (h : Nat)  -- DIR.EVICTIONS (12)
  | dirRetry (h : Nat)  -- DIR.RETRY (12)
  | homeBiasCmd  -- HOME.BIAS_CMD (12)
  | homeBiasCommit  -- HOME.BIAS_COMMIT (12)
  | homeBiasStatus  -- HOME.BIAS_STATUS (12)
  | homeAddrFaults  -- HOME.ADDR_FAULTS (12)
  | homeBiasMap (w : Nat)  -- HOME.BIAS_MAP (12)
  | fabPortCfg (p : Nat)  -- FAB.PORT_CFG (13)
  | fabPortCommit (p : Nat)  -- FAB.PORT_COMMIT (13)
  | fabPortStatus (p : Nat)  -- FAB.PORT_STATUS (13)
  | fabPortPeer (p : Nat)  -- FAB.PORT_PEER (13)
  | fabPortFec (p : Nat)  -- FAB.PORT_FEC (13)
  | fabPortLink (p : Nat)  -- FAB.PORT_LINK (13)
  | fabPortEvents (p : Nat)  -- FAB.PORT_EVENTS (13)
  | fabPortFlits (p : Nat)  -- FAB.PORT_FLITS (13)
  | fabId  -- FAB.ID (13)
  | fabStatus  -- FAB.STATUS (13)
  | fabRoot  -- FAB.ROOT (13)
  | fabCfg  -- FAB.CFG (13)
  | fabVcShare  -- FAB.VC_SHARE (13)
  | fabInbound  -- FAB.INBOUND (13)
  | fabCommit  -- FAB.COMMIT (13)
  | fabDiscCtrl  -- FAB.DISC_CTRL (13)
  | fabDrops  -- FAB.DROPS (13)
  | fabEvents  -- FAB.EVENTS (13)
  | fabRouteCommit  -- FAB.ROUTE_COMMIT (13)
  | fabRoutePrimary (d : Nat)  -- FAB.ROUTE_PRIMARY (13)
  | fabRouteAlternative (d : Nat)  -- FAB.ROUTE_ALTERNATIVE (13)
  | pcieEpCfg  -- PCIE.EP_CFG (14)
  | pcieEpCommit  -- PCIE.EP_COMMIT (14)
  | pcieEpStatus  -- PCIE.EP_STATUS (14)
  | pcieEpEvents  -- PCIE.EP_EVENTS (14)
  | pcieRpCfg (p : Nat)  -- PCIE.RP_CFG (14)
  | pcieRpCommit (p : Nat)  -- PCIE.RP_COMMIT (14)
  | pcieRpStatus (p : Nat)  -- PCIE.RP_STATUS (14)
  | pcieRpWin (p : Nat)  -- PCIE.RP_WIN (14)
  | pcieRpCfgAddr (p : Nat)  -- PCIE.RP_CFG_ADDR (14)
  | pcieRpCfgData (p : Nat)  -- PCIE.RP_CFG_DATA (14)
  | pcieRpEvents (p : Nat)  -- PCIE.RP_EVENTS (14)
  | awnBase  -- AWN.BASE (14)
  | awnCommit  -- AWN.COMMIT (14)
  | awnStatus  -- AWN.STATUS (14)
  | dplCommit  -- DPL.COMMIT (14)
  | dplStatus  -- DPL.STATUS (14)
  | dplDenied  -- DPL.DENIED (14)
  | dplRegionBase (i : Nat)  -- DPL.REGION_BASE (14)
  | dplRegionAttr (i : Nat)  -- DPL.REGION_ATTR (14)
  | dplRegionKey (i : Nat)  -- DPL.REGION_KEY (14)
  | fusePart  -- FUSE.PART (15)
  | fuseSerial  -- FUSE.SERIAL (15)
  | fuseRollback  -- FUSE.ROLLBACK (15)
  | fuseKeyState  -- FUSE.KEY_STATE (15)
  | fuseKeyHash (s w : Nat)  -- FUSE.KEY_HASH (15)
  | fuseProgData (w : Nat)  -- FUSE.PROG_DATA (15)
  | fuseProgCmd  -- FUSE.PROG_CMD (15)
  | fuseProgStatus  -- FUSE.PROG_STATUS (15)
  | bootStatus  -- BOOT.STATUS (15)
  | bootStraps  -- BOOT.STRAPS (15)
  | bootImage  -- BOOT.IMAGE (15)
  | bootDigest (w : Nat)  -- BOOT.DIGEST (15)
  | bootImageId (w : Nat)  -- BOOT.IMAGE_ID (15)
  | bootRepitchCtrl  -- BOOT.REPITCH_CTRL (15)
  | bootRepitchStatus  -- BOOT.REPITCH_STATUS (15)
  | bootXspiCmd  -- BOOT.XSPI_CMD (15)
  | clkStatus  -- CLK.STATUS (16)
  | clkPhyEvents  -- CLK.PHY_EVENTS (16)
  | rstLastCause  -- RST.LAST_CAUSE (16)
  | rstDomains  -- RST.DOMAINS (16)
  | rstGap  -- RST.GAP (16)
  | rstSwReset  -- RST.SW_RESET (16)
  | rstWdtCtrl  -- RST.WDT_CTRL (16)
  | rstWdtKick  -- RST.WDT_KICK (16)
  | rstWdtStatus  -- RST.WDT_STATUS (16)
  | rstUnitTimeout  -- RST.UNIT_TIMEOUT (16)
  | rstCoreVector  -- RST.CORE_VECTOR (16)
  | rstUnit (u : Nat)  -- RST.UNIT (16)
  | fltRingBase  -- FLT.RING_BASE (17)
  | fltCtrl  -- FLT.CTRL (17)
  | fltCommit  -- FLT.COMMIT (17)
  | fltTail  -- FLT.TAIL (17)
  | fltHead  -- FLT.HEAD (17)
  | fltStatus  -- FLT.STATUS (17)
  | fltLost  -- FLT.LOST (17)
  | fltNotify  -- FLT.NOTIFY (17)
  | frzCtrl  -- FRZ.CTRL (17)
  | frzCfg  -- FRZ.CFG (17)
  | frzTrigger (w : Nat)  -- FRZ.TRIGGER (17)
  | frzStatus  -- FRZ.STATUS (17)
  | frzTime  -- FRZ.TIME (17)
  | frzRecord (w : Nat)  -- FRZ.RECORD (17)
  | frzChainSel  -- FRZ.CHAIN_SEL (17)
  | frzChainLen  -- FRZ.CHAIN_LEN (17)
  | frzChainData  -- FRZ.CHAIN_DATA (17)
  | timeNow  -- TIME.NOW (18)
  | timeSet  -- TIME.SET (18)
  | timeAdj  -- TIME.ADJ (18)
  | timeCfg  -- TIME.CFG (18)
  | timeCommit  -- TIME.COMMIT (18)
  | timeStatus  -- TIME.STATUS (18)
  | timePpsIn  -- TIME.PPS_IN (18)
  | timeOffset  -- TIME.OFFSET (18)
  | timeAlert  -- TIME.ALERT (18)
  | timeMac  -- TIME.MAC (18)
  | timeMgmtCfg  -- TIME.MGMT_CFG (18)
  | timeTemp (s : Nat)  -- TIME.TEMP (18)
  | timeThermal  -- TIME.THERMAL (18)
  | timePower  -- TIME.POWER (18)
  | timeEnergy  -- TIME.ENERGY (18)
  | bootGlPhase  -- BOOT.GL_PHASE (19)
  | bootGpio  -- BOOT.GPIO (19)
  | bootSideband  -- BOOT.SIDEBAND (19)
  | bootTrace  -- BOOT.TRACE (19)
  | fuseCompat  -- FUSE.COMPAT (21)
  | pcieMsixTable (v w : Nat)  -- PCIE.MSIX_TABLE (14)
  | pcieMsixPba (w : Nat)  -- PCIE.MSIX_PBA (14)
  deriving DecidableEq, Repr

/-- The access codes of R7. -/
inductive Access where
  | ro | rw | w1c | rc | wo
  deriving DecidableEq, Repr

/-- One field of a register: its place, its access code (R7), whether it is staged (R11), whether the image sets it (R346), and its reset value (R10). -/
structure FieldDesc where
  lo : Nat
  width : Nat
  acc : Access
  staged : Bool
  image : Bool
  reset : Nat
  deriving DecidableEq, Repr

/-- The place of a field in its register. -/
structure Fld where
  lo : Nat
  width : Nat
  deriving DecidableEq, Repr

namespace Fld

abbrev tileIdLogicalId : Fld := ⟨0, 9⟩
abbrev tileIdPhysRow : Fld := ⟨16, 4⟩
abbrev tileIdPhysCol : Fld := ⟨20, 4⟩
abbrev tileIdDie : Fld := ⟨24, 1⟩
abbrev tileCtrlIdleClockGate : Fld := ⟨0, 1⟩
abbrev tileCtrlChecksumEn : Fld := ⟨1, 1⟩
abbrev tileCtrlHealthEn : Fld := ⟨2, 1⟩
abbrev tileCtrlSchedOwned : Fld := ⟨3, 1⟩
abbrev tileStatusState : Fld := ⟨0, 2⟩
abbrev tileStatusArrayBusy : Fld := ⟨4, 4⟩
abbrev tileStatusDrainBusy : Fld := ⟨8, 4⟩
abbrev tileStatusVecBusy : Fld := ⟨12, 1⟩
abbrev tileFaultSramCe : Fld := ⟨0, 1⟩
abbrev tileFaultSramUe : Fld := ⟨1, 1⟩
abbrev tileFaultCheckMismatch : Fld := ⟨2, 1⟩
abbrev tileFaultRouterError : Fld := ⟨3, 1⟩
abbrev tileFaultProgBusy : Fld := ⟨4, 1⟩
abbrev tileFaultCmdIgnored : Fld := ⟨5, 1⟩
abbrev tileFaultWatchdog : Fld := ⟨6, 1⟩
abbrev tileSramCeCountCount : Fld := ⟨0, 32⟩
abbrev tileArrayStallCycles : Fld := ⟨0, 64⟩
abbrev tileHealthTagTensorId : Fld := ⟨0, 32⟩
abbrev tileHealthTagValid : Fld := ⟨63, 1⟩
abbrev tileHealthCntCount : Fld := ⟨0, 64⟩
abbrev seqCtrlCmd : Fld := ⟨0, 2⟩
abbrev seqEntryEntryPc : Fld := ⟨0, 16⟩
abbrev seqStatusPc : Fld := ⟨0, 16⟩
abbrev seqStatusWaitReason : Fld := ⟨16, 4⟩
abbrev seqStatusHaltCause : Fld := ⟨20, 4⟩
abbrev seqWatchdogLimit : Fld := ⟨0, 32⟩
abbrev maRowMaskRowEn : Fld := ⟨0, 64⟩
abbrev maColMaskColEn : Fld := ⟨0, 64⟩
abbrev maRepairSpareRow : Fld := ⟨0, 6⟩
abbrev maRepairSpareRowValid : Fld := ⟨6, 1⟩
abbrev maRepairSpareCol : Fld := ⟨8, 6⟩
abbrev maRepairSpareColValid : Fld := ⟨14, 1⟩
abbrev maRepairSource : Fld := ⟨15, 1⟩
abbrev maStatusBusy : Fld := ⟨0, 1⟩
abbrev maStatusAccSet : Fld := ⟨1, 1⟩
abbrev maStatusDraining : Fld := ⟨2, 1⟩
abbrev maPassCountPasses : Fld := ⟨0, 64⟩
abbrev maCheckFailCount : Fld := ⟨0, 32⟩
abbrev tileMapPhysRow : Fld := ⟨0, 4⟩
abbrev tileMapPhysCol : Fld := ⟨4, 4⟩
abbrev tileMapDie : Fld := ⟨8, 1⟩
abbrev tileMapShifted : Fld := ⟨9, 1⟩
abbrev tileMapStatusSpareUsedDie0 : Fld := ⟨0, 16⟩
abbrev tileMapStatusSpareUsedDie1 : Fld := ⟨16, 16⟩
abbrev tileMapStatusFieldListed : Fld := ⟨32, 16⟩
abbrev vecSrKeyTensorId : Fld := ⟨0, 32⟩
abbrev vecSrKeyStep : Fld := ⟨32, 32⟩
abbrev vecSrIndexIndex : Fld := ⟨0, 64⟩
abbrev vecRetiredCount : Fld := ⟨0, 64⟩
abbrev vecVregSelReg : Fld := ⟨0, 6⟩
abbrev vecSregValue : Fld := ⟨0, 64⟩
abbrev vecPregBits : Fld := ⟨0, 64⟩
abbrev vecVregDataBytes : Fld := ⟨0, 64⟩
abbrev agenSetupBytes : Fld := ⟨0, 64⟩
abbrev agenStatusRunning : Fld := ⟨0, 1⟩
abbrev agenStatusQueued : Fld := ⟨1, 1⟩
abbrev agenStatusStaged : Fld := ⟨8, 6⟩
abbrev agenStatusSlice : Fld := ⟨32, 32⟩
abbrev agenSlicesCount : Fld := ⟨0, 64⟩
abbrev agenBlocksCount : Fld := ⟨0, 64⟩
abbrev agenHitsCount : Fld := ⟨0, 64⟩
abbrev agenHoldsCycles : Fld := ⟨0, 64⟩
abbrev redGovBaseBase : Fld := ⟨10, 54⟩
abbrev redGovCtrlEnable : Fld := ⟨0, 1⟩
abbrev redGovCtrlLayers : Fld := ⟨16, 13⟩
abbrev redGovThreshUpZero : Fld := ⟨0, 8⟩
abbrev redGovThreshUpSat : Fld := ⟨8, 8⟩
abbrev redGovThreshDownZero : Fld := ⟨16, 8⟩
abbrev redGovThreshDownSat : Fld := ⟨24, 8⟩
abbrev redGovThreshHold : Fld := ⟨32, 8⟩
abbrev redGovCommitCommit : Fld := ⟨0, 1⟩
abbrev redGovStatusUpdates : Fld := ⟨0, 32⟩
abbrev redGovStatusOutOfRange : Fld := ⟨32, 32⟩
abbrev pipeStashCfgEnable : Fld := ⟨0, 1⟩
abbrev pipeStashCfgLive : Fld := ⟨8, 8⟩
abbrev pipeStashCfgBlocks : Fld := ⟨16, 9⟩
abbrev pipeStashHbmBaseBase : Fld := ⟨12, 52⟩
abbrev pipeStashHbmSizePages : Fld := ⟨0, 32⟩
abbrev pipeStashLpBaseBase : Fld := ⟨12, 52⟩
abbrev pipeStashLpSizePages : Fld := ⟨0, 32⟩
abbrev pipeStashCommitCommit : Fld := ⟨0, 1⟩
abbrev pipeStashStatusMode : Fld := ⟨0, 1⟩
abbrev pipeStashStatusPending : Fld := ⟨1, 1⟩
abbrev pipeStashStatusCommitError : Fld := ⟨4, 4⟩
abbrev pipeStashStatusSwitchBlock : Fld := ⟨8, 8⟩
abbrev pipeStashStatusSwitchMb : Fld := ⟨16, 32⟩
abbrev pipeStashUsedHbmPages : Fld := ⟨0, 32⟩
abbrev pipeStashUsedLpPages : Fld := ⟨32, 32⟩
abbrev pipeStashSpillsCount : Fld := ⟨0, 64⟩
abbrev pipeStashSwitchesCount : Fld := ⟨0, 64⟩
abbrev pipeStashHoldsCycles : Fld := ⟨0, 64⟩
abbrev pipeStashBlockPages : Fld := ⟨0, 24⟩
abbrev pipeStashBlockKind : Fld := ⟨24, 2⟩
abbrev redBucketsCount : Fld := ⟨0, 64⟩
abbrev redCheckedCount : Fld := ⟨0, 64⟩
abbrev redMismatchCount : Fld := ⟨0, 64⟩
abbrev redNonfiniteCount : Fld := ⟨0, 64⟩
abbrev redEarlyCount : Fld := ⟨0, 64⟩
abbrev redDiscardedCount : Fld := ⟨0, 64⟩
abbrev redPortTakesCycles : Fld := ⟨0, 64⟩
abbrev redJobCfgValid : Fld := ⟨0, 1⟩
abbrev redJobCfgBlock : Fld := ⟨6, 58⟩
abbrev redJobCommitCommit : Fld := ⟨0, 1⟩
abbrev redJobStatusBound : Fld := ⟨0, 1⟩
abbrev redJobStatusBroken : Fld := ⟨1, 1⟩
abbrev redJobStatusBindError : Fld := ⟨4, 4⟩
abbrev redJobStatusEpoch : Fld := ⟨8, 8⟩
abbrev redJobStatusOpen : Fld := ⟨16, 3⟩
abbrev redJobStatusNextSequence : Fld := ⟨32, 32⟩
abbrev redJobEarlyStored : Fld := ⟨0, 32⟩
abbrev redJobEarlyHighWater : Fld := ⟨32, 32⟩
abbrev stateCtrlEnable : Fld := ⟨0, 1⟩
abbrev stateCtrlShards : Fld := ⟨8, 21⟩
abbrev stateShardBaseBase : Fld := ⟨7, 57⟩
abbrev statePoolBaseBase : Fld := ⟨12, 52⟩
abbrev statePoolSizeSize : Fld := ⟨12, 36⟩
abbrev stateCommitCommit : Fld := ⟨0, 1⟩
abbrev stateStatusCommitError : Fld := ⟨0, 4⟩
abbrev stateStatusPending : Fld := ⟨4, 1⟩
abbrev stateStatusPoolUsed : Fld := ⟨32, 32⟩
abbrev stateUpdatesUpdates : Fld := ⟨0, 32⟩
abbrev stateUpdatesSkips : Fld := ⟨32, 32⟩
abbrev stateMissesCount : Fld := ⟨0, 64⟩
abbrev stateWaitsMiss : Fld := ⟨0, 32⟩
abbrev stateWaitsHolds : Fld := ⟨32, 32⟩
abbrev stateErrorsMap : Fld := ⟨0, 32⟩
abbrev stateErrorsStale : Fld := ⟨32, 32⟩
abbrev stateDigestMismatchCount : Fld := ⟨0, 64⟩
abbrev stateMapBase : Fld := ⟨4, 60⟩
abbrev pipeCfgAltMax : Fld := ⟨0, 8⟩
abbrev pipeCfgQueue : Fld := ⟨8, 3⟩
abbrev pipeLenLimitLimit0 : Fld := ⟨0, 20⟩
abbrev pipeLenLimitLimit1 : Fld := ⟨20, 20⟩
abbrev pipeLenLimitLimit2 : Fld := ⟨40, 20⟩
abbrev pipeLenWeightWeight0 : Fld := ⟨0, 4⟩
abbrev pipeLenWeightWeight1 : Fld := ⟨4, 4⟩
abbrev pipeLenWeightWeight2 : Fld := ⟨8, 4⟩
abbrev pipeLenWeightWeight3 : Fld := ⟨12, 4⟩
abbrev pipeCommitCommit : Fld := ⟨0, 1⟩
abbrev pipeStatusBusy : Fld := ⟨0, 1⟩
abbrev pipeStatusPending : Fld := ⟨1, 1⟩
abbrev pipeStatusCommitError : Fld := ⟨4, 4⟩
abbrev pipeStatusFlush : Fld := ⟨8, 1⟩
abbrev pipeStatusFaultTask : Fld := ⟨32, 32⟩
abbrev pipeStepStep : Fld := ⟨0, 64⟩
abbrev pipeProgressReleased : Fld := ⟨0, 32⟩
abbrev pipeProgressCompleted : Fld := ⟨32, 32⟩
abbrev pipeBubblePegWait : Fld := ⟨0, 32⟩
abbrev pipeBubbleDepWait : Fld := ⟨32, 32⟩
abbrev pipeLongLongMb : Fld := ⟨0, 32⟩
abbrev pipeLongExtraSlots : Fld := ⟨32, 32⟩
abbrev pipeTasksCount : Fld := ⟨0, 64⟩
abbrev pipeStepsDone : Fld := ⟨0, 32⟩
abbrev pipeStepsAborted : Fld := ⟨32, 32⟩
abbrev pipeGroupMembers : Fld := ⟨0, 64⟩
abbrev pipeBlockFwdEntry : Fld := ⟨0, 16⟩
abbrev pipeBlockBwdEntry : Fld := ⟨16, 16⟩
abbrev pipeBlockGroup : Fld := ⟨32, 5⟩
abbrev pipeBlockValid : Fld := ⟨40, 1⟩
abbrev ringBaseBase : Fld := ⟨12, 52⟩
abbrev ringSizeRs : Fld := ⟨0, 5⟩
abbrev ringSizeJs : Fld := ⟨8, 5⟩
abbrev ringJournalBaseBase : Fld := ⟨12, 52⟩
abbrev ringCfgCredit : Fld := ⟨0, 13⟩
abbrev ringCfgDefaultPrio : Fld := ⟨16, 3⟩
abbrev ringCommitCommit : Fld := ⟨0, 1⟩
abbrev ringCommitArm : Fld := ⟨1, 1⟩
abbrev ringCtrlCmd : Fld := ⟨0, 2⟩
abbrev ringDoorbellTail : Fld := ⟨0, 32⟩
abbrev ringHeadHead : Fld := ⟨0, 32⟩
abbrev ringTailTail : Fld := ⟨0, 32⟩
abbrev ringJournalTailTail : Fld := ⟨0, 32⟩
abbrev ringJournalHeadHead : Fld := ⟨0, 32⟩
abbrev ringStatusState : Fld := ⟨0, 2⟩
abbrev ringStatusCommitError : Fld := ⟨4, 4⟩
abbrev ringStatusStopCause : Fld := ⟨8, 4⟩
abbrev ringStatusAged : Fld := ⟨12, 1⟩
abbrev ringStatusDoorbellError : Fld := ⟨13, 1⟩
abbrev ringStatusAdmitted : Fld := ⟨16, 13⟩
abbrev ringStatsDeferred : Fld := ⟨0, 32⟩
abbrev ringStatsCompleted : Fld := ⟨32, 32⟩
abbrev ringJournalWaitsCycles : Fld := ⟨0, 64⟩
abbrev pegValueCount : Fld := ⟨0, 63⟩
abbrev pegValueFault : Fld := ⟨63, 1⟩
abbrev pegAddAdd : Fld := ⟨0, 63⟩
abbrev pegAddSetFault : Fld := ⟨63, 1⟩
abbrev pegMirrorEnable : Fld := ⟨0, 1⟩
abbrev pegMirrorAddress : Fld := ⟨3, 61⟩
abbrev pegWaitersDescriptors : Fld := ⟨0, 17⟩
abbrev pegWaitersTiles : Fld := ⟨32, 9⟩
abbrev pipePrioWeightWeight0 : Fld := ⟨0, 8⟩
abbrev pipePrioWeightWeight1 : Fld := ⟨8, 8⟩
abbrev pipePrioWeightWeight2 : Fld := ⟨16, 8⟩
abbrev pipePrioWeightWeight3 : Fld := ⟨24, 8⟩
abbrev pipePrioWeightWeight4 : Fld := ⟨32, 8⟩
abbrev pipePrioWeightWeight5 : Fld := ⟨40, 8⟩
abbrev pipePrioWeightWeight6 : Fld := ⟨48, 8⟩
abbrev pipePrioWeightWeight7 : Fld := ⟨56, 8⟩
abbrev pipeAgeLimitLimit : Fld := ⟨0, 32⟩
abbrev pipeAdmitCommitCommit : Fld := ⟨0, 1⟩
abbrev pipeTrackerInUse : Fld := ⟨0, 17⟩
abbrev pipeTrackerArmedCredit : Fld := ⟨32, 17⟩
abbrev hbmcStatusTrained : Fld := ⟨0, 1⟩
abbrev hbmcStatusRepairBusy : Fld := ⟨1, 1⟩
abbrev hbmcStatusHotRefresh : Fld := ⟨2, 1⟩
abbrev hbmcStatusTemp : Fld := ⟨8, 8⟩
abbrev hbmcStatusTierOk : Fld := ⟨16, 1⟩
abbrev hbmcStatusInitDone : Fld := ⟨17, 1⟩
abbrev hbmcCeCountWords : Fld := ⟨0, 64⟩
abbrev hbmcUeCountAccess : Fld := ⟨0, 32⟩
abbrev hbmcUeCountScrub : Fld := ⟨32, 32⟩
abbrev hbmcStackEcsCount : Fld := ⟨0, 64⟩
abbrev hbmcScrubCfgEnable : Fld := ⟨0, 1⟩
abbrev hbmcScrubCfgPeriod : Fld := ⟨16, 32⟩
abbrev hbmcScrubStatusPasses : Fld := ⟨0, 32⟩
abbrev hbmcScrubStatusProgress : Fld := ⟨32, 16⟩
abbrev hbmcRepairCfgAutoRepair : Fld := ⟨0, 1⟩
abbrev hbmcRepairCfgCeThreshold : Fld := ⟨8, 8⟩
abbrev hbmcRepairStatusRepairs : Fld := ⟨0, 16⟩
abbrev hbmcRepairStatusSparesMin : Fld := ⟨16, 8⟩
abbrev hbmcRepairStatusMarked : Fld := ⟨24, 8⟩
abbrev hbmcRepairStatusExhausted : Fld := ⟨32, 16⟩
abbrev hbmcCommitCommit : Fld := ⟨0, 1⟩
abbrev lpmcPopChannels : Fld := ⟨0, 8⟩
abbrev lpmcPopCapacity : Fld := ⟨8, 4⟩
abbrev lpmcPopRanks : Fld := ⟨12, 1⟩
abbrev lpmcPopRate : Fld := ⟨13, 2⟩
abbrev hbmcHbmSizeBytes : Fld := ⟨0, 48⟩
abbrev hbmcLpSizeBytes : Fld := ⟨0, 48⟩
abbrev homeIdHome : Fld := ⟨0, 6⟩
abbrev homeIdTier : Fld := ⟨6, 1⟩
abbrev homeIdSlcMib : Fld := ⟨8, 8⟩
abbrev homeStatusFlipWalk : Fld := ⟨0, 1⟩
abbrev homeStatusOpen : Fld := ⟨16, 16⟩
abbrev homeStatusRetryWaiting : Fld := ⟨32, 16⟩
abbrev homeSnoopsCount : Fld := ⟨0, 64⟩
abbrev homeC2cCount : Fld := ⟨0, 64⟩
abbrev homeHoldWaitsCycles : Fld := ⟨0, 64⟩
abbrev homeSlcHitsCount : Fld := ⟨0, 64⟩
abbrev homeSlcMissesCount : Fld := ⟨0, 64⟩
abbrev homeBiasDeniedCount : Fld := ⟨0, 64⟩
abbrev dirOccupancyValid : Fld := ⟨0, 18⟩
abbrev dirOccupancyPinned : Fld := ⟨32, 18⟩
abbrev dirEvictionsCount : Fld := ⟨0, 64⟩
abbrev dirRetryEntries : Fld := ⟨0, 32⟩
abbrev dirRetryMaxWait : Fld := ⟨32, 32⟩
abbrev homeBiasCmdFirst : Fld := ⟨0, 22⟩
abbrev homeBiasCmdCount : Fld := ⟨22, 22⟩
abbrev homeBiasCmdTarget : Fld := ⟨44, 1⟩
abbrev homeBiasCmdPegEn : Fld := ⟨45, 1⟩
abbrev homeBiasCmdPeg : Fld := ⟨46, 16⟩
abbrev homeBiasCommitCommit : Fld := ⟨0, 1⟩
abbrev homeBiasStatusBusy : Fld := ⟨0, 1⟩
abbrev homeBiasStatusCommitError : Fld := ⟨4, 4⟩
abbrev homeBiasStatusChanged : Fld := ⟨32, 32⟩
abbrev homeAddrFaultsCount : Fld := ⟨0, 64⟩
abbrev homeBiasMapBias : Fld := ⟨0, 64⟩
abbrev fabPortCfgEnable : Fld := ⟨0, 1⟩
abbrev fabPortCommitCommit : Fld := ⟨0, 1⟩
abbrev fabPortStatusState : Fld := ⟨0, 3⟩
abbrev fabPortStatusVersion : Fld := ⟨8, 4⟩
abbrev fabPortStatusPeerPort : Fld := ⟨12, 6⟩
abbrev fabPortStatusPeerId : Fld := ⟨18, 12⟩
abbrev fabPortStatusPeerIdValid : Fld := ⟨30, 1⟩
abbrev fabPortStatusParent : Fld := ⟨31, 1⟩
abbrev fabPortPeerSerial : Fld := ⟨0, 64⟩
abbrev fabPortFecCorrected : Fld := ⟨0, 32⟩
abbrev fabPortFecUncorrectable : Fld := ⟨32, 32⟩
abbrev fabPortLinkFailed : Fld := ⟨0, 32⟩
abbrev fabPortLinkReplays : Fld := ⟨32, 32⟩
abbrev fabPortEventsRetrains : Fld := ⟨0, 16⟩
abbrev fabPortEventsDowns : Fld := ⟨16, 16⟩
abbrev fabPortEventsDropped : Fld := ⟨32, 32⟩
abbrev fabPortFlitsTx : Fld := ⟨0, 32⟩
abbrev fabPortFlitsRx : Fld := ⟨32, 32⟩
abbrev fabIdDeviceId : Fld := ⟨0, 12⟩
abbrev fabIdValid : Fld := ⟨12, 1⟩
abbrev fabIdRoot : Fld := ⟨13, 1⟩
abbrev fabIdEligible : Fld := ⟨14, 1⟩
abbrev fabIdEpoch : Fld := ⟨16, 16⟩
abbrev fabStatusPhase : Fld := ⟨0, 3⟩
abbrev fabStatusCommitError : Fld := ⟨4, 4⟩
abbrev fabStatusPortsUp : Fld := ⟨8, 7⟩
abbrev fabStatusRootDistance : Fld := ⟨16, 12⟩
abbrev fabStatusRouteGen : Fld := ⟨32, 32⟩
abbrev fabRootSerial : Fld := ⟨0, 64⟩
abbrev fabCfgLevels : Fld := ⟨0, 3⟩
abbrev fabCfgAssignMode : Fld := ⟨3, 1⟩
abbrev fabCfgSettle : Fld := ⟨4, 8⟩
abbrev fabCfgAckTimeout : Fld := ⟨12, 10⟩
abbrev fabCfgReqTimeout : Fld := ⟨32, 24⟩
abbrev fabVcShareShare0 : Fld := ⟨0, 8⟩
abbrev fabVcShareShare1 : Fld := ⟨8, 8⟩
abbrev fabVcShareShare2 : Fld := ⟨16, 8⟩
abbrev fabVcShareShare3 : Fld := ⟨24, 8⟩
abbrev fabVcShareShare4 : Fld := ⟨32, 8⟩
abbrev fabVcShareShare5 : Fld := ⟨40, 8⟩
abbrev fabInboundMemory : Fld := ⟨0, 1⟩
abbrev fabInboundAperture : Fld := ⟨1, 1⟩
abbrev fabInboundPeg : Fld := ⟨2, 1⟩
abbrev fabInboundRegisters : Fld := ⟨3, 1⟩
abbrev fabCommitCommit : Fld := ⟨0, 1⟩
abbrev fabDiscCtrlReassign : Fld := ⟨0, 1⟩
abbrev fabDropsUnroutable : Fld := ⟨0, 16⟩
abbrev fabDropsHops : Fld := ⟨16, 16⟩
abbrev fabDropsLate : Fld := ⟨32, 16⟩
abbrev fabDropsMalformed : Fld := ⟨48, 16⟩
abbrev fabEventsFailover : Fld := ⟨0, 32⟩
abbrev fabEventsDenied : Fld := ⟨32, 32⟩
abbrev fabRouteCommitCommit : Fld := ⟨0, 1⟩
abbrev fabRoutePrimaryPrimary : Fld := ⟨0, 64⟩
abbrev fabRouteAlternativeAlternative : Fld := ⟨0, 64⟩
abbrev pcieEpCfgPerstScope : Fld := ⟨0, 1⟩
abbrev pcieEpCommitCommit : Fld := ⟨0, 1⟩
abbrev pcieEpStatusLinkUp : Fld := ⟨0, 1⟩
abbrev pcieEpStatusRate : Fld := ⟨1, 3⟩
abbrev pcieEpStatusWidth : Fld := ⟨4, 5⟩
abbrev pcieEpStatusBusMaster : Fld := ⟨9, 1⟩
abbrev pcieEpStatusMsixEnable : Fld := ⟨10, 1⟩
abbrev pcieEpStatusFlitMode : Fld := ⟨11, 1⟩
abbrev pcieEpEventsLosses : Fld := ⟨0, 32⟩
abbrev pcieEpEventsRefused : Fld := ⟨32, 32⟩
abbrev pcieRpCfgEnable : Fld := ⟨0, 1⟩
abbrev pcieRpCommitCommit : Fld := ⟨0, 1⟩
abbrev pcieRpStatusLinkUp : Fld := ⟨0, 1⟩
abbrev pcieRpStatusRate : Fld := ⟨1, 3⟩
abbrev pcieRpStatusWidth : Fld := ⟨4, 5⟩
abbrev pcieRpWinBusBase : Fld := ⟨21, 43⟩
abbrev pcieRpCfgAddrRegister : Fld := ⟨0, 12⟩
abbrev pcieRpCfgAddrFunction : Fld := ⟨12, 3⟩
abbrev pcieRpCfgAddrDevice : Fld := ⟨15, 5⟩
abbrev pcieRpCfgAddrBus : Fld := ⟨20, 8⟩
abbrev pcieRpCfgDataData : Fld := ⟨0, 32⟩
abbrev pcieRpEventsMmioErrors : Fld := ⟨0, 32⟩
abbrev pcieRpEventsLinkDowns : Fld := ⟨32, 32⟩
abbrev awnBaseBase : Fld := ⟨28, 20⟩
abbrev awnCommitCommit : Fld := ⟨0, 1⟩
abbrev awnStatusActive : Fld := ⟨28, 20⟩
abbrev dplCommitCommit : Fld := ⟨0, 1⟩
abbrev dplStatusCommitError : Fld := ⟨0, 4⟩
abbrev dplStatusEpoch : Fld := ⟨32, 32⟩
abbrev dplDeniedCount : Fld := ⟨0, 64⟩
abbrev dplRegionBaseBase : Fld := ⟨12, 36⟩
abbrev dplRegionAttrPages : Fld := ⟨0, 21⟩
abbrev dplRegionAttrRead : Fld := ⟨21, 1⟩
abbrev dplRegionAttrWrite : Fld := ⟨22, 1⟩
abbrev dplRegionAttrPorts : Fld := ⟨23, 4⟩
abbrev dplRegionKeyKey : Fld := ⟨0, 32⟩
abbrev dplRegionKeyValid : Fld := ⟨32, 1⟩
abbrev fusePartVendorId : Fld := ⟨0, 16⟩
abbrev fusePartDeviceId : Fld := ⟨16, 16⟩
abbrev fusePartRevisionId : Fld := ⟨32, 8⟩
abbrev fusePartStepping : Fld := ⟨40, 4⟩
abbrev fuseSerialSerial : Fld := ⟨0, 64⟩
abbrev fuseRollbackCounter : Fld := ⟨0, 6⟩
abbrev fuseKeyStateProgrammed : Fld := ⟨0, 4⟩
abbrev fuseKeyStateRevoked : Fld := ⟨4, 4⟩
abbrev fuseKeyHashBytes : Fld := ⟨0, 64⟩
abbrev fuseProgDataBytes : Fld := ⟨0, 64⟩
abbrev fuseProgCmdOp : Fld := ⟨0, 2⟩
abbrev fuseProgCmdSlot : Fld := ⟨2, 2⟩
abbrev fuseProgCmdTarget : Fld := ⟨4, 6⟩
abbrev fuseProgCmdUnlock : Fld := ⟨32, 32⟩
abbrev fuseProgStatusBusy : Fld := ⟨0, 1⟩
abbrev fuseProgStatusError : Fld := ⟨4, 4⟩
abbrev fuseProgStatusFuseCe : Fld := ⟨16, 16⟩
abbrev bootStatusStage : Fld := ⟨0, 3⟩
abbrev bootStatusError : Fld := ⟨4, 4⟩
abbrev bootStatusSource : Fld := ⟨8, 1⟩
abbrev bootStatusStrapError : Fld := ⟨9, 1⟩
abbrev bootStatusAttempts : Fld := ⟨10, 2⟩
abbrev bootStrapsStraps : Fld := ⟨0, 32⟩
abbrev bootImageSvn : Fld := ⟨0, 8⟩
abbrev bootImageKeySlot : Fld := ⟨8, 2⟩
abbrev bootImageLength : Fld := ⟨16, 21⟩
abbrev bootDigestBytes : Fld := ⟨0, 64⟩
abbrev bootImageIdBytes : Fld := ⟨0, 64⟩
abbrev bootRepitchCtrlCmd : Fld := ⟨0, 2⟩
abbrev bootRepitchStatusState : Fld := ⟨0, 2⟩
abbrev bootRepitchStatusXspiBusy : Fld := ⟨2, 1⟩
abbrev bootRepitchStatusVerifyBusy : Fld := ⟨3, 1⟩
abbrev bootRepitchStatusError : Fld := ⟨4, 4⟩
abbrev bootRepitchStatusVerifyCode : Fld := ⟨8, 4⟩
abbrev bootXspiCmdOpcode : Fld := ⟨0, 8⟩
abbrev bootXspiCmdAddrEn : Fld := ⟨8, 1⟩
abbrev bootXspiCmdWrite : Fld := ⟨9, 1⟩
abbrev bootXspiCmdLength : Fld := ⟨16, 9⟩
abbrev bootXspiCmdAddress : Fld := ⟨32, 32⟩
abbrev clkStatusRefSel : Fld := ⟨0, 1⟩
abbrev clkStatusRefOk : Fld := ⟨1, 1⟩
abbrev clkStatusRootLock : Fld := ⟨2, 1⟩
abbrev clkStatusInRange : Fld := ⟨3, 5⟩
abbrev clkStatusMemPhyLock : Fld := ⟨8, 1⟩
abbrev clkStatusPcieLock : Fld := ⟨9, 1⟩
abbrev clkPhyEventsSerdesUnlocks : Fld := ⟨0, 32⟩
abbrev clkPhyEventsPcieUnlocks : Fld := ⟨32, 32⟩
abbrev rstLastCauseCause : Fld := ⟨0, 4⟩
abbrev rstDomainsReleased : Fld := ⟨0, 9⟩
abbrev rstDomainsWaiting : Fld := ⟨12, 4⟩
abbrev rstGapGap : Fld := ⟨0, 16⟩
abbrev rstSwResetKey : Fld := ⟨0, 32⟩
abbrev rstWdtCtrlEnable : Fld := ⟨0, 1⟩
abbrev rstWdtCtrlLimit : Fld := ⟨32, 32⟩
abbrev rstWdtKickKey : Fld := ⟨0, 32⟩
abbrev rstWdtStatusRemaining : Fld := ⟨0, 32⟩
abbrev rstUnitTimeoutTimeout : Fld := ⟨0, 32⟩
abbrev rstCoreVectorPc : Fld := ⟨2, 46⟩
abbrev rstUnitCmd : Fld := ⟨0, 2⟩
abbrev rstUnitState : Fld := ⟨2, 2⟩
abbrev rstUnitForced : Fld := ⟨4, 1⟩
abbrev rstUnitError : Fld := ⟨5, 1⟩
abbrev rstUnitResets : Fld := ⟨32, 32⟩
abbrev fltRingBaseBase : Fld := ⟨12, 52⟩
abbrev fltCtrlEnable : Fld := ⟨0, 1⟩
abbrev fltCtrlFs : Fld := ⟨8, 5⟩
abbrev fltCtrlPinLevel : Fld := ⟨16, 2⟩
abbrev fltCommitCommit : Fld := ⟨0, 1⟩
abbrev fltTailTail : Fld := ⟨0, 32⟩
abbrev fltHeadHead : Fld := ⟨0, 32⟩
abbrev fltStatusOverflow : Fld := ⟨0, 1⟩
abbrev fltStatusPin : Fld := ⟨1, 1⟩
abbrev fltStatusCommitError : Fld := ⟨4, 4⟩
abbrev fltStatusEarly : Fld := ⟨8, 9⟩
abbrev fltLostCount : Fld := ⟨0, 64⟩
abbrev fltNotifyHart : Fld := ⟨0, 7⟩
abbrev fltNotifyHartEn : Fld := ⟨7, 1⟩
abbrev fltNotifyIdentity : Fld := ⟨8, 8⟩
abbrev fltNotifyVector : Fld := ⟨16, 11⟩
abbrev fltNotifyVectorEn : Fld := ⟨27, 1⟩
abbrev frzCtrlKey : Fld := ⟨0, 32⟩
abbrev frzCfgJtagRead : Fld := ⟨0, 1⟩
abbrev frzTriggerClasses : Fld := ⟨0, 64⟩
abbrev frzStatusFrozen : Fld := ⟨0, 1⟩
abbrev frzStatusSource : Fld := ⟨1, 2⟩
abbrev frzStatusClass : Fld := ⟨8, 8⟩
abbrev frzTimeTime : Fld := ⟨0, 64⟩
abbrev frzRecordBytes : Fld := ⟨0, 64⟩
abbrev frzChainSelChain : Fld := ⟨0, 16⟩
abbrev frzChainSelWord : Fld := ⟨16, 32⟩
abbrev frzChainLenLength : Fld := ⟨0, 32⟩
abbrev frzChainDataData : Fld := ⟨0, 64⟩
abbrev timeNowNs : Fld := ⟨0, 64⟩
abbrev timeSetNs : Fld := ⟨0, 64⟩
abbrev timeAdjRate : Fld := ⟨0, 32⟩
abbrev timeAdjSlew : Fld := ⟨32, 32⟩
abbrev timeCfgStateReq : Fld := ⟨0, 2⟩
abbrev timeCfgPpsInEn : Fld := ⟨2, 1⟩
abbrev timeCfgPpsOutEn : Fld := ⟨3, 1⟩
abbrev timeCfgHoldoverS : Fld := ⟨8, 8⟩
abbrev timeCfgAlertOffset : Fld := ⟨16, 32⟩
abbrev timeCommitCommit : Fld := ⟨0, 1⟩
abbrev timeStatusState : Fld := ⟨0, 2⟩
abbrev timeStatusSetError : Fld := ⟨2, 1⟩
abbrev timeStatusCommitError : Fld := ⟨4, 4⟩
abbrev timeStatusSlewLeft : Fld := ⟨32, 32⟩
abbrev timePpsInNs : Fld := ⟨0, 64⟩
abbrev timeOffsetNs : Fld := ⟨0, 64⟩
abbrev timeAlertHoldover : Fld := ⟨0, 1⟩
abbrev timeAlertOffset : Fld := ⟨1, 1⟩
abbrev timeAlertTemp : Fld := ⟨2, 1⟩
abbrev timeAlertPower : Fld := ⟨3, 1⟩
abbrev timeMacMac : Fld := ⟨0, 48⟩
abbrev timeMgmtCfgPeer : Fld := ⟨0, 48⟩
abbrev timeMgmtCfgWriteEn : Fld := ⟨48, 1⟩
abbrev timeMgmtCfgFaultFwd : Fld := ⟨49, 1⟩
abbrev timeTempTemp : Fld := ⟨0, 16⟩
abbrev timeTempPeak : Fld := ⟨16, 16⟩
abbrev timeThermalWarn : Fld := ⟨0, 8⟩
abbrev timeThermalPowerAlert : Fld := ⟨16, 16⟩
abbrev timePowerPackage : Fld := ⟨0, 16⟩
abbrev timePowerCompute : Fld := ⟨16, 16⟩
abbrev timePowerHbm : Fld := ⟨32, 16⟩
abbrev timePowerFabric : Fld := ⟨48, 16⟩
abbrev timeEnergyMj : Fld := ⟨0, 64⟩
abbrev bootGlPhaseLow : Fld := ⟨0, 2⟩
abbrev bootGlPhaseHigh : Fld := ⟨2, 2⟩
abbrev bootGlPhaseXspiEn : Fld := ⟨4, 1⟩
abbrev bootGlPhaseGlrun : Fld := ⟨5, 1⟩
abbrev bootGpioDir : Fld := ⟨0, 16⟩
abbrev bootGpioOut : Fld := ⟨16, 16⟩
abbrev bootGpioIn : Fld := ⟨32, 16⟩
abbrev bootSidebandSbo0 : Fld := ⟨0, 1⟩
abbrev bootSidebandSbo1 : Fld := ⟨1, 1⟩
abbrev bootSidebandFollowFault : Fld := ⟨2, 1⟩
abbrev bootSidebandSbi0 : Fld := ⟨4, 1⟩
abbrev bootSidebandSbi1 : Fld := ⟨5, 1⟩
abbrev bootSidebandSbi0Fell : Fld := ⟨6, 1⟩
abbrev bootSidebandSbi1Fell : Fld := ⟨7, 1⟩
abbrev bootTraceEnable : Fld := ⟨0, 1⟩
abbrev bootTraceRecords : Fld := ⟨1, 1⟩
abbrev bootTraceMarks : Fld := ⟨2, 1⟩
abbrev bootTraceMarkMs : Fld := ⟨8, 8⟩
abbrev bootTraceDropped : Fld := ⟨16, 16⟩
abbrev fuseCompatProfile : Fld := ⟨0, 8⟩
abbrev fuseCompatNumerics : Fld := ⟨8, 8⟩
abbrev fuseCompatHfp : Fld := ⟨16, 4⟩
abbrev fuseCompatDescVers : Fld := ⟨32, 16⟩
abbrev fuseCompatImageFormat : Fld := ⟨48, 8⟩
abbrev pcieMsixTableBytes : Fld := ⟨0, 64⟩
abbrev pcieMsixPbaPending : Fld := ⟨0, 64⟩

end Fld

/-- The base of a memory-controller instance: stacks 0 to 15, then LPDDR5X instances 0 to 7 as 16 to 23 ("HBM3E and LPDDR5X Tiers", Registers). -/
def mcBase (i : Nat) : Nat :=
  if i < 16 then 0xF00002000000 + i * 0x10000 else 0xF00002100000 + (i - 16) * 0x10000

/-- The local offset of a register (R5, R254). -/
def Reg.addr : Reg → Nat
  | .tileId n => 0xF00020000000 + n * 0x100000
  | .tileCtrl n => 0xF00020000000 + n * 0x100000 + 0x8
  | .tileStatus n => 0xF00020000000 + n * 0x100000 + 0x10
  | .tileFault n => 0xF00020000000 + n * 0x100000 + 0x18
  | .tileSramCeCount n => 0xF00020000000 + n * 0x100000 + 0x20
  | .tileArrayStall n => 0xF00020000000 + n * 0x100000 + 0x28
  | .tileHealthTag n k => 0xF00020000000 + n * 0x100000 + 0x100 + k * 0x8
  | .tileHealthCnt n k c => 0xF00020000000 + n * 0x100000 + 0x200 + k * 0x20 + c * 0x8
  | .seqCtrl n => 0xF00020004000 + n * 0x100000
  | .seqEntry n => 0xF00020004000 + n * 0x100000 + 0x8
  | .seqStatus n => 0xF00020004000 + n * 0x100000 + 0x10
  | .seqWatchdog n => 0xF00020004000 + n * 0x100000 + 0x18
  | .maRowMask n m => 0xF0002000C000 + n * 0x100000 + m * 0x800
  | .maColMask n m => 0xF0002000C000 + n * 0x100000 + m * 0x800 + 0x8
  | .maRepair n m => 0xF0002000C000 + n * 0x100000 + m * 0x800 + 0x10
  | .maStatus n m => 0xF0002000C000 + n * 0x100000 + m * 0x800 + 0x18
  | .maPassCount n m => 0xF0002000C000 + n * 0x100000 + m * 0x800 + 0x20
  | .maCheckFail n m => 0xF0002000C000 + n * 0x100000 + m * 0x800 + 0x28
  | .tileMap n => 0xF00020000000 + 0x18000000 + n * 0x8
  | .tileMapStatus => 0xF00020000000 + 0x18000C00
  | .vecSrKey n => 0xF0002000E000 + n * 0x100000
  | .vecSrIndex n => 0xF0002000E000 + n * 0x100000 + 0x8
  | .vecRetired n => 0xF0002000E000 + n * 0x100000 + 0x10
  | .vecVregSel n => 0xF0002000E000 + n * 0x100000 + 0x18
  | .vecSreg n k => 0xF0002000E000 + n * 0x100000 + 0x100 + k * 0x8
  | .vecPreg n k w => 0xF0002000E000 + n * 0x100000 + 0x200 + k * 0x20 + w * 0x8
  | .vecVregData n w => 0xF0002000E000 + n * 0x100000 + 0x400 + w * 0x8
  | .agenSetup n a w => 0xF00020008000 + n * 0x100000 + a * 0x800 + w * 0x8
  | .agenStatus n a => 0xF00020008000 + n * 0x100000 + a * 0x800 + 0x40
  | .agenSlices n a => 0xF00020008000 + n * 0x100000 + a * 0x800 + 0x48
  | .agenBlocks n a => 0xF00020008000 + n * 0x100000 + a * 0x800 + 0x50
  | .agenHits n a => 0xF00020008000 + n * 0x100000 + a * 0x800 + 0x58
  | .agenHolds n a => 0xF00020008000 + n * 0x100000 + a * 0x800 + 0x60
  | .redGovBase => 0xF00004000000 + 0xF000
  | .redGovCtrl => 0xF00004000000 + 0xF008
  | .redGovThresh => 0xF00004000000 + 0xF010
  | .redGovCommit => 0xF00004000000 + 0xF018
  | .redGovStatus => 0xF00004000000 + 0xF020
  | .pipeStashCfg => 0xF00006000000 + 0x8000
  | .pipeStashHbmBase => 0xF00006000000 + 0x8008
  | .pipeStashHbmSize => 0xF00006000000 + 0x8010
  | .pipeStashLpBase => 0xF00006000000 + 0x8018
  | .pipeStashLpSize => 0xF00006000000 + 0x8020
  | .pipeStashCommit => 0xF00006000000 + 0x8028
  | .pipeStashStatus => 0xF00006000000 + 0x8030
  | .pipeStashUsed => 0xF00006000000 + 0x8038
  | .pipeStashSpills => 0xF00006000000 + 0x8040
  | .pipeStashSwitches => 0xF00006000000 + 0x8048
  | .pipeStashHolds => 0xF00006000000 + 0x8050
  | .pipeStashBlock b => 0xF00006000000 + 0x8400 + b * 0x8
  | .redBuckets => 0xF00004000000
  | .redChecked => 0xF00004000000 + 0x8
  | .redMismatch => 0xF00004000000 + 0x10
  | .redNonfinite => 0xF00004000000 + 0x18
  | .redEarly => 0xF00004000000 + 0x20
  | .redDiscarded => 0xF00004000000 + 0x28
  | .redPortTakes => 0xF00004000000 + 0x30
  | .redJobCfg j => 0xF00004000000 + 0x1000 + j * 0x20
  | .redJobCommit j => 0xF00004000000 + 0x1008 + j * 0x20
  | .redJobStatus j => 0xF00004000000 + 0x1010 + j * 0x20
  | .redJobEarly j => 0xF00004000000 + 0x1018 + j * 0x20
  | .stateCtrl => 0xF00005000000
  | .stateShardBase => 0xF00005000000 + 0x8
  | .statePoolBase => 0xF00005000000 + 0x10
  | .statePoolSize => 0xF00005000000 + 0x18
  | .stateCommit => 0xF00005000000 + 0x20
  | .stateStatus => 0xF00005000000 + 0x28
  | .stateUpdates => 0xF00005000000 + 0x30
  | .stateMisses => 0xF00005000000 + 0x38
  | .stateWaits => 0xF00005000000 + 0x40
  | .stateErrors => 0xF00005000000 + 0x1000
  | .stateDigestMismatch => 0xF00005000000 + 0x1008
  | .stateMap j => 0xF00005000000 + 0x1010 + j * 0x8
  | .pipeCfg => 0xF00006000000
  | .pipeLenLimit => 0xF00006000000 + 0x8
  | .pipeLenWeight => 0xF00006000000 + 0x10
  | .pipeCommit => 0xF00006000000 + 0x18
  | .pipeStatus => 0xF00006000000 + 0x20
  | .pipeStep => 0xF00006000000 + 0x28
  | .pipeProgress => 0xF00006000000 + 0x30
  | .pipeBubble => 0xF00006000000 + 0x38
  | .pipeLong => 0xF00006000000 + 0x40
  | .pipeTasks => 0xF00006000000 + 0x48
  | .pipeSteps => 0xF00006000000 + 0x50
  | .pipeGroup g w => 0xF00006000000 + 0x1000 + g * 0x40 + w * 0x8
  | .pipeBlock b => 0xF00006000000 + 0x4000 + b * 0x8
  | .ringBase r => 0xF00010000000 + r * 0x1000
  | .ringSize r => 0xF00010000000 + r * 0x1000 + 0x8
  | .ringJournalBase r => 0xF00010000000 + r * 0x1000 + 0x10
  | .ringCfg r => 0xF00010000000 + r * 0x1000 + 0x18
  | .ringCommit r => 0xF00010000000 + r * 0x1000 + 0x20
  | .ringCtrl r => 0xF00010000000 + r * 0x1000 + 0x28
  | .ringDoorbell r => 0xF00010000000 + r * 0x1000 + 0x30
  | .ringHead r => 0xF00010000000 + r * 0x1000 + 0x38
  | .ringTail r => 0xF00010000000 + r * 0x1000 + 0x40
  | .ringJournalTail r => 0xF00010000000 + r * 0x1000 + 0x48
  | .ringJournalHead r => 0xF00010000000 + r * 0x1000 + 0x50
  | .ringStatus r => 0xF00010000000 + r * 0x1000 + 0x58
  | .ringStats r => 0xF00010000000 + r * 0x1000 + 0x60
  | .ringJournalWaits r => 0xF00010000000 + r * 0x1000 + 0x68
  | .pegValue p => 0xF00012000000 + p * 0x40
  | .pegAdd p => 0xF00012000000 + p * 0x40 + 0x8
  | .pegMirror p => 0xF00012000000 + p * 0x40 + 0x10
  | .pegWaiters p => 0xF00012000000 + p * 0x40 + 0x18
  | .pipePrioWeight => 0xF00006000000 + 0x9000
  | .pipeAgeLimit => 0xF00006000000 + 0x9008
  | .pipeAdmitCommit => 0xF00006000000 + 0x9010
  | .pipeTracker => 0xF00006000000 + 0x9018
  | .hbmcStatus i => mcBase i
  | .hbmcCeCount i => mcBase i + 0x8
  | .hbmcUeCount i => mcBase i + 0x10
  | .hbmcStackEcs i => mcBase i + 0x18
  | .hbmcScrubCfg i => mcBase i + 0x20
  | .hbmcScrubStatus i => mcBase i + 0x28
  | .hbmcRepairCfg i => mcBase i + 0x30
  | .hbmcRepairStatus i => mcBase i + 0x38
  | .hbmcCommit i => mcBase i + 0x40
  | .lpmcPop q => mcBase (q + 16) + 0x48
  | .hbmcHbmSize => 0xF00002000000 + 0x1F0000
  | .hbmcLpSize => 0xF00002000000 + 0x1F0008
  | .homeId h => 0xF00001000000 + h * 0x10000
  | .homeStatus h => 0xF00001000000 + h * 0x10000 + 0x8
  | .homeSnoops h => 0xF00001000000 + h * 0x10000 + 0x10
  | .homeC2c h => 0xF00001000000 + h * 0x10000 + 0x18
  | .homeHoldWaits h => 0xF00001000000 + h * 0x10000 + 0x20
  | .homeSlcHits h => 0xF00001000000 + h * 0x10000 + 0x28
  | .homeSlcMisses h => 0xF00001000000 + h * 0x10000 + 0x30
  | .homeBiasDenied h => 0xF00001000000 + h * 0x10000 + 0x38
  | .dirOccupancy h => 0xF00001000000 + h * 0x10000 + 0x8000
  | .dirEvictions h => 0xF00001000000 + h * 0x10000 + 0x8008
  | .dirRetry h => 0xF00001000000 + h * 0x10000 + 0x8010
  | .homeBiasCmd => 0xF00001000000 + 0x280000
  | .homeBiasCommit => 0xF00001000000 + 0x280008
  | .homeBiasStatus => 0xF00001000000 + 0x280010
  | .homeAddrFaults => 0xF00001000000 + 0x280018
  | .homeBiasMap w => 0xF00001000000 + 0x300000 + w * 0x8
  | .fabPortCfg p => 0xF00003000000 + p * 0x10000
  | .fabPortCommit p => 0xF00003000000 + p * 0x10000 + 0x8
  | .fabPortStatus p => 0xF00003000000 + p * 0x10000 + 0x10
  | .fabPortPeer p => 0xF00003000000 + p * 0x10000 + 0x18
  | .fabPortFec p => 0xF00003000000 + p * 0x10000 + 0x20
  | .fabPortLink p => 0xF00003000000 + p * 0x10000 + 0x28
  | .fabPortEvents p => 0xF00003000000 + p * 0x10000 + 0x30
  | .fabPortFlits p => 0xF00003000000 + p * 0x10000 + 0x38
  | .fabId => 0xF00003000000 + 0x400000
  | .fabStatus => 0xF00003000000 + 0x400008
  | .fabRoot => 0xF00003000000 + 0x400010
  | .fabCfg => 0xF00003000000 + 0x400018
  | .fabVcShare => 0xF00003000000 + 0x400020
  | .fabInbound => 0xF00003000000 + 0x400028
  | .fabCommit => 0xF00003000000 + 0x400030
  | .fabDiscCtrl => 0xF00003000000 + 0x400038
  | .fabDrops => 0xF00003000000 + 0x400040
  | .fabEvents => 0xF00003000000 + 0x400048
  | .fabRouteCommit => 0xF00003000000 + 0x400050
  | .fabRoutePrimary d => 0xF00003000000 + 0x410000 + d * 0x10
  | .fabRouteAlternative d => 0xF00003000000 + 0x410008 + d * 0x10
  | .pcieEpCfg => 0xF00040000000
  | .pcieEpCommit => 0xF00040000000 + 0x8
  | .pcieEpStatus => 0xF00040000000 + 0x10
  | .pcieEpEvents => 0xF00040000000 + 0x18
  | .pcieRpCfg p => 0xF00040000000 + 0x20000 + p * 0x10000
  | .pcieRpCommit p => 0xF00040000000 + 0x20008 + p * 0x10000
  | .pcieRpStatus p => 0xF00040000000 + 0x20010 + p * 0x10000
  | .pcieRpWin p => 0xF00040000000 + 0x20018 + p * 0x10000
  | .pcieRpCfgAddr p => 0xF00040000000 + 0x20020 + p * 0x10000
  | .pcieRpCfgData p => 0xF00040000000 + 0x20028 + p * 0x10000
  | .pcieRpEvents p => 0xF00040000000 + 0x20030 + p * 0x10000
  | .awnBase => 0xF00040000000 + 0x80000
  | .awnCommit => 0xF00040000000 + 0x80008
  | .awnStatus => 0xF00040000000 + 0x80010
  | .dplCommit => 0xF00040000000 + 0x100000
  | .dplStatus => 0xF00040000000 + 0x100008
  | .dplDenied => 0xF00040000000 + 0x100010
  | .dplRegionBase i => 0xF00040000000 + 0x101000 + i * 0x20
  | .dplRegionAttr i => 0xF00040000000 + 0x101008 + i * 0x20
  | .dplRegionKey i => 0xF00040000000 + 0x101010 + i * 0x20
  | .fusePart => 0xF00000010000
  | .fuseSerial => 0xF00000010000 + 0x8
  | .fuseRollback => 0xF00000010000 + 0x10
  | .fuseKeyState => 0xF00000010000 + 0x18
  | .fuseKeyHash s w => 0xF00000010000 + 0x100 + s * 0x20 + w * 0x8
  | .fuseProgData w => 0xF00000010000 + 0x200 + w * 0x8
  | .fuseProgCmd => 0xF00000010000 + 0x220
  | .fuseProgStatus => 0xF00000010000 + 0x228
  | .bootStatus => 0xF00000010000 + 0x8000
  | .bootStraps => 0xF00000010000 + 0x8008
  | .bootImage => 0xF00000010000 + 0x8010
  | .bootDigest w => 0xF00000010000 + 0x8020 + w * 0x8
  | .bootImageId w => 0xF00000010000 + 0x8040 + w * 0x8
  | .bootRepitchCtrl => 0xF00000010000 + 0x8060
  | .bootRepitchStatus => 0xF00000010000 + 0x8068
  | .bootXspiCmd => 0xF00000010000 + 0x8070
  | .clkStatus => 0xF00000000000
  | .clkPhyEvents => 0xF00000000000 + 0x8
  | .rstLastCause => 0xF00000000000 + 0x100
  | .rstDomains => 0xF00000000000 + 0x108
  | .rstGap => 0xF00000000000 + 0x110
  | .rstSwReset => 0xF00000000000 + 0x118
  | .rstWdtCtrl => 0xF00000000000 + 0x120
  | .rstWdtKick => 0xF00000000000 + 0x128
  | .rstWdtStatus => 0xF00000000000 + 0x130
  | .rstUnitTimeout => 0xF00000000000 + 0x138
  | .rstCoreVector => 0xF00000000000 + 0x140
  | .rstUnit u => 0xF00000000000 + 0x1000 + u * 0x8
  | .fltRingBase => 0xF00000030000
  | .fltCtrl => 0xF00000030000 + 0x8
  | .fltCommit => 0xF00000030000 + 0x10
  | .fltTail => 0xF00000030000 + 0x18
  | .fltHead => 0xF00000030000 + 0x20
  | .fltStatus => 0xF00000030000 + 0x28
  | .fltLost => 0xF00000030000 + 0x30
  | .fltNotify => 0xF00000030000 + 0x38
  | .frzCtrl => 0xF00000030000 + 0x8000
  | .frzCfg => 0xF00000030000 + 0x8008
  | .frzTrigger w => 0xF00000030000 + 0x8010 + w * 0x8
  | .frzStatus => 0xF00000030000 + 0x8020
  | .frzTime => 0xF00000030000 + 0x8028
  | .frzRecord w => 0xF00000030000 + 0x8040 + w * 0x8
  | .frzChainSel => 0xF00000030000 + 0x8080
  | .frzChainLen => 0xF00000030000 + 0x8088
  | .frzChainData => 0xF00000030000 + 0x8090
  | .timeNow => 0xF00000020000
  | .timeSet => 0xF00000020000 + 0x8
  | .timeAdj => 0xF00000020000 + 0x10
  | .timeCfg => 0xF00000020000 + 0x18
  | .timeCommit => 0xF00000020000 + 0x20
  | .timeStatus => 0xF00000020000 + 0x28
  | .timePpsIn => 0xF00000020000 + 0x30
  | .timeOffset => 0xF00000020000 + 0x38
  | .timeAlert => 0xF00000020000 + 0x40
  | .timeMac => 0xF00000020000 + 0x100
  | .timeMgmtCfg => 0xF00000020000 + 0x108
  | .timeTemp s => 0xF00000020000 + 0x200 + s * 0x8
  | .timeThermal => 0xF00000020000 + 0x400
  | .timePower => 0xF00000020000 + 0x408
  | .timeEnergy => 0xF00000020000 + 0x410
  | .bootGlPhase => 0xF00000010000 + 0x8100
  | .bootGpio => 0xF00000010000 + 0x8108
  | .bootSideband => 0xF00000010000 + 0x8110
  | .bootTrace => 0xF00000010000 + 0x8118
  | .fuseCompat => 0xF00000010000 + 0x20
  | .pcieMsixTable v w => 0xF00040000000 + 0x8000 + v * 0x10 + w * 0x8
  | .pcieMsixPba w => 0xF00040000000 + 0x10000 + w * 0x8

/-- The field table of a register; bits of no field are reserved (R4). -/
def Reg.fields : Reg → List FieldDesc
  | .tileId n => [⟨0, 9, .ro, false, false, n⟩, ⟨16, 4, .ro, false, true, 0⟩, ⟨20, 4, .ro, false, true, 0⟩, ⟨24, 1, .ro, false, true, 0⟩]
  | .tileCtrl _ => [⟨0, 1, .rw, false, false, 1⟩, ⟨1, 1, .rw, false, false, 1⟩, ⟨2, 1, .rw, false, false, 1⟩, ⟨3, 1, .rw, false, false, 1⟩]
  | .tileStatus _ => [⟨0, 2, .ro, false, false, 0⟩, ⟨4, 4, .ro, false, false, 0⟩, ⟨8, 4, .ro, false, false, 0⟩, ⟨12, 1, .ro, false, false, 0⟩]
  | .tileFault _ => [⟨0, 1, .w1c, false, false, 0⟩, ⟨1, 1, .w1c, false, false, 0⟩, ⟨2, 1, .w1c, false, false, 0⟩, ⟨3, 1, .w1c, false, false, 0⟩, ⟨4, 1, .w1c, false, false, 0⟩, ⟨5, 1, .w1c, false, false, 0⟩, ⟨6, 1, .w1c, false, false, 0⟩]
  | .tileSramCeCount _ => [⟨0, 32, .rc, false, false, 0⟩]
  | .tileArrayStall _ => [⟨0, 64, .rc, false, false, 0⟩]
  | .tileHealthTag _ _ => [⟨0, 32, .rw, false, false, 0⟩, ⟨63, 1, .rw, false, false, 0⟩]
  | .tileHealthCnt _ _ _ => [⟨0, 64, .rc, false, false, 0⟩]
  | .seqCtrl _ => [⟨0, 2, .wo, false, false, 0⟩]
  | .seqEntry _ => [⟨0, 16, .rw, false, false, 0⟩]
  | .seqStatus _ => [⟨0, 16, .ro, false, false, 0⟩, ⟨16, 4, .ro, false, false, 0⟩, ⟨20, 4, .ro, false, false, 0⟩]
  | .seqWatchdog _ => [⟨0, 32, .rw, false, true, 7000000⟩]
  | .maRowMask _ _ => [⟨0, 64, .rw, false, false, 0xFFFFFFFFFFFFFFFF⟩]
  | .maColMask _ _ => [⟨0, 64, .rw, false, false, 0xFFFFFFFFFFFFFFFF⟩]
  | .maRepair _ _ => [⟨0, 6, .ro, false, true, 0⟩, ⟨6, 1, .ro, false, true, 0⟩, ⟨8, 6, .ro, false, true, 0⟩, ⟨14, 1, .ro, false, true, 0⟩, ⟨15, 1, .ro, false, true, 0⟩]
  | .maStatus _ _ => [⟨0, 1, .ro, false, false, 0⟩, ⟨1, 1, .ro, false, false, 0⟩, ⟨2, 1, .ro, false, false, 0⟩]
  | .maPassCount _ _ => [⟨0, 64, .rc, false, false, 0⟩]
  | .maCheckFail _ _ => [⟨0, 32, .rc, false, false, 0⟩]
  | .tileMap _ => [⟨0, 4, .ro, false, true, 0⟩, ⟨4, 4, .ro, false, true, 0⟩, ⟨8, 1, .ro, false, true, 0⟩, ⟨9, 1, .ro, false, true, 0⟩]
  | .tileMapStatus => [⟨0, 16, .ro, false, true, 0⟩, ⟨16, 16, .ro, false, true, 0⟩, ⟨32, 16, .ro, false, true, 0⟩]
  | .vecSrKey _ => [⟨0, 32, .rw, false, false, 0⟩, ⟨32, 32, .rw, false, false, 0⟩]
  | .vecSrIndex _ => [⟨0, 64, .rw, false, false, 0⟩]
  | .vecRetired _ => [⟨0, 64, .rc, false, false, 0⟩]
  | .vecVregSel _ => [⟨0, 6, .rw, false, false, 0⟩]
  | .vecSreg _ _ => [⟨0, 64, .rw, false, false, 0⟩]
  | .vecPreg _ k _ => [⟨0, 64, .rw, false, false, if k = 0 then 0xFFFFFFFFFFFFFFFF else 0⟩]
  | .vecVregData _ _ => [⟨0, 64, .rw, false, false, 0⟩]
  | .agenSetup _ _ _ => [⟨0, 64, .rw, false, false, 0⟩]
  | .agenStatus _ _ => [⟨0, 1, .ro, false, false, 0⟩, ⟨1, 1, .ro, false, false, 0⟩, ⟨8, 6, .ro, false, false, 0⟩, ⟨32, 32, .ro, false, false, 0⟩]
  | .agenSlices _ _ => [⟨0, 64, .rc, false, false, 0⟩]
  | .agenBlocks _ _ => [⟨0, 64, .rc, false, false, 0⟩]
  | .agenHits _ _ => [⟨0, 64, .rc, false, false, 0⟩]
  | .agenHolds _ _ => [⟨0, 64, .rc, false, false, 0⟩]
  | .redGovBase => [⟨10, 54, .rw, true, false, 0⟩]
  | .redGovCtrl => [⟨0, 1, .rw, true, false, 0⟩, ⟨16, 13, .rw, true, false, 0⟩]
  | .redGovThresh => [⟨0, 8, .rw, true, true, 6⟩, ⟨8, 8, .rw, true, true, 12⟩, ⟨16, 8, .rw, true, true, 9⟩, ⟨24, 8, .rw, true, true, 16⟩, ⟨32, 8, .rw, true, true, 16⟩]
  | .redGovCommit => [⟨0, 1, .wo, false, false, 0⟩]
  | .redGovStatus => [⟨0, 32, .rc, false, false, 0⟩, ⟨32, 32, .rc, false, false, 0⟩]
  | .pipeStashCfg => [⟨0, 1, .rw, true, false, 0⟩, ⟨8, 8, .rw, true, false, 0⟩, ⟨16, 9, .rw, true, false, 0⟩]
  | .pipeStashHbmBase => [⟨12, 52, .rw, true, false, 0⟩]
  | .pipeStashHbmSize => [⟨0, 32, .rw, true, false, 0⟩]
  | .pipeStashLpBase => [⟨12, 52, .rw, true, false, 0⟩]
  | .pipeStashLpSize => [⟨0, 32, .rw, true, false, 0⟩]
  | .pipeStashCommit => [⟨0, 1, .wo, false, false, 0⟩]
  | .pipeStashStatus => [⟨0, 1, .ro, false, false, 0⟩, ⟨1, 1, .ro, false, false, 0⟩, ⟨4, 4, .ro, false, false, 0⟩, ⟨8, 8, .ro, false, false, 0⟩, ⟨16, 32, .ro, false, false, 0⟩]
  | .pipeStashUsed => [⟨0, 32, .ro, false, false, 0⟩, ⟨32, 32, .ro, false, false, 0⟩]
  | .pipeStashSpills => [⟨0, 64, .rc, false, false, 0⟩]
  | .pipeStashSwitches => [⟨0, 64, .rc, false, false, 0⟩]
  | .pipeStashHolds => [⟨0, 64, .rc, false, false, 0⟩]
  | .pipeStashBlock _ => [⟨0, 24, .rw, true, false, 0⟩, ⟨24, 2, .rw, true, false, 0⟩]
  | .redBuckets => [⟨0, 64, .rc, false, false, 0⟩]
  | .redChecked => [⟨0, 64, .rc, false, false, 0⟩]
  | .redMismatch => [⟨0, 64, .rc, false, false, 0⟩]
  | .redNonfinite => [⟨0, 64, .rc, false, false, 0⟩]
  | .redEarly => [⟨0, 64, .rc, false, false, 0⟩]
  | .redDiscarded => [⟨0, 64, .rc, false, false, 0⟩]
  | .redPortTakes => [⟨0, 64, .rc, false, false, 0⟩]
  | .redJobCfg _ => [⟨0, 1, .rw, true, false, 0⟩, ⟨6, 58, .rw, true, false, 0⟩]
  | .redJobCommit _ => [⟨0, 1, .wo, false, false, 0⟩]
  | .redJobStatus _ => [⟨0, 1, .ro, false, false, 0⟩, ⟨1, 1, .ro, false, false, 0⟩, ⟨4, 4, .ro, false, false, 0⟩, ⟨8, 8, .ro, false, false, 0⟩, ⟨16, 3, .ro, false, false, 0⟩, ⟨32, 32, .ro, false, false, 0⟩]
  | .redJobEarly _ => [⟨0, 32, .ro, false, false, 0⟩, ⟨32, 32, .ro, false, false, 0⟩]
  | .stateCtrl => [⟨0, 1, .rw, true, false, 0⟩, ⟨8, 21, .rw, true, false, 0⟩]
  | .stateShardBase => [⟨7, 57, .rw, true, false, 0⟩]
  | .statePoolBase => [⟨12, 52, .rw, true, false, 0⟩]
  | .statePoolSize => [⟨12, 36, .rw, true, false, 0⟩]
  | .stateCommit => [⟨0, 1, .wo, false, false, 0⟩]
  | .stateStatus => [⟨0, 4, .ro, false, false, 0⟩, ⟨4, 1, .ro, false, false, 0⟩, ⟨32, 32, .ro, false, false, 0⟩]
  | .stateUpdates => [⟨0, 32, .rc, false, false, 0⟩, ⟨32, 32, .rc, false, false, 0⟩]
  | .stateMisses => [⟨0, 64, .rc, false, false, 0⟩]
  | .stateWaits => [⟨0, 32, .rc, false, false, 0⟩, ⟨32, 32, .rc, false, false, 0⟩]
  | .stateErrors => [⟨0, 32, .rc, false, false, 0⟩, ⟨32, 32, .rc, false, false, 0⟩]
  | .stateDigestMismatch => [⟨0, 64, .rc, false, false, 0⟩]
  | .stateMap _ => [⟨4, 60, .rw, true, false, 0⟩]
  | .pipeCfg => [⟨0, 8, .rw, true, true, 8⟩, ⟨8, 3, .rw, true, false, 2⟩]
  | .pipeLenLimit => [⟨0, 20, .rw, true, true, 4096⟩, ⟨20, 20, .rw, true, true, 8192⟩, ⟨40, 20, .rw, true, true, 16384⟩]
  | .pipeLenWeight => [⟨0, 4, .rw, true, true, 1⟩, ⟨4, 4, .rw, true, true, 2⟩, ⟨8, 4, .rw, true, true, 4⟩, ⟨12, 4, .rw, true, true, 8⟩]
  | .pipeCommit => [⟨0, 1, .wo, false, false, 0⟩]
  | .pipeStatus => [⟨0, 1, .ro, false, false, 0⟩, ⟨1, 1, .ro, false, false, 0⟩, ⟨4, 4, .ro, false, false, 0⟩, ⟨8, 1, .ro, false, false, 0⟩, ⟨32, 32, .ro, false, false, 0⟩]
  | .pipeStep => [⟨0, 64, .ro, false, false, 0⟩]
  | .pipeProgress => [⟨0, 32, .ro, false, false, 0⟩, ⟨32, 32, .ro, false, false, 0⟩]
  | .pipeBubble => [⟨0, 32, .rc, false, false, 0⟩, ⟨32, 32, .rc, false, false, 0⟩]
  | .pipeLong => [⟨0, 32, .rc, false, false, 0⟩, ⟨32, 32, .rc, false, false, 0⟩]
  | .pipeTasks => [⟨0, 64, .rc, false, false, 0⟩]
  | .pipeSteps => [⟨0, 32, .rc, false, false, 0⟩, ⟨32, 32, .rc, false, false, 0⟩]
  | .pipeGroup _ _ => [⟨0, 64, .rw, true, false, 0⟩]
  | .pipeBlock _ => [⟨0, 16, .rw, true, false, 0⟩, ⟨16, 16, .rw, true, false, 0⟩, ⟨32, 5, .rw, true, false, 0⟩, ⟨40, 1, .rw, true, false, 0⟩]
  | .ringBase _ => [⟨12, 52, .rw, true, false, 0⟩]
  | .ringSize _ => [⟨0, 5, .rw, true, false, 0⟩, ⟨8, 5, .rw, true, false, 0⟩]
  | .ringJournalBase _ => [⟨12, 52, .rw, true, false, 0⟩]
  | .ringCfg _ => [⟨0, 13, .rw, true, false, 0⟩, ⟨16, 3, .rw, true, false, 0⟩]
  | .ringCommit _ => [⟨0, 1, .wo, false, false, 0⟩, ⟨1, 1, .wo, false, false, 0⟩]
  | .ringCtrl _ => [⟨0, 2, .wo, false, false, 0⟩]
  | .ringDoorbell _ => [⟨0, 32, .wo, false, false, 0⟩]
  | .ringHead _ => [⟨0, 32, .rw, true, false, 0⟩]
  | .ringTail _ => [⟨0, 32, .ro, false, false, 0⟩]
  | .ringJournalTail _ => [⟨0, 32, .ro, false, false, 0⟩]
  | .ringJournalHead _ => [⟨0, 32, .rw, false, false, 0⟩]
  | .ringStatus _ => [⟨0, 2, .ro, false, false, 0⟩, ⟨4, 4, .ro, false, false, 0⟩, ⟨8, 4, .ro, false, false, 0⟩, ⟨12, 1, .w1c, false, false, 0⟩, ⟨13, 1, .w1c, false, false, 0⟩, ⟨16, 13, .ro, false, false, 0⟩]
  | .ringStats _ => [⟨0, 32, .rc, false, false, 0⟩, ⟨32, 32, .rc, false, false, 0⟩]
  | .ringJournalWaits _ => [⟨0, 64, .rc, false, false, 0⟩]
  | .pegValue _ => [⟨0, 63, .rw, false, false, 0⟩, ⟨63, 1, .rw, false, false, 0⟩]
  | .pegAdd _ => [⟨0, 63, .wo, false, false, 0⟩, ⟨63, 1, .wo, false, false, 0⟩]
  | .pegMirror _ => [⟨0, 1, .rw, false, false, 0⟩, ⟨3, 61, .rw, false, false, 0⟩]
  | .pegWaiters _ => [⟨0, 17, .ro, false, false, 0⟩, ⟨32, 9, .ro, false, false, 0⟩]
  | .pipePrioWeight => [⟨0, 8, .rw, true, true, 1⟩, ⟨8, 8, .rw, true, true, 2⟩, ⟨16, 8, .rw, true, true, 3⟩, ⟨24, 8, .rw, true, true, 4⟩, ⟨32, 8, .rw, true, true, 6⟩, ⟨40, 8, .rw, true, true, 8⟩, ⟨48, 8, .rw, true, true, 12⟩, ⟨56, 8, .rw, true, true, 16⟩]
  | .pipeAgeLimit => [⟨0, 32, .rw, true, true, 100000⟩]
  | .pipeAdmitCommit => [⟨0, 1, .wo, false, false, 0⟩]
  | .pipeTracker => [⟨0, 17, .ro, false, false, 0⟩, ⟨32, 17, .ro, false, false, 0⟩]
  | .hbmcStatus _ => [⟨0, 1, .ro, false, false, 0⟩, ⟨1, 1, .ro, false, false, 0⟩, ⟨2, 1, .ro, false, false, 0⟩, ⟨8, 8, .ro, false, false, 0⟩, ⟨16, 1, .ro, false, false, 0⟩, ⟨17, 1, .ro, false, false, 0⟩]
  | .hbmcCeCount _ => [⟨0, 64, .rc, false, false, 0⟩]
  | .hbmcUeCount _ => [⟨0, 32, .rc, false, false, 0⟩, ⟨32, 32, .rc, false, false, 0⟩]
  | .hbmcStackEcs _ => [⟨0, 64, .rc, false, false, 0⟩]
  | .hbmcScrubCfg _ => [⟨0, 1, .rw, true, false, 1⟩, ⟨16, 32, .rw, true, true, 28800⟩]
  | .hbmcScrubStatus _ => [⟨0, 32, .ro, false, false, 0⟩, ⟨32, 16, .ro, false, false, 0⟩]
  | .hbmcRepairCfg _ => [⟨0, 1, .rw, true, true, 1⟩, ⟨8, 8, .rw, true, true, 4⟩]
  | .hbmcRepairStatus _ => [⟨0, 16, .ro, false, false, 0⟩, ⟨16, 8, .ro, false, true, 0⟩, ⟨24, 8, .ro, false, false, 0⟩, ⟨32, 16, .ro, false, false, 0⟩]
  | .hbmcCommit _ => [⟨0, 1, .wo, false, false, 0⟩]
  | .lpmcPop _ => [⟨0, 8, .ro, false, true, 0⟩, ⟨8, 4, .ro, false, true, 0⟩, ⟨12, 1, .ro, false, true, 0⟩, ⟨13, 2, .ro, false, true, 0⟩]
  | .hbmcHbmSize => [⟨0, 48, .ro, false, true, 0⟩]
  | .hbmcLpSize => [⟨0, 48, .ro, false, true, 0⟩]
  | .homeId h => [⟨0, 6, .ro, false, false, h⟩, ⟨6, 1, .ro, false, false, h / 32⟩, ⟨8, 8, .ro, false, false, if h < 32 then 5 else 4⟩]
  | .homeStatus _ => [⟨0, 1, .ro, false, false, 0⟩, ⟨16, 16, .ro, false, false, 0⟩, ⟨32, 16, .ro, false, false, 0⟩]
  | .homeSnoops _ => [⟨0, 64, .rc, false, false, 0⟩]
  | .homeC2c _ => [⟨0, 64, .rc, false, false, 0⟩]
  | .homeHoldWaits _ => [⟨0, 64, .rc, false, false, 0⟩]
  | .homeSlcHits _ => [⟨0, 64, .rc, false, false, 0⟩]
  | .homeSlcMisses _ => [⟨0, 64, .rc, false, false, 0⟩]
  | .homeBiasDenied _ => [⟨0, 64, .rc, false, false, 0⟩]
  | .dirOccupancy _ => [⟨0, 18, .ro, false, false, 0⟩, ⟨32, 18, .ro, false, false, 0⟩]
  | .dirEvictions _ => [⟨0, 64, .rc, false, false, 0⟩]
  | .dirRetry _ => [⟨0, 32, .rc, false, false, 0⟩, ⟨32, 32, .rc, false, false, 0⟩]
  | .homeBiasCmd => [⟨0, 22, .rw, true, false, 0⟩, ⟨22, 22, .rw, true, false, 0⟩, ⟨44, 1, .rw, true, false, 0⟩, ⟨45, 1, .rw, true, false, 0⟩, ⟨46, 16, .rw, true, false, 0⟩]
  | .homeBiasCommit => [⟨0, 1, .wo, false, false, 0⟩]
  | .homeBiasStatus => [⟨0, 1, .ro, false, false, 0⟩, ⟨4, 4, .ro, false, false, 0⟩, ⟨32, 32, .ro, false, false, 0⟩]
  | .homeAddrFaults => [⟨0, 64, .rc, false, false, 0⟩]
  | .homeBiasMap _ => [⟨0, 64, .ro, false, false, 0⟩]
  | .fabPortCfg _ => [⟨0, 1, .rw, true, true, 0⟩]
  | .fabPortCommit _ => [⟨0, 1, .wo, false, false, 0⟩]
  | .fabPortStatus _ => [⟨0, 3, .ro, false, false, 0⟩, ⟨8, 4, .ro, false, false, 0⟩, ⟨12, 6, .ro, false, false, 0⟩, ⟨18, 12, .ro, false, false, 0⟩, ⟨30, 1, .ro, false, false, 0⟩, ⟨31, 1, .ro, false, false, 0⟩]
  | .fabPortPeer _ => [⟨0, 64, .ro, false, false, 0⟩]
  | .fabPortFec _ => [⟨0, 32, .rc, false, false, 0⟩, ⟨32, 32, .rc, false, false, 0⟩]
  | .fabPortLink _ => [⟨0, 32, .rc, false, false, 0⟩, ⟨32, 32, .rc, false, false, 0⟩]
  | .fabPortEvents _ => [⟨0, 16, .rc, false, false, 0⟩, ⟨16, 16, .rc, false, false, 0⟩, ⟨32, 32, .rc, false, false, 0⟩]
  | .fabPortFlits _ => [⟨0, 32, .rc, false, false, 0⟩, ⟨32, 32, .rc, false, false, 0⟩]
  | .fabId => [⟨0, 12, .ro, false, false, 0⟩, ⟨12, 1, .ro, false, false, 0⟩, ⟨13, 1, .ro, false, false, 0⟩, ⟨14, 1, .ro, false, false, 0⟩, ⟨16, 16, .ro, false, false, 0⟩]
  | .fabStatus => [⟨0, 3, .ro, false, false, 0⟩, ⟨4, 4, .ro, false, false, 0⟩, ⟨8, 7, .ro, false, false, 0⟩, ⟨16, 12, .ro, false, false, 0⟩, ⟨32, 32, .ro, false, false, 0⟩]
  | .fabRoot => [⟨0, 64, .ro, false, false, 0⟩]
  | .fabCfg => [⟨0, 3, .rw, true, true, 2⟩, ⟨3, 1, .rw, true, true, 0⟩, ⟨4, 8, .rw, true, true, 20⟩, ⟨12, 10, .rw, true, true, 640⟩, ⟨32, 24, .rw, true, true, 10000⟩]
  | .fabVcShare => [⟨0, 8, .rw, true, true, 4⟩, ⟨8, 8, .rw, true, true, 48⟩, ⟨16, 8, .rw, true, true, 40⟩, ⟨24, 8, .rw, true, true, 64⟩, ⟨32, 8, .rw, true, true, 92⟩, ⟨40, 8, .rw, true, true, 8⟩]
  | .fabInbound => [⟨0, 1, .rw, true, true, 1⟩, ⟨1, 1, .rw, true, true, 1⟩, ⟨2, 1, .rw, true, true, 1⟩, ⟨3, 1, .rw, true, true, 0⟩]
  | .fabCommit => [⟨0, 1, .wo, false, false, 0⟩]
  | .fabDiscCtrl => [⟨0, 1, .wo, false, false, 0⟩]
  | .fabDrops => [⟨0, 16, .rc, false, false, 0⟩, ⟨16, 16, .rc, false, false, 0⟩, ⟨32, 16, .rc, false, false, 0⟩, ⟨48, 16, .rc, false, false, 0⟩]
  | .fabEvents => [⟨0, 32, .rc, false, false, 0⟩, ⟨32, 32, .rc, false, false, 0⟩]
  | .fabRouteCommit => [⟨0, 1, .wo, false, false, 0⟩]
  | .fabRoutePrimary _ => [⟨0, 64, .rw, true, false, 0⟩]
  | .fabRouteAlternative _ => [⟨0, 64, .rw, true, false, 0⟩]
  | .pcieEpCfg => [⟨0, 1, .rw, true, true, 0⟩]
  | .pcieEpCommit => [⟨0, 1, .wo, false, false, 0⟩]
  | .pcieEpStatus => [⟨0, 1, .ro, false, false, 0⟩, ⟨1, 3, .ro, false, false, 0⟩, ⟨4, 5, .ro, false, false, 0⟩, ⟨9, 1, .ro, false, false, 0⟩, ⟨10, 1, .ro, false, false, 0⟩, ⟨11, 1, .ro, false, false, 0⟩]
  | .pcieEpEvents => [⟨0, 32, .rc, false, false, 0⟩, ⟨32, 32, .rc, false, false, 0⟩]
  | .pcieRpCfg _ => [⟨0, 1, .rw, true, true, 0⟩]
  | .pcieRpCommit _ => [⟨0, 1, .wo, false, false, 0⟩]
  | .pcieRpStatus _ => [⟨0, 1, .ro, false, false, 0⟩, ⟨1, 3, .ro, false, false, 0⟩, ⟨4, 5, .ro, false, false, 0⟩]
  | .pcieRpWin _ => [⟨21, 43, .rw, false, false, 0⟩]
  | .pcieRpCfgAddr _ => [⟨0, 12, .rw, false, false, 0⟩, ⟨12, 3, .rw, false, false, 0⟩, ⟨15, 5, .rw, false, false, 0⟩, ⟨20, 8, .rw, false, false, 0⟩]
  | .pcieRpCfgData _ => [⟨0, 32, .rw, false, false, 0⟩]
  | .pcieRpEvents _ => [⟨0, 32, .rc, false, false, 0⟩, ⟨32, 32, .rc, false, false, 0⟩]
  | .awnBase => [⟨28, 20, .rw, true, false, 0⟩]
  | .awnCommit => [⟨0, 1, .wo, false, false, 0⟩]
  | .awnStatus => [⟨28, 20, .ro, false, false, 0⟩]
  | .dplCommit => [⟨0, 1, .wo, false, false, 0⟩]
  | .dplStatus => [⟨0, 4, .ro, false, false, 0⟩, ⟨32, 32, .ro, false, false, 0⟩]
  | .dplDenied => [⟨0, 64, .rc, false, false, 0⟩]
  | .dplRegionBase _ => [⟨12, 36, .rw, true, false, 0⟩]
  | .dplRegionAttr _ => [⟨0, 21, .rw, true, false, 0⟩, ⟨21, 1, .rw, true, false, 0⟩, ⟨22, 1, .rw, true, false, 0⟩, ⟨23, 4, .rw, true, false, 0⟩]
  | .dplRegionKey _ => [⟨0, 32, .rw, true, false, 0⟩, ⟨32, 1, .rw, true, false, 0⟩]
  | .fusePart => [⟨0, 16, .ro, false, false, 0⟩, ⟨16, 16, .ro, false, false, 0⟩, ⟨32, 8, .ro, false, false, 0⟩, ⟨40, 4, .ro, false, false, 0⟩]
  | .fuseSerial => [⟨0, 64, .ro, false, false, 0⟩]
  | .fuseRollback => [⟨0, 6, .ro, false, false, 0⟩]
  | .fuseKeyState => [⟨0, 4, .ro, false, false, 1⟩, ⟨4, 4, .ro, false, false, 0⟩]
  | .fuseKeyHash _ _ => [⟨0, 64, .ro, false, false, 0⟩]
  | .fuseProgData _ => [⟨0, 64, .rw, false, false, 0⟩]
  | .fuseProgCmd => [⟨0, 2, .wo, false, false, 0⟩, ⟨2, 2, .wo, false, false, 0⟩, ⟨4, 6, .wo, false, false, 0⟩, ⟨32, 32, .wo, false, false, 0⟩]
  | .fuseProgStatus => [⟨0, 1, .ro, false, false, 0⟩, ⟨4, 4, .ro, false, false, 0⟩, ⟨16, 16, .ro, false, false, 0⟩]
  | .bootStatus => [⟨0, 3, .ro, false, false, 0⟩, ⟨4, 4, .ro, false, false, 0⟩, ⟨8, 1, .ro, false, false, 0⟩, ⟨9, 1, .ro, false, false, 0⟩, ⟨10, 2, .ro, false, false, 0⟩]
  | .bootStraps => [⟨0, 32, .ro, false, false, 0⟩]
  | .bootImage => [⟨0, 8, .ro, false, true, 0⟩, ⟨8, 2, .ro, false, true, 0⟩, ⟨16, 21, .ro, false, true, 0⟩]
  | .bootDigest _ => [⟨0, 64, .ro, false, true, 0⟩]
  | .bootImageId _ => [⟨0, 64, .ro, false, true, 0⟩]
  | .bootRepitchCtrl => [⟨0, 2, .wo, false, false, 0⟩]
  | .bootRepitchStatus => [⟨0, 2, .ro, false, false, 0⟩, ⟨2, 1, .ro, false, false, 0⟩, ⟨3, 1, .ro, false, false, 0⟩, ⟨4, 4, .ro, false, false, 0⟩, ⟨8, 4, .ro, false, false, 0⟩]
  | .bootXspiCmd => [⟨0, 8, .wo, false, false, 0⟩, ⟨8, 1, .wo, false, false, 0⟩, ⟨9, 1, .wo, false, false, 0⟩, ⟨16, 9, .wo, false, false, 0⟩, ⟨32, 32, .wo, false, false, 0⟩]
  | .clkStatus => [⟨0, 1, .ro, false, false, 0⟩, ⟨1, 1, .ro, false, false, 0⟩, ⟨2, 1, .ro, false, false, 0⟩, ⟨3, 5, .ro, false, false, 0⟩, ⟨8, 1, .ro, false, false, 0⟩, ⟨9, 1, .ro, false, false, 0⟩]
  | .clkPhyEvents => [⟨0, 32, .rc, false, false, 0⟩, ⟨32, 32, .rc, false, false, 0⟩]
  | .rstLastCause => [⟨0, 4, .ro, false, false, 1⟩]
  | .rstDomains => [⟨0, 9, .ro, false, false, 0⟩, ⟨12, 4, .ro, false, false, 0xF⟩]
  | .rstGap => [⟨0, 16, .rw, false, true, 64⟩]
  | .rstSwReset => [⟨0, 32, .wo, false, false, 0⟩]
  | .rstWdtCtrl => [⟨0, 1, .rw, false, false, 0⟩, ⟨32, 32, .rw, false, false, 0⟩]
  | .rstWdtKick => [⟨0, 32, .wo, false, false, 0⟩]
  | .rstWdtStatus => [⟨0, 32, .ro, false, false, 0⟩]
  | .rstUnitTimeout => [⟨0, 32, .rw, false, true, 1000⟩]
  | .rstCoreVector => [⟨2, 46, .rw, false, false, 0⟩]
  | .rstUnit u => [⟨0, 2, .wo, false, false, 0⟩, ⟨2, 2, .ro, false, false, if 384 ≤ u ∧ u < 480 then 3 else 0⟩, ⟨4, 1, .ro, false, false, 0⟩, ⟨5, 1, .w1c, false, false, 0⟩, ⟨32, 32, .rc, false, false, 0⟩]
  | .fltRingBase => [⟨12, 52, .rw, true, false, 0⟩]
  | .fltCtrl => [⟨0, 1, .rw, true, false, 0⟩, ⟨8, 5, .rw, true, false, 0⟩, ⟨16, 2, .rw, true, true, 2⟩]
  | .fltCommit => [⟨0, 1, .wo, false, false, 0⟩]
  | .fltTail => [⟨0, 32, .ro, false, false, 0⟩]
  | .fltHead => [⟨0, 32, .rw, false, false, 0⟩]
  | .fltStatus => [⟨0, 1, .w1c, false, false, 0⟩, ⟨1, 1, .w1c, false, false, 0⟩, ⟨4, 4, .ro, false, false, 0⟩, ⟨8, 9, .ro, false, false, 0⟩]
  | .fltLost => [⟨0, 64, .rc, false, false, 0⟩]
  | .fltNotify => [⟨0, 7, .rw, false, false, 0⟩, ⟨7, 1, .rw, false, false, 0⟩, ⟨8, 8, .rw, false, false, 0⟩, ⟨16, 11, .rw, false, false, 0⟩, ⟨27, 1, .rw, false, false, 0⟩]
  | .frzCtrl => [⟨0, 32, .wo, false, false, 0⟩]
  | .frzCfg => [⟨0, 1, .rw, false, true, 0⟩]
  | .frzTrigger _ => [⟨0, 64, .rw, false, true, 0⟩]
  | .frzStatus => [⟨0, 1, .ro, false, false, 0⟩, ⟨1, 2, .ro, false, false, 0⟩, ⟨8, 8, .ro, false, false, 0⟩]
  | .frzTime => [⟨0, 64, .ro, false, false, 0⟩]
  | .frzRecord _ => [⟨0, 64, .ro, false, false, 0⟩]
  | .frzChainSel => [⟨0, 16, .rw, false, false, 0⟩, ⟨16, 32, .rw, false, false, 0⟩]
  | .frzChainLen => [⟨0, 32, .ro, false, false, 0⟩]
  | .frzChainData => [⟨0, 64, .ro, false, false, 0⟩]
  | .timeNow => [⟨0, 64, .ro, false, false, 0⟩]
  | .timeSet => [⟨0, 64, .wo, false, false, 0⟩]
  | .timeAdj => [⟨0, 32, .rw, true, false, 0⟩, ⟨32, 32, .rw, true, false, 0⟩]
  | .timeCfg => [⟨0, 2, .rw, true, false, 0⟩, ⟨2, 1, .rw, true, true, 1⟩, ⟨3, 1, .rw, true, true, 0⟩, ⟨8, 8, .rw, true, true, 4⟩, ⟨16, 32, .rw, true, true, 1000⟩]
  | .timeCommit => [⟨0, 1, .wo, false, false, 0⟩]
  | .timeStatus => [⟨0, 2, .ro, false, false, 0⟩, ⟨2, 1, .w1c, false, false, 0⟩, ⟨4, 4, .ro, false, false, 0⟩, ⟨32, 32, .ro, false, false, 0⟩]
  | .timePpsIn => [⟨0, 64, .ro, false, false, 0⟩]
  | .timeOffset => [⟨0, 64, .rw, false, false, 0⟩]
  | .timeAlert => [⟨0, 1, .w1c, false, false, 0⟩, ⟨1, 1, .w1c, false, false, 0⟩, ⟨2, 1, .w1c, false, false, 0⟩, ⟨3, 1, .w1c, false, false, 0⟩]
  | .timeMac => [⟨0, 48, .ro, false, false, 0⟩]
  | .timeMgmtCfg => [⟨0, 48, .rw, false, true, 0⟩, ⟨48, 1, .rw, false, true, 1⟩, ⟨49, 1, .rw, false, true, 1⟩]
  | .timeTemp _ => [⟨0, 16, .ro, false, false, 0⟩, ⟨16, 16, .rc, false, false, 0⟩]
  | .timeThermal => [⟨0, 8, .rw, false, true, 95⟩, ⟨16, 16, .rw, false, true, 2750⟩]
  | .timePower => [⟨0, 16, .ro, false, false, 0⟩, ⟨16, 16, .ro, false, false, 0⟩, ⟨32, 16, .ro, false, false, 0⟩, ⟨48, 16, .ro, false, false, 0⟩]
  | .timeEnergy => [⟨0, 64, .ro, false, false, 0⟩]
  | .bootGlPhase => [⟨0, 2, .ro, false, false, 0⟩, ⟨2, 2, .ro, false, false, 0⟩, ⟨4, 1, .ro, false, false, 0⟩, ⟨5, 1, .ro, false, false, 0⟩]
  | .bootGpio => [⟨0, 16, .rw, false, true, 0⟩, ⟨16, 16, .rw, false, true, 0⟩, ⟨32, 16, .ro, false, false, 0⟩]
  | .bootSideband => [⟨0, 1, .rw, false, true, 1⟩, ⟨1, 1, .rw, false, true, 1⟩, ⟨2, 1, .rw, false, true, 0⟩, ⟨4, 1, .ro, false, false, 0⟩, ⟨5, 1, .ro, false, false, 0⟩, ⟨6, 1, .w1c, false, false, 0⟩, ⟨7, 1, .w1c, false, false, 0⟩]
  | .bootTrace => [⟨0, 1, .rw, false, true, 0⟩, ⟨1, 1, .rw, false, true, 1⟩, ⟨2, 1, .rw, false, true, 1⟩, ⟨8, 8, .rw, false, true, 100⟩, ⟨16, 16, .rc, false, false, 0⟩]
  | .fuseCompat => [⟨0, 8, .ro, false, false, 1⟩, ⟨8, 8, .ro, false, false, 1⟩, ⟨16, 4, .ro, false, false, 2⟩, ⟨32, 16, .ro, false, false, 6⟩, ⟨48, 8, .ro, false, false, 1⟩]
  | .pcieMsixTable _ w => [⟨0, 64, .rw, false, false, if w = 1 then 0x100000000 else 0⟩]
  | .pcieMsixPba _ => [⟨0, 64, .ro, false, false, 0⟩]

/-- The TILE block of tile n at block offset o. -/
def Reg.inTile (n o : Nat) : Option Reg :=
  if o = 0x0 then some (.tileId n) else
  if o = 0x8 then some (.tileCtrl n) else
  if o = 0x10 then some (.tileStatus n) else
  if o = 0x18 then some (.tileFault n) else
  if o = 0x20 then some (.tileSramCeCount n) else
  if o = 0x28 then some (.tileArrayStall n) else
  if 0x100 ≤ o ∧ (o - 0x100) / 0x8 ≤ 15 ∧ ((o - 0x100) % 0x8) = 0 then some (.tileHealthTag n ((o - 0x100) / 0x8)) else
  if 0x200 ≤ o ∧ (o - 0x200) / 0x20 ≤ 16 ∧ ((o - 0x200) % 0x20) / 0x8 ≤ 3 ∧ (((o - 0x200) % 0x20) % 0x8) = 0 then some (.tileHealthCnt n ((o - 0x200) / 0x20) (((o - 0x200) % 0x20) / 0x8)) else
  none

/-- The SEQ block of tile n. -/
def Reg.inSeq (n o : Nat) : Option Reg :=
  if o = 0x0 then some (.seqCtrl n) else
  if o = 0x8 then some (.seqEntry n) else
  if o = 0x10 then some (.seqStatus n) else
  if o = 0x18 then some (.seqWatchdog n) else
  none

/-- AGEN a of tile n. -/
def Reg.inAgen (n a o : Nat) : Option Reg :=
  if 0x0 ≤ o ∧ (o - 0x0) / 0x8 ≤ 7 ∧ ((o - 0x0) % 0x8) = 0 then some (.agenSetup n a ((o - 0x0) / 0x8)) else
  if o = 0x40 then some (.agenStatus n a) else
  if o = 0x48 then some (.agenSlices n a) else
  if o = 0x50 then some (.agenBlocks n a) else
  if o = 0x58 then some (.agenHits n a) else
  if o = 0x60 then some (.agenHolds n a) else
  none

/-- Array m of tile n. -/
def Reg.inMa (n m o : Nat) : Option Reg :=
  if o = 0x0 then some (.maRowMask n m) else
  if o = 0x8 then some (.maColMask n m) else
  if o = 0x10 then some (.maRepair n m) else
  if o = 0x18 then some (.maStatus n m) else
  if o = 0x20 then some (.maPassCount n m) else
  if o = 0x28 then some (.maCheckFail n m) else
  none

/-- The VEC block of tile n. -/
def Reg.inVec (n o : Nat) : Option Reg :=
  if o = 0x0 then some (.vecSrKey n) else
  if o = 0x8 then some (.vecSrIndex n) else
  if o = 0x10 then some (.vecRetired n) else
  if o = 0x18 then some (.vecVregSel n) else
  if 0x100 ≤ o ∧ (o - 0x100) / 0x8 ≤ 31 ∧ ((o - 0x100) % 0x8) = 0 then some (.vecSreg n ((o - 0x100) / 0x8)) else
  if 0x200 ≤ o ∧ (o - 0x200) / 0x20 ≤ 15 ∧ ((o - 0x200) % 0x20) / 0x8 ≤ 3 ∧ (((o - 0x200) % 0x20) % 0x8) = 0 then some (.vecPreg n ((o - 0x200) / 0x20) (((o - 0x200) % 0x20) / 0x8)) else
  if 0x400 ≤ o ∧ (o - 0x400) / 0x8 ≤ 127 ∧ ((o - 0x400) % 0x8) = 0 then some (.vecVregData n ((o - 0x400) / 0x8)) else
  none

/-- The global tile registers, offset from the TILE block base. -/
def Reg.inTileGlobal (o : Nat) : Option Reg :=
  if 0x18000000 ≤ o ∧ (o - 0x18000000) / 0x8 ≤ 383 ∧ ((o - 0x18000000) % 0x8) = 0 then some (.tileMap ((o - 0x18000000) / 0x8)) else
  if o = 0x18000C00 then some (.tileMapStatus) else
  none

/-- The page of ring r. -/
def Reg.inRing (r o : Nat) : Option Reg :=
  if o = 0x0 then some (.ringBase r) else
  if o = 0x8 then some (.ringSize r) else
  if o = 0x10 then some (.ringJournalBase r) else
  if o = 0x18 then some (.ringCfg r) else
  if o = 0x20 then some (.ringCommit r) else
  if o = 0x28 then some (.ringCtrl r) else
  if o = 0x30 then some (.ringDoorbell r) else
  if o = 0x38 then some (.ringHead r) else
  if o = 0x40 then some (.ringTail r) else
  if o = 0x48 then some (.ringJournalTail r) else
  if o = 0x50 then some (.ringJournalHead r) else
  if o = 0x58 then some (.ringStatus r) else
  if o = 0x60 then some (.ringStats r) else
  if o = 0x68 then some (.ringJournalWaits r) else
  none

/-- The registers of peg p. -/
def Reg.inPeg (p o : Nat) : Option Reg :=
  if o = 0x0 then some (.pegValue p) else
  if o = 0x8 then some (.pegAdd p) else
  if o = 0x10 then some (.pegMirror p) else
  if o = 0x18 then some (.pegWaiters p) else
  none

/-- The registers of memory-controller instance i. -/
def Reg.inMc (i o : Nat) : Option Reg :=
  if o = 0x0 then some (.hbmcStatus i) else
  if o = 0x8 then some (.hbmcCeCount i) else
  if o = 0x10 then some (.hbmcUeCount i) else
  if o = 0x18 then some (.hbmcStackEcs i) else
  if o = 0x20 then some (.hbmcScrubCfg i) else
  if o = 0x28 then some (.hbmcScrubStatus i) else
  if o = 0x30 then some (.hbmcRepairCfg i) else
  if o = 0x38 then some (.hbmcRepairStatus i) else
  if o = 0x40 then some (.hbmcCommit i) else
  none

/-- The global registers of the HBMC block. -/
def Reg.inMcGlobal (o : Nat) : Option Reg :=
  if o = 0x1F0000 then some (.hbmcHbmSize) else
  if o = 0x1F0008 then some (.hbmcLpSize) else
  none

/-- The HOME and DIR registers of home agent h. -/
def Reg.inHome (h o : Nat) : Option Reg :=
  if o = 0x0 then some (.homeId h) else
  if o = 0x8 then some (.homeStatus h) else
  if o = 0x10 then some (.homeSnoops h) else
  if o = 0x18 then some (.homeC2c h) else
  if o = 0x20 then some (.homeHoldWaits h) else
  if o = 0x28 then some (.homeSlcHits h) else
  if o = 0x30 then some (.homeSlcMisses h) else
  if o = 0x38 then some (.homeBiasDenied h) else
  if o = 0x8000 then some (.dirOccupancy h) else
  if o = 0x8008 then some (.dirEvictions h) else
  if o = 0x8010 then some (.dirRetry h) else
  none

/-- The global registers of the HOME block and the bias map. -/
def Reg.inHomeGlobal (o : Nat) : Option Reg :=
  if o = 0x280000 then some (.homeBiasCmd) else
  if o = 0x280008 then some (.homeBiasCommit) else
  if o = 0x280010 then some (.homeBiasStatus) else
  if o = 0x280018 then some (.homeAddrFaults) else
  if 0x300000 ≤ o ∧ (o - 0x300000) / 0x8 ≤ 40959 ∧ ((o - 0x300000) % 0x8) = 0 then some (.homeBiasMap ((o - 0x300000) / 0x8)) else
  none

/-- The registers of fabric port p. -/
def Reg.inPort (p o : Nat) : Option Reg :=
  if o = 0x0 then some (.fabPortCfg p) else
  if o = 0x8 then some (.fabPortCommit p) else
  if o = 0x10 then some (.fabPortStatus p) else
  if o = 0x18 then some (.fabPortPeer p) else
  if o = 0x20 then some (.fabPortFec p) else
  if o = 0x28 then some (.fabPortLink p) else
  if o = 0x30 then some (.fabPortEvents p) else
  if o = 0x38 then some (.fabPortFlits p) else
  none

/-- The global registers of the FAB block and the routing table. -/
def Reg.inFabGlobal (o : Nat) : Option Reg :=
  if o = 0x400000 then some (.fabId) else
  if o = 0x400008 then some (.fabStatus) else
  if o = 0x400010 then some (.fabRoot) else
  if o = 0x400018 then some (.fabCfg) else
  if o = 0x400020 then some (.fabVcShare) else
  if o = 0x400028 then some (.fabInbound) else
  if o = 0x400030 then some (.fabCommit) else
  if o = 0x400038 then some (.fabDiscCtrl) else
  if o = 0x400040 then some (.fabDrops) else
  if o = 0x400048 then some (.fabEvents) else
  if o = 0x400050 then some (.fabRouteCommit) else
  if 0x410000 ≤ o ∧ (o - 0x410000) / 0x10 ≤ 4095 ∧ ((o - 0x410000) % 0x10) = 0 then some (.fabRoutePrimary ((o - 0x410000) / 0x10)) else
  if 0x410008 ≤ o ∧ (o - 0x410008) / 0x10 ≤ 4095 ∧ ((o - 0x410008) % 0x10) = 0 then some (.fabRouteAlternative ((o - 0x410008) / 0x10)) else
  none

/-- The RED block. -/
def Reg.inRed (o : Nat) : Option Reg :=
  if o = 0xF000 then some (.redGovBase) else
  if o = 0xF008 then some (.redGovCtrl) else
  if o = 0xF010 then some (.redGovThresh) else
  if o = 0xF018 then some (.redGovCommit) else
  if o = 0xF020 then some (.redGovStatus) else
  if o = 0x0 then some (.redBuckets) else
  if o = 0x8 then some (.redChecked) else
  if o = 0x10 then some (.redMismatch) else
  if o = 0x18 then some (.redNonfinite) else
  if o = 0x20 then some (.redEarly) else
  if o = 0x28 then some (.redDiscarded) else
  if o = 0x30 then some (.redPortTakes) else
  if 0x1000 ≤ o ∧ (o - 0x1000) / 0x20 ≤ 255 ∧ ((o - 0x1000) % 0x20) = 0 then some (.redJobCfg ((o - 0x1000) / 0x20)) else
  if 0x1008 ≤ o ∧ (o - 0x1008) / 0x20 ≤ 255 ∧ ((o - 0x1008) % 0x20) = 0 then some (.redJobCommit ((o - 0x1008) / 0x20)) else
  if 0x1010 ≤ o ∧ (o - 0x1010) / 0x20 ≤ 255 ∧ ((o - 0x1010) % 0x20) = 0 then some (.redJobStatus ((o - 0x1010) / 0x20)) else
  if 0x1018 ≤ o ∧ (o - 0x1018) / 0x20 ≤ 255 ∧ ((o - 0x1018) % 0x20) = 0 then some (.redJobEarly ((o - 0x1018) / 0x20)) else
  none

/-- The STATE block. -/
def Reg.inState (o : Nat) : Option Reg :=
  if o = 0x0 then some (.stateCtrl) else
  if o = 0x8 then some (.stateShardBase) else
  if o = 0x10 then some (.statePoolBase) else
  if o = 0x18 then some (.statePoolSize) else
  if o = 0x20 then some (.stateCommit) else
  if o = 0x28 then some (.stateStatus) else
  if o = 0x30 then some (.stateUpdates) else
  if o = 0x38 then some (.stateMisses) else
  if o = 0x40 then some (.stateWaits) else
  if o = 0x1000 then some (.stateErrors) else
  if o = 0x1008 then some (.stateDigestMismatch) else
  if 0x1010 ≤ o ∧ (o - 0x1010) / 0x8 ≤ 255 ∧ ((o - 0x1010) % 0x8) = 0 then some (.stateMap ((o - 0x1010) / 0x8)) else
  none

/-- The PIPE block. -/
def Reg.inPipe (o : Nat) : Option Reg :=
  if o = 0x8000 then some (.pipeStashCfg) else
  if o = 0x8008 then some (.pipeStashHbmBase) else
  if o = 0x8010 then some (.pipeStashHbmSize) else
  if o = 0x8018 then some (.pipeStashLpBase) else
  if o = 0x8020 then some (.pipeStashLpSize) else
  if o = 0x8028 then some (.pipeStashCommit) else
  if o = 0x8030 then some (.pipeStashStatus) else
  if o = 0x8038 then some (.pipeStashUsed) else
  if o = 0x8040 then some (.pipeStashSpills) else
  if o = 0x8048 then some (.pipeStashSwitches) else
  if o = 0x8050 then some (.pipeStashHolds) else
  if 0x8400 ≤ o ∧ (o - 0x8400) / 0x8 ≤ 255 ∧ ((o - 0x8400) % 0x8) = 0 then some (.pipeStashBlock ((o - 0x8400) / 0x8)) else
  if o = 0x0 then some (.pipeCfg) else
  if o = 0x8 then some (.pipeLenLimit) else
  if o = 0x10 then some (.pipeLenWeight) else
  if o = 0x18 then some (.pipeCommit) else
  if o = 0x20 then some (.pipeStatus) else
  if o = 0x28 then some (.pipeStep) else
  if o = 0x30 then some (.pipeProgress) else
  if o = 0x38 then some (.pipeBubble) else
  if o = 0x40 then some (.pipeLong) else
  if o = 0x48 then some (.pipeTasks) else
  if o = 0x50 then some (.pipeSteps) else
  if 0x1000 ≤ o ∧ (o - 0x1000) / 0x40 ≤ 31 ∧ ((o - 0x1000) % 0x40) / 0x8 ≤ 5 ∧ (((o - 0x1000) % 0x40) % 0x8) = 0 then some (.pipeGroup ((o - 0x1000) / 0x40) (((o - 0x1000) % 0x40) / 0x8)) else
  if 0x4000 ≤ o ∧ (o - 0x4000) / 0x8 ≤ 255 ∧ ((o - 0x4000) % 0x8) = 0 then some (.pipeBlock ((o - 0x4000) / 0x8)) else
  if o = 0x9000 then some (.pipePrioWeight) else
  if o = 0x9008 then some (.pipeAgeLimit) else
  if o = 0x9010 then some (.pipeAdmitCommit) else
  if o = 0x9018 then some (.pipeTracker) else
  none

/-- The PCIE, AWN and DPL block (R332). -/
def Reg.inIo (o : Nat) : Option Reg :=
  if o = 0x0 then some (.pcieEpCfg) else
  if o = 0x8 then some (.pcieEpCommit) else
  if o = 0x10 then some (.pcieEpStatus) else
  if o = 0x18 then some (.pcieEpEvents) else
  if 0x20000 ≤ o ∧ (o - 0x20000) / 0x10000 ≤ 3 ∧ ((o - 0x20000) % 0x10000) = 0 then some (.pcieRpCfg ((o - 0x20000) / 0x10000)) else
  if 0x20008 ≤ o ∧ (o - 0x20008) / 0x10000 ≤ 3 ∧ ((o - 0x20008) % 0x10000) = 0 then some (.pcieRpCommit ((o - 0x20008) / 0x10000)) else
  if 0x20010 ≤ o ∧ (o - 0x20010) / 0x10000 ≤ 3 ∧ ((o - 0x20010) % 0x10000) = 0 then some (.pcieRpStatus ((o - 0x20010) / 0x10000)) else
  if 0x20018 ≤ o ∧ (o - 0x20018) / 0x10000 ≤ 3 ∧ ((o - 0x20018) % 0x10000) = 0 then some (.pcieRpWin ((o - 0x20018) / 0x10000)) else
  if 0x20020 ≤ o ∧ (o - 0x20020) / 0x10000 ≤ 3 ∧ ((o - 0x20020) % 0x10000) = 0 then some (.pcieRpCfgAddr ((o - 0x20020) / 0x10000)) else
  if 0x20028 ≤ o ∧ (o - 0x20028) / 0x10000 ≤ 3 ∧ ((o - 0x20028) % 0x10000) = 0 then some (.pcieRpCfgData ((o - 0x20028) / 0x10000)) else
  if 0x20030 ≤ o ∧ (o - 0x20030) / 0x10000 ≤ 3 ∧ ((o - 0x20030) % 0x10000) = 0 then some (.pcieRpEvents ((o - 0x20030) / 0x10000)) else
  if o = 0x80000 then some (.awnBase) else
  if o = 0x80008 then some (.awnCommit) else
  if o = 0x80010 then some (.awnStatus) else
  if o = 0x100000 then some (.dplCommit) else
  if o = 0x100008 then some (.dplStatus) else
  if o = 0x100010 then some (.dplDenied) else
  if 0x101000 ≤ o ∧ (o - 0x101000) / 0x20 ≤ 511 ∧ ((o - 0x101000) % 0x20) = 0 then some (.dplRegionBase ((o - 0x101000) / 0x20)) else
  if 0x101008 ≤ o ∧ (o - 0x101008) / 0x20 ≤ 511 ∧ ((o - 0x101008) % 0x20) = 0 then some (.dplRegionAttr ((o - 0x101008) / 0x20)) else
  if 0x101010 ≤ o ∧ (o - 0x101010) / 0x20 ≤ 511 ∧ ((o - 0x101010) % 0x20) = 0 then some (.dplRegionKey ((o - 0x101010) / 0x20)) else
  if 0x8000 ≤ o ∧ (o - 0x8000) / 0x10 ≤ 2047 ∧ ((o - 0x8000) % 0x10) / 0x8 ≤ 1 ∧ (((o - 0x8000) % 0x10) % 0x8) = 0 then some (.pcieMsixTable ((o - 0x8000) / 0x10) (((o - 0x8000) % 0x10) / 0x8)) else
  if 0x10000 ≤ o ∧ (o - 0x10000) / 0x8 ≤ 31 ∧ ((o - 0x10000) % 0x8) = 0 then some (.pcieMsixPba ((o - 0x10000) / 0x8)) else
  none

/-- The FUSE and BOOT region. -/
def Reg.inFuseBoot (o : Nat) : Option Reg :=
  if o = 0x0 then some (.fusePart) else
  if o = 0x8 then some (.fuseSerial) else
  if o = 0x10 then some (.fuseRollback) else
  if o = 0x18 then some (.fuseKeyState) else
  if 0x100 ≤ o ∧ (o - 0x100) / 0x20 ≤ 3 ∧ ((o - 0x100) % 0x20) / 0x8 ≤ 3 ∧ (((o - 0x100) % 0x20) % 0x8) = 0 then some (.fuseKeyHash ((o - 0x100) / 0x20) (((o - 0x100) % 0x20) / 0x8)) else
  if 0x200 ≤ o ∧ (o - 0x200) / 0x8 ≤ 3 ∧ ((o - 0x200) % 0x8) = 0 then some (.fuseProgData ((o - 0x200) / 0x8)) else
  if o = 0x220 then some (.fuseProgCmd) else
  if o = 0x228 then some (.fuseProgStatus) else
  if o = 0x8000 then some (.bootStatus) else
  if o = 0x8008 then some (.bootStraps) else
  if o = 0x8010 then some (.bootImage) else
  if 0x8020 ≤ o ∧ (o - 0x8020) / 0x8 ≤ 3 ∧ ((o - 0x8020) % 0x8) = 0 then some (.bootDigest ((o - 0x8020) / 0x8)) else
  if 0x8040 ≤ o ∧ (o - 0x8040) / 0x8 ≤ 3 ∧ ((o - 0x8040) % 0x8) = 0 then some (.bootImageId ((o - 0x8040) / 0x8)) else
  if o = 0x8060 then some (.bootRepitchCtrl) else
  if o = 0x8068 then some (.bootRepitchStatus) else
  if o = 0x8070 then some (.bootXspiCmd) else
  if o = 0x8100 then some (.bootGlPhase) else
  if o = 0x8108 then some (.bootGpio) else
  if o = 0x8110 then some (.bootSideband) else
  if o = 0x8118 then some (.bootTrace) else
  if o = 0x20 then some (.fuseCompat) else
  none

/-- The CLK and RST region. -/
def Reg.inClkRst (o : Nat) : Option Reg :=
  if o = 0x0 then some (.clkStatus) else
  if o = 0x8 then some (.clkPhyEvents) else
  if o = 0x100 then some (.rstLastCause) else
  if o = 0x108 then some (.rstDomains) else
  if o = 0x110 then some (.rstGap) else
  if o = 0x118 then some (.rstSwReset) else
  if o = 0x120 then some (.rstWdtCtrl) else
  if o = 0x128 then some (.rstWdtKick) else
  if o = 0x130 then some (.rstWdtStatus) else
  if o = 0x138 then some (.rstUnitTimeout) else
  if o = 0x140 then some (.rstCoreVector) else
  if 0x1000 ≤ o ∧ (o - 0x1000) / 0x8 ≤ 548 ∧ ((o - 0x1000) % 0x8) = 0 then some (.rstUnit ((o - 0x1000) / 0x8)) else
  none

/-- The FLT and FRZ region. -/
def Reg.inFltFrz (o : Nat) : Option Reg :=
  if o = 0x0 then some (.fltRingBase) else
  if o = 0x8 then some (.fltCtrl) else
  if o = 0x10 then some (.fltCommit) else
  if o = 0x18 then some (.fltTail) else
  if o = 0x20 then some (.fltHead) else
  if o = 0x28 then some (.fltStatus) else
  if o = 0x30 then some (.fltLost) else
  if o = 0x38 then some (.fltNotify) else
  if o = 0x8000 then some (.frzCtrl) else
  if o = 0x8008 then some (.frzCfg) else
  if 0x8010 ≤ o ∧ (o - 0x8010) / 0x8 ≤ 1 ∧ ((o - 0x8010) % 0x8) = 0 then some (.frzTrigger ((o - 0x8010) / 0x8)) else
  if o = 0x8020 then some (.frzStatus) else
  if o = 0x8028 then some (.frzTime) else
  if 0x8040 ≤ o ∧ (o - 0x8040) / 0x8 ≤ 7 ∧ ((o - 0x8040) % 0x8) = 0 then some (.frzRecord ((o - 0x8040) / 0x8)) else
  if o = 0x8080 then some (.frzChainSel) else
  if o = 0x8088 then some (.frzChainLen) else
  if o = 0x8090 then some (.frzChainData) else
  none

/-- The TIME block. -/
def Reg.inTime (o : Nat) : Option Reg :=
  if o = 0x0 then some (.timeNow) else
  if o = 0x8 then some (.timeSet) else
  if o = 0x10 then some (.timeAdj) else
  if o = 0x18 then some (.timeCfg) else
  if o = 0x20 then some (.timeCommit) else
  if o = 0x28 then some (.timeStatus) else
  if o = 0x30 then some (.timePpsIn) else
  if o = 0x38 then some (.timeOffset) else
  if o = 0x40 then some (.timeAlert) else
  if o = 0x100 then some (.timeMac) else
  if o = 0x108 then some (.timeMgmtCfg) else
  if 0x200 ≤ o ∧ (o - 0x200) / 0x8 ≤ 55 ∧ ((o - 0x200) % 0x8) = 0 then some (.timeTemp ((o - 0x200) / 0x8)) else
  if o = 0x400 then some (.timeThermal) else
  if o = 0x408 then some (.timePower) else
  if o = 0x410 then some (.timeEnergy) else
  none

/-- The register window of tile n (R44). -/
def Reg.inTileWindow (n o : Nat) : Option Reg :=
  if o < 0x4000 then Reg.inTile n o
  else if o < 0x8000 then Reg.inSeq n (o - 0x4000)
  else if o < 0xC000 then Reg.inAgen n ((o - 0x8000) / 0x800) ((o - 0x8000) % 0x800)
  else if o < 0xE000 then Reg.inMa n ((o - 0xC000) / 0x800) ((o - 0xC000) % 0x800)
  else if o < 0x10000 then Reg.inVec n (o - 0xE000)
  else none

/-- The register whose 8-byte slot begins at local offset `a`, if a block defines one there (R5, R44, R254). -/
def Reg.ofAddr (a : Nat) : Option Reg :=
  if a < 0xF00000000000 then none
  else if a < 0xF00000010000 then Reg.inClkRst (a - 0xF00000000000)
  else if a < 0xF00000020000 then Reg.inFuseBoot (a - 0xF00000010000)
  else if a < 0xF00000030000 then Reg.inTime (a - 0xF00000020000)
  else if a < 0xF00000040000 then Reg.inFltFrz (a - 0xF00000030000)
  else if a < 0xF00001000000 then none
  else if a < 0xF00001280000 then Reg.inHome ((a - 0xF00001000000) / 0x10000) ((a - 0xF00001000000) % 0x10000)
  else if a < 0xF00001350000 then Reg.inHomeGlobal (a - 0xF00001000000)
  else if a < 0xF00002000000 then none
  else if a < 0xF00002100000 then Reg.inMc ((a - 0xF00002000000) / 0x10000) ((a - 0xF00002000000) % 0x10000)
  else if a < 0xF00002180000 then
    (if (a - 0xF00002100000) % 0x10000 = 0x48 then some (.lpmcPop ((a - 0xF00002100000) / 0x10000))
     else Reg.inMc (16 + (a - 0xF00002100000) / 0x10000) ((a - 0xF00002100000) % 0x10000))
  else if a < 0xF00002200000 then Reg.inMcGlobal (a - 0xF00002000000)
  else if a < 0xF00003000000 then none
  else if a < 0xF00003400000 then Reg.inPort ((a - 0xF00003000000) / 0x10000) ((a - 0xF00003000000) % 0x10000)
  else if a < 0xF00003420000 then Reg.inFabGlobal (a - 0xF00003000000)
  else if a < 0xF00004000000 then none
  else if a < 0xF00004010000 then Reg.inRed (a - 0xF00004000000)
  else if a < 0xF00005000000 then none
  else if a < 0xF00005010000 then Reg.inState (a - 0xF00005000000)
  else if a < 0xF00006000000 then none
  else if a < 0xF00006010000 then Reg.inPipe (a - 0xF00006000000)
  else if a < 0xF00010000000 then none
  else if a < 0xF00012000000 then Reg.inRing ((a - 0xF00010000000) / 0x1000) ((a - 0xF00010000000) % 0x1000)
  else if a < 0xF00012400000 then Reg.inPeg ((a - 0xF00012000000) / 0x40) ((a - 0xF00012000000) % 0x40)
  else if a < 0xF00020000000 then none
  else if a < 0xF00038000000 then Reg.inTileWindow ((a - 0xF00020000000) / 0x100000) ((a - 0xF00020000000) % 0x100000)
  else if a < 0xF00040000000 then Reg.inTileGlobal (a - 0xF00020000000)
  else if a < 0xF00041000000 then Reg.inIo (a - 0xF00040000000)
  else none

/-- The mask of bits of the fields that satisfy `p`. -/
def Reg.maskWhere (r : Reg) (p : FieldDesc → Bool) : BitVec 64 :=
  r.fields.foldl (fun m f => if p f then m ||| BitVec.ofNat 64 ((2 ^ f.width - 1) * 2 ^ f.lo) else m) 0

/-- The value of a register at a reset of its domain (R10); image and fuse values as the assumption log names them.
DESIGN CHOICE: log entry 6. -/
def Reg.reset (r : Reg) : BitVec 64 :=
  r.fields.foldl (fun v f => v ||| BitVec.ofNat 64 (f.reset * 2 ^ f.lo)) 0

/-- Bits that a write sets (RW of R7). -/
def Reg.rwMask (r : Reg) : BitVec 64 := r.maskWhere (fun f => f.acc == .rw)
/-- Bits that a write of 1 clears (W1C of R7). -/
def Reg.w1cMask (r : Reg) : BitVec 64 := r.maskWhere (fun f => f.acc == .w1c)
/-- Bits that a read clears (RC of R7). -/
def Reg.rcMask (r : Reg) : BitVec 64 := r.maskWhere (fun f => f.acc == .rc)
/-- Bits that a read returns; WO fields and reserved bits read as zero (R4, R7). -/
def Reg.readMask (r : Reg) : BitVec 64 := r.maskWhere (fun f => f.acc != .wo)
/-- Bits that the image sets (R346): RW fields whose Reset is image. DESIGN CHOICE, DEDUCED: log entries 6, 13. -/
def Reg.imageMask (r : Reg) : BitVec 64 := r.maskWhere (fun f => f.image && f.acc == .rw)
/-- Bits of staged fields (R11). DEDUCED: log entry 13. -/
def Reg.stagedMask (r : Reg) : BitVec 64 := r.maskWhere (fun f => f.staged)

end Sys2Proof
end

