-- ==== Sys2Proof/Machine/State.lean ====
section
/-! DEFINITION. The state of the HW2 as plain data: registers, memory, and the state that the rules give each
unit, with the value of every field after a power-on reset. -/

namespace Sys2Proof.Machine

/-! ## Fault records and requesters -/

/-- The descriptor that a record, an access or an operation belongs to: its ring, index and cookie (R394). -/
structure DescRef where
  ring : Nat
  idx : W32
  cookie : W64
  deriving DecidableEq, Repr

/-- A fault record as its unit reports it, before the collector numbers it (R394). -/
structure FaultRec where
  time : W64
  cls : Nat
  sev : Nat
  corrected : Bool
  unitIx : Nat
  kind : Nat
  desc : Option DescRef
  addr : W64
  detail0 : W64
  detail1 : BitVec 48
  /-- A forced unit reset (R376). -/
  forced : Bool
  deriving DecidableEq, Repr

/-- A requester of an access: its unit kind and index as bytes 16 to 18 of a record code them, the severity of a record
that ends its work (R395), and its descriptor if it has one. -/
structure Who where
  kind : Nat
  unitIx : Nat
  sev : Nat
  desc : Option DescRef
  deriving DecidableEq, Repr

/-! ## The tile (R21 to R95) -/

/-- The state of a sequencer (R36 to R38). -/
inductive SeqState where
  | idle | run | halted | faulted
  deriving DecidableEq, Repr

/-- A stop that waits until launched passes and drains have run to completion (R38, R75, R84, R475): its halt_cause, and the
record to write when the sequencer stops. -/
structure Stop where
  cause : BitVec 4
  record : Option FaultRec
  deriving DecidableEq, Repr

/-- One row or column of a check point (R388): whether its unit or a cell of it holds a NaN or infinity flag (R390), the unit
sum, the magnitude sum (16-bit and heritage classes), and the sum of the cells. -/
structure CheckLane where
  flagged : Bool
  unit : Int
  mag : Int
  cells : Int
  deriving DecidableEq, Repr

/-- A check point whose comparison has not completed (R388): exact comparison, or the bound of R389 with the slices since
the pass began; the index of the last slice it covers; one lane per row and per column. -/
structure CheckPoint where
  exact : Bool
  n : Nat
  last : Nat
  rows : List CheckLane
  cols : List CheckLane
  deriving DecidableEq, Repr

/-- An array pass as its LAUNCH latched it (R59), with how far it has run. -/
structure Pass where
  rows : W64
  cols : W64
  set : Nat
  fresh : Bool
  fmtA : Nat
  fmtB : Nat
  srKey : W64
  setA : BitVec 512
  setB : BitVec 512
  chunk : Nat
  checks : List CheckPoint
  deriving DecidableEq, Repr

/-- A drain as its DRAIN latched it (R61, R70): `reading` until it has read its set, then waiting for its writes. -/
structure DrainOp where
  set : Nat
  fmt : Nat
  health : Bool
  packed6 : Bool
  sat : Bool
  rm : Nat
  dest : W64
  pitch : W64
  tensor : W32
  rows : W64
  cols : W64
  srKey : W64
  srIndex : W64
  started : Bool
  deriving DecidableEq, Repr

/-- One matrix array (R21): the running pass, passes past their last array cycle that wait for their check points, the
queued launch, the drains in order, and whether the running or last pass names set 1 (MA.STATUS.acc_set). -/
structure MatArray where
  run : Option Pass
  finishing : List Pass
  queued : Option Pass
  drains : List DrainOp
  lastSet : Bool
  deriving DecidableEq, Repr

/-- A matrix array after a reset of its tile. DESIGN CHOICE: log entry 7. -/
def MatArray.reset : MatArray := ⟨none, [], none, [], false⟩

/-- A walk in an AGEN: its set-up, whether it belongs to a pass, and, for a transfer, whether its writes have been issued. -/
structure Walk where
  setup : BitVec 512
  forPass : Bool
  issued : Bool
  deriving DecidableEq, Repr

/-- A block in the staging buffer of a feeder ("Feeders"): its tag, its 128 B, and its words with an uncorrectable or a single-bit
error (R34). -/
structure Stage where
  tag : Nat
  data : BitVec 1024
  ue : BitVec 32
  ce : BitVec 32
  deriving DecidableEq, Repr

/-- One address generator (R62): loaded set-up, running and queued work, next slice of the running walk, the staged blocks, oldest
first ("Feeders"), the blocks that the next slice has taken, the elements of the slices delivered and not yet handed off or
transferred, and the rows of scales read for them (R85). -/
structure Agen where
  loaded : BitVec 512
  run : Option Walk
  queued : Option Walk
  slice : Nat
  staged : List Stage
  taken : List Stage
  elems : List (List Nat)
  scales : List (List Byte)
  deriving DecidableEq, Repr

/-- An address generator after a reset of its tile. DESIGN CHOICE: log entry 7. -/
def Agen.reset : Agen := ⟨0, none, none, 0, [], [], [], []⟩

/-- A PWAIT that waits (R56): peg, condition and value, and whether the condition has been seen to hold (R222). -/
structure PegWait where
  peg : Nat
  cond : Nat
  value : W64
  seen : Bool
  deriving DecidableEq, Repr

/-- One tile (R21, R45). -/
structure Tile where
  /-- Scalar registers s1 to s31 (R45). -/
  s : NMap W64
  /-- Vector registers v0 to v63 (R45). -/
  v : NMap (BitVec 8192)
  /-- Predicate registers p1 to p15 (R45). -/
  p : NMap (BitVec 256)
  /-- Program counter; 0x1_0000 past the last instruction (R45, R475). -/
  pc : BitVec 17
  /-- Sequencer state (R36). -/
  seq : SeqState
  /-- A stop that waits for launched work (R38). -/
  stopping : Option Stop
  /-- SEQ.STATUS.wait_reason. -/
  wait : BitVec 4
  /-- SEQ.STATUS.halt_cause. -/
  cause : BitVec 4
  /-- VEC.SR_KEY (R45). -/
  srKey : W64
  /-- VEC.SR_INDEX (R45). -/
  srIndex : W64
  /-- END has been executed since the last start by the scheduler (R54, R200). -/
  ended : Bool
  /-- The peg wait of a waiting PWAIT (R56, R222). -/
  pwait : Option PegWait
  /-- Accumulator rows of 64 long sums, keyed by 128 × array + 64 × set + row ("Accumulator buffers"). -/
  acc : NMap (BitVec 2048)
  /-- Row mask and column mask (above it) of the most recent LAUNCH that named a set, keyed by 2 × array + set (R61); nothing is
  masked where no LAUNCH has named it. -/
  setMask : NMap (BitVec 128)
  /-- Sets marked failed, bit 2 × array + set (R391). -/
  failed : BitVec 8
  /-- The arrays MA0 to MA3. -/
  arrays : NMap MatArray
  /-- The address generators AGEN 0 to 7. -/
  agens : NMap Agen
  /-- Uncorrectable words of the accumulator buffers (32-bit word index 2048-bit row × 64 + column) (R34). -/
  accUe : List Nat
  /-- Uncorrectable words of the vector and predicate registers (R34, R384): 256 × register + lane, and 256 × (64 + k) + word for p[k]. -/
  vecUe : List Nat
  /-- Words of the accumulator buffers with a single-bit error (R34). -/
  accCe : List Nat
  /-- Words of the vector and predicate registers with a single-bit error (R34, R384). -/
  vecCe : List Nat
  /-- Scheduled write-backs of corrected words, by word address (R34). -/
  writeBack : List Nat
  /-- ACLK count at the last reset of the tile as a unit (RDSYS selector 1, R54). -/
  since : Nat
  deriving DecidableEq, Repr

/-- A tile after a reset of its domain (R47). DESIGN CHOICE: log entry 7. -/
def Tile.reset : Tile :=
  { s := [], v := [], p := [], pc := 0, seq := .idle, stopping := none, wait := 0, cause := 0, srKey := 0, srIndex := 0,
    ended := false, pwait := none, acc := [], setMask := [], failed := 0, arrays := [], agens := [], accUe := [],
    vecUe := [], accCe := [], vecCe := [], writeBack := [], since := 0 }

/-! ## Rings (R206 to R229) -/

/-- How far an admitted descriptor has come (R215 to R217). -/
inductive DescPhase where
  /-- Admitted, not started. -/
  | admitted
  /-- Started; its engine runs it. -/
  | running
  /-- Ended; its journal entry is not written yet. -/
  | ended
  /-- Its journal entry is written; its peg signal and its tracker entry remain. -/
  | journaled
  deriving DecidableEq, Repr

/-- An admitted descriptor (R209): the line read at admission, and what is known of it. -/
structure Desc where
  idx : W32
  /-- The 64 B descriptor as admission read it. -/
  raw : Line
  /-- The admission read met an uncorrectable error (R209). -/
  bad : Bool
  phase : DescPhase
  /-- Its header passed its checks (R214). -/
  headerOk : Bool
  /-- Its wait condition has been seen to hold (R222), or its peg's fault bit (R223). -/
  pegSeen : Bool
  pegFault : Bool
  started : Bool
  stopped : Bool
  status : Nat
  /-- Units done, exact (R217, R229). -/
  units : Nat
  /-- Units issued by its engine, acknowledged or not. -/
  issued : Nat
  /-- The first byte whose write a destination refused (R229, R306). -/
  failAt : Option Nat
  /-- Its operation block has been read and has passed the checks that need no engine (R214), and the block as it was read. -/
  blockOk : Bool
  block : Line
  /-- Shards of a state engine operation that are done with (R176, R187, R189, R191). -/
  pos : Nat
  /-- Shards of an APPLY whose outcome does not match its decision (R176). -/
  missed : List Nat
  /-- The stash switch entry of a STEP has been written, or cannot come any more (R133, R219). -/
  stashDone : Bool
  /-- Station time of its last acknowledgement, if one has come (R218). -/
  ackTime : Option W64
  deriving DecidableEq, Repr

/-- What a ring holds beside its registers: its admitted descriptors in index order, whether a DEFERRED entry has been written
since its last admission (R210), the descriptors that the age watchdog has reported (R228), and completions that wait
for journal room (R219). -/
structure Ring where
  descs : List Desc
  deferredSent : Bool
  agedSeen : List W32
  deriving DecidableEq, Repr

/-- A ring after a reset of its domain. DESIGN CHOICE: log entry 7. -/
def Ring.reset : Ring := ⟨[], false, []⟩

/-- The admission arbiter (R211): the priority it serves, how many it has served there, and the last ring admitted at each
priority (plus one; 0 for none). -/
structure Arbiter where
  prio : Nat
  served : Nat
  last : NMap Nat
  deriving DecidableEq, Repr

/-! ## Coherence (R255 to R276) -/

/-- A line in a host core's cache. -/
inductive LineState where
  | shared | exclusive | modified
  deriving DecidableEq, Repr

/-- A cached copy of a line. -/
structure CacheLine where
  st : LineState
  data : Line
  deriving DecidableEq, Repr

/-- A line a core has requested and does not hold yet: whether it asked by Upgrade, whether the access would retire (R263), data and
grant as they have arrived (R273), and the bytes that the core stores once it holds the line. -/
structure Miss where
  line : Nat
  upgrade : Bool
  retires : Bool
  data : Option Line
  dirty : Bool
  grant : Option LineState
  storeMask : W64
  storeData : Line
  deriving DecidableEq, Repr

/-- The privilege modes of a hart with the hypervisor extension (R308). -/
inductive HartMode where
  | machine | supervisor | user | virtualSupervisor | virtualUser
  deriving DecidableEq, Repr

/-- The architectural state of the hart of a host core beside its pc (R308): the integer registers x1 to x31, the floating-point registers,
the vector registers of 256 bits, the control and status registers as written, by number, and the privilege mode. -/
structure Hart where
  x : NMap W64
  f : NMap W64
  v : NMap (BitVec 256)
  csr : NMap W64
  mode : HartMode
  deriving DecidableEq, Repr

/-- A hart after a reset. DESIGN CHOICE, PRESUMED: log entries 7, 127. -/
def Hart.reset : Hart := ⟨[], [], [], [], .machine⟩

/-- What a host core holds that the rules name: its cached lines, its outstanding misses, whether it has stopped,
the access-fault exceptions it has taken, latest first, by address, and the address at which it was
last started (R370). DEDUCED: log entries 71, 99. -/
structure HostCore where
  lines : NMap CacheLine
  misses : List Miss
  stopped : Bool
  accessFaults : List W64
  pc : W64
  /-- Single-bit errors corrected in the core's caches (R312). -/
  corrected : Nat
  /-- The registers and the mode of its hart (R308). -/
  hart : Hart
  /-- The lines of the L2 that its L1 instruction cache and its L1 data cache hold too (R308). -/
  l1i : List Nat
  l1d : List Nat
  deriving DecidableEq, Repr

/-- A host core after a reset of its domain. DESIGN CHOICE: log entry 7. -/
def HostCore.reset : HostCore := ⟨[], [], false, [], 0, 0, Hart.reset, [], []⟩

/-- A default cached copy: what an absent line reads as in a core's table. -/
def CacheLine.none : CacheLine := ⟨.shared, 0⟩

/-- A request to a home (R269). -/
inductive ReqKind where
  | rdShared | rdOwn | upgrade | rdNA
  | wrNA (data : Line)
  | wrPart (mask : W64) (data : Line)
  deriving DecidableEq, Repr

/-- A request that a home holds or serves: who asked, for which line, and the MCLK cycle in which it reached the home (R258). -/
structure HomeReq where
  agent : Agent
  line : Nat
  kind : ReqKind
  mclk : Nat
  deriving DecidableEq, Repr

/-- The state of a directory entry (R268). -/
inductive DirState where
  | shared (sharers : BitVec 96)
  | owned (core : Nat)
  deriving DecidableEq, Repr

/-- A directory entry (R268): its line, state and way, whether its hold timer runs (R275), and when it was last used (R270). -/
structure DirEntry where
  line : Nat
  st : DirState
  way : Nat
  hold : Bool
  used : Nat
  deriving DecidableEq, Repr

/-- Why a home has a transaction open: a request, or the recall of a victim or of a line of a flip (R265, R270), with its
eviction buffer. -/
inductive TxnWhy where
  | request (r : HomeReq)
  | recall (buffer : Option Nat)
  deriving DecidableEq, Repr

/-- An open transaction (R259): the cores whose snoop answers it waits for, whether a snooped core had a copy, whether dirty data
must arrive and has arrived (R269), the core whose write-back must arrive (R274), whether the grant has been sent, and
whether CompAck has come (R273). -/
structure Txn where
  line : Nat
  why : TxnWhy
  wait : List Nat
  had : Bool
  needData : Bool
  gotData : Bool
  wbFrom : Option Nat
  granted : Bool
  acked : Bool
  deriving DecidableEq, Repr

/-- A line in the system-level cache of a home (R260): whether memory holds an older value, and the words of it, by number, that are
uncorrectable or hold a single-bit error in the cache's own storage (R240, R241). Its data is the value that `State.mem` holds for the
line: the memory value at the home. DESIGN CHOICE: log entry 65. -/
structure SlcLine where
  line : Nat
  dirty : Bool
  ue : BitVec 16
  ce : BitVec 16
  deriving DecidableEq, Repr

/-- A home agent (R256): directory, open transactions, line queues in arrival order (R259), retry queue with the ACLK count at which
each request entered it (R271), the lines its system-level cache holds, latest first (R260), the use counter of the directory, and
the line whose request way 19 and buffer 15 serve (R271). -/
structure Home where
  dir : List DirEntry
  txns : List Txn
  queue : List HomeReq
  retry : List (HomeReq × Nat)
  slc : List SlcLine
  stamp : Nat
  serving : Option Nat
  deriving DecidableEq, Repr

/-- A home agent after a reset of its domain. DESIGN CHOICE: log entry 7. -/
def Home.reset : Home := ⟨[], [], [], [], [], 0, none⟩

/-- The kinds of snoop (R272). -/
inductive SnpKind where
  | shared | inv | cur
  deriving DecidableEq, Repr

/-- A coherence message on the mesh (R272). Requests of class REQ are the commands themselves. -/
inductive Msg where
  | snp (kind : SnpKind) (core : Nat) (line : Nat) (forward : Option Nat) (toAgent : Option Agent)
  | cmp (st : LineState) (core : Nat) (line : Nat)
  | compAck (core : Nat) (line : Nat)
  | snpAck (core : Nat) (line : Nat) (hadCopy dirty wbPending : Bool)
  | wrAck (agent : Agent) (line : Nat)
  | wbAck (core : Nat) (line : Nat)
  | deny (core : Nat) (line : Nat)
  | data (agent : Agent) (line : Nat) (data : Line)
  | fwdData (core : Nat) (line : Nat) (data : Line) (dirty : Bool)
  | snpData (core : Nat) (line : Nat) (data : Line)
  | wbDirty (core : Nat) (line : Nat) (data : Line)
  | wbClean (core : Nat) (line : Nat)
  deriving DecidableEq, Repr

/-- A bias flip in progress (R265, R266). -/
structure Flip where
  first : Nat
  count : Nat
  device : Bool
  pegEn : Bool
  peg : Nat
  changed : Nat
  deriving DecidableEq, Repr

/-! ## Memory controllers (R230 to R246) -/

/-- An entry of a home's row table (R245): DRAM row, the line last counted in it, corrected words in this scrub period, whether
it is marked for repair, and whether a repair found no spare (R246). -/
structure RowEntry where
  row : Nat
  line : Nat
  count : Nat
  marked : Bool
  exhausted : Bool
  deriving DecidableEq, Repr

/-- A check unit in a home's check cache (R233): its channel, its raw unit in the channel, whether DRAM holds an older one, and the 32-bit
words of it that are uncorrectable in the cache's own storage. DESIGN CHOICE: log entry 116. -/
structure CheckUnit where
  channel : Nat
  unit : Nat
  dirty : Bool
  ue : BitVec 16
  deriving DecidableEq, Repr

/-- What a memory controller holds beside its registers: the row table, corrected lines to write back (R240), the next channel
and check group of the patrol scrub and the passes done (R243), the row under repair (R245), spares used per bank, for LPDDR5X
the watermark of each channel, in check groups, and the channels and groups that writes have initialised above it (R239), and the
check cache of the home, latest first (R233). -/
structure MemCtl where
  rows : List RowEntry
  writeBack : List Nat
  scrubChannel : Nat
  scrubGroup : Nat
  passes : Nat
  repairing : Option Nat
  sparesUsed : NMap Nat
  watermark : NMap Nat
  inited : List (Nat × Nat)
  check : List CheckUnit
  deriving DecidableEq, Repr

/-- A memory controller's state after a reset of its domain. DESIGN CHOICE: log entry 7. -/
def MemCtl.reset : MemCtl := ⟨[], [], 0, 0, 0, none, [], [], [], []⟩

/-! ## Faults and freeze (R394 to R408) -/

/-- A record that the collector has numbered (R394). -/
structure NumRec where
  body : FaultRec
  seq : W32
  deriving DecidableEq, Repr

/-- The fault collector (R394 to R401): records on their way to it, the number of the next record, the early buffer, records
lost just before the next one written, and record writes whose acknowledgement has not been followed by their interrupts. -/
structure Collector where
  net : List FaultRec
  seq : W32
  early : List NumRec
  lostRun : Nat
  deriving DecidableEq, Repr

/-! ## Fabric (R277 to R307, R474) -/

/-- An HFP packet (R286). -/
structure Pkt where
  vc : Nat
  hop : Nat
  typ : Nat
  dst : Nat
  src : Nat
  path : Bool
  gen : Nat
  tag : Nat
  off : Nat
  payload : List Byte
  deriving DecidableEq, Repr

/-- Who issued a fabric request or a tile or device access, and so whose work its answer continues or ends (R306): an AGEN's walk or
transfer, a drain of an array, a descriptor and so on; `gone` where the work that read has ended (R86). -/
inductive Owner where
  | agen (n a : Nat)
  | drain (n m : Nat)
  | gone
  | desc (ring : Nat) (idx : W32)
  | peg (p : Nat)
  | sched
  | job (j : Nat)
  | engine
  | agent
  deriving DecidableEq, Repr

/-- An open fabric request (R306): its tag and generation, the requester, the device and offset, and whether it is a write. -/
structure OpenReq where
  tag : Nat
  gen : Nat
  owner : Owner
  who : Who
  dev : Nat
  off : Nat
  write : Bool
  bytes : Nat
  /-- The offset of the write in its operation. -/
  pos : Nat
  deriving DecidableEq, Repr

/-- A flit kept until it is acknowledged (R282). -/
structure SentFlit where
  seq : Nat
  flit : BitVec 2048
  deriving DecidableEq, Repr

/-- A packet sent and not known to be delivered: the packet and the seq of the flit it ends in (R285). -/
structure SentPkt where
  pkt : Pkt
  last : Nat
  deriving DecidableEq, Repr

/-- A fabric port (R277 to R299): its send side (next seq, retry buffer, packets in it, output queue, credits held per channel
and level), its receive side (last seq accepted, nak outstanding, slots of a packet in progress, freed slots not yet
returned), the replays in a row, the times of its last retrains, and what its HELLOs have said. -/
structure Port where
  nextSeq : Nat
  retry : List SentFlit
  sent : List SentPkt
  outQ : List Pkt
  credits : NMap Nat
  lastSeq : Nat
  anySeq : Bool
  nak : Bool
  partSlots : List (BitVec 128)
  owed : List (Nat × Nat × Nat)
  replays : Nat
  retrainAt : List Nat
  helloCount : Nat
  heard : Bool
  peerSerial : W64
  peerPort : Nat
  knownPeer : Bool
  firstPeer : W64
  firstPort : Nat
  peerRoot : W64
  peerDist : Nat
  peerRootValid : Bool
  takeover : Option Nat
  turn : Nat
  /-- Levels and shares as exchanged at the port's last training (R289). -/
  lvl : Nat
  shr : W64
  /-- Flits received since the lanes trained, which places a flit among the codewords of the FEC (R278). -/
  rxFlits : Nat
  deriving DecidableEq, Repr

/-- A fabric port after a reset of its domain. DESIGN CHOICE: log entry 7. -/
def Port.reset : Port :=
  { nextSeq := 0, retry := [], sent := [], outQ := [], credits := [], lastSeq := 4095, anySeq := false, nak := false,
    partSlots := [], owed := [], replays := 0, retrainAt := [], helloCount := 0, heard := false, peerSerial := 0, peerPort := 0,
    knownPeer := false, firstPeer := 0, firstPort := 0, peerRoot := 0, peerDist := 0, peerRootValid := false,
    takeover := none, turn := 0, lvl := 0, shr := 0, rxFlits := 0 }

/-- One link that a REGISTER reports (R300): port, neighbour serial and neighbour port. -/
structure LinkRep where
  port : Nat
  serial : W64
  peerPort : Nat
  deriving DecidableEq, Repr

/-- A device as the root knows it from its REGISTER (R300), with the ID assigned to it (R301). -/
structure RegRep where
  serial : W64
  eligible : Bool
  slot : Nat
  heldId : Option Nat
  links : List LinkRep
  id : Option Nat
  ready : Bool
  deriving DecidableEq, Repr

/-- The content of a management packet (R285, R300, R303); the manual states no layout of it. A source route names the ports that
the packet still has to leave by. -/
inductive MgmtMsg where
  | register (rep : RegRep)
  | assign (route : List Nat) (id epoch : Nat)
  | route (route : List Nat) (part : Nat) (entries : List (W64 × W64))
  | ready (serial : W64)
  | takeoverReq (port : Nat)
  | takeoverAck (port seq : Nat)
  | reassign
  deriving DecidableEq, Repr

/-- A complete register access of R6 that a unit of the device has made and that is not performed yet: its owner, requester, local
offset, size, and the value of a write. -/
structure RegReq where
  owner : Owner
  who : Who
  addr : Nat
  size : Nat
  data : Option W64
  deriving DecidableEq, Repr

/-- The fabric unit beside its registers: ports; packets received for this device and not yet performed, oldest first, with
the port they came by; open requests and the next tag; register accesses of the device's units that wait to be performed, oldest
first (log entry 27); mirror writes that wait for an earlier one of their peg, with the peg, the address and the value, oldest first
(R224); lines that reads have returned and lines whose reads have failed, which their
owners have not used; flits put on the wire, latest first; management packets sent, latest first, with their ports; and the discovery state of
R299 to R303: candidate, distance, parent port, whether this device is the root, the devices it knows, the table parts and the
ID received, and whether a REGISTER has changed the links. -/
structure Fabric where
  ports : NMap Port
  inq : List (Nat × Pkt)
  openReqs : List OpenReq
  nextTag : Nat
  regReqs : List RegReq
  mirrors : List (Nat × Nat × W64)
  fetched : List (Owner × Nat × Line)
  failed : List (Owner × Nat)
  wire : List (Nat × BitVec 2048)
  candidate : Option W64
  distance : Nat
  parent : Option Nat
  isRoot : Bool
  registered : List RegRep
  parts : List (Nat × List (W64 × W64))
  pendingId : Option (Nat × Nat)
  mgmtOut : List (Nat × MgmtMsg)
  changed : Bool
  deriving DecidableEq, Repr

/-- The fabric unit after a reset of its domain. DESIGN CHOICE: log entry 7. -/
def Fabric.reset : Fabric :=
  { ports := [], inq := [], openReqs := [], nextTag := 0, regReqs := [], mirrors := [], fetched := [], failed := [], wire := [], candidate := none, distance := 0,
    parent := none, isRoot := false, registered := [], parts := [], pendingId := none, mgmtOut := [], changed := false }

/-! ## Reduction (R140 to R167) -/

/-- An entry of a segment table (R144). -/
structure Segment where
  first : Nat
  count : Nat
  offset : Nat
  fmt : Nat
  deriving DecidableEq, Repr

/-- A layer record (R144). -/
structure LayerRec where
  layer : Nat
  tensor : Nat
  deriving DecidableEq, Repr

/-- The four totals of a layer: elements, zeros, saturations, nonfinite (R159, R160). -/
structure Totals where
  elements : Nat
  zeros : Nat
  saturations : Nat
  nonfinite : Nat
  deriving DecidableEq, Repr

/-- The payload of a trailer or total packet (R159). -/
structure Trailer where
  nonfinite : Nat
  flushed : Nat
  recs : List (LayerRec × Totals)
  deriving DecidableEq, Repr

/-- A job's binding: what a passing commit read from its job block (R140, R141). Tile lists ascend. -/
structure Binding where
  p : Nat
  rank : Nat
  window : Nat
  openMax : Nat
  sampleShift : Nat
  epoch : Nat
  timeout : Nat
  earlyBase : Nat
  earlySize : Nat
  sumBase : Nat
  sumSize : Nat
  redTiles : List Nat
  healthTiles : List Nat
  members : List Nat
  deriving DecidableEq, Repr

/-- What rank 0 keeps of a SCALE packet (R150): rank, exponent word, whether n, step and bucket_index equal its own, force flag. -/
structure ScaleWord where
  rank : Nat
  e : Int
  same : Bool
  force : Bool
  deriving DecidableEq, Repr

/-- A REDUCE operation as its start read it (R143, R144). -/
structure ReduceOp where
  n : Nat
  buffer : Nat
  segments : List Segment
  layers : List LayerRec
  step : Nat
  index : Nat
  result : Nat
  mode : Nat
  force : Bool
  summary : Nat
  deriving DecidableEq, Repr

/-- A reduction packet in the operand buffers of a reduction port (R157): the fabric port that it came by, and whether a buffered word has
become uncorrectable (R158). DESIGN CHOICE: log entry 113. -/
structure HeldRed where
  port : Nat
  pkt : Pkt
  ue : Bool
  deriving DecidableEq, Repr

/-- An open bucket (R146 to R162). -/
structure Bucket where
  seq : Nat
  ring : Nat
  idx : W32
  cookie : W64
  op : ReduceOp
  /-- Health totals read at Open, one per layer record (R160). -/
  health : List Totals
  /-- The scan has ended (R149): the exponent word and the non-finite count. -/
  scan : Option (Int × Nat)
  /-- SCALE words that rank 0 has (R150). -/
  scales : List ScaleWord
  /-- E and checked of the scale round (R150). -/
  agreed : Option (Int × Bool)
  /-- Elements flushed by the conversion (R151). -/
  flushed : Nat
  /-- Packets of fragments that a port has not converted yet, by fragment and index, and converted packets that wait for the port of the
  check area of a job of one participant (R151, R156, R157). -/
  toConvert : List (Nat × Nat)
  toCheck : List (Nat × List Int)
  /-- Contribution packets added into the fragment that this device owns, and into the one that it checks (R156, R164). -/
  added : Nat
  checkAdded : Nat
  /-- CHECK packets that wait to be compared, and how many have been compared (R164). -/
  held : List HeldRed
  compared : Nat
  sentCheck : Bool
  sentResult : Bool
  sentCopy : Bool
  sentTotal : Bool
  /-- Trailer packets received, by path, rank and packet index (R159). -/
  trailers : List (Bool × Nat × Nat × Trailer)
  /-- Check copies of total packets, and total packets, by packet index (R160, R164). -/
  copies : List (Nat × Trailer)
  totals : List (Nat × Trailer)
  /-- RESULT packets held (R161). -/
  results : Nat
  /-- It has ended unfinished with this status and completes in its turn (R162, R166). -/
  ended : Option Nat
  /-- It has finished with this status and its hand-off waits to be accepted (R161, R174). -/
  handing : Option Nat
  deriving DecidableEq, Repr

/-- A reduction job beside its registers (R140 to R167): binding, open buckets in ascending sequence, packets in the early store in
arrival order with their ports (R155), credits used by 2 × rank + path (R142), packets that wait for a credit, and packets of open
buckets that wait at the port of a tile in reset, oldest first (R158, R378). DEDUCED: log entry 37. -/
structure Job where
  binding : Option Binding
  buckets : List Bucket
  early : List (Nat × Pkt)
  used : NMap Nat
  outQ : List (Nat × Pkt)
  atPort : List HeldRed
  deriving DecidableEq, Repr

/-- A reduction job after a reset of its domain. DESIGN CHOICE: log entry 7. -/
def Job.reset : Job := ⟨none, [], [], [], [], []⟩

/-! ## State engine (R168 to R191) -/

/-- A working copy of a shard descriptor (R168). -/
structure WorkCopy where
  elems : Nat
  scales : Nat
  fmt : Nat
  byRow : Bool
  deriving DecidableEq, Repr

/-- A shard descriptor (R168). -/
structure ShardDesc where
  tensor : Nat
  rule : Nat
  gate : Bool
  tier : Bool
  digest : Bool
  nesterov : Bool
  count : Nat
  cols : Nat
  row0 : Nat
  col0 : Nat
  master : Nat
  moment1 : Nat
  moment2 : Nat
  staging : Nat
  freeze : Nat
  header : Nat
  ruleBlock : Nat
  wc0 : WorkCopy
  wc1 : WorkCopy
  deriving DecidableEq, Repr

/-- An update in progress (R175, R180): its shard and step, the rule block read at its start (R177); for rule 6 the value of the
hand-off peg, whether the return peg has reached it, and the words as they were (R188). -/
structure Update where
  shard : Nat
  step : Nat
  block : Line
  target : Option Nat
  returned : Bool
  old : List Byte
  deriving DecidableEq, Repr

/-- A pool slot of a tier 1 shard (R184): its offset and size in the pool, and whether the state is in it. -/
structure PoolSlot where
  shard : Nat
  offset : Nat
  size : Nat
  copied : Bool
  deriving DecidableEq, Repr

/-- A hand-off (R161, R172, R174): job, sequence, step, bucket, k, elements, sum slot, the total packets by index, the descriptor that
posted it, the runs staged or dropped so far, whether it is a notice that the bucket is invalid (R166), and whether it came while a passed
commit waited ("State registers"). -/
structure Handoff where
  job : Nat
  seq : Nat
  step : Nat
  bucket : Nat
  k : Int
  n : Nat
  slot : Nat
  totals : List (Nat × Trailer)
  desc : DescRef
  pos : Nat
  invalid : Bool
  held : Bool
  deriving DecidableEq, Repr

/-- The state engine beside its registers: descriptors as the last commit in force read them, shards in state 4 (R174), the shards whose
outcome of a step an uncorrectable error has ended (R393), hand-offs not
accepted yet, updates, the state-miss queue (R184), pool slots, shards whose gate an APPLY has opened, the shards that miss the runs of an
invalid bucket, with the step and the bucket (R166, R176), and a passed commit that waits: its register values and descriptors. -/
structure Engine where
  shards : NMap ShardDesc
  errored : List Nat
  lost : List (Nat × Nat)
  handoffs : List Handoff
  updates : List Update
  missQueue : List Nat
  slots : List PoolSlot
  opened : List Nat
  invalid : List (Nat × Nat × Nat)
  waiting : Option (List (Reg × W64) × NMap ShardDesc)
  deriving DecidableEq, Repr

/-- The state engine after a reset of its domain. DESIGN CHOICE: log entry 7. -/
def Engine.reset : Engine := ⟨[], [], [], [], [], [], [], [], [], none⟩

/-! ## Scheduler and stash (R126 to R136, R192 to R205) -/

/-- A micro-batch of a step (R194, R197). -/
structure MicroBatch where
  tokens : Nat
  arg : W64
  cls : Nat
  weight : Nat
  deriving DecidableEq, Repr

/-- A task of the release order (R198). -/
structure Task where
  mb : Nat
  block : Nat
  bwd : Bool
  deriving DecidableEq, Repr

/-- How far a released task has come (R200). -/
inductive TaskPhase where
  | released | started | done | failed
  deriving DecidableEq, Repr

/-- A released task: its stash argument (R136) and the release indices of the backward tasks that must complete before it starts
(R135). -/
structure ReleasedTask where
  task : Task
  phase : TaskPhase
  stashArg : W64
  holds : List Nat
  deriving DecidableEq, Repr

/-- A peg that the scheduler signals: device and peg (R194). -/
structure OutPeg where
  device : Nat
  peg : Nat
  deriving DecidableEq, Repr

/-- The step in progress (R194 to R204): its descriptor, the fields of its operation block, its micro-batches, its release order,
the tasks released in that order, whether the peg wait of the next task has been seen to hold (R222) or to find the fault bit
(R223), and whether it winds down after a fault. -/
structure StepRun where
  ring : Nat
  idx : W32
  cookie : W64
  step : W64
  firstMb : Nat
  stage : Nat
  /-- Device blocks B (R192). -/
  blocks : Nat
  fwdIn : Option Nat
  bwdIn : Option Nat
  fwdOut : Option OutPeg
  bwdOut : Option OutPeg
  pegBase : Nat
  stepArg : W64
  mbs : List MicroBatch
  order : List Task
  tasks : List ReleasedTask
  pegSeen : Bool
  pegFault : Bool
  aborting : Bool
  deriving DecidableEq, Repr

/-- A follower entry of the stash (R131): micro-batch, block, region, first page within the region, pages. -/
structure StashEntry where
  mb : Nat
  block : Nat
  lp : Bool
  page : Nat
  pages : Nat
  deriving DecidableEq, Repr

/-- The stash controller beside its registers: follower entries, entries freed in accounting with the release index of the task that
read them (R135), the switch entries that wait for journal room, oldest first (R133), and a passed commit that waits (R127). -/
structure Stash where
  entries : List StashEntry
  freed : List (StashEntry × Nat)
  journal : List (DescRef × Nat)
  waiting : Option (List (Reg × W64))
  deriving DecidableEq, Repr

/-- The pipeline scheduler and the stash controller beside their registers. -/
structure Sched where
  run : Option StepRun
  waiting : Option (List (Reg × W64))
  stash : Stash
  deriving DecidableEq, Repr

/-- The scheduler and the stash controller after a reset of their domain. DESIGN CHOICE: log entry 7. -/
def Sched.reset : Sched := ⟨none, none, ⟨[], [], [], none⟩⟩

/-! ## PCI Express (R314 to R332) -/

/-- A transaction that the device sends on a PCI Express link (R319 to R328). A flush read is a read of length 0. -/
inductive Tlp where
  | memWrite (addr : Nat) (data : List Byte) (noSnoop relaxed : Bool)
  | memRead (tag addr len : Nat) (noSnoop relaxed : Bool)
  | cfgRead (tag target : Nat)
  | cfgWrite (target : Nat) (data : W32)
  | cpl (status : Nat) (data : List Byte)
  deriving DecidableEq, Repr

/-- An outstanding read of host memory of a HOST_READ (R321): the place in the operation of its next byte to be written, the bytes that
have not come, and those that have come and wait for bytes of a lower place (R319). -/
structure EpRead where
  tag : Nat
  ring : Nat
  idx : W32
  pos : Nat
  len : Nat
  got : List Byte
  deriving DecidableEq, Repr

/-- An outstanding flush read of a HOST_WRITE or HOST_MSIX (R320): the units that its completion acknowledges. -/
structure EpFlush where
  tag : Nat
  ring : Nat
  idx : W32
  units : Nat
  deriving DecidableEq, Repr

/-- A message of a HOST_MSIX that has been sent (R320): its place in the operation and the address written. -/
structure EpMsg where
  ring : Nat
  idx : W32
  pos : Nat
  addr : Nat
  deriving DecidableEq, Repr

/-- Where the value of a register read goes: back to an agent of the device, to the originator of an RDREG, to the external host in a
completion of `size` bytes, to the sender of a REG_READ frame, or to a unit of the device; or nowhere, where the link on which it was
asked for has been lost since (R324). -/
inductive Reply where
  | agent
  | fabric (k : Pkt)
  | host (size : Nat)
  | mgmt (dst : BitVec 48) (seq offset : Nat)
  | unit (owner : Owner) (addr size : Nat)
  | lost
  deriving DecidableEq, Repr

/-- An outstanding window load or configuration read of a root port (R326): the local address that it was made at, and where its value
goes. -/
structure RpRead where
  port : Nat
  tag : Nat
  addr : Nat
  size : Nat
  reply : Reply
  deriving DecidableEq, Repr

/-- The endpoint and the root ports beside their registers: transactions sent, latest first, by unit (0 the endpoint, p + 1 root
port p); tags; outstanding reads and flushes; messages of HOST_MSIX operations; MSI-X Function Mask; the pending identities of each hart's supervisor interrupt file (R308);
the ports whose RP_PERST_N is asserted (R442); passed DPL commits whose epoch has not advanced (R330); the memory
BARs that the host has set (R315). -/
structure Io where
  out : List (Nat × Tlp)
  nextTag : Nat
  reads : List EpRead
  flushes : List EpFlush
  sent : List EpMsg
  fnMask : Bool
  rpReads : List RpRead
  imsic : NMap (BitVec 256)
  /-- The machine interrupt file of each hart (R308); the spec names no writer of it. -/
  imsicM : NMap (BitVec 256)
  rpPerst : BitVec 4
  dplPending : Nat
  bars : NMap W64
  /-- Reads of a root port that wait until fewer than 1,024 are outstanding (R314, R326). -/
  rpWaiting : List (RpRead × Tlp)
  /-- The maximum payload size that the host has set, 128 B × 2^payload (R314). -/
  payload : Nat
  /-- The maximum payload size of a root port, by port, in the same code: no rule names a way to change it (R314, R326). -/
  rpPayload : NMap Nat
  /-- The maximum read request size that the host has set, 128 B × 2^readSize (R314). -/
  readSize : Nat
  /-- The function is in D3hot (R314). -/
  d3hot : Bool
  /-- The uncorrectable error status of advanced error reporting, by link: 0 the endpoint, p + 1 root port p (R314, R326). -/
  aer : NMap W32
  /-- The address that the endpoint last wrote in host memory (R320). -/
  lastWrite : Option Nat
  /-- The PCI Express PLLs that are out of lock: 0 of the endpoint, p + 1 of root port p (R362). -/
  pllLost : BitVec 5
  deriving DecidableEq, Repr

/-- The endpoint and the root ports after a reset of D8. DESIGN CHOICE: log entry 7. DESIGN CHOICE, PRESUMED: log entries 7, 80. -/
def Io.reset : Io := ⟨[], 0, [], [], [], false, [], [], [], 0xF, 0, [], [], 0, [], 2, false, [], none, 0⟩

/-! ## Boot, management and pins (R333 to R358, R410 to R446) -/

/-- The fuse array (R340 to R343): the words that the FUSE registers show, the key hashes by 4 × slot + word, the unusable
tiles (R41) and the factory array repairs (R25) as the section entries of R338 code them, fused trims, and whether a word is
uncorrectable or how many are corrected at a read. DESIGN CHOICE: log entry 8. -/
structure Fuses where
  part : W64
  serial : W64
  rollback : Nat
  programmed : BitVec 4
  revoked : BitVec 4
  keyHash : NMap W64
  badTiles : List Nat
  arrayRepair : List W32
  trims : NMap W32
  /-- The unique device secret (R341): no register, chain or path returns it. -/
  secret : BitVec 256
  uncorrectable : Bool
  corrected : Nat
  deriving DecidableEq, Repr

/-- The fuse array of the modelled device: the manual fixes no contents but a programmed slot 0 (R341).
DESIGN CHOICE: log entry 8. -/
def Fuses.default : Fuses :=
  { part := 0, serial := 0, rollback := 0, programmed := 1, revoked := 0, keyHash := [], badTiles := [], arrayRepair := [],
    trims := [], secret := 0, uncorrectable := false, corrected := 0 }

/-- A frame that the device sends on the management port (R349, R422): its destination, none for broadcast, its payload fields, and the
source address and EtherType before them. -/
structure MgmtFrame where
  dst : Option (BitVec 48)
  op : Nat
  status : Nat
  seq : Nat
  offset : Nat
  length : Nat
  data : List Byte
  mac : BitVec 48
  etherType : W16
  deriving DecidableEq, Repr

/-- The instruction that the TAP holds (R444). -/
inductive TapInstr where
  | extest | samplePreload | idcode | highz | clamp | extestPulse | extestTrain | devreset | frzSel | frzRead | frzLen | bypass
  deriving DecidableEq, Repr

/-- The TAP (R443 to R446): the instruction in force, whether the last one was refused, the value its data register captured, and the
boundary cells as preloaded. -/
structure Tap where
  ir : TapInstr
  refused : Bool
  captured : W64
  cells : List Bool
  deriving DecidableEq, Repr

/-- The transfers of an NVM mode (R335): octal or single lines, both clock edges or one, the clock in MHz, the read command with the
extension byte that follows it, and its dummy cycles; addresses have 4 bytes. -/
structure XspiMode where
  octal : Bool
  ddr : Bool
  sck : Nat
  read : Nat
  readExt : Option Nat
  dummy : Nat
  deriving DecidableEq, Repr

/-- An xSPI command that runs (R336, R437). -/
structure XspiCmd where
  opcode : Nat
  addrEn : Bool
  write : Bool
  length : Nat
  address : Nat
  /-- The bytes it sends. -/
  data : List Byte
  /-- The transfers of the NVM mode; none where the straps select no NVM. -/
  mode : Option XspiMode
  /-- The extension byte that follows the opcode in the octal protocols (R336). -/
  ext : Option Nat
  deriving DecidableEq, Repr

/-- A fuse operation that runs (R343). -/
inductive FuseOp where
  | rollback (target : Nat)
  | program (slot : Nat)
  | revoke (slot : Nat)
  /-- The ROM advances the rollback counter before it starts the firmware (R342). -/
  | load (svn : Nat)
  deriving DecidableEq, Repr

/-- Marks on the 4 B words of a memory under SECDED, by word address: those that decode as uncorrectable, and those with a single-bit
error (R333). -/
structure EccMarks where
  ue : List Nat
  ce : List Nat
  deriving DecidableEq, Repr

/-- The seeds of an attestation key pair (R352): SK.seed, SK.prf and PK.seed, 24 B each; empty before a load has derived them. -/
structure KeySeeds where
  sk : List Byte
  prf : List Byte
  pk : List Byte
  deriving DecidableEq, Repr

/-- The RV32IMC core with Zicsr of the basecamp controller (R333): whether it executes from the SRAM or from the boot ROM, its pc there, its
registers and its control and status registers. -/
structure Rv32 where
  inSram : Bool
  pc : W32
  x : NMap W32
  csr : NMap W32
  deriving DecidableEq, Repr

/-- The core after a reset: at the start of the boot ROM (R334). DESIGN CHOICE: log entries 7, 120. -/
def Rv32.reset : Rv32 := ⟨false, 0, [], []⟩

/-- The basecamp side of the device beside its registers. -/
structure Sys where
  /-- The fuse array; no reset changes it. -/
  fuses : Fuses
  /-- The load buffer, 1 MiB (R333). -/
  loadBuf : NMap Byte
  /-- Marks on words of the load buffer. -/
  bufEcc : EccMarks
  /-- The basecamp SRAM, 256 KiB (R333). -/
  sram : NMap Byte
  /-- Marks on words of the SRAM. -/
  sramEcc : EccMarks
  /-- Marks on words of the boot ROM, 64 KiB, whose content is fixed (R333). -/
  romEcc : EccMarks
  /-- The core of the basecamp controller (R333). -/
  rv : Rv32
  /-- The bytes that a load from the NVM has read for the load buffer, until it ends (R344, R350). -/
  loadRead : Option (List Byte)
  /-- The firmware that a load has copied into the basecamp SRAM (R334). -/
  firmware : List Byte
  /-- The SRAM that holds the firmware is write-protected (R334). -/
  fwProtected : Bool
  /-- The device secret is locked (R352). -/
  secretLocked : Bool
  /-- The device identity key and the alias key (R352). -/
  identity : KeySeeds
  aliasKeys : KeySeeds
  /-- The alias certificate and its signature, once made since the last load (R353). -/
  cert : Option (List Byte)
  /-- The LOAD frame that the running load answers with RESULT: its sender and sequence (R350). -/
  loadReply : Option (BitVec 48 × Nat)
  /-- Hard row repairs of the DRAM: home, bank and row; no reset changes them (R246). -/
  hardRepairs : List (Nat × Nat × Nat)
  /-- BCLK cycles since the watchdog's count was last restarted (R373). -/
  wdtCount : Nat
  /-- Trims in force: fused ones, and those of the image that replace them (R338). -/
  trims : NMap W32
  /-- The assignment table of the image: serial and device ID (R301, R338). -/
  assignTable : List (W64 × Nat)
  /-- Flags of the running image (R337). -/
  imageFlags : Nat
  /-- Order 9 of a load has applied the shadows (R347). -/
  applied : Bool
  /-- Management frames sent, latest first. -/
  frames : List MgmtFrame
  /-- Frames of an attestation or a certificate that are still being sent, in order (R422). -/
  sendQ : List MgmtFrame
  /-- PTP frames stamped on reception, latest first: the stamp and the bytes ("Discipline"). -/
  ptp : List (W64 × List Byte)
  /-- The slew that remains, in units of 2^-40 ns (R410). -/
  slew : Int
  /-- A slew has been committed since the last BCLK edge (R415). -/
  slewNew : Bool
  /-- BCLK cycles since the last commit of the station clock that passed (R416). -/
  sinceCommit : Nat
  /-- GL[1] is high, since this station time in ns (R417). -/
  pps : Option Nat
  /-- A PPS edge on GL[0] has been accepted (R417). -/
  ppsSeen : Bool
  /-- Bytes of frames queued on the trace port, in order, by frame (R440). -/
  traceQ : List (List Byte)
  /-- TRD[7:0] as last driven (R440). -/
  trd : Byte
  /-- LP_RESET_N is asserted (R429). -/
  lpReset : Bool
  /-- The TAP. -/
  tap : Tap
  /-- The xSPI command that runs. -/
  xspi : Option XspiCmd
  /-- A re-pitch ends when its current xSPI command completes (R356). -/
  leaving : Bool
  /-- The fuse operation that runs. -/
  fuseOp : Option FuseOp
  /-- The DRAM devices are in self-refresh (R405). -/
  selfRefresh : Bool
  /-- The levels that PPS_OUT, ALERT_N, SBO0, SBO1, GPIO[0] to GPIO[15], the pins of load phase, XSPI_EN_N, GLRUN_N and TRCLK had when a freeze
began, and hold (R405, R406, R436). -/
  held : List (Option Bool)
  /-- A device reset has been asserted since the last BCLK edge (R366). -/
  causeNew : Bool
  /-- The POR cause has not been seen to end: a rail may not have risen yet (R451). -/
  porHolds : Bool
  deriving DecidableEq, Repr

/-- The TAP after a TAP reset (R443). DESIGN CHOICE: log entry 7. -/
def Tap.reset : Tap := ⟨.idcode, false, 0, []⟩

/-- The basecamp side after a power-on reset. DESIGN CHOICE: log entry 7. -/
def Sys.reset : Sys :=
  { fuses := Fuses.default, loadBuf := [], bufEcc := ⟨[], []⟩, sram := [], sramEcc := ⟨[], []⟩, romEcc := ⟨[], []⟩, rv := Rv32.reset, loadRead := none, firmware := [],
    fwProtected := false, secretLocked := false, identity := ⟨[], [], []⟩, aliasKeys := ⟨[], [], []⟩, cert := none, loadReply := none, hardRepairs := [],
    wdtCount := 0, trims := [], assignTable := [],
    imageFlags := 0, applied := false, frames := [], sendQ := [], ptp := [], slew := 0, slewNew := false, sinceCommit := 0, pps := none, ppsSeen := false, traceQ := [], trd := 0,
    lpReset := true, tap := Tap.reset, xspi := none, leaving := false, fuseOp := none, selfRefresh := false, held := [], causeNew := false, porHolds := true }

/-! ## The machine -/

/-- Why a command ends in a fault: none does. DESIGN CHOICE: log entry 4. -/
inductive Fault where
  /-- Raised by nothing: every command has a next state, whatever its payload. Safe. -/
  | illFormed
  deriving DecidableEq, Repr

/-- Why a command is refused. DESIGN CHOICE: log entry 4. -/
inductive Refusal where
  /-- Raised by nothing: no arm of `exec` uses it once every command has its meaning. Safe. -/
  | notModelled (mnemonic : String)
  deriving DecidableEq, Repr

/-- The state of the HW2. -/
structure State where
  /-- The commands that wait, first in, first out (the model's own queue). -/
  pending : List Instr
  /-- Registers as written and as the device sets them; a register without an entry holds its reset value (R7, R10). -/
  csr : List (Reg × W64)
  /-- The values in force of staged fields (R11); a register without an entry holds its reset value. -/
  act : List (Reg × W64)
  /-- Memory: HBM and LPDDR5X windows, tile SRAM apertures and program memories, by local offset (R254); an unlisted byte reads 0. -/
  mem : List Host.Cell
  /-- Words of memory that decode as uncorrectable, by word address (address / 4) (R34, R241). -/
  ue : List Nat
  /-- Words of memory with a single-bit error, by word address (R34, R240). -/
  ce : List Nat
  /-- The station counter in units of 2^-40 ns (R410). -/
  stn : Nat
  /-- ACLK cycles since power-on (R54, RDSYS selector 1). -/
  aclk : Nat
  /-- ACLK cycles at the last release of D6, which resets the tiles (R54, R367). -/
  aclk6 : Nat
  /-- MCLK cycles: the rotating pointer of the homes' ingress ports stands at this count modulo 8 (R258). -/
  mclk : Nat
  /-- The device is frozen (R404). -/
  frozen : Bool
  /-- Tiles by logical ID (R21). -/
  tiles : NMap Tile
  /-- Rings (R206). -/
  rings : NMap Ring
  /-- The admission arbiter (R211). -/
  arb : Arbiter
  /-- The fault collector (R394). -/
  flt : Collector
  /-- Pages whose bias is DEVICE, rising (R261). -/
  bias : List Nat
  /-- The bias flip in progress (R264). -/
  flip : Option Flip
  /-- Home agents (R256). -/
  homes : NMap Home
  /-- Host cores (R255, R308). -/
  cores : NMap HostCore
  /-- Coherence messages in flight, oldest first (R272). -/
  mesh : List Msg
  /-- Memory controllers, one per home agent (R230). -/
  mcs : NMap MemCtl
  /-- The fabric unit (R277 to R307). -/
  fab : Fabric
  /-- Reduction jobs (R140 to R167). -/
  jobs : NMap Job
  /-- The state engine (R168 to R191). -/
  engine : Engine
  /-- The pipeline scheduler and the stash controller (R126 to R136, R192 to R205). -/
  sched : Sched
  /-- The endpoint and the root ports (R314 to R330). -/
  io : Io
  /-- The basecamp side, the management port and the pins (R333 to R358, R410 to R446). -/
  sys : Sys
  /-- Values that the last configuration load applied, where they differ from the reset values of the registers (R346, R376). -/
  image : List (Reg × W64)
  /-- The value that the last register or memory read returned to its requester (the model's own observation point). -/
  readData : W64
  /-- The counter of free values (the model's own). -/
  freeCtr : Nat
  deriving DecidableEq, Repr

/-- The machine right after a power-on reset. DESIGN CHOICE: log entries 5, 7, 8, 9, 12. -/
def State.reset : State :=
  { pending := [], csr := [], act := [], mem := [], ue := [], ce := [], stn := 0, aclk := 0, frozen := false, tiles := [],
    rings := [], arb := ⟨7, 0, []⟩, flt := ⟨[], 0, [], 0⟩, bias := [], flip := none, homes := [], cores := [], mesh := [], mcs := [],
    fab := Fabric.reset, jobs := [], engine := Engine.reset, sched := Sched.reset, io := Io.reset, sys := Sys.reset, image := [], readData := 0, aclk6 := 0, mclk := 0, freeCtr := 0 }

/-- What a command answers. -/
abbrev Out := Host.Outcome State Fault Refusal

end Sys2Proof.Machine
end

