-- ==== Sys2Proof/Machine/Ops.lean ====
section
/-! DEFINITION. The named operations over registers, fault records, tiles and memory that every meaning uses. -/

namespace Sys2Proof.Machine

/-! ## Registers -/

/-- The stored value of a register. DESIGN CHOICE, DEDUCED: log entries 6, 13. -/
def State.rget (s : State) (r : Reg) : W64 := kget r.reset s.csr r

/-- Store a register. DEDUCED: log entry 13. -/
def State.rset (s : State) (r : Reg) (v : W64) : State := { s with csr := kset Reg.addr r.reset s.csr r v }

/-- The value in force of a register's staged fields (R11). DEDUCED: log entry 13. -/
def State.aget (s : State) (r : Reg) : W64 := kget r.reset s.act r

/-- Put a register's value in force. DEDUCED: log entry 13. -/
def State.aset (s : State) (r : Reg) (v : W64) : State := { s with act := kset Reg.addr r.reset s.act r v }

/-- A field of a 64-bit value, as a number. -/
def fieldOf (v : W64) (f : Fld) : Nat := bitsOf v.toNat f.lo f.width

/-- A 64-bit value with one field replaced. -/
def withField (v : W64) (f : Fld) (x : Nat) : W64 :=
  BitVec.ofNat 64 (v.toNat - bitsOf v.toNat f.lo f.width * 2 ^ f.lo + x % 2 ^ f.width * 2 ^ f.lo)

/-- A field of a register. DEDUCED: log entry 13. -/
def State.rf (s : State) (r : Reg) (f : Fld) : Nat := fieldOf (s.rget r) f

/-- A field in force of a register (R11). DEDUCED: log entry 13. -/
def State.af (s : State) (r : Reg) (f : Fld) : Nat := fieldOf (s.aget r) f

/-- Set a field of a register. -/
def State.setF (s : State) (r : Reg) (f : Fld) (x : Nat) : State := s.rset r (withField (s.rget r) f x)

/-- Set a one-bit field of a register from a Bool. -/
def State.setB (s : State) (r : Reg) (f : Fld) (b : Bool) : State := s.setF r f (if b then 1 else 0)

/-- Add to a counting field, which saturates at its largest value. -/
def State.bumpF (s : State) (r : Reg) (f : Fld) (k : Nat) : State := s.setF r f (satAdd f.width (s.rf r f) k)

/-- The value that a reset of its unit gives a register (R376). -/
def State.resetOf (s : State) (r : Reg) : W64 := kget r.reset s.image r

/-- Put the staged fields of a register in force as they are written (R11). DEDUCED: log entry 13. -/
def State.commitReg (s : State) (r : Reg) : State := s.aset r (s.rget r)

/-- Take a free value of `n` bits: nothing constrains it. DESIGN CHOICE, DEDUCED: log entries 9, 61. -/
def State.free (s : State) (n : Nat) : State × Nat :=
  ({ s with freeCtr := s.freeCtr + 1 }, (Config.freeValue s.freeCtr).toNat % 2 ^ n)

/-- Domain `n` has been released (R368). DEDUCED: log entry 100. -/
def State.released (s : State) (n : Nat) : Bool := bitsOf (s.rf .rstDomains Fld.rstDomainsReleased) n 1 == 1

/-- Domain D`d` is not held in reset: D3 to D8 are until their release (R368, R369). DEDUCED: log entry 100. -/
def State.up (s : State) (d : Nat) : Bool := d < 3 || s.released d

/-- The units of domain D`d` run: it is up, and no freeze stops its clocks (R369, R404). DEDUCED: log entry 100. -/
def State.runs (s : State) (d : Nat) : Bool := !s.frozen && s.up d

/-- The domain of an agent (R367). DEDUCED: log entry 100. -/
def Agent.domain : Agent → Nat
  | .basecamp => 0
  | .engine _ => 4
  | .core _ => 5
  | .tile _ => 6
  | .fabric _ => 7
  | .host | .rootPort _ => 8

/-- The domain of a message's receiver (R367). -/
def Msg.domain : Msg → Nat
  | .snp .. | .cmp .. | .wbAck .. | .deny .. | .fwdData .. => 5
  | .data a _ _ => max 4 (Agent.domain a)
  | _ => 4

/-- The lowest offset at which `n` units are free in an area of a size, beside the parts in use (R131, R184); an empty part
fits anywhere. DESIGN CHOICE: log entry 126. -/
def firstFit (slots : List (Nat × Nat)) (size n : Nat) : Option Nat :=
  let ends := (0 :: slots.map (fun p => p.1 + p.2)).filter (fun o =>
    o + n ≤ size && slots.all (fun p => o + n ≤ p.1 || p.1 + p.2 ≤ o || n == 0))
  match ends with
  | [] => none
  | e :: l => some (l.foldl min e)

/-! ## Time and fault records -/

/-- Station time in ns (R410). DESIGN CHOICE: log entry 122. -/
def State.now (s : State) : W64 := BitVec.ofNat 64 (s.stn / 2 ^ 40)

/-! ## Descriptors that hold a tracker entry (R212) -/

/-- Ring `r`. -/
def State.ring (s : State) (r : Nat) : Ring := kget Ring.reset s.rings r
/-- Store ring `r`. -/
def State.setRing (s : State) (r : Nat) (x : Ring) : State := { s with rings := nset Ring.reset s.rings r x }

/-- The descriptor is the one of an index whose journal entry is not written yet. A ring that is armed again with HEAD moved back may admit
an index whose earlier descriptor still holds its tracker entry, journaled and not signalled (R207, R212). -/
def Desc.isLive (idx : W32) (d : Desc) : Bool := d.idx == idx && d.phase != .journaled
/-- The descriptor is one of an index whose journal entry is written and whose signal is not (R212). -/
def Desc.isJournaled (idx : W32) (d : Desc) : Bool := d.idx == idx && d.phase == .journaled

/-- The descriptor of a ring by its index, as long as its journal entry is not written. -/
def State.desc? (s : State) (r : Nat) (idx : W32) : Option Desc := (s.ring r).descs.find? (Desc.isLive idx)

/-- Change that descriptor. -/
def State.modDesc (s : State) (r : Nat) (idx : W32) (f : Desc → Desc) : State :=
  let x := s.ring r
  s.setRing r { x with descs := modifyFirst (Desc.isLive idx) f x.descs }

/-- A write of an owner has been acknowledged: a descriptor keeps the time (R218). -/
def State.ackDesc (s : State) (o : Owner) : State :=
  match o with
  | .desc r idx => s.modDesc r idx (fun d => { d with ackTime := some s.now })
  | _ => s

/-- The device ID, or zero before assignment (R300, R394). -/
def State.devId (s : State) : Nat := s.rf .fabId Fld.fabIdDeviceId

/-- Whether the device holds an ID (R300). -/
def State.idValid (s : State) : Bool := s.rf .fabId Fld.fabIdValid == 1

/-! The class codes of R396. -/
namespace Cls
abbrev csrAccess := 0x01
abbrev addrDecode := 0x02
abbrev unitReset := 0x03
abbrev tileSram := 0x10
abbrev tileCheck := 0x11
abbrev tileWatchdog := 0x12
abbrev tileIllegal := 0x13
abbrev agenSetup := 0x14
abbrev tileAperture := 0x15
abbrev tileProgBusy := 0x16
abbrev pegFault := 0x17
abbrev pipeTask := 0x18
abbrev ringDesc := 0x20
abbrev ringDoorbell := 0x21
abbrev ringAge := 0x22
abbrev redCheck := 0x28
abbrev redConfig := 0x29
abbrev redTimeout := 0x2A
abbrev stateMap := 0x30
abbrev stateStale := 0x31
abbrev stateDigest := 0x32
abbrev biasHost := 0x38
abbrev memUe := 0x40
abbrev memScrubUe := 0x41
abbrev memRange := 0x42
abbrev memRepair := 0x43
abbrev memRepairExhausted := 0x44
abbrev lpddrTrain := 0x45
abbrev fabLinkDown := 0x50
abbrev fabTopology := 0x51
abbrev fabVersion := 0x52
abbrev fabNoRoot := 0x53
abbrev fabUnlisted := 0x54
abbrev fabMalformed := 0x55
abbrev fabHops := 0x56
abbrev fabNoRoute := 0x57
abbrev fabDenied := 0x58
abbrev fabTimeout := 0x59
abbrev coreResidue := 0x60
abbrev coreUe := 0x61
abbrev coreHang := 0x62
abbrev coreStopped := 0x63
abbrev pcieDecode := 0x68
abbrev pciePoisoned := 0x69
abbrev pcieCplError := 0x6A
abbrev pcieCplTimeout := 0x6B
abbrev pcieLinkLost := 0x6C
abbrev rpAccess := 0x6D
abbrev rpLinkDown := 0x6E
abbrev dplDenied := 0x6F
abbrev fuseProg := 0x70
end Cls

/-! The unit kinds of R394, byte 18. -/
namespace Kind
abbrev device := 0
abbrev tile := 1
abbrev core := 2
abbrev home := 3
abbrev stack := 4
abbrev lpmc := 5
abbrev port := 6
abbrev rings := 7
abbrev pegs := 8
abbrev scheduler := 9
abbrev reduction := 10
abbrev state := 11
abbrev endpoint := 12
abbrev rootPort := 13
abbrev placement := 14
abbrev basecamp := 15
end Kind

/-- A record of a class and severity from a unit, its other fields zero. -/
def mkRec (cls sev kind unitIx : Nat) : FaultRec :=
  { time := 0, cls := cls, sev := sev, corrected := false, unitIx := unitIx, kind := kind, desc := none, addr := 0,
    detail0 := 0, detail1 := 0, forced := false }

/-- The 64 B of a record (R394): its number, and what the collector knows of it. -/
def recBytes (dev : Nat) (r : FaultRec) (seq : Nat) (overflow early phase : Bool) (lost : Nat) : List Byte :=
  let bit (b : Bool) (k : Nat) : Nat := if b then 2 ^ k else 0
  let (ring, idx, cookie) := match r.desc with
    | some d => (d.ring % 2 ^ 13 + 2 ^ 13, d.idx.toNat, d.cookie.toNat)
    | none => (0, 0, 0)
  leBytes 8 r.time.toNat ++ leBytes 4 seq ++ leBytes 2 r.cls ++ leBytes 1 r.sev
    ++ leBytes 1 (bit r.corrected 0 + bit r.forced 1 + bit overflow 2 + bit early 3 + bit phase 7)
    ++ leBytes 2 r.unitIx ++ leBytes 1 r.kind ++ leBytes 1 0 ++ leBytes 2 ring ++ leBytes 2 0 ++ leBytes 4 idx
    ++ leBytes 4 (min lost (2 ^ 32 - 1)) ++ leBytes 8 r.addr.toNat ++ leBytes 8 cookie ++ leBytes 8 r.detail0.toNat
    ++ leBytes 6 r.detail1.toNat ++ leBytes 2 (dev % 4096)

/-! ## Management frames and the freeze (R404 to R406, R422) -/

/-- The MAC address of the management port (R421). -/
def State.mac (s : State) : BitVec 48 := BitVec.ofNat 48 (s.rf .timeMac Fld.timeMacMac)

/-- Send a management frame. -/
def State.sendFrame (s : State) (f : MgmtFrame) : State := { s with sys := { s.sys with frames := f :: s.sys.frames } }

/-- Answer a frame: its sender, op, status, sequence, offset and data. -/
def State.answerFrame (s : State) (dst : BitVec 48) (op status seq offset : Nat) (data : List Byte) : State :=
  s.sendFrame { dst := some dst, op := op, status := status, seq := seq, offset := offset, length := data.length, data := data,
                mac := s.mac, etherType := 0x88B5 }

/-- The management station (R422). -/
def State.peer (s : State) : BitVec 48 := BitVec.ofNat 48 (s.rf .timeMgmtCfg Fld.timeMgmtCfgPeer)

/-- Send an unsolicited frame to the management station. -/
def State.notifyPeer (s : State) (op : Nat) (data : List Byte) : State :=
  s.sendFrame { dst := some s.peer, op := op, status := 0, seq := 0, offset := 0, length := data.length, data := data,
                mac := s.mac, etherType := 0x88B5 }

/-- fault_fwd is set (R422). -/
def State.faultFwd (s : State) : Bool := s.rf .timeMgmtCfg Fld.timeMgmtCfgFaultFwd == 1

/-- A FROZEN frame is sent at freeze entry (R406), and after it the record that triggered the freeze (R422).
DEDUCED: log entry 77. -/
def State.frozenFrames (s : State) : State :=
  let s := if s.faultFwd || !s.sys.applied then
      s.notifyPeer 23 (leBytes 8 (s.rget .frzTime).toNat ++ leBytes 1 (s.rf .frzStatus Fld.frzStatusSource)
        ++ leBytes 1 (s.rf .frzStatus Fld.frzStatusClass) ++ leBytes 1 (s.rf .bootGlPhase Fld.bootGlPhaseLow) ++ leBytes 5 0)
    else s
  if s.faultFwd && s.rf .frzStatus Fld.frzStatusSource == 3 then
    s.notifyPeer 22 ((List.range 8).flatMap (fun w => leBytes 8 (s.rget (.frzRecord w)).toNat))
  else s

/-! ## Guyline outputs of the run phase (R401, R406, R417, R420, R438, R439) -/

/-- The fault ring is enabled, in force. -/
def State.fltOn (s : State) : Bool := s.af .fltCtrl Fld.fltCtrlEnable == 1
/-- log2 of the fault ring's records in force. -/
def State.fltFs (s : State) : Nat := s.af .fltCtrl Fld.fltCtrlFs
/-- Records in the fault ring that software has not consumed. -/
def State.fltUsed (s : State) : Nat :=
  (s.rf .fltTail Fld.fltTailTail + 2 ^ 32 - s.rf .fltHead Fld.fltHeadHead) % 2 ^ 32

/-- A configuration load has failed (R348). -/
def State.loadFailed (s : State) : Bool := s.rf .bootStatus Fld.bootStatusError != 0

/-- A condition asserts FAULT_N, whatever the phase of GL[2] (R348, R401). -/
def State.faultHolds (s : State) : Bool := s.rf .fltStatus Fld.fltStatusPin == 1 || s.loadFailed

/-- A pin that drives a level, or none. -/
abbrev Level := Option Bool

/-- GL[11:0] are in phase R. -/
def State.runPhase (s : State) : Bool := s.rf .bootGlPhase Fld.bootGlPhaseLow == 2

/-- The condition of ALERT_N (R401, R420). -/
def State.alertCond (s : State) : Bool :=
  (2 ^ (s.fltFs - 1) ≤ s.fltUsed) || s.rf .fltStatus Fld.fltStatusOverflow == 1
    || bitsOf (s.rget .timeAlert).toNat 0 4 != 0

/-- The level of GPIO[i] on GL[16 + i] by its register (R439). -/
def State.gpioLevel (s : State) (i : Nat) : Level :=
  let x := s.rget .bootGpio
  if s.rf .bootGlPhase Fld.bootGlPhaseHigh = 2 ∧ x.getLsbD i then some (x.getLsbD (16 + i)) else none

/-! The pins of load phase (R430, R435, R437). -/

/-- Dummy cycles of a command: those of the NVM mode for a read, and none for a write, an erase or a status command (R437). -/
def XspiCmd.dummy (c : XspiCmd) : Nat :=
  match c.mode with
  | some m => if c.opcode = m.read then m.dummy else 0
  | none => 0

/-- The command and address bytes of a command, in the order of the clock edges (R437): the opcode, its extension in the octal protocols, and
four address bytes, most significant first. -/
def XspiCmd.head (c : XspiCmd) : List Byte :=
  BitVec.ofNat 8 c.opcode :: (c.ext.map (BitVec.ofNat 8)).toList
    ++ (if c.addrEn then (leBytes 4 c.address).reverse else [])

/-- Clock edges that one SCK cycle carries a transfer on: two in the double-rate mode (R335, R437). -/
def XspiCmd.edges (c : XspiCmd) : Nat := match c.mode with | some m => if m.ddr then 2 else 1 | none => 1

/-- What the device drives on IO[7:0] at each edge of a command in an octal mode (R437): its command, address and data bytes; nothing in
dummy cycles and while the flash sends. -/
def XspiCmd.octalEdges (c : XspiCmd) : List (Option Byte) :=
  c.head.map some ++ List.replicate (c.edges * c.dummy) none ++ (if c.write then c.data.map some else List.replicate c.length none)

/-- The levels of IO7 to IO0, from IO0 on, at the edge of an index: in 1S-1S-1S mode IO0 carries the bytes bit by bit, most significant first,
and the device drives no other line (R430). DESIGN CHOICE: log entry 128. -/
def XspiCmd.io (c : XspiCmd) (e : Nat) : List Level :=
  let octal := match c.mode with | some m => m.octal | none => true
  if octal then
    match (c.octalEdges[e % c.octalEdges.length]?).join with
    | some b => (List.range 8).map (fun i => some (b.getLsbD i))
    | none => List.replicate 8 none
  else
    let bits := (c.head.flatMap (fun b => (List.range 8).map (fun i => some (b.getLsbD (7 - i))))) ++ List.replicate c.dummy none
      ++ (if c.write then c.data.flatMap (fun b => (List.range 8).map (fun i => some (b.getLsbD (7 - i)))) else List.replicate (8 * c.length) none)
    (bits[e % bits.length]?).join :: List.replicate 7 none

/-- The levels of GL[11:0] in load phase (R430, R435, R437): IO0 to IO7, SCK, CS_N, DS, and the flash's RESET_N, which is high throughout. Between
commands SCK is low, CS_N high, and IO and DS are inputs; during one CS_N is low, and no rule fixes the edge that a state shows.
DESIGN CHOICE: log entry 128. -/
def State.loadLevels (s : State) : List Level :=
  match s.sys.xspi with
  | none => List.replicate 8 none ++ [some false, some true, none, some true]
  | some c => c.io (Config.xspiEdge s.now.toNat) ++ [some (Config.pinLevel 8 s.now.toNat), some false, none, some true]

/-- Phase S is over for the phase outputs (R431, R435). -/
def State.phased (s : State) : Bool := s.rf .bootGlPhase Fld.bootGlPhaseLow != 0

/-- TRCLK runs, at BCLK: the trace port is enabled, and in run phase (R355, R440). -/
def State.trclkRuns (s : State) : Bool := s.runPhase && s.rf .bootTrace Fld.bootTraceEnable == 1

/-- The levels of XSPI_EN_N, GLRUN_N and TRCLK (R429, R431, R440): high-impedance in phase S; a running TRCLK has no level that a rule fixes for
a state. DESIGN CHOICE: log entry 128. -/
def State.phaseLevels (s : State) : List Level :=
  let on (x : Bool) : Level := if s.phased then some x else none
  [on (s.rf .bootGlPhase Fld.bootGlPhaseXspiEn != 1), on (s.rf .bootGlPhase Fld.bootGlPhaseGlrun != 1),
   on (s.trclkRuns && Config.pinLevel 34 s.now.toNat)]

/-- The levels of the guyline outputs but FAULT_N while the device is not frozen: PPS_OUT on GL[1] (R417), ALERT_N on GL[3], low while
asserted (R401, R420), SBO0 on GL[4], low with follow_fault while FAULT_N is asserted, SBO1 on GL[5] (R438), and GPIO (R439); then GL[11:0] as
in load phase, XSPI_EN_N, GLRUN_N and TRCLK. DEDUCED: log entry 98. -/
def State.levels0 (s : State) : List Level :=
  let run (x : Level) : Level := if s.runPhase then x else none
  [run (some s.sys.pps.isSome), run (if s.alertCond then some false else none),
   run (some (s.rf .bootSideband Fld.bootSidebandSbo0 == 1 && !(s.rf .bootSideband Fld.bootSidebandFollowFault == 1 && s.faultHolds))),
   run (some (s.rf .bootSideband Fld.bootSidebandSbo1 == 1))] ++ (List.range 16).map s.gpioLevel
    ++ s.loadLevels ++ s.phaseLevels

/-- Enter a lantern freeze (R404, R405): every clock but BCLK and TCK stops; source 1 FREEZE_N, 2 FRZ.CTRL, 3 a trigger class.
DEDUCED: log entry 98. -/
def State.freeze (s : State) (source cls : Nat) : State :=
  if s.frozen then s
  else
    let s := { s with frozen := true, sys := { s.sys with selfRefresh := true, held := s.levels0 } }
    let s := ((s.setF .frzStatus Fld.frzStatusFrozen 1).setF .frzStatus Fld.frzStatusSource source).setF .frzStatus
      Fld.frzStatusClass cls
    (s.rset .frzTime s.now).frozenFrames

/-- Keep the record that triggers a freeze in FRZ.RECORD (R405). DEDUCED: log entry 75. -/
def State.holdRecord (s : State) (l : List Byte) : State :=
  (List.range 8).foldl (fun s w => s.rset (.frzRecord w) (BitVec.ofNat 64 (leNat ((l.drop (8 * w)).take 8)))) s

/-- FRZ.TRIGGER names a class (R404). -/
def State.triggers (s : State) (cls : Nat) : Bool := cls < 128 && (s.rget (.frzTrigger (cls / 64))).getLsbD (cls % 64)

/-- A unit reports a record, stamped with the station time (R394). A record of a class that FRZ.TRIGGER names freezes the device and
stays in FRZ.RECORD; during a freeze a record is discarded (R404, R405). DEDUCED, DESIGN CHOICE: log entries 75, 122. -/
def State.report (s : State) (r : FaultRec) : State :=
  let r := { r with time := s.now }
  if s.frozen then s
  else if s.triggers r.cls then
    (s.holdRecord (recBytes s.devId r (s.flt.seq.toNat + s.flt.net.length) (s.flt.lostRun != 0) false false s.flt.lostRun)).freeze 3
      r.cls
  else { s with flt := { s.flt with net := s.flt.net ++ [r] } }

/-- The tile of an index as a requester: what it meets puts it in FAULTED (R392, R395). -/
def Who.tile (n : Nat) : Who := ⟨Kind.tile, n, 2, none⟩

/-- A record that names a requester. -/
def whoRec (cls : Nat) (w : Who) (addr : Nat) : FaultRec :=
  { mkRec cls w.sev w.kind w.unitIx with desc := w.desc, addr := BitVec.ofNat 64 addr }

/-! ## Tiles -/

/-- Tile `n`. -/
def State.tile (s : State) (n : Nat) : Tile := kget Tile.reset s.tiles n

/-- Store tile `n`. -/
def State.setTile (s : State) (n : Nat) (t : Tile) : State := { s with tiles := nset Tile.reset s.tiles n t }

/-- Change tile `n`. -/
def State.modTile (s : State) (n : Nat) (f : Tile → Tile) : State := s.setTile n (f (s.tile n))

/-- Array `m` of a tile. -/
def Tile.array (t : Tile) (m : Nat) : MatArray := kget MatArray.reset t.arrays m

/-- Store array `m` of a tile. -/
def Tile.setArray (t : Tile) (m : Nat) (x : MatArray) : Tile := { t with arrays := nset MatArray.reset t.arrays m x }

/-- AGEN `a` of a tile. -/
def Tile.agen (t : Tile) (a : Nat) : Agen := kget Agen.reset t.agens a

/-- Store AGEN `a` of a tile. -/
def Tile.setAgen (t : Tile) (a : Nat) (x : Agen) : Tile := { t with agens := nset Agen.reset t.agens a x }

/-! ## The local map (R254) -/

/-- Where a local offset lies. -/
inductive Region where
  | hbm | lp | aperture (tile offset : Nat) | registers | absent
  deriving DecidableEq, Repr

/-- The register rows of the local map: base and size. -/
def registerRows : List (Nat × Nat) :=
  [(0xF00000000000, 0x10000), (0xF00000010000, 0x10000), (0xF00000020000, 0x10000), (0xF00000030000, 0x10000),
   (0xF00001000000, 0x350000), (0xF00002000000, 0x200000), (0xF00003000000, 0x420000), (0xF00004000000, 0x10000),
   (0xF00005000000, 0x10000), (0xF00006000000, 0x10000), (0xF00010000000, 0x2000000), (0xF00012000000, 0x400000),
   (0xF00020000000, 0x20000000), (0xF00040000000, 0x1000000)]

/-- The region of a local offset. -/
def regionOf (off : Nat) : Region :=
  if off < 0x10000000000 then .hbm
  else if off < 0x50000000000 ∧ 0x10000000000 ≤ off then .lp
  else if 0x800000000000 ≤ off ∧ off < 0x800000000000 + 384 * 0x800000 then
    .aperture ((off - 0x800000000000) / 0x800000) (off % 0x800000)
  else if registerRows.any (fun r => r.1 ≤ off && off < r.1 + r.2) then .registers
  else .absent

/-- The usable size of the HBM window (R231). -/
def State.hbmSize (s : State) : Nat := s.rf .hbmcHbmSize Fld.hbmcHbmSizeBytes

/-- The usable size of the LPDDR5X window (R231). -/
def State.lpSize (s : State) : Nat := s.rf .hbmcLpSize Fld.hbmcLpSizeBytes

/-- A local offset lies in the usable part of a memory window (R231). -/
def State.usable (s : State) (off : Nat) : Bool :=
  match regionOf off with
  | .hbm => off < s.hbmSize
  | .lp => off - 0x10000000000 < s.lpSize
  | _ => false

/-- A region lies wholly in the HBM window (R473). -/
def State.inHbm (s : State) (base size : Nat) : Bool := size == 0 || base + size ≤ s.hbmSize

/-- A region lies wholly in the LPDDR5X window (R473). -/
def State.inLp (s : State) (base size : Nat) : Bool :=
  size == 0 || (0x10000000000 ≤ base && base - 0x10000000000 + size ≤ s.lpSize)

/-- A region lies wholly in one of the two windows (R473). -/
def State.inWindow (s : State) (base size : Nat) : Bool := s.inHbm base size || s.inLp base size

/-- The home agent of an offset of the HBM window (R235). -/
def hbmHome (a : Nat) : Nat := (bitsOf (a / 256) 0 5) ^^^ (bitsOf (a / 256) 9 5)

/-- The pseudo-channel of an offset of the HBM window within its home (R235). -/
def hbmPc (a : Nat) : Nat := (bitsOf (a / 256) 5 4) ^^^ (bitsOf (a / 256) 14 4)

/-- The data line within its pseudo-channel of an offset of the HBM window (R235). -/
def hbmLine (a : Nat) : Nat := 4 * (a / 256 / 512) + bitsOf a 6 2

/-- The LPDDR5X population is full (R236, R248). -/
def State.lpFull (s : State) : Bool := bitsOf (s.rf (.lpmcPop 0) Fld.lpmcPopChannels) 4 1 == 1

/-- The channel of an offset of the LPDDR5X window (R236). -/
def lpChannel (full : Bool) (a : Nat) : Nat :=
  let g := a / 256
  if full then bitsOf g 0 6 ^^^ bitsOf g 6 6
  else let c := bitsOf g 0 5 ^^^ bitsOf g 5 5; 8 * (c / 4) + c % 4

/-- The data line within its channel of an offset of the LPDDR5X window (R236). -/
def lpLine (full : Bool) (a : Nat) : Nat := 4 * (a / 256 / (if full then 64 else 32)) + bitsOf a 6 2

/-- The home agent of a local offset of the memory windows (R230, R235, R236). -/
def State.homeOf (s : State) (off : Nat) : Nat :=
  if off < 0x10000000000 then hbmHome off else 32 + lpChannel s.lpFull (off - 0x10000000000) / 8

/-- The channel within its home and the data line within the channel of a local offset of the windows (R235, R236). -/
def State.channelLine (s : State) (off : Nat) : Nat × Nat :=
  if off < 0x10000000000 then (hbmPc off, hbmLine off)
  else (lpChannel s.lpFull (off - 0x10000000000) % 8, lpLine s.lpFull (off - 0x10000000000))

/-- The raw unit of data line `j` of a channel (R232, R235). -/
def dataUnit (j : Nat) : Nat := 39 * (j / 32) + j % 32

/-- The raw byte in its channel at which the 14 B of check bits of data line `j` begin (R232, R235). -/
def checkByte (j : Nat) : Nat := 64 * (39 * (j / 32) + 32) + 14 * (j % 32)

/-- The raw check unit, and the bit in it, of check bit `b` of word `w` of data line `j` (R232). -/
def checkPlace (j w b : Nat) : Nat × Nat := ((8 * checkByte j + 7 * w + b) / 512, (8 * checkByte j + 7 * w + b) % 512)

/-- The check units that hold check bits of data line `j`: one, or two that its 14 B straddle (R232). -/
def checkUnits (j : Nat) : List Nat :=
  List.range' (checkByte j / 64) ((checkByte j + 13) / 64 - checkByte j / 64 + 1)

/-- The local offset of data line `j` of channel `ch` of home `h` (R235, R236). -/
def State.lineAddr (s : State) (h ch j : Nat) : Nat :=
  let i := j / 4
  if h < 32 then (i * 512 + (ch ^^^ bitsOf i 5 4) * 32 + (h ^^^ bitsOf i 0 5)) * 256 + j % 4 * 64
  else
    let n := if s.lpFull then 6 else 5
    let c := if s.lpFull then 8 * (h - 32) + ch else 4 * (h - 32) + ch
    0x10000000000 + (i * 2 ^ n + (c ^^^ bitsOf i 0 n)) * 256 + j % 4 * 64

/-- The lines of check group `g` of a channel of a home, in their order (R232). -/
def State.groupLines (s : State) (h ch g : Nat) : List Nat := (List.range 32).map (fun i => s.lineAddr h ch (32 * g + i))

/-- The register instance of the memory controller of a home: stacks 0 to 15, LPMC instances 16 to 23. -/
def mcOf (h : Nat) : Nat := if h < 32 then h / 2 else h - 16

/-! ## Bytes of memory -/

/-- The byte at a local offset. DESIGN CHOICE: log entry 5. -/
def State.byteAt (s : State) (a : Nat) : Byte := kget 0 s.mem a

/-- `n` bytes from a local offset. DESIGN CHOICE: log entry 5. -/
def State.bytesAt (s : State) (a : Nat) : Nat → List Byte
  | 0 => []
  | n + 1 => s.byteAt a :: s.bytesAt (a + 1) n

/-- The canonical form of the memory. DESIGN CHOICE: log entry 5. -/
def Memory.wf (m : List Host.Cell) : Bool := NMap.wf (0 : Byte) m

/-- A memory with bytes stored from an address on. -/
def putCells (m : List Host.Cell) (a : Nat) : List Byte → List Host.Cell
  | [] => m
  | b :: l => putCells (nset 0 m a b) (a + 1) l

/-- The word addresses that bytes `a` to `a + n - 1` touch. -/
def wordsOf (a n : Nat) : List Nat := if n = 0 then [] else List.range' (a / 4) ((a + n - 1) / 4 - a / 4 + 1)

/-- Whether a word lies wholly in bytes `a` to `a + n - 1`. -/
def coversWord (a n w : Nat) : Bool := a ≤ 4 * w && 4 * w + 4 ≤ a + n

/-- Store bytes and their check bits: a word stored whole loses its error mark; a word stored in part loses a single-bit mark and
keeps an uncorrectable one (R32, R241). DESIGN CHOICE, DEDUCED: log entries 5, 67. -/
def State.store (s : State) (a : Nat) (l : List Byte) : State :=
  { s with
    mem := putCells s.mem a l
    ue := s.ue.filter (fun w => !(coversWord a l.length w))
    ce := s.ce.filter (fun w => !((wordsOf a l.length).contains w)) }

/-- The uncorrectable words among those that `n` bytes from `a` touch. -/
def State.ueIn (s : State) (a n : Nat) : List Nat := s.ue.filter (fun w => (wordsOf a n).contains w)

/-- The words with a single-bit error among those that `n` bytes from `a` touch. -/
def State.ceIn (s : State) (a n : Nat) : List Nat := s.ce.filter (fun w => (wordsOf a n).contains w)

/-! ## Tile SRAM (R32 to R35, R72) -/

/-- The local offset of an offset of a tile's aperture. -/
def apBase (n : Nat) : Nat := 0x800000000000 + n * 0x800000

/-- The local offset of the program memory of a tile (R44). -/
def progBase (n : Nat) : Nat := 0xF00020010000 + n * 0x100000

/-- The bank of an aperture offset (R35). -/
def bankOf (o : Nat) : Nat := bitsOf o 17 6

/-- The TILE_SRAM record of an uncorrectable word of tile `n` (R34, R397): the tile as its unit, the requester in detail0. -/
def sramRec (n : Nat) (w : Who) (store bank row word : Nat) (addr pc : Nat) : FaultRec :=
  { mkRec Cls.tileSram 1 Kind.tile n with
    desc := w.desc
    addr := BitVec.ofNat 64 addr
    detail0 := BitVec.ofNat 64 (bank + row * 2 ^ 6 + word * 2 ^ 16 + store * 2 ^ 21 + w.kind * 2 ^ 24 + w.unitIx * 2 ^ 32)
    detail1 := BitVec.ofNat 48 pc }

/-- An uncorrectable word of tile `n` has been read (R34): the flag and the record. -/
def State.sramUe (s : State) (n : Nat) (r : FaultRec) : State :=
  (s.setF (.tileFault n) Fld.tileFaultSramUe 1).report r

/-- Corrected words of tile `n` (R34): the flag, the count and the write-backs. -/
def State.sramCorrected (s : State) (n : Nat) (ws : List Nat) : State :=
  if ws.isEmpty then s else
  let s := (s.setF (.tileFault n) Fld.tileFaultSramCe 1).bumpF (.tileSramCeCount n) Fld.tileSramCeCountCount ws.length
  s.modTile n (fun t => { t with writeBack := t.writeBack ++ ws.filter (fun w => !t.writeBack.contains w) })

/-- The first uncorrectable word of a list as a TILE_SRAM record of a bank or of program memory. DEDUCED: log entry 24. -/
def State.sramUeRec (s : State) (n : Nat) (w : Who) (word : Nat) : FaultRec :=
  let pc := (s.tile n).pc.toNat % 65536
  if 4 * word ≥ progBase n then sramRec n w 4 0 0 0 (4 * word) pc
  else
    let o := 4 * word - apBase n
    sramRec n w 0 (bankOf o) (bitsOf o 7 10) (bitsOf o 2 5) (4 * word) pc

/-- Read `len` bytes of one bank row of tile `n` at aperture offset `o` (R34, R35, R72): an unpopulated bank reads as zero with a
record; an uncorrectable word returns nothing. DESIGN CHOICE: log entry 105. -/
def State.sramRead (s : State) (w : Who) (n o len : Nat) : State × Option (List Byte) :=
  if 48 ≤ bankOf o then
    (s.report { whoRec Cls.tileAperture w (apBase n + o) with sev := 0 }, some (List.replicate len 0))
  else
    match s.ueIn (apBase n + o) len with
    | u :: _ => (s.sramUe n (s.sramUeRec n w u), none)
    | [] => (s.sramCorrected n (s.ceIn (apBase n + o) len), some (s.bytesAt (apBase n + o) len))

/-- Write bytes of one bank row of tile `n` at aperture offset `o` (R32, R35, R72). A word written in part is read first, so an
uncorrectable one ends the write. DESIGN CHOICE: log entry 105. -/
def State.sramWrite (s : State) (w : Who) (n o : Nat) (l : List Byte) : State × Bool :=
  if l.isEmpty then (s, true)
  else if 48 ≤ bankOf o then
    (s.report { whoRec Cls.tileAperture w (apBase n + o) with sev := 0 }, true)
  else
    match (s.ueIn (apBase n + o) l.length).filter (fun x => !coversWord (apBase n + o) l.length x) with
    | u :: _ => (s.sramUe n (s.sramUeRec n w u), false)
    | [] =>
      let part := (s.ceIn (apBase n + o) l.length).filter (fun x => !coversWord (apBase n + o) l.length x)
      ((s.sramCorrected n part).store (apBase n + o) l, true)

end Sys2Proof.Machine
end

