-- ==== Sys2Proof/Machine/MemOps.lean ====
section
/-! DEFINITION. The memory side of the windows at its homes: the value of a line under the page bias and the copies of the host cores,
check cache, watermark and system-level cache, errors on access, and the row table (R231 to R245, R256, R260). -/

namespace Sys2Proof.Machine

/-- An agent as a requester in a record (R394). -/
def Agent.who : Agent → Who
  | .core c => ⟨Kind.core, c, 0, none⟩
  | .basecamp => ⟨Kind.basecamp, 0, 0, none⟩
  | .host => ⟨Kind.endpoint, 0, 0, none⟩
  | .rootPort p => ⟨Kind.rootPort, p, 0, none⟩
  | .fabric d => ⟨Kind.device, d.toNat, 0, none⟩
  | .tile n => Who.tile n
  | .engine r => ⟨Kind.rings, r, 1, none⟩

/-- A local offset in one of the memory windows; the coherence rules apply only to them (R255). -/
def isWindow (a : Nat) : Bool := a < 0x50000000000

/-- A local offset in no row of the local map (R251). -/
def isAbsent (a : Nat) : Bool := match regionOf a with | .absent => true | _ => false

/-- The page index of a local offset of the windows (R261). -/
def pageOf (off : Nat) : Nat := off / 2 ^ 21

/-- The bias of the page of a local offset is DEVICE (R261). -/
def State.deviceBias (s : State) (off : Nat) : Bool := s.bias.contains (pageOf off)

/-- Home agent `h`. -/
def State.home (s : State) (h : Nat) : Home := kget Home.reset s.homes h
/-- Store home agent `h`. -/
def State.setHome (s : State) (h : Nat) (x : Home) : State := { s with homes := nset Home.reset s.homes h x }
/-- Host core `c`. -/
def State.core (s : State) (c : Nat) : HostCore := kget HostCore.reset s.cores c
/-- Store host core `c`. -/
def State.setCore (s : State) (c : Nat) (x : HostCore) : State := { s with cores := nset HostCore.reset s.cores c x }
/-- Memory controller of home `h`. -/
def State.mc (s : State) (h : Nat) : MemCtl := kget MemCtl.reset s.mcs h
/-- Store the memory controller of home `h`. -/
def State.setMc (s : State) (h : Nat) (x : MemCtl) : State := { s with mcs := nset MemCtl.reset s.mcs h x }

/-- The line address of a local offset. -/
def lineOf (off : Nat) : Nat := off / 64 * 64

/-- The bytes of a line value. -/
def lineBytes (l : Line) : List Byte := leBytes 64 l.toNat

/-- A line value from bytes, the rest zero. -/
def toLine (l : List Byte) : Line := BitVec.ofNat 512 (leNat (l.take 64))

/-- The copy of a line that is newer than memory, if one exists (R256, R273): a modified copy in a core, or dirty data on its way
between a core and another core or the home. -/
def State.dirtyCopy (s : State) (la : Nat) : Option Line :=
  let inCore (c : HostCore) : Option Line :=
    match c.lines.find? (fun e => e.1 == la && e.2.st == .modified) with
    | some e => some e.2.data
    | none => (c.misses.find? (fun m => m.line == la && m.dirty)).bind (fun m => m.data)
  let inMsg : Msg → Option Line
    | .fwdData _ l d true => if l = la then some d else none
    | .snpData _ l d => if l = la then some d else none
    | .wbDirty _ l d => if l = la then some d else none
    | _ => none
  (s.cores.findSome? (fun e => inCore e.2)).or (s.mesh.findSome? inMsg)

/-- Where the bits of a mask stand: the numbers of the words of a line that it names. -/
def markedWords (la : Nat) (m : BitVec 16) : List Nat := ((List.range 16).filter (fun i => m.getLsbD i)).map (la / 4 + ·)

/-- A mask of the words of a line. -/
def wordMask (la : Nat) (l : List Nat) : BitVec 16 := BitVec.ofNat 16 (((List.range 16).map (fun i => if l.contains (la / 4 + i) then 2 ^ i else 0)).sum)

/-- The copy of a line in the system-level cache of its home (R260). -/
def State.slcCopy (s : State) (la : Nat) : Option SlcLine := (s.home (s.homeOf la)).slc.find? (fun e => e.line == la)

/-- Check group `g` of a channel of LPDDR5X home `h` lies above the watermark, and no write has initialised it (R239). -/
def State.aboveMark (s : State) (h ch g : Nat) : Bool :=
  32 ≤ h && s.rf (.hbmcStatus (mcOf h)) Fld.hbmcStatusInitDone == 0 && kget 0 (s.mc h).watermark ch ≤ g && !(s.mc h).inited.contains (ch, g)

/-- A line lies above the watermark of its channel, in a check group that no write has initialised (R239). -/
def State.above (s : State) (la : Nat) : Bool :=
  isWindow la && 0x10000000000 ≤ la && (let cl := s.channelLine la; s.aboveMark (s.homeOf la) cl.1 (cl.2 / 32))

/-- A line reads as zero without a DRAM access: it lies above the watermark, and no cache of the memory side holds it (R239). -/
def State.blank (s : State) (la : Nat) : Bool := s.above la && (s.slcCopy la).isNone

/-- The memory value of a byte of the windows, at its home (R239, R256, R260). -/
def State.memByte (s : State) (a : Nat) : Byte := if s.blank (lineOf a) then 0 else s.byteAt a

/-- The memory value of a range within one line, at its home. -/
def State.memBytes (s : State) (a n : Nat) : List Byte := if s.blank (lineOf a) then List.replicate n 0 else s.bytesAt a n

/-- The current bytes of a range within one line (R256). DESIGN CHOICE: log entry 25. -/
def State.current (s : State) (a n : Nat) : List Byte :=
  if s.deviceBias a then s.memBytes a n
  else match s.dirtyCopy (lineOf a) with
    | some d => ((lineBytes d).drop (a % 64)).take n
    | none => s.memBytes a n

/-- A line value with bytes laid over it. -/
def overlay (d : Line) (at_ : Nat) (l : List Byte) : Line :=
  let b := lineBytes d
  toLine (b.take at_ ++ l ++ b.drop (at_ + l.length))

/-! ## The check cache and the watermark (R233, R239) -/

/-- The words of a line whose check bits lie in an uncorrectable word of a check unit that the check cache holds (R232, R233).
DESIGN CHOICE: log entry 116. -/
def State.checkLost (s : State) (la : Nat) : List Nat :=
  let cl := s.channelLine la
  let bad := (s.mc (s.homeOf la)).check.filter (fun e => e.channel == cl.1 && e.ue != 0)
  if bad.isEmpty then [] else
    ((List.range 16).filter (fun w => (List.range 7).any (fun b =>
      let p := checkPlace cl.2 w b
      bad.any (fun e => e.unit == p.1 && e.ue.getLsbD (p.2 / 32))))).map (la / 4 + ·)

/-- Words of DRAM become uncorrectable. -/
def State.loseWords (s : State) (l : List Nat) : State := { s with ue := l.foldl (fun u w => setIns w u) s.ue }

/-- A check unit leaves the check cache: one that DRAM does not hold as it is is written there, and words whose check bits it has lost are
uncorrectable from then on (R233). DESIGN CHOICE: log entry 116. -/
def State.checkEvict (s : State) (h : Nat) (e : CheckUnit) : State :=
  if !e.dirty || e.ue = 0 then s
  else
    s.loseWords ((List.range 32).flatMap (fun i =>
      let j := 32 * (e.unit / 39) + i
      ((List.range 16).filter (fun w => (List.range 7).any (fun b =>
        let p := checkPlace j w b
        p.1 == e.unit && e.ue.getLsbD (p.2 / 32)))).map (s.lineAddr h e.channel j / 4 + ·)))

/-- The 32-bit words of check unit `u` that lie wholly within the check bits of data line `j`. DESIGN CHOICE: log entry 116. -/
def checkWords (j u : Nat) : BitVec 16 :=
  BitVec.ofNat 16 (((List.range 16).map (fun x =>
    if 8 * checkByte j ≤ 512 * u + 32 * x ∧ 512 * u + 32 * x + 32 ≤ 8 * checkByte j + 112 then 2 ^ x else 0)).sum)

/-- The check unit `u` of data line `j` of a channel is used (R233): a unit that the cache does not hold is read from DRAM, a write updates it
there, and of 1,024 units the one least recently used leaves. DESIGN CHOICE: log entry 116. -/
def State.checkUse (s : State) (h ch j : Nat) (write : Bool) (u : Nat) : State :=
  let m := s.mc h
  let e := (m.check.find? (fun e => e.channel == ch && e.unit == u)).getD ⟨ch, u, false, 0⟩
  let e : CheckUnit := { e with dirty := e.dirty || write, ue := if write then e.ue &&& ~~~checkWords j u else e.ue }
  let l := e :: m.check.filter (fun e => !(e.channel == ch && e.unit == u))
  (l.drop 1024).foldl (fun s e => s.checkEvict h e) (s.setMc h { m with check := l.take 1024 })

/-- A line of DRAM is read or written: its check units are used (R233). DESIGN CHOICE: log entry 116. -/
def State.checkAccess (s : State) (la : Nat) (write : Bool) : State :=
  let cl := s.channelLine la
  (checkUnits cl.2).foldl (fun s u => s.checkUse (s.homeOf la) cl.1 cl.2 write u) s

/-- A line of DRAM is rewritten as its row moves (R245): the check units of it that the cache holds are updated (R233).
DESIGN CHOICE: log entry 116. -/
def State.checkRewrite (s : State) (la : Nat) : State :=
  let h := s.homeOf la
  let cl := s.channelLine la
  let m := s.mc h
  s.setMc h { m with check := m.check.map (fun e =>
    if e.channel == cl.1 && (checkUnits cl.2).contains e.unit then { e with dirty := true, ue := e.ue &&& ~~~checkWords cl.2 e.unit } else e) }

/-- The lines of a home whose check bits lie in units that its check cache holds (R232, R233). -/
def State.cachedLines (s : State) (h : Nat) : List Nat :=
  ((s.mc h).check.flatMap (fun e => s.groupLines h e.channel (e.unit / 39))).eraseDups

/-- The uncorrectable words that a read of a line of DRAM finds, with the check bits of the check cache where it holds them (R233, R243). -/
def State.scrubUe (s : State) (la : Nat) : List Nat :=
  s.ueIn la 64 ++ (s.checkLost la).filter (fun w => !(s.ueIn la 64).contains w)

/-- A check group of DRAM is written with zeros and valid check bits (R239). DESIGN CHOICE: log entry 116. -/
def State.zeroGroup (s : State) (h ch g : Nat) : State :=
  let all := s.groupLines h ch g
  let lines := all.filter (fun l => (s.slcCopy l).isNone)
  { s with
    mem := s.mem.filter (fun c => !lines.contains (lineOf c.1))
    ue := s.ue.filter (fun w => !all.contains (lineOf (4 * w)))
    ce := s.ce.filter (fun w => !all.contains (lineOf (4 * w)))
    mcs := nset MemCtl.reset s.mcs h { s.mc h with check := (s.mc h).check.map (fun e =>
      if e.channel == ch && e.unit / 39 == g then { e with dirty := false, ue := 0 } else e) } }

/-- The check group of a line above the watermark is initialised, before the first write to it (R239). -/
def State.initGroup (s : State) (la : Nat) : State :=
  if s.above la then
    let h := s.homeOf la
    let cl := s.channelLine la
    let s := s.zeroGroup h cl.1 (cl.2 / 32)
    s.setMc h { s.mc h with inited := (s.mc h).inited ++ [(cl.1, cl.2 / 32)] }
  else s

/-! ## Writes of the home (R234, R240, R260) -/

/-- Change the copy of a line in its home's system-level cache. -/
def State.modSlc (s : State) (la : Nat) (f : SlcLine → SlcLine) : State :=
  let h := s.homeOf la
  let x := s.home h
  s.setHome h { x with slc := modifyFirst (fun e => e.line == la) f x.slc }

/-- A write-back of a line that waits is dropped, since a write of the line has been ordered after it (R240). -/
def State.dropWriteBack (s : State) (la : Nat) : State :=
  let h := s.homeOf la
  s.setMc h { s.mc h with writeBack := setDel la (s.mc h).writeBack }

/-- The controller of a home writes a line to DRAM with fresh check bits (R234): single-bit errors of the line end.
DEDUCED: log entry 67. -/
def State.freshLine (s : State) (la : Nat) : State :=
  { (s.checkAccess la true).dropWriteBack la with ce := s.ce.filter (fun w => !(wordsOf la 64).contains w) }

/-- A home writes bytes of one line: into the copy in its system-level cache where one is present, else to memory (R260). A word that the
bytes do not cover stays uncorrectable (R241). DESIGN CHOICE, DEDUCED: log entries 65, 67. -/
def State.storeLine (s : State) (a : Nat) (l : List Byte) : State :=
  let la := lineOf a
  match s.slcCopy la with
  | some _ =>
    let keep (e : SlcLine) : BitVec 16 :=
      wordMask la ((markedWords la e.ue).filter (fun w => !coversWord a l.length w))
    (({ s with mem := putCells s.mem a l } : State).modSlc la (fun e => { e with dirty := true, ue := keep e, ce := 0 })).dropWriteBack la
  | none => ((s.initGroup la).store a l).freshLine la

/-! ## Errors on access and the row table (R240, R241, R245) -/

/-- The DRAM row of a local offset of the windows, at its home: that of its raw unit (R232). -/
def State.rowOf (s : State) (off : Nat) : Nat :=
  Config.dramRow (s.homeOf off) ((s.channelLine off).1 * 2 ^ 40 + dataUnit (s.channelLine off).2)

/-- The threshold of corrected words that marks a row (R245); 0 acts as 1. -/
def State.ceThreshold (s : State) (h : Nat) : Nat :=
  max 1 (s.af (.hbmcRepairCfg (mcOf h)) Fld.hbmcRepairCfgCeThreshold)

/-- Count corrected words, or an uncorrectable word, in the row table of a home (R245). A full table replaces its row with the
lowest count. DEDUCED: log entry 68. -/
def State.noteRow (s : State) (h la words : Nat) (uncorrectable : Bool) : State :=
  let m := s.mc h
  let row := s.rowOf la
  let old := (m.rows.find? (fun r => r.row == row)).getD ⟨row, la, 0, false, false⟩
  let cnt := old.count + words
  let new : RowEntry := { old with line := la, count := cnt, marked := old.marked || uncorrectable || s.ceThreshold h ≤ cnt }
  let low := m.rows.foldl (fun b r => min b r.count) (m.rows.headD old).count
  let rest := m.rows.filter (fun r => r.row != row)
  let rest := if rest.length < 64 then rest else rest.eraseP (fun r => r.count == low)
  let s := s.setMc h { m with rows := rest ++ [new] }
  if new.marked && !old.marked then s.bumpF (.hbmcRepairStatus (mcOf h)) Fld.hbmcRepairStatusMarked 1 else s

/-- Corrected words of a line: counted, and their write-back scheduled (R240). -/
def State.countCorrected (s : State) (la words : Nat) : State :=
  let h := s.homeOf la
  let s := s.bumpF (.hbmcCeCount (mcOf h)) Fld.hbmcCeCountWords words
  let m := s.mc h
  s.setMc h { m with writeBack := if m.writeBack.contains la then m.writeBack else m.writeBack ++ [la] }

/-- Corrected words of a line of DRAM: entered in the row table too (R240, R245). -/
def State.correctedDram (s : State) (la words : Nat) : State := (s.noteRow (s.homeOf la) la words false).countCorrected la words

/-- Corrected words of a line where its home reads it (R240, R260). -/
def State.correctedLine (s : State) (la words : Nat) : State :=
  match s.slcCopy la with
  | some _ => s.countCorrected la words
  | none => s.correctedDram la words

/-- A MEM_UE record (R241, R397): the requester, the address and the corrected words of the line. DEDUCED: log entry 26. -/
def memUeRec (w : Who) (sev addr ce : Nat) : FaultRec :=
  { whoRec Cls.memUe w addr with
    sev := sev, detail0 := BitVec.ofNat 64 (w.unitIx + w.kind * 2 ^ 16), detail1 := BitVec.ofNat 48 ce }

/-- A line read that a home serves counts as a hit or a miss of its system-level cache (R260). DESIGN CHOICE: log entry 65. -/
def State.slcCount (s : State) (la : Nat) : State :=
  let h := s.homeOf la
  if (s.slcCopy la).isSome then s.bumpF (.homeSlcHits h) Fld.homeSlcHitsCount 1
  else s.bumpF (.homeSlcMisses h) Fld.homeSlcMissesCount 1

/-- The uncorrectable words of a line, where a home reads it: of the copy in its system-level cache, or of DRAM with the check bits of the
check cache (R233, R241, R260); none where DRAM is not read (R239). DESIGN CHOICE: log entry 65. -/
def State.lineUe (s : State) (la : Nat) : List Nat :=
  match s.slcCopy la with
  | some e => markedWords la e.ue
  | none => if s.blank la then [] else s.scrubUe la

/-- The words with a single-bit error of a line, where a home reads it (R240, R260). DESIGN CHOICE: log entry 65. -/
def State.lineCe (s : State) (la : Nat) : List Nat :=
  match s.slcCopy la with
  | some e => markedWords la (e.ce &&& ~~~e.ue)
  | none => if s.blank la then [] else s.ceIn la 64

/-- A line read at its home finds its errors (R240, R241): an uncorrectable word returns no data and writes a MEM_UE record. An error in the
system-level cache is none of a DRAM row (R245, R260). DEDUCED: log entries 26, 63. -/
def State.lineErrors (s : State) (w : Who) (a : Nat) : State × Bool :=
  let la := lineOf a
  let h := s.homeOf la
  let dram := (s.slcCopy la).isNone
  match s.lineUe la with
  | u :: _ =>
    let s' := s.bumpF (.hbmcUeCount (mcOf h)) Fld.hbmcUeCountAccess 1
    let s' := if dram then s'.noteRow h la 0 true else s'
    (s'.report (memUeRec w w.sev (4 * u) (s.lineCe la).length), false)
  | [] =>
    if (s.lineCe la).isEmpty then (s, true) else (s.correctedLine la (s.lineCe la).length, true)

/-- The memory value of a line. -/
def State.lineAt (s : State) (la : Nat) : Line := toLine (s.memBytes la 64)

/-- The bytes of a line that a byte mask names, over another line. -/
def mergeLine (old new : Line) (mask : W64) : Line :=
  toLine ((List.range 64).map (fun i => if mask.getLsbD i then new.extractLsb' (8 * i) 8 else old.extractLsb' (8 * i) 8))

/-- The read of a merge finds corrected words in the line (R234, R240): counted, and entered in the row table.
DEDUCED: log entries 67, 68. -/
def State.mergeRead (s : State) (la words : Nat) : State :=
  if words = 0 then s
  else
    let h := s.homeOf la
    let s' := s.bumpF (.hbmcCeCount (mcOf h)) Fld.hbmcCeCountWords words
    if (s.slcCopy la).isNone then s'.noteRow h la words false else s'

/-- A home has written part of a line in which words stay uncorrectable (R241): they decode so, the row of a line of DRAM is marked (R245), and
a MEM_UE record of severity 0 names the writer. DEDUCED: log entry 67. -/
def State.keepUe (s : State) (w : Who) (la : Nat) (keep : List Nat) (corrected : Nat) : State :=
  match keep with
  | [] => s
  | u :: _ =>
    let s' := match s.slcCopy la with
      | some _ => s.modSlc la (fun e => { e with ue := e.ue ||| wordMask la keep })
      | none => (s.loseWords keep).noteRow (s.homeOf la) la 0 true
    s'.report (memUeRec w 0 (4 * u) corrected)

/-- A home writes the masked bytes of a line (R234, R241). DEDUCED: log entry 67. -/
def State.homeWrite (s : State) (w : Who) (la : Nat) (mask : W64) (data : Line) : State :=
  let keep := (s.lineUe la).filter (fun u => bitsOf mask.toNat (4 * u - la) 4 != 15)
  let corrected := if mask = BitVec.allOnes 64 then 0 else (s.lineCe la).length
  ((s.mergeRead la corrected).storeLine la (lineBytes (mergeLine (s.lineAt la) data mask))).keepUe w la keep corrected

/-- The MEM_RANGE refusal of an access at or beyond the usable size (R231). DEDUCED: log entry 66. -/
def State.outOfRange (s : State) (w : Who) (a : Nat) : State := s.report (whoRec Cls.memRange w a)

/-- The ADDR_DECODE refusal of an address that names nothing (R251). -/
def State.undecoded (s : State) (w : Who) (a : Nat) : State :=
  (s.bumpF .homeAddrFaults Fld.homeAddrFaultsCount 1).report (whoRec Cls.addrDecode w a)

end Sys2Proof.Machine
end

