-- ==== Sys2Proof/Machine/Home.lean ====
section
/-! DEFINITION. The home agents: requests on a line, snoops, grants, the directory with its retry class and minimum hold (R256 to R276), and
the accesses of non-caching units, each whole at its home (R257, R259, R269). -/

namespace Sys2Proof.Machine

/-! ## Messages and lines -/

/-- Put a message on the mesh. -/
def State.mesh! (s : State) (m : Msg) : State := { s with mesh := s.mesh ++ [m] }

/-- Lines that the system-level cache of a home holds at most: 5 MiB or 4 MiB. DESIGN CHOICE: log entry 65. -/
def slcLines (h : Nat) : Nat := (if h < 32 then 5 else 4) * 2 ^ 20 / 64

/-- A line leaves the system-level cache: a newer value is written to memory, and the words that the cache held uncorrectable stay so
(R240, R241, R260). DESIGN CHOICE: log entry 65. -/
def State.slcEvict (s : State) (e : SlcLine) : State :=
  if e.dirty then
    let d := s.bytesAt e.line 64
    (((s.initGroup e.line).store e.line d).freshLine e.line).loseWords (markedWords e.line e.ue)
  else s

/-- A line takes the first place in the system-level cache of its home, which keeps the copy that it has; of a full one the last leaves
(R260). DESIGN CHOICE: log entry 65. -/
def State.slcFill (s : State) (la : Nat) : State :=
  let h := s.homeOf la
  let x := s.home h
  let s := if s.blank la then { s with mem := s.mem.filter (fun c => lineOf c.1 != la) } else s
  let e := (s.slcCopy la).getD ⟨la, false, 0, 0⟩
  let l := e :: x.slc.filter (fun e => e.line != la)
  (l.drop (slcLines h)).foldl State.slcEvict (s.setHome h { x with slc := l.take (slcLines h) })

/-- A home reads a line from its system-level cache or from DRAM (R233, R239, R260): whether no word of it is uncorrectable. -/
def State.readLine (s : State) (w : Who) (la : Nat) : State × Bool :=
  let (s, ok) := (s.slcCount la).lineErrors w la
  (if (s.slcCopy la).isSome || s.blank la then s else s.checkAccess la false, ok)

/-- The home reads a line for a requester: none where a word is uncorrectable (R240, R241). -/
def State.homeRead (s : State) (w : Who) (la : Nat) : State × Option Line :=
  let (s, ok) := s.readLine w la
  (s, if ok then some (s.lineAt la) else none)

/-- A core as a requester. -/
def coreWho (c : Nat) : Who := ⟨Kind.core, c, 0, none⟩

/-- A write-back of a line by a core is in flight. DESIGN CHOICE: log entry 64. -/
def State.wbFlying (s : State) (c la : Nat) : Bool :=
  s.mesh.any (fun m => match m with | .wbDirty x l _ => x == c && l == la | .wbClean x l => x == c && l == la | _ => false)

/-! ## The core side -/

/-- Core `c` runs: it has not stopped and is not held (R313, R370). DEDUCED: log entry 16. -/
def State.coreRuns (s : State) (c : Nat) : Bool :=
  !(s.core c).stopped && s.rf (.rstUnit (384 + c)) Fld.rstUnitState == 0

/-- An agent makes accesses: a host core that has stopped or is held makes none (R313, R370). -/
def State.agentActs (s : State) : Agent → Bool
  | .core c => s.coreRuns c
  | _ => true

/-- A core stops (R313): it fetches nothing more and retires nothing; requests that it has sent still end, and its lines leave it by
write-backs and snoops. -/
def HostCore.stop (x : HostCore) : HostCore :=
  { x with stopped := true, misses := x.misses.map (fun m => { m with retires := false }) }

/-- The copy of a line that a core holds. -/
def HostCore.copy (x : HostCore) (la : Nat) : Option CacheLine := (x.lines.find? (fun e => e.1 == la)).map (fun e => e.2)

/-- Remove a line from a core. -/
def HostCore.drop (x : HostCore) (la : Nat) : HostCore :=
  { x with lines := x.lines.filter (fun e => e.1 != la), l1i := x.l1i.filter (fun n => n != la), l1d := x.l1d.filter (fun n => n != la) }

/-- Lines of each L1 cache of a core: 64 KiB (R308). -/
def l1Lines : Nat := 64 * 2 ^ 10 / 64

/-- Put a line into an L1 cache: a full one gives up a line, which the L2 keeps (R308). PRESUMED: log entry 127. -/
def l1Put (l : List Nat) (la : Nat) : List Nat := la :: (if l.length < l1Lines then l else l.eraseIdx (Config.l1Victim la % l.length))

/-- Put a line into a core: a new one comes into the L2 and the L1 cache that asked for it (R308). PRESUMED: log entry 127. -/
def HostCore.hold (x : HostCore) (la : Nat) (c : CacheLine) : HostCore :=
  let y := { x with lines := kins (fun n => n) la c (x.drop la).lines }
  if (x.copy la).isSome then y
  else if c.st == .shared && Config.l1Fetch la then { y with l1i := l1Put y.l1i la }
  else { y with l1d := l1Put y.l1d la }

/-- A core takes an access-fault exception (R309, R310). DEDUCED: log entry 71. -/
def State.accessFault (s : State) (c addr : Nat) : State :=
  let x := s.core c
  s.setCore c { x with accessFaults := BitVec.ofNat 64 addr :: x.accessFaults }

/-- A core's access takes an access-fault exception without reaching anything: an AMO, LR or SC outside the memory windows (R310). The other
agents of the device make no such access. DEDUCED: log entry 71. -/
def coreAtomic (agent : Agent) (atomic : Bool) : Option CoreId :=
  match agent with | .core c => if atomic then some c else none | _ => none

/-- A core's access to an offset that R251 refuses takes an access-fault exception (R309). -/
def State.coreAbsent (s : State) (agent : Agent) (addr : Nat) : State :=
  match agent with | .core c => if isAbsent addr then s.accessFault c addr else s | _ => s

/-- An access of a core to an aperture, a register region or a root-port window is naturally aligned and of 1, 2, 4 or 8 bytes (R310). -/
def coreSize (o size : Nat) : Bool := (size == 1 || size == 2 || size == 4 || size == 8) && o % size == 0

/-- Lines that the private L2 of a core holds: 2 MiB (R16). DESIGN CHOICE: log entry 64. -/
def l2Lines : Nat := 2 * 2 ^ 20 / 64

/-- A core with a full L2 makes room for a line (R16, R268): it drops a line on which it has no miss
open, silently if it shares it, else by WbClean or WbDirty. DESIGN CHOICE: log entry 64. -/
def State.makeRoom (s : State) (c la : Nat) : State :=
  let x := s.core c
  let idle := x.lines.filter (fun e => !x.misses.any (fun m => m.line == e.1))
  if x.lines.length < l2Lines then s
  else match idle[Config.l2Victim c la % idle.length]? with
    | some (v, e) =>
      let s := s.setCore c (x.drop v)
      match e.st with
      | .shared => s
      | .exclusive => s.mesh! (.wbClean c v)
      | .modified => s.mesh! (.wbDirty c v e.data)
    | none => s

/-- A core's miss on a line ends without a copy; if the access would retire, it takes an access-fault exception (R241, R263).
DEDUCED: log entry 63. -/
def State.missFails (s : State) (c la : Nat) : State :=
  let x := s.core c
  let retires := x.misses.any (fun m => m.line == la && m.retires)
  s.setCore c { x with
    misses := x.misses.filter (fun m => m.line != la)
    accessFaults := if retires then BitVec.ofNat 64 la :: x.accessFaults else x.accessFaults }

/-- A core that holds both grant and data installs the line, performs its access and sends CompAck (R273, R275). -/
def State.fillCore (s : State) (c la : Nat) : State :=
  let x := s.core c
  match x.misses.find? (fun m => m.line == la) with
  | some m =>
    let held := if m.upgrade then (x.copy la).map (fun l => l.data) else none
    match m.grant, m.data.or held with
    | some g, some d =>
      let stored := g != .shared && m.storeMask != 0
      let st : LineState := if g = .shared then .shared else if m.dirty || stored then .modified else .exclusive
      let d := if stored then mergeLine d m.storeData m.storeMask else d
      let s := s.setCore c { x with misses := x.misses.filter (fun m => m.line != la) }
      let s := if (x.copy la).isSome then s else s.makeRoom c la
      (s.setCore c ((s.core c).hold la ⟨st, d⟩)).mesh! (.compAck c la)
    | _, _ => s
  | none => s

/-- Change a core's miss on a line. -/
def State.modMiss (s : State) (c la : Nat) (f : Miss → Miss) : State :=
  let x := s.core c
  s.setCore c { x with misses := modifyFirst (fun m => m.line == la) f x.misses }

/-! ## The directory (R268, R270, R271) -/

/-- The entry of a line. -/
def Home.entry (x : Home) (la : Nat) : Option DirEntry := x.dir.find? (fun e => e.line == la)

/-- The set of a line. -/
def dirSet (la : Nat) : Nat := Config.dirHash la % 8192

/-- A transaction is open on a line. -/
def Home.openOn (x : Home) (la : Nat) : Bool := x.txns.any (fun t => t.line == la)

/-- An entry is pinned (R270). -/
def Home.pinned (x : Home) (e : DirEntry) : Bool := e.hold || x.openOn e.line

/-- Set the state of a line's entry, made in `way` if the line has none. -/
def Home.put (x : Home) (la : Nat) (st : DirState) (way : Nat) : Home :=
  let e : DirEntry := { (x.entry la).getD ⟨la, st, way, false, 0⟩ with st := st, used := x.stamp + 1 }
  { x with dir := x.dir.filter (fun d => d.line != la) ++ [e], stamp := x.stamp + 1 }

/-- Free the entry of a line. -/
def Home.free (x : Home) (la : Nat) : Home := { x with dir := x.dir.filter (fun d => d.line != la) }

/-- The entries of a set in a range of ways. -/
def Home.ways (x : Home) (la lo hi : Nat) : List DirEntry :=
  x.dir.filter (fun e => dirSet e.line == dirSet la && lo ≤ e.way && e.way ≤ hi)

/-- The eviction buffers in use (R270). -/
def Home.buffers (x : Home) : List Nat := x.txns.filterMap (fun t => match t.why with | .recall b => b | _ => none)

/-- What a request that needs an entry finds (R270, R271). -/
inductive WayPick where
  | free (way : Nat)
  | evict (e : DirEntry) (buffer : Nat)
  | none
  deriving DecidableEq, Repr

/-- A way for a new entry: a free one of ways 0 to 18, or the least recently used unpinned entry and a general eviction buffer. -/
def Home.pick (x : Home) (la : Nat) : WayPick :=
  let es := x.ways la 0 18
  match (List.range 19).find? (fun w => !es.any (fun e => e.way == w)) with
  | some w => .free w
  | Option.none =>
    let un := es.filter (fun e => !x.pinned e)
    match un with
    | [] => .none
    | e :: l =>
      let v := l.foldl (fun b e => if e.used < b.used then e else b) e
      match (List.range 15).find? (fun b => !x.buffers.contains b) with
      | some b => .evict v b
      | Option.none => .none

/-- Way 19 and buffer 15 for a retry-class request (R271): both are taken together, for one request at a time. -/
def Home.pickRetry (x : Home) (la : Nat) : WayPick :=
  if x.buffers.contains 15 || x.serving.isSome then .none
  else match (x.ways la 19 19) with
    | [] => .free 19
    | e :: _ => if x.pinned e then .none else .evict e 15

/-- The cores that an entry names. -/
def DirState.cores : DirState → List Nat
  | .shared v => (List.range 96).filter (fun c => v.getLsbD c)
  | .owned c => [c]

/-! ## Transactions (R259) -/

/-- Send a snoop and count it. -/
def State.snoop (s : State) (k : SnpKind) (c la : Nat) (fwd : Option Nat) (agent : Option Agent) : State :=
  (s.mesh! (.snp k c la fwd agent)).bumpF (.homeSnoops (s.homeOf la)) Fld.homeSnoopsCount 1

/-- Open a transaction on a line. -/
def State.openTxn (s : State) (la : Nat) (why : TxnWhy) (wait : List Nat) (granted : Bool) : State :=
  let h := s.homeOf la
  let x := s.home h
  s.setHome h { x with txns := x.txns ++ [⟨la, why, wait, false, false, false, none, granted, false⟩] }

/-- Recall an entry's line from the cores by SnpInv (R265, R270). -/
def State.recall (s : State) (e : DirEntry) (buffer : Option Nat) : State :=
  let s := s.openTxn e.line (.recall buffer) e.st.cores false
  e.st.cores.foldl (fun s c => s.snoop .inv c e.line none none) s

/-- Change the open transaction of a line. -/
def State.modTxn (s : State) (la : Nat) (f : Txn → Txn) : State :=
  let h := s.homeOf la
  let x := s.home h
  s.setHome h { x with txns := modifyFirst (fun t => t.line == la) f x.txns }

/-- The open transaction of a line. -/
def State.txn? (s : State) (la : Nat) : Option Txn := (s.home (s.homeOf la)).txns.find? (fun t => t.line == la)

/-- The flip in progress covers the page of a line (R265, R266). -/
def State.flips (s : State) (la : Nat) : Bool :=
  match s.flip with
  | some f => f.first ≤ pageOf la && pageOf la < f.first + f.count
  | none => false

/-- A row repair holds the bank of a line that only DRAM holds: new requests to it wait (R245). DEDUCED: log entry 69. -/
def State.bankHeld (s : State) (la : Nat) : Bool :=
  match (s.mc (s.homeOf la)).repairing with
  | some row => (s.slcCopy la).isNone && Config.bankOfRow (s.homeOf la) row == Config.bankOfRow (s.homeOf la) (s.rowOf la)
  | none => false

/-- A sharer vector with one core. -/
def oneCore (c : Nat) : BitVec 96 := BitVec.ofNat 96 (2 ^ c)

/-- The vector of a list of cores. -/
def coreSet (l : List Nat) : BitVec 96 := l.foldl (fun v c => v ||| oneCore c) 0

/-- Close the transaction of a line: way 19 and buffer 15 serve it no longer (R271), and an entry that names no core any more is freed
(R268, R276). -/
def State.closeTxn (s : State) (la : Nat) : State :=
  let h := s.homeOf la
  let x := s.home h
  s.setHome h { x with
    txns := x.txns.eraseP (fun t => t.line == la)
    serving := if x.serving = some la then none else x.serving
    dir := x.dir.filter (fun e => !(e.line == la && e.st == .shared 0)) }

/-- Answer a core with data of the home and a grant, the entry taking a state; where the line is uncorrectable, nothing is granted and the
transaction closes (R241, R269). -/
def State.grantData (s : State) (c la : Nat) (st : DirState) (g : LineState) (way : Nat) (onFail : Option DirState) : State :=
  let h := s.homeOf la
  match s.homeRead (coreWho c) la with
  | (s, some d) =>
    let s := (s.setHome h ((s.home h).put la st way)).slcFill la
    ((s.mesh! (.data (.core (Fin.ofNat 96 c)) la d)).mesh! (.cmp g c la)).modTxn la (fun t => { t with granted := true })
  | (s, none) =>
    let x := s.home h
    let x := match onFail with | some e => x.put la e way | none => x.free la
    ((s.setHome h x).closeTxn la).missFails c la

/-- Grant a core's request once its snoops have been answered (R269, R273). `had`: the owner supplied the line cache to cache. -/
def State.grant (s : State) (r : HomeReq) (c : Nat) (had : Bool) (way : Nat) : State :=
  let la := r.line
  let h := s.homeOf la
  let x := s.home h
  let e : Option DirState := (x.entry la).map (fun e => e.st)
  match r.kind with
  | .rdShared =>
    match e with
    | some (.shared v) =>
      if v = 0 then s.grantData c la (.owned c) .exclusive way none
      else s.grantData c la (.shared (v ||| oneCore c)) .shared way (some (.shared v))
    | some (.owned o) =>
      if had then
        ((s.setHome h (x.put la (.shared (oneCore o ||| oneCore c)) way)).mesh! (.cmp .shared c la)).modTxn la
          (fun t => { t with granted := true })
      else s.grantData c la (.owned c) .exclusive way none
    | none => s.grantData c la (.owned c) .exclusive way none
  | k =>
    let sharer := match e with | some (.shared v) => v.getLsbD c | _ => false
    if had || (k == .upgrade && sharer) then
      ((s.setHome h (x.put la (.owned c) way)).mesh! (.cmp .modified c la)).modTxn la (fun t => { t with granted := true })
    else s.grantData c la (.owned c) .modified way (if sharer then some (.shared (oneCore c)) else none)

/-- The write of a non-caching agent takes effect, its entry is freed and its transaction closes (R269). -/
def State.finishWrite (s : State) (r : HomeReq) (mask : W64) (data : Line) : State :=
  let h := s.homeOf r.line
  let s := s.homeWrite (Agent.who r.agent) r.line mask data
  let s := s.setHome h ((s.home h).free r.line)
  (s.closeTxn r.line).mesh! (.wrAck r.agent r.line)

/-- A transaction whose answers have come goes on (R269, R273, R274): its grant is sent, its write or read is done, or its recall ends. -/
def State.advance (s : State) (la : Nat) : State :=
  match s.txn? la with
  | none => s
  | some t =>
    let dataOk := !t.needData || t.gotData
    if !t.wait.isEmpty || t.wbFrom.isSome then s
    else if t.granted then
      if t.acked && dataOk then
        let h := s.homeOf la
        let s := s.closeTxn la
        let x := s.home h
        match x.entry la with
        | some e =>
          match e.st with
          | .owned _ => s.setHome h { x with dir := x.dir.map (fun d => if d.line = la then { d with hold := true } else d) }
          | .shared _ => s
        | none => s
      else s
    else
      match t.why with
      | .recall _ =>
        if dataOk then
          let s := s.closeTxn la
          s.setHome (s.homeOf la) ((s.home (s.homeOf la)).free la)
        else s
      | .request r =>
        match r.kind, r.agent with
        | .wrNA d, _ => if dataOk then s.finishWrite r (BitVec.allOnes 64) d else s
        | .wrPart m d, _ => if dataOk then s.finishWrite r m d else s
        | .rdNA, _ => if t.had then s.closeTxn la else
            match (s.closeTxn la).homeRead (Agent.who r.agent) la with
            | (s, some d) => s.mesh! (.data r.agent la d)
            | (s, none) => s
        | _, .core c => s.grant r c.val t.had 0
        | _, _ => s.closeTxn la

/-! ## Requests (R269) -/

/-- A core's request that needs a new entry takes a way (R270) or enters the retry class (R271). -/
def State.serveNew (s : State) (r : HomeReq) (c : Nat) (p : WayPick) : State × Bool :=
  let h := s.homeOf r.line
  match p with
  | .free w => ((s.openTxn r.line (.request r) [] false).grant r c false w, true)
  | .evict e b =>
    let s := s.setHome h ((s.home h).free e.line)
    let s := (s.recall e (some b)).bumpF (.dirEvictions h) Fld.dirEvictionsCount 1
    ((s.openTxn r.line (.request r) [] false).grant r c false e.way, true)
  | .none => (s, false)

/-- A home serves a core's request on a line, or leaves it to wait (R261, R263, R265, R269, R275). Beyond the usable size the core reads
zero and keeps no line (R231). DEDUCED: log entry 66. -/
def State.serveCore (s : State) (r : HomeReq) (c : Nat) : State × Bool :=
  let la := r.line
  let h := s.homeOf la
  if s.flips la || s.wbFlying c la then (s, false)
  else if s.deviceBias la then
    ((s.bumpF (.homeBiasDenied h) Fld.homeBiasDeniedCount 1).mesh! (.deny c la), true)
  else if !s.usable la then ((s.outOfRange (coreWho c) la).mesh! (.data r.agent la 0), true)
  else
    match (s.home h).entry la with
    | none =>
      match (s.home h).pick la with
      | .none =>
        let x := s.home h
        ((s.setHome h { x with retry := x.retry ++ [(r, s.aclk)] }).bumpF (.dirRetry h) Fld.dirRetryEntries 1, true)
      | p => s.serveNew r c p
    | some e =>
      match e.st with
      | .owned o =>
        if o = c then
          let s := s.setHome h ((s.home h).put la (.owned c) e.way)
          let s := s.openTxn la (.request r) [] false
          (s.grantData c la (.owned c) (if r.kind = .rdShared then .exclusive else .modified) e.way none, true)
        else if e.hold then (s, false)
        else
          let k : SnpKind := if r.kind = .rdShared then .shared else .inv
          ((s.openTxn la (.request r) [o] false).snoop k o la (some c) none, true)
      | .shared v =>
        let others := if r.kind = .rdShared then [] else (DirState.shared v).cores.filter (· != c)
        let s := s.openTxn la (.request r) others false
        if others.isEmpty then (s.grant r c false e.way, true)
        else (others.foldl (fun s o => s.snoop .inv o la none none) s, true)

/-- A home serves a non-caching agent's request on a line, or leaves it to wait (R261, R269, R275). -/
def State.serveAgent (s : State) (r : HomeReq) : State × Bool :=
  let la := r.line
  let h := s.homeOf la
  let w := (Agent.who r.agent)
  if !s.usable la then
    let s := s.outOfRange w la
    (if r.kind = .rdNA then s.mesh! (.data r.agent la 0) else s, true)
  else
    let e := if s.deviceBias la then none else (s.home h).entry la
    match r.kind, e with
    | .rdNA, some ⟨_, .owned o, _, _, _⟩ => ((s.openTxn la (.request r) [o] false).snoop .cur o la none (some r.agent), true)
    | .rdNA, _ =>
      match s.homeRead w la with
      | (s, some d) => (s.mesh! (.data r.agent la d), true)
      | (s, none) => (s, true)
    | _, some e =>
      if e.hold then (s, false)
      else
        let s := s.openTxn la (.request r) e.st.cores false
        let s := e.st.cores.foldl (fun s c => s.snoop .inv c la none none) s
        (if e.st.cores.isEmpty then s.advance la else s, true)
    | .wrNA d, none => ((s.homeWrite w la (BitVec.allOnes 64) d).mesh! (.wrAck r.agent la), true)
    | .wrPart m d, none => ((s.homeWrite w la m d).mesh! (.wrAck r.agent la), true)
    | _, none => (s, true)

/-- Serve a request on a line with no open transaction. -/
def State.serve (s : State) (r : HomeReq) : State × Bool :=
  match r.kind, r.agent with
  | .rdShared, .core c | .rdOwn, .core c | .upgrade, .core c => s.serveCore r c.val
  | _, _ => s.serveAgent r

/-- A request of a host core for a copy. -/
def HomeReq.forCopy (r : HomeReq) : Bool := r.kind == .rdShared || r.kind == .rdOwn || r.kind == .upgrade

/-- Request `r` waits behind request `k`, which came earlier: both are to one line (R259), but a host core's request that a flip holds does not
hold a non-caching access, which is treated as one to a SHARED page (R265). -/
def State.behind (s : State) (k r : HomeReq) : Bool := k.line == r.line && !(s.flips r.line && k.forCopy && !r.forCopy)

/-- Serve the requests that wait at a home, in order; a request waits behind an earlier one to its line (R259), and those of an MCLK that is
not over wait for its end (R258). DESIGN CHOICE, DEDUCED: log entries 62, 69. -/
def State.serveQueue (s : State) (h : Nat) : List HomeReq → List HomeReq → State
  | kept, [] => let x := s.home h; s.setHome h { x with queue := kept }
  | kept, r :: l =>
    if r.mclk == s.mclk || (s.home h).openOn r.line || kept.any (fun k => s.behind k r) || s.bankHeld r.line then s.serveQueue h (kept ++ [r]) l
    else
      match s.serve r with
      | (s, true) => s.serveQueue h kept l
      | (_, false) => s.serveQueue h (kept ++ [r]) l

/-- Serve what waits at a home. -/
def State.drainHome (s : State) (h : Nat) : State := s.serveQueue h [] (s.home h).queue

/-- The place of a request among those of one MCLK: how far its ingress port lies after the rotating pointer (R258).
DESIGN CHOICE: log entry 62. -/
def HomeReq.turn (r : HomeReq) (h : Nat) : Nat :=
  (Config.ingressPort h (Agent.who r.agent).kind (Agent.who r.agent).unitIx % 8 + 8 - r.mclk % 8) % 8

/-- A request takes its place in a home's queue: behind those of earlier MCLK cycles, and in rotating port order among those of its own
(R258). DESIGN CHOICE: log entry 62. -/
def queueIns (h : Nat) (r : HomeReq) : List HomeReq → List HomeReq
  | [] => [r]
  | q :: l => if q.mclk = r.mclk ∧ r.turn h < q.turn h then r :: q :: l else q :: queueIns h r l

/-- The line of a message that a core or a home receives; none for an answer to a non-caching agent, which no home waits for. -/
def Msg.lineFor : Msg → Option Nat
  | .snp _ _ la _ _ | .cmp _ _ la | .compAck _ la | .snpAck _ la _ _ _ | .deny _ la | .data (.core _) la _
  | .fwdData _ la _ _ | .snpData _ la _ | .wbDirty _ la _ | .wbClean _ la => some la
  | .wbAck _ _ | .wrAck _ _ | .data _ _ _ => none

/-- A request reaches its home and takes its place among those of the present MCLK (R258, R259). DESIGN CHOICE: log entry 62. -/
def State.arrive (s : State) (agent : Agent) (la : Nat) (kind : ReqKind) : State :=
  let h := s.homeOf la
  let x := s.home h
  s.setHome h { x with queue := queueIns h ⟨agent, la, kind, s.mclk⟩ x.queue }

/-- The home of the first message on the mesh that `f` picks. -/
def State.homeOfMsg (s : State) (f : Msg → Bool) : Option Nat := (s.mesh.find? f).bind (fun m => m.lineFor.map s.homeOf)

/-- The home that the message of a command reaches, where its domain lets it (R258). DESIGN CHOICE: log entry 62. -/
def State.reaches (s : State) : Instr → Option Nat
  | .rdShared _ a _ | .rdOwn _ a _ | .upgrade _ a _ => if s.runs 5 && isWindow a.toNat then some (s.homeOf (lineOf a.toNat)) else none
  | .rdNa g a | .wrNa g a _ | .wrPart g a _ _ =>
    if s.runs (max 4 (Agent.domain g)) && s.agentActs g && isWindow a.toNat then some (s.homeOf (lineOf a.toNat)) else none
  | .wbDirty _ a | .wbClean _ a => if s.runs 4 then some (s.homeOf (lineOf a.toNat)) else none
  | .compAck c => if s.runs 4 then s.homeOfMsg (fun m => match m with | .compAck k _ => k == c.val | _ => false) else none
  | .snpAck c => if s.runs 4 then s.homeOfMsg (fun m => match m with | .snpAck k _ _ _ _ => k == c.val | _ => false) else none
  | .snpData c => if s.runs 4 then s.homeOfMsg (fun m => match m with | .snpData k _ _ => k == c.val | _ => false) else none
  | _ => none

/-- The next waiting command is another message of the present MCLK at home `h`. DESIGN CHOICE: log entry 62. -/
def State.moreFor (s : State) (h : Nat) : Bool :=
  match s.pending with
  | i :: _ => s.reaches i == some h
  | [] => false

/-- The messages of an MCLK at home `h` have come: the requests among them, which follow the messages of every other class, are served in
rotating port order (R258, R276). DESIGN CHOICE: log entry 62. -/
def State.mclkEnd (s : State) (h : Nat) : State :=
  if (s.home h).queue.any (fun r => r.mclk == s.mclk) && !s.moreFor h then ({ s with mclk := s.mclk + 1 } : State).drainHome h else s

/-- Recall the entries of the run of a flip to DEVICE that are not pinned (R265). -/
def State.flipRecall (s : State) : State :=
  match s.flip with
  | some f =>
    if f.device then
      (List.range 40).foldl (fun s h =>
        let x := s.home h
        (x.dir.filter (fun e => s.flips e.line && !x.pinned e)).foldl (fun s e => s.recall e none) s) s
    else s
  | none => s

/-- After a change at a home: transactions go on, waiting requests are served, and a flip recalls what has become free. -/
def State.settleLine (s : State) (la : Nat) : State :=
  ((s.advance la).flipRecall).drainHome (s.homeOf la)


/-! ## Messages as they are received (R272 to R275) -/

/-- A core waits for a line. -/
def State.misses (s : State) (c la : Nat) : Bool := (s.core c).misses.any (fun m => m.line == la)

/-- A core answers a snoop (R273, R274). An owned line whose eviction is in flight is answered with wb_pending, and its write-back follows. -/
def State.answer (s : State) (k : SnpKind) (c la : Nat) (fwd : Option Nat) (agent : Option Agent) (evicting : Bool) : State :=
  let x := s.core c
  let ack (had dirty wb : Bool) (s : State) : State := s.mesh! (.snpAck c la had dirty wb)
  if s.wbFlying c la then ack false false true s
  else match x.copy la with
    | none => ack false false false s
    | some ⟨st, d⟩ =>
      let dirty := st == .modified
      if evicting && st != .shared then
        ack false false true ((s.setCore c (x.drop la)).mesh! (if dirty then .wbDirty c la d else .wbClean c la))
      else match k with
        | .shared =>
          let s := s.setCore c (x.hold la ⟨.shared, d⟩)
          let s := match fwd with | some t => s.mesh! (.fwdData t la d false) | none => s
          ack true dirty false (if dirty then s.mesh! (.snpData c la d) else s)
        | .inv =>
          let s := s.setCore c (x.drop la)
          match fwd with
          | some t => ack true false false (s.mesh! (.fwdData t la d dirty))
          | none => ack true dirty false (if dirty then s.mesh! (.snpData c la d) else s)
        | .cur =>
          let s := match agent with | some a => s.mesh! (.data a la d) | none => s
          ack true false false s

/-- A core receives a grant (R273, R275), and stores the bytes named once it holds the line. A stopped core retires no store (R313), and
a core that a forced reset has cleared only sends CompAck. -/
def State.onGrant (s : State) (g : LineState) (c la : Nat) (mask : W64) (data : Line) : State :=
  if s.misses c la then
    (s.modMiss c la (fun m =>
      { m with grant := some g, storeMask := if s.coreRuns c then mask else 0, storeData := data })).fillCore c la
  else s.mesh! (.compAck c la)

/-- A home receives CompAck, and the hold count starts (R273, R275). -/
def State.onCompAck (s : State) (la : Nat) : State := (s.modTxn la (fun t => { t with acked := true })).settleLine la

/-- An entry names core `c` as the owner of a line. -/
def State.ownedBy (s : State) (c la : Nat) : Bool :=
  match (s.home (s.homeOf la)).entry la with
  | some e => e.st == .owned c
  | none => false

/-- A home receives a core's snoop answer (R273, R274); a line that the owner supplied to another core is counted. -/
def State.onSnpAck (s : State) (c la : Nat) (had dirty wb : Bool) : State :=
  let owner := had && s.ownedBy c la
  let forCore := match s.txn? la with
    | some t => (match t.why with | .request r => (match r.agent with | .core _ => true | _ => false) | _ => false)
    | none => false
  let s := if owner && forCore then s.bumpF (.homeC2c (s.homeOf la)) Fld.homeC2cCount 1 else s
  (s.modTxn la (fun t => { t with
    wait := setDel c t.wait, had := t.had || owner, needData := t.needData || dirty
    wbFrom := if wb && s.wbFlying c la then some c else t.wbFrom })).settleLine la

/-- The BIAS_HOST record of a denied access that retires (R263). DEDUCED: log entry 63. -/
def biasRec (c la : Nat) : FaultRec := whoRec Cls.biasHost (coreWho c) la

/-- A core receives a bias denial (R263). -/
def State.onDeny (s : State) (c la : Nat) : State :=
  let retires := (s.core c).misses.any (fun m => m.line == la && m.retires)
  let s := s.missFails c la
  if retires then s.report (biasRec c la) else s

/-- A core receives a line from the home (R272); one beyond the usable size it does not keep (R231). DEDUCED: log entry 66. -/
def State.onData (s : State) (c la : Nat) (d : Line) : State :=
  if s.usable la then (s.modMiss c la (fun m => { m with data := some d })).fillCore c la
  else
    let x := s.core c
    s.setCore c { x with misses := x.misses.filter (fun m => m.line != la) }

/-- A line of DRAM is written so that every word of it decodes as uncorrectable (R245, R312, R377). -/
def State.spoilDram (s : State) (la : Nat) : State := (s.freshLine la).loseWords (wordsOf la 64)

/-- A line is written so that every word of it decodes as uncorrectable, in the system-level cache too where it is there (R312, R377). Above the
watermark its check group is initialised first (R239). -/
def State.spoilLine (s : State) (la : Nat) : State := ((s.initGroup la).spoilDram la).modSlc la (fun e => { e with ue := BitVec.allOnes 16, ce := 0 })

/-- A core receives a line cache to cache (R273). Dirty data that reaches a core which a forced reset has cleared is lost (R377). -/
def State.onFwdData (s : State) (c la : Nat) (d : Line) (dirty : Bool) : State :=
  if s.misses c la then (s.modMiss c la (fun m => { m with data := some d, dirty := dirty })).fillCore c la
  else if dirty then s.spoilLine la else s

/-- A home receives a core's snoop data and writes memory; the data of an owner that WrNA replaces is discarded (R269, R273). -/
def State.onSnpData (s : State) (la : Nat) (d : Line) : State :=
  let discard := match s.txn? la with
    | some t => (match t.why with | .request r => (match r.kind with | .wrNA _ => true | _ => false) | _ => false)
    | none => false
  let s := if discard || !s.usable la then s else s.storeLine la (lineBytes d)
  (s.modTxn la (fun t => { t with gotData := true })).settleLine la

/-- A home absorbs an eviction (R260, R272, R274): dirty data is written into the system-level cache, and the entry loses its owner; while a
transaction is open on the line it stays, without one (R276). DESIGN CHOICE: log entry 64. -/
def State.absorb (s : State) (c la : Nat) (d : Option Line) : State :=
  let h := s.homeOf la
  let s := match d with
    | some d => if s.usable la then (s.slcFill la).storeLine la (lineBytes d) else s
    | none => s
  let s := s.mesh! (.wbAck c la)
  let x := s.home h
  let s := if s.ownedBy c la then
      s.setHome h (if x.openOn la then { x with dir := x.dir.map (fun e => if e.line = la then { e with st := .shared 0 } else e) }
        else x.free la)
    else s
  (s.modTxn la (fun t => { t with wbFrom := if t.wbFrom = some c then none else t.wbFrom })).settleLine la

/-- The minimum hold of a line expires (R275). -/
def State.expireHold (s : State) (la : Nat) : State :=
  let h := s.homeOf la
  let x := s.home h
  (s.setHome h { x with dir := x.dir.map (fun e => if e.line = la then { e with hold := false } else e) }).settleLine la

/-- A message is received. A grant of ownership that comes so lets its core complete one store, of bytes that nothing fixes (R275).
DESIGN CHOICE: log entry 25. -/
def State.onMsg (s : State) : Msg → State
  | .snp k c la f a => s.answer k c la f a false
  | .cmp .modified c la =>
    ({ s with freeCtr := s.freeCtr + 2 } : State).onGrant .modified c la ((Config.freeValue s.freeCtr).setWidth 64)
      (Config.freeValue (s.freeCtr + 1))
  | .cmp g c la => s.onGrant g c la 0 0
  | .compAck _ la => s.onCompAck la
  | .snpAck c la had dirty wb => s.onSnpAck c la had dirty wb
  | .deny c la => s.onDeny c la
  | .data (.core c) la d => s.onData c la d
  | .fwdData c la d dirty => s.onFwdData c la d dirty
  | .snpData _ la d => s.onSnpData la d
  | .wbDirty c la d => s.absorb c la (some d)
  | .wbClean c la => s.absorb c la none
  | .wbAck _ _ | .wrAck _ _ | .data _ _ _ => s

/-! ## Row repair (R245, R246) -/

/-- The homes of a controller. -/
def homesOf (h : Nat) : List Nat := if h < 32 then [h / 2 * 2, h / 2 * 2 + 1] else [h]

/-- The kind and index of the controller of a home, as a record names it. -/
def mcRec (cls h line : Nat) : FaultRec :=
  { mkRec cls 0 (if h < 32 then Kind.stack else Kind.lpmc) (if h < 32 then h / 2 else h - 32) with
    addr := BitVec.ofNat 64 line }

/-- The lines of a row are in the spare row (R245): single-bit errors corrected, a line uncorrectable in a word, or by its check bits,
uncorrectable in every word; the check units that the cache holds of the row's lines are updated (R233).
DEDUCED, DESIGN CHOICE: log entries 69, 116. -/
def State.repairRow (s : State) (h row : Nat) : State :=
  let inRow (la : Nat) : Bool := s.usable la && s.homeOf la == h && s.rowOf la == row && !s.above la
  let cached := (s.cachedLines h).filter inRow
  let bad := ((((s.ue.map (fun w => lineOf (4 * w))).filter inRow) ++ cached).eraseDups).filter (fun la => !(s.scrubUe la).isEmpty)
  let s := { s with ce := s.ce.filter (fun w => !inRow (lineOf (4 * w))) }
  bad.foldl State.spoilDram (cached.foldl State.checkRewrite s)

/-- A repair is done: the row leaves the table and the bank is released (R245). DEDUCED: log entry 69. -/
def State.repairDone (s : State) (h : Nat) : State :=
  let m := s.mc h
  match m.repairing with
  | none => s
  | some row =>
    let line := match m.rows.find? (fun r => r.row == row) with | some r => r.line | none => 0
    let used := kget 0 m.sparesUsed (Config.bankOfRow h row) + 1
    let s := s.setMc h { m with
      repairing := none
      rows := m.rows.filter (fun r => r.row != row)
      sparesUsed := nset 0 m.sparesUsed (Config.bankOfRow h row) used }
    let s := s.repairRow h row
    let r := Reg.hbmcRepairStatus (mcOf h)
    let s := (s.bumpF r Fld.hbmcRepairStatusRepairs 1).setF r Fld.hbmcRepairStatusMarked
      (s.rf r Fld.hbmcRepairStatusMarked - 1)
    let s := s.setF r Fld.hbmcRepairStatusSparesMin (min (s.rf r Fld.hbmcRepairStatusSparesMin) (Config.sparesPerBank - used))
    let busy := (homesOf h).any (fun x => (s.mc x).repairing.isSome)
    (s.setB (.hbmcStatus (mcOf h)) Fld.hbmcStatusRepairBusy busy).report (mcRec Cls.memRepair h line)

/-- A repair ends, and the requests that it held are served (R245). DEDUCED: log entry 69. -/
def State.repairEnd (s : State) (h : Nat) : State := (s.repairDone h).drainHome h

/-! ## Accesses of units (R257, R259, R269, R275) -/

/-- A request on a line waits at its home for something other than a flip (R265). -/
def State.lineWaits (s : State) (la : Nat) : Bool :=
  (s.home (s.homeOf la)).queue.any (fun r => r.line == la && !(s.flips la && r.forCopy))

/-- A write-back of a line by any core is in flight. -/
def State.wbComes (s : State) (la : Nat) : Bool :=
  s.mesh.any (fun m => match m with | .wbDirty _ l _ => l == la | .wbClean _ l => l == la | _ => false)

/-- What stands before a unit's access on a line ends: the messages of its open transaction and a write-back in flight are received, and the
requests that wait in its queue are served, in their order, each after a hold that it waits for has run out; a write waits for a hold too
(R256, R259, R274, R275). DESIGN CHOICE: log entry 25. -/
def State.clearLine (s : State) (la : Nat) (write : Bool) : Nat → State
  | 0 => s
  | n + 1 =>
    let x := s.home (s.homeOf la)
    let held := (x.entry la).any (fun e => e.hold)
    if s.bankHeld la then (s.repairEnd (s.homeOf la)).clearLine la write n
    else if !x.openOn la && !s.lineWaits la && !s.wbComes la then (if write && held then (s.expireHold la).clearLine la write n else s)
    else match popFirst (fun m : Msg => m.lineFor == some la) s.mesh with
      | some (m, rest) => (({ s with mesh := rest } : State).onMsg m).clearLine la write n
      | none => if held then (s.expireHold la).clearLine la write n else s

/-- The turn of a unit's read or write of a line has come: on a DEVICE page, once no row repair holds the bank (R245, R261).
DESIGN CHOICE: log entry 25. -/
def State.lineTurn (s : State) (la : Nat) (write : Bool) : State :=
  if s.deviceBias la then (if s.bankHeld la then s.repairEnd (s.homeOf la) else s)
  else s.clearLine la write (s.mesh.length + 512 * ((s.home (s.homeOf la)).queue.length + 2))

/-- The owner that the entry of a SHARED line names. -/
def State.ownerOf (s : State) (la : Nat) : Option Nat :=
  if s.deviceBias la then none
  else match (s.home (s.homeOf la)).entry la with
    | some e => (match e.st with | .owned o => some o | .shared _ => none)
    | none => none

/-- A write of a unit to a SHARED line sends SnpInv to every core that its entry names (R269): the copies go, dirty data is written first unless
the write replaces the whole line, and the entry is freed. DESIGN CHOICE: log entry 25. -/
def State.takeCopies (s : State) (la : Nat) (whole : Bool) : State :=
  if s.deviceBias la then s
  else match (s.home (s.homeOf la)).entry la with
    | none => s
    | some e =>
      let s := s.bumpF (.homeSnoops (s.homeOf la)) Fld.homeSnoopsCount e.st.cores.length
      let s := e.st.cores.foldl (fun s c =>
        let s' := match (s.core c).copy la with
          | some ⟨.modified, d⟩ => if whole then s else s.storeLine la (lineBytes d)
          | _ => s
        s'.setCore c ((s'.core c).drop la)) s
      let h := s.homeOf la
      s.setHome h ((s.home h).free la)

/-- A read of `n` bytes within one line of the memory windows by a non-caching unit: the bytes, or nothing where it is refused or meets an
uncorrectable word. The owner of the line is asked by SnpCur and keeps it (R269). DESIGN CHOICE: log entry 25. -/
def State.winRead (s : State) (w : Who) (a n : Nat) : State × Option (List Byte) :=
  if !s.usable a then (s.outOfRange w a, none)
  else
    let la := lineOf a
    let s := s.lineTurn la false
    let s := if (s.ownerOf la).isSome then s.bumpF (.homeSnoops (s.homeOf la)) Fld.homeSnoopsCount 1 else s
    match (s.ownerOf la).bind (fun o => (s.core o).copy la) with
    | some e => (s, some (((lineBytes e.data).drop (a % 64)).take n))
    | none =>
      let (s, ok) := s.readLine w la
      (s, if ok then some (s.memBytes a n) else none)

/-- A write of bytes within one line of the memory windows by a non-caching unit (R234, R241, R257, R269): whether it was performed.
A write that leaves an uncorrectable word of the line in place writes a MEM_UE record of severity 0. DESIGN CHOICE: log entry 25. -/
def State.winWrite (s : State) (w : Who) (a : Nat) (l : List Byte) : State × Bool :=
  if !s.usable a then (s.outOfRange w a, false)
  else
    let la := lineOf a
    let s := (s.lineTurn la true).takeCopies la (l.length == 64)
    let keep := (s.lineUe la).filter (fun u => !coversWord a l.length u)
    let corrected := if l.length = 64 then 0 else (s.lineCe la).length
    (((s.mergeRead la corrected).storeLine a l).keepUe w la keep corrected, true)

/-- A write of the masked bytes of a line of the memory windows by a non-caching unit (R234, R269). DESIGN CHOICE: log entry 25. -/
def State.maskWrite (s : State) (w : Who) (la : Nat) (mask : W64) (data : Line) : State :=
  ((s.lineTurn la true).takeCopies la (mask == BitVec.allOnes 64)).homeWrite w la mask data

end Sys2Proof.Machine
end

