-- ==== Sys2Proof/Machine/Router.lean ====
section
/-! DEFINITION. Packets and flits as the fabric lays them out (R280, R286), the choice of a port (R294), sending under credits and
the retry buffer (R282, R289, R292), and the accesses of units by 64-bit global address (R250 to R252). -/

namespace Sys2Proof.Machine

/-! ## CRC-32 (R280) -/

/-- One bit step of the reflected CRC-32 with polynomial 0x04C1_1DB7. -/
def crcBit (c : BitVec 32) : BitVec 32 := if c.getLsbD 0 then (c >>> 1) ^^^ 0xEDB88320 else c >>> 1

/-- One byte of CRC-32. -/
def crcByte (c : BitVec 32) (b : Byte) : BitVec 32 :=
  Nat.rec (c ^^^ b.zeroExtend 32) (fun _ x => crcBit x) 8

/-- CRC-32 of IEEE 802.3 over a byte string. -/
def crc32 (l : List Byte) : BitVec 32 := ~~~(l.foldl crcByte 0xFFFFFFFF)

/-! ## Packets (R286) -/

/-- The header slot of a packet. -/
def Pkt.header (p : Pkt) : BitVec 128 :=
  BitVec.ofNat 128 (p.vc % 8 + p.hop % 8 * 2 ^ 3 + p.typ % 256 * 2 ^ 8 + p.dst % 4096 * 2 ^ 16 + p.src % 4096 * 2 ^ 32
    + (if p.path then 2 ^ 44 else 0) + p.payload.length / 16 % 32 * 2 ^ 48 + p.gen % 256 * 2 ^ 56 + p.tag % 65536 * 2 ^ 64
    + p.off % 2 ^ 48 * 2 ^ 80)

/-- The bytes of a payload as slots of 16 B. -/
def payloadSlots : Nat → List Byte → List (BitVec 128)
  | 0, _ => []
  | n + 1, l => BitVec.ofNat 128 (leNat (l.take 16)) :: payloadSlots n (l.drop 16)

/-- The slots of a packet. -/
def Pkt.slots (p : Pkt) : List (BitVec 128) := p.header :: payloadSlots (p.payload.length / 16) p.payload

/-- The payload slots that a header announces. -/
def headerLen (h : BitVec 128) : Nat := bitsOf h.toNat 48 5

/-- The packet of its slots. DEDUCED: log entry 28. -/
def pktOf (h : BitVec 128) (body : List (BitVec 128)) : Pkt :=
  let v := h.toNat
  { vc := bitsOf v 0 3, hop := bitsOf v 3 3, typ := bitsOf v 8 8, dst := bitsOf v 16 12, src := bitsOf v 32 12,
    path := bitsOf v 44 1 == 1, gen := bitsOf v 56 8, tag := bitsOf v 64 16, off := bitsOf v 80 48,
    payload := body.flatMap (fun x => leBytes 16 x.toNat) }

/-- The reserved fields of a header are zero (R287). -/
def headerClean (h : BitVec 128) : Bool :=
  let v := h.toNat
  bitsOf v 6 2 == 0 && bitsOf v 28 4 == 0 && bitsOf v 45 3 == 0 && bitsOf v 53 3 == 0

/-! The packet types of R286. -/
namespace PT
abbrev rd := 0x01
abbrev wr := 0x02
abbrev wrp := 0x03
abbrev pegadd := 0x04
abbrev rdreg := 0x05
abbrev wrreg := 0x06
abbrev rddata := 0x10
abbrev wrack := 0x11
abbrev err := 0x12
abbrev red := 0x20
abbrev register := 0x30
abbrev assign := 0x31
abbrev route := 0x32
abbrev ready := 0x33
abbrev takeoverReq := 0x34
abbrev takeoverAck := 0x35
abbrev reassign := 0x36
end PT

/-! The virtual channels of R288. -/
namespace VC
abbrev mgmt := 0
abbrev req := 1
abbrev bulk := 2
abbrev rsp := 3
abbrev red := 4
abbrev sig := 5
end VC

/-! ## Ports -/

/-- Port `p`. -/
def State.port (s : State) (p : Nat) : Port := kget Port.reset s.fab.ports p
/-- Store port `p`. -/
def State.setPort (s : State) (p : Nat) (x : Port) : State :=
  { s with fab := { s.fab with ports := nset Port.reset s.fab.ports p x } }

/-- The state of a port: 0 DISABLED, 1 TRAINING, 2 HELLO, 3 UP, 4 RETRAIN, 5 DOWN, 6 ISOLATED. -/
def State.portState (s : State) (p : Nat) : Nat := s.rf (.fabPortStatus p) Fld.fabPortStatusState

/-- Put a port in a state. -/
def State.setPortState (s : State) (p x : Nat) : State := s.setF (.fabPortStatus p) Fld.fabPortStatusState x

/-- Port `p` is UP. -/
def State.portUp (s : State) (p : Nat) : Bool := s.portState p == 3

/-- The UP ports of a mask, in ascending order (R294); a port that its reset has asked to become idle counts as not UP (R375). -/
def State.upPorts (s : State) (mask : W64) : List Nat :=
  (List.range 64).filter (fun p => mask.getLsbD p && s.portUp p && s.rf (.rstUnit (480 + p)) Fld.rstUnitState == 0)

/-- Buffer levels in force, which is the hop limit (R290). -/
def State.levels (s : State) : Nat := s.af .fabCfg Fld.fabCfgLevels

/-- A channel's share of a set of shares. -/
def vcShare (shr : W64) (v : Nat) : Nat := bitsOf shr.toNat (8 * v) 8

/-- The slots of one level of channel `v` in a receive buffer of 24,576 slots (R289). -/
def Port.levelSlots (x : Port) (v : Nat) : Nat :=
  24576 * vcShare x.shr v / max 1 ((List.range 6).map (vcShare x.shr)).sum / max 1 x.lvl

/-- The key of a channel and level in a port's credit table. -/
def creditKey (vc level : Nat) : Nat := 8 * vc + level

/-- A packet fits the credits the sender holds for it (R289). -/
def State.creditFor (s : State) (p : Nat) (k : Pkt) : Bool :=
  kget 0 (s.port p).credits (creditKey k.vc k.hop) + k.slots.length ≤ (s.port p).levelSlots k.vc

/-- The flit of its parts (R280). -/
def mkFlit (seq typ ack : Nat) (ackValid nak : Bool) (owed : List (Nat × Nat × Nat)) (start : Nat)
    (slots : List (BitVec 128)) : BitVec 2048 :=
  let cr := (owed.take 3).map (fun c => c.1 % 8 + c.2.1 % 8 * 8 + c.2.2 % 1024 * 64)
  let body := leBytes 2 (seq % 4096 + typ % 16 * 4096)
    ++ leBytes 2 (ack % 4096 + (if ackValid then 4096 else 0) + (if nak then 8192 else 0))
    ++ leBytes 2 (cr.getD 0 0) ++ leBytes 2 (cr.getD 1 0) ++ leBytes 2 (cr.getD 2 0) ++ leBytes 2 (start % 2 ^ 15)
    ++ (List.range 15).flatMap (fun i => leBytes 16 (slots.getD i 0).toNat)
  BitVec.ofNat 2048 (leNat (body ++ leBytes 4 (crc32 body).toNat))

/-- Put a flit on the wire of port `p` with its acknowledgement and up to three credit returns (R280, R281). -/
def State.putFlit (s : State) (p seq typ start : Nat) (slots : List (BitVec 128)) (nak : Bool := false) :
    State × BitVec 2048 :=
  let x := s.port p
  let f := mkFlit seq typ x.lastSeq x.anySeq nak x.owed start slots
  let s := s.setPort p { x with owed := x.owed.drop 3 }
  ({ s with fab := { s.fab with wire := (p, f) :: s.fab.wire } }, f)

/-- Send the slots of a packet as DATA flits, the packet starting a flit (R280, R282); the sequence number of the last.
DEDUCED: log entry 28. -/
def State.putSlots (s : State) (p : Nat) : Nat → Nat → List (BitVec 128) → State
  | 0, _, _ => s
  | n + 1, start, l =>
    let x := s.port p
    let (s, f) := s.putFlit p x.nextSeq 1 start (l.take 15)
    let x' := s.port p
    let s := s.setPort p { x' with nextSeq := (x.nextSeq + 1) % 4096, retry := x'.retry ++ [⟨x.nextSeq, f⟩] }
    let s := s.bumpF (.fabPortFlits p) Fld.fabPortFlitsTx 1
    if (l.drop 15).isEmpty then s else s.putSlots p n 0 (l.drop 15)

/-- Whether port `p` can send packet `k` now: UP, room for its flits in the retry buffer of 512 flits (R282), credits held. -/
def State.canSend (s : State) (p : Nat) (k : Pkt) : Bool :=
  s.portUp p && (s.port p).retry.length + (k.slots.length + 14) / 15 ≤ 512 && s.creditFor p k

/-- The weighted round robin of REQ, BULK and RED: 4, 2 and 4 packets (R292). -/
def wrrCycle : List Nat := [1, 1, 1, 1, 2, 2, 4, 4, 4, 4]

/-- The channel of the next packet of port `p` (R292): MGMT, RSP and SIG first, then the round robin; and the place of the
round robin after it. A channel is a candidate when its oldest packet can be sent. -/
def State.nextVc (s : State) (p : Nat) : Option (Nat × Nat) :=
  let x := s.port p
  let ready (v : Nat) : Bool := match x.outQ.find? (fun k => k.vc == v) with
    | some k => s.canSend p k
    | none => false
  match [VC.mgmt, VC.rsp, VC.sig].find? ready with
  | some v => some (v, x.turn)
  | none =>
    ((List.range 10).find? (fun i => ready (wrrCycle.getD ((x.turn + i) % 10) 1))).map
      (fun i => (wrrCycle.getD ((x.turn + i) % 10) 1, (x.turn + i + 1) % 10))

/-- Send queued packets of port `p` while one can be sent. -/
def State.pump (s : State) (p : Nat) : Nat → State
  | 0 => s
  | n + 1 =>
    match s.nextVc p with
    | none => s
    | some (v, turn) =>
      match popFirst (fun k : Pkt => k.vc == v) (s.port p).outQ with
      | none => s
      | some (k, rest) =>
        let x := s.port p
        let key := creditKey k.vc k.hop
        let s := s.setPort p { x with
          outQ := rest, turn := turn
          credits := nset 0 x.credits key (kget 0 x.credits key + k.slots.length) }
        let s := s.putSlots p 2 1 k.slots
        let x := s.port p
        let s := s.setPort p { x with sent := x.sent ++ [⟨k, (x.nextSeq + 4095) % 4096⟩] }
        s.pump p n

/-- Send what port `p` has queued, as far as credits and room allow. -/
def State.pumpPort (s : State) (p : Nat) : State := s.pump p (s.port p).outQ.length

/-- Queue a packet at port `p` and send what can be sent. -/
def State.enqueue (s : State) (p : Nat) (k : Pkt) : State :=
  let x := s.port p
  (s.setPort p { x with outQ := x.outQ ++ [k] }).pumpPort p

/-- The value f of R294: the tag for requests and responses, bytes 4 and 5 of the reduction header for RED, 0 for MGMT. -/
def Pkt.flow (k : Pkt) : Nat :=
  if k.vc = VC.red then leNat ((k.payload.drop 4).take 2) else if k.vc = VC.mgmt then 0 else k.tag

/-- The choice of a port for a packet (R294), and whether it fell back to the other mask. -/
def State.choosePort (s : State) (k : Pkt) : Option (Nat × Bool) :=
  let pri := s.aget (.fabRoutePrimary k.dst)
  let alt := s.aget (.fabRouteAlternative k.dst)
  let (ports, fell) :=
    if k.typ = PT.red then
      let (a, b) := if k.path then (alt, pri) else (pri, alt)
      if (s.upPorts a).isEmpty then (s.upPorts b, true) else (s.upPorts a, false)
    else (s.upPorts (pri ||| alt), false)
  (ports[(k.flow ^^^ k.src ^^^ k.dst) % max 1 ports.length]?).map (fun p => (p, fell))

/-- The packet is a request, which ERR may answer (R286). -/
def isRequest (typ : Nat) : Bool := 1 ≤ typ && typ ≤ 6

/-- A FAB_NO_ROUTE record (R294, R397); that of a request holds the global address that it names. -/
def noRouteRec (w : Who) (k : Pkt) : FaultRec :=
  { whoRec Cls.fabNoRoute w (if isRequest k.typ then 2 ^ 60 + k.dst % 4096 * 2 ^ 48 + k.off % 2 ^ 48 else 0) with
    detail0 := BitVec.ofNat 64 (k.dst % 4096 + k.typ % 256 * 2 ^ 16 + k.vc % 8 * 2 ^ 24), detail1 := BitVec.ofNat 48 k.src }

/-- The record of an unroutable packet that no requester of this device waits for (R294). -/
def Who.noOne : Who := ⟨Kind.device, 0, 0, none⟩

/-- Choose the port of a packet and count a failover; a packet that no port reaches is counted, recorded and discarded (R294). -/
def State.routed (s : State) (w : Who) (k : Pkt) : State × Option Nat :=
  match if s.idValid then s.choosePort k else none with
  | some (p, fell) => (if fell then s.bumpF .fabEvents Fld.fabEventsFailover 1 else s, some p)
  | none => ((s.bumpF .fabDrops Fld.fabDropsUnroutable 1).report (noRouteRec w k), none)

/-- Route and queue a packet (R294); false where it is unroutable and discarded. -/
def State.sendPkt (s : State) (w : Who) (k : Pkt) : State × Bool :=
  match s.routed w k with
  | (s, some p) => (s.enqueue p k, true)
  | (s, none) => (s, false)

/-- A requester as the record of an unroutable request names it: severity 1, and 0 for a peg's mirror write (R224, R294). -/
def Who.routing (w : Who) : Who := { w with sev := if w.kind = Kind.pegs then 0 else 1 }

/-- The open request of this device that a packet carries, and the others (R294, R305). -/
def State.ownRequest (s : State) (k : Pkt) : Option (OpenReq × List OpenReq) :=
  if isRequest k.typ && k.src == s.devId then popFirst (fun q : OpenReq => q.tag == k.tag && q.gen == k.gen) s.fab.openReqs else none

/-- Route packets again (R285), MGMT packets by port `t`: the state, each packet with its new port, and the requests of this device that no port
reaches, which are open no longer (R294). -/
def State.choosePorts (s : State) (t : Nat) : List Pkt → State × List (Nat × Pkt) × List OpenReq
  | [] => (s, [], [])
  | k :: ks =>
    if k.vc = VC.mgmt then
      let (s, l, d) := s.choosePorts t ks
      (s, (t, k) :: l, d)
    else
      let own := s.ownRequest k
      match s.routed (match own with | some (q, _) => q.who.routing | none => Who.noOne) k with
      | (s, some p) =>
        let (s, l, d) := s.choosePorts t ks
        (s, (p, k) :: l, d)
      | (s, none) =>
        match own with
        | some (q, rest) =>
          let (s, l, d) := ({ s with fab := { s.fab with openReqs := rest } } : State).choosePorts t ks
          (s, l, q :: d)
        | none => s.choosePorts t ks

/-- Route packets again ahead of those that wait at their new ports, in their order (R285); the requests of this device that end with it
(R294). -/
def State.reroute (s : State) (t : Nat) (ks : List Pkt) : State × List OpenReq :=
  let (s, l, ended) := s.choosePorts t ks
  ((l.map Prod.fst).eraseDups.foldl (fun s p =>
    let x := s.port p
    (s.setPort p { x with outQ := l.filterMap (fun e => if e.1 = p then some e.2 else none) ++ x.outQ }).pumpPort p) s, ended)

/-- Answer a request on RSP with its tag and generation (R304 to R306). -/
def State.respond (s : State) (k : Pkt) (typ : Nat) (payload : List Byte) : State :=
  (s.sendPkt Who.noOne { vc := VC.rsp, hop := 0, typ := typ, dst := k.src, src := s.devId, path := false, gen := k.gen, tag := k.tag,
                         off := 0, payload := payload }).1

/-- Answer ERR with a code (R306). -/
def State.respondErr (s : State) (k : Pkt) (code : Nat) : State := s.respond k PT.err (leBytes 16 code)

/-! ## Requests to other devices (R304 to R306) -/

/-- Open a request and send it; false where it is unroutable. -/
def State.request (s : State) (w : Who) (o : Owner) (vc typ dev off : Nat) (payload : List Byte) (write : Bool) (n : Nat) (pos : Nat := 0) :
    State × Bool :=
  let t := s.fab.nextTag
  let k : Pkt := { vc := vc, hop := 0, typ := typ, dst := dev, src := s.devId, path := false, gen := t / 65536 % 256,
                   tag := t % 65536, off := off, payload := payload }
  let (s, ok) := s.sendPkt w.routing k
  if ok then
    ({ s with fab := { s.fab with
        nextTag := t + 1
        openReqs := s.fab.openReqs ++ [⟨k.tag, k.gen, o, w, dev, off, write, n, pos⟩] } }, true)
  else (s, false)

/-- An owner has a request open that its work waits for. -/
def State.hasOpen (s : State) (o : Owner) : Bool :=
  s.fab.openReqs.any (fun r => r.owner == o) || s.fab.regReqs.any (fun r => r.owner == o)

/-- What a read of a unit gives: bytes, a refusal that has written its record, or nothing yet. -/
inductive Got where
  | bytes (l : List Byte)
  | fail
  | wait
  deriving DecidableEq, Repr

/-- What a global address names (R250, R252). -/
inductive Target where
  | here (off : Nat)
  | there (dev off : Nat)
  | bad
  deriving DecidableEq, Repr

/-- Decode a global address. -/
def State.target (s : State) (a : Nat) : Target :=
  let space := bitsOf a 60 4
  let dev := bitsOf a 48 12
  let off := a % 2 ^ 48
  if space = 0 then (if dev = 0 then .here off else .bad)
  else if space = 1 then (if s.idValid && dev == s.devId then .here off else .there dev off)
  else .bad

/-- A device agent's access to a register region is no complete access of R6: it reads as zero, writes nothing and writes a
CSR_ACCESS record. DEDUCED: log entry 27. -/
def State.irregular (s : State) (w : Who) (a : Nat) : State := s.report { whoRec Cls.csrAccess w a with sev := 0 }

/-- A local offset lies in a root-port window, which is no register (R332). -/
def inRpWindow (addr : Nat) : Bool := 0xF00040800000 ≤ addr && addr < 0xF00041000000

/-- An access of a unit to a register that is complete under R6: aligned, of 4 or 8 bytes. A root-port window has no register.
DEDUCED: log entry 27. -/
def regSized (a n : Nat) : Bool := !inRpWindow a && ((n == 8 && a % 8 == 0) || (n == 4 && a % 4 == 0))

/-- An access of 8 bytes to a register of another device, which RDREG, WRREG and PEGADD carry (R286). DEDUCED: log entry 27. -/
def farReg (off n : Nat) : Bool := n == 8 && off % 8 == 0 && regionOf off == .registers

/-- What has come for a read of an owner under a key: its bytes, or its failure, which is used up. -/
def State.arrived (s : State) (o : Owner) (key : Nat) : Option (State × Option (List Byte)) :=
  match s.fab.fetched.find? (fun f => f.1 == o && f.2.1 == key) with
  | some f => some (s, some (lineBytes f.2.2))
  | none =>
    if s.fab.failed.contains (o, key) then
      some ({ s with fab := { s.fab with failed := s.fab.failed.filter (· != (o, key)) } }, none)
    else none

/-- A unit reads a register region (R6): a complete access waits to be performed and gives its value then; any other reads zero.
DEDUCED: log entry 27. -/
def State.readHereReg (s : State) (w : Who) (o : Owner) (off n : Nat) : State × Got :=
  if !regSized off n then (s.irregular w off, .bytes (List.replicate n 0))
  else match s.arrived o off with
    | some (s, some l) => (s, .bytes (l.take n))
    | some (s, none) => (s, .fail)
    | none =>
      if s.fab.regReqs.any (fun r => r.owner == o && r.data.isNone && r.addr == off) then (s, .wait)
      else ({ s with fab := { s.fab with regReqs := s.fab.regReqs ++ [⟨o, w, off, n, none⟩] } }, .wait)

/-- A unit writes a register region (R6): a complete access waits to be performed, any other writes nothing.
DEDUCED: log entry 27. -/
def State.writeHereReg (s : State) (w : Who) (o : Owner) (off : Nat) (l : List Byte) : State :=
  if !regSized off l.length then s.irregular w off
  else { s with fab := { s.fab with
    regReqs := s.fab.regReqs ++ [⟨o, w, off, l.length, some (BitVec.ofNat 64 (leNat l))⟩] } }

/-- A read of `n` bytes within one line at a global address by a unit of the device. A line, or a register, of another device is requested
once and read when its data has come; a request that has failed has written its record (R306). DEDUCED: log entry 27. -/
def State.readAt (s : State) (w : Who) (o : Owner) (a n : Nat) : State × Got :=
  match s.target a with
  | .bad => (s.undecoded w a, .fail)
  | .there dev off =>
    let reg := farReg off n
    match s.arrived o (if reg then a else lineOf a) with
    | some (s, some l) => (s, .bytes ((l.drop (if reg then 0 else a % 64)).take n))
    | some (s, none) => (s, .fail)
    | none =>
      let x := if reg then off else lineOf off
      if s.fab.openReqs.any (fun r => r.owner == o && !r.write && r.dev == dev && r.off == x) then (s, .wait)
      else
        let (s, ok) := s.request w o VC.req (if reg then PT.rdreg else PT.rd) dev x [] false (if reg then 8 else 64)
        (s, if ok then .wait else .fail)
  | .here off =>
    match regionOf off with
    | .hbm | .lp =>
      match s.winRead w off n with
      | (s, some l) => (s, .bytes l)
      | (s, none) => (s, .fail)
    | .aperture t x =>
      match s.sramRead w t x n with
      | (s, some l) => (s, .bytes l)
      | (s, none) => (s, .fail)
    | .registers => s.readHereReg w o off n
    | .absent => (s.undecoded w off, .fail)

/-- The byte mask of `n` bytes from byte `at_` of a line. -/
def lineMask (at_ n : Nat) : Nat := (2 ^ n - 1) * 2 ^ at_

/-- The payload of a WRP packet (R286): 8 B mask, 64 B data, 8 B zero. -/
def wrpPayload (mask : Nat) (data : List Byte) : List Byte := leBytes 8 mask ++ data ++ List.replicate 8 0

/-- A write of bytes within one line at a global address by a unit of the device; false where it is refused. One that its home here performs
is acknowledged at once (R218); a write to another device stays open until its WRACK (R305); 8 bytes for a register of it travel as PEGADD or WRREG (R286), but a mirror write of a peg
is a partial-line write (R224). DEDUCED: log entry 27. -/
def State.writeAt (s : State) (w : Who) (o : Owner) (vc : Nat) (a : Nat) (l : List Byte) (pos : Nat := 0) :
    State × Bool :=
  if l.isEmpty then (s, true) else
  match s.target a with
  | .bad => (s.undecoded w a, false)
  | .there dev off =>
    if farReg off l.length && w.kind != Kind.pegs then
      let body := l ++ List.replicate 8 0
      match Reg.ofAddr off with
      | some (.pegAdd _) => s.request w o VC.sig PT.pegadd dev off body true 8 pos
      | _ => s.request w o VC.req PT.wrreg dev off body true 8 pos
    else if l.length = 64 then s.request w o vc PT.wr dev (lineOf off) l true 64 pos
    else
      let data := List.replicate (off % 64) 0 ++ l ++ List.replicate (64 - off % 64 - l.length) 0
      s.request w o vc PT.wrp dev (lineOf off) (wrpPayload (lineMask (off % 64) l.length) data) true l.length pos
  | .here off =>
    let homed (x : State × Bool) : State × Bool := (if x.2 then x.1.ackDesc o else x.1, x.2)
    match regionOf off with
    | .hbm | .lp => homed (s.winWrite w off l)
    | .aperture t x => homed (s.sramWrite w t x l)
    | .registers => (s.writeHereReg w o off l, true)
    | .absent => (s.undecoded w off, false)

/-- The pieces of bytes `a` to `a + n - 1`, one per line: address and length. -/
def pieces (a n : Nat) : List (Nat × Nat) :=
  if n = 0 then [] else
  (List.range' (a / 64) ((a + n - 1) / 64 - a / 64 + 1)).map (fun l =>
    (max a (64 * l), min (a + n) (64 * l + 64) - max a (64 * l)))

/-- A read of any length, line by line, in ascending order. It ends at the first refused line; it waits while a line of another
device has not come, after asking for every line. -/
def State.readRange (s : State) (w : Who) (o : Owner) (a n : Nat) : State × Got :=
  (pieces a n).foldl (fun acc p =>
    match acc.2 with
    | .fail => acc
    | .wait =>
      let (s, g) := acc.1.readAt w o p.1 p.2
      (s, match g with | .fail => .fail | _ => .wait)
    | .bytes l =>
      let (s, g) := acc.1.readAt w o p.1 p.2
      (s, match g with | .bytes m => .bytes (l ++ m) | g => g)) (s, .bytes [])

/-- A write of any length, line by line, in ascending order; it ends at the first refused line. The bytes written whole before it
and whether all were. -/
def State.writeRange (s : State) (w : Who) (o : Owner) (vc : Nat) (a : Nat) (l : List Byte) : State × Bool :=
  (pieces a l.length).foldl (fun acc p =>
    if acc.2 then acc.1.writeAt w o vc p.1 ((l.drop (p.1 - a)).take p.2) else acc) (s, true)

/-- Forget the lines that reads of an owner have fetched and those that they still fetch: what comes for them goes nowhere (R86). -/
def State.dropFetched (s : State) (o : Owner) : State :=
  { s with fab := { s.fab with
      fetched := s.fab.fetched.filter (fun f => f.1 != o)
      failed := s.fab.failed.filter (fun f => f.1 != o)
      openReqs := s.fab.openReqs.map (fun r => if r.owner == o && !r.write then { r with owner := .gone } else r)
      regReqs := s.fab.regReqs.map (fun r => if r.owner == o && r.data.isNone then { r with owner := .gone } else r) } }

/-- Use up what has come for the lines that hold bytes `a` to `a + n - 1`. -/
def State.useLines (s : State) (o : Owner) (a n : Nat) : State :=
  { s with fab := { s.fab with fetched := s.fab.fetched.filter (fun f => f.1 != o || f.2.1 + 64 ≤ a || a + n ≤ f.2.1) } }

/-- Keep what a read has returned for its owner, unless the owner's work has ended. -/
def State.keepFetched (s : State) (o : Owner) (key : Nat) (d : Line) : State :=
  if o = .gone then s else { s with fab := { s.fab with fetched := s.fab.fetched ++ [(o, key, d)] } }

/-- Keep for its owner that a read has failed, unless the owner's work has ended. -/
def State.keepFailed (s : State) (o : Owner) (key : Nat) : State :=
  if o = .gone then s else { s with fab := { s.fab with failed := s.fab.failed ++ [(o, key)] } }

end Sys2Proof.Machine
end

