-- ==== Sys2Proof/Machine/TileCore.lean ====
section
/-! DEFINITION. The sequencer of a tile: fetching the instruction at the program counter, retiring it, waiting, stopping (R36 to
R39, R48, R75, R475), and the guarded access to its registers (R45, R52). -/

namespace Sys2Proof.Machine

/-- A command of a unit of domain D`d` whose clock a freeze stops: it has no effect while the device is frozen or the domain is held in
reset (R348, R368, R369, R404). DESIGN CHOICE, DEDUCED: log entries 2, 100. -/
def clocked (d : Nat) (s : State) (f : State → State) : Out := .next (if s.runs d then f s else s)

/-- An access of an agent to a unit of domain D`d`: both are clocked, and the agent makes it (R313, R369, R404). -/
def agentDo (d : Nat) (agent : Agent) (s : State) (f : State → State) : Out :=
  clocked (max d (Agent.domain agent)) s (fun s => if s.agentActs agent then f s else s)

/-- A command of a unit that runs on BCLK or TCK (R405). DESIGN CHOICE: log entry 2. -/
def always (s : State) (f : State → State) : Out := .next (f s)

/-! ## Busy units -/

/-- MA `m` has a pass running or queued (R55). -/
def Tile.passBusy (t : Tile) (m : Nat) : Bool :=
  (t.array m).run.isSome || !(t.array m).finishing.isEmpty || (t.array m).queued.isSome

/-- MA `m` has a drain that has not completed (R55). -/
def Tile.drainBusy (t : Tile) (m : Nat) : Bool := !(t.array m).drains.isEmpty

/-- AGEN `a` has a transfer running or queued (R55). -/
def Tile.xferBusy (t : Tile) (a : Nat) : Bool :=
  let x := t.agen a
  (match x.run with | some w => !w.forPass | none => false) || (match x.queued with | some w => !w.forPass | none => false)

/-- A pass of array `m` that has not completed uses set `k` (R31, R92). DEDUCED: log entry 22. -/
def Tile.setInPass (t : Tile) (m k : Nat) : Bool :=
  let x := t.array m
  (x.run.toList ++ x.finishing ++ x.queued.toList).any (fun p => p.set == k)

/-- A drain of array `m` that has not read its set names set `k` (R30). DEDUCED: log entry 22. -/
def Tile.setInDrain (t : Tile) (m k : Nat) : Bool := (t.array m).drains.any (fun d => d.set == k && !d.started)

/-- Launched passes and drains of the tile that have not completed (R38). -/
def Tile.launched (t : Tile) : Bool := (List.range 4).any (fun m => t.passBusy m || t.drainBusy m)

/-- The tile whose work an owner is. -/
def Owner.tile? : Owner → Option Nat
  | .agen n _ | .drain n _ => some n
  | _ => none

/-- Some owner that satisfies `p` has a write outstanding: at another device, or at a register. -/
def State.writesOpen (s : State) (p : Owner → Bool) : Bool :=
  s.fab.openReqs.any (fun r => p r.owner && r.write) || s.fab.regReqs.any (fun r => p r.owner && r.data.isSome)

/-- The tile has a write outstanding (R55, R57). -/
def State.tileAcks (s : State) (n : Nat) : Bool := s.writesOpen (fun o => o.tile? == some n)

/-- A drain or a transfer has a write of its own outstanding (R92, R94). -/
def State.ownAcks (s : State) (o : Owner) : Bool := s.writesOpen (fun x => x == o)

/-! ## Stopping (R38, R75, R392) -/

/-- Enter the state that a stop asks for, and write its record. -/
def State.stopNow (s : State) (n : Nat) (x : Stop) : State :=
  let s := s.modTile n (fun t =>
    { t with seq := if x.cause = 1 ∨ x.cause = 2 then .halted else .faulted, stopping := none, wait := 0, cause := x.cause,
             pwait := none, pc := if t.pc = 0x10000#17 ∧ ¬(x.cause = 1 ∨ x.cause = 2) then 0xFFF8#17 else t.pc })
  match x.record with
  | some r => s.report r
  | none => s

/-- A stop takes effect once launched passes and drains have completed (R38). -/
def State.settle (s : State) (n : Nat) : State :=
  match (s.tile n).stopping with
  | some x => if (s.tile n).launched then s else s.stopNow n x
  | none => s

/-- Ask the sequencer to stop at this instruction boundary (R38). -/
def State.stopTile (s : State) (n : Nat) (x : Stop) : State :=
  (s.modTile n (fun t => { t with stopping := some x, wait := 0 })).settle n

/-- A fault of the tile's own work puts it in FAULTED at once with halt_cause 3 (R392). -/
def State.faultTile (s : State) (n : Nat) (r : Option FaultRec) : State := s.stopNow n ⟨3, r⟩

/-- The instruction at the program counter is malformed (R75). DEDUCED: log entry 32. -/
def State.malformed (s : State) (n : Nat) : State :=
  s.stopTile n ⟨3, some (mkRec Cls.tileIllegal 2 Kind.tile n)⟩

/-! ## Instructions -/

/-- The opcodes that the chapter lists (R54 to R74). -/
def listedOp (op : Nat) : Bool :=
  op ≤ 0x0E || (0x20 ≤ op && op ≤ 0x31) || (0x40 ≤ op && op ≤ 0x43) || (0x60 ≤ op && op ≤ 0x77)
    || (0x80 ≤ op && op ≤ 0x88) || (0xA0 ≤ op && op ≤ 0xA8) || (0xC0 ≤ op && op ≤ 0xC5)

/-- The instruction word at a tile's program counter. -/
def State.fetch (s : State) (n : Nat) : W64 := BitVec.ofNat 64 (leNat (s.bytesAt (progBase n + (s.tile n).pc.toNat) 8))

/-- The instruction has executed: the count of retired instructions, and the next program counter (R48, R77). -/
def State.retireTo (s : State) (n : Nat) (pc : BitVec 17) : State :=
  (s.bumpF (.vecRetired n) Fld.vecRetiredCount 1).modTile n (fun t => { t with pc := pc, wait := 0, pwait := none })

/-- Retire to the next instruction. -/
def State.retire (s : State) (n : Nat) : State := s.retireTo n ((s.tile n).pc + 8)

/-- The instruction waits for work (SEQ.STATUS.wait_reason); the program counter stays (R48). -/
def State.waitFor (s : State) (n : Nat) (reason : BitVec 4) : State := s.modTile n (fun t => { t with wait := reason })

/-- Execute the instruction at the program counter of tile `n` if it is the one the command names: the sequencer runs, no stop
waits, and the fetch is inside the program memory. A word whose opcode no table lists is malformed (R75); an uncorrectable
program word ends the program (R34). -/
def tisStep (n op : Nat) (k : W64 → State → State) (s : State) : State :=
  let t := s.tile n
  if t.seq ≠ .run ∨ t.stopping.isSome ∨ t.pc = 0x10000#17 then s
  else
    match s.ueIn (progBase n + t.pc.toNat) 8 with
    | u :: _ => (s.sramUe n (s.sramUeRec n (Who.tile n) u)).faultTile n none
    | [] =>
      let s := s.sramCorrected n (s.ceIn (progBase n + t.pc.toNat) 8)
      let w := s.fetch n
      let op' := bitsOf w.toNat 0 8
      if !listedOp op' then s.malformed n else if op' = op then k w s else s

/-! ## Fields of the layouts (R50) -/

/-- Layout S: destination, sources, the immediate sign-extended. -/
def fD (w : W64) : Nat := bitsOf w.toNat 8 5
/-- First source of layout S. -/
def fA (w : W64) : Nat := bitsOf w.toNat 13 5
/-- Second source of layout S. -/
def fB (w : W64) : Nat := bitsOf w.toNat 18 5
/-- Bits [31:23] of layout S. -/
def fX (w : W64) : Nat := bitsOf w.toNat 23 9
/-- The immediate of layout S, sign-extended to 64 bits. -/
def fImm (w : W64) : W64 := (w.extractLsb' 32 32).signExtend 64
/-- Layout V: destination. -/
def vD (w : W64) : Nat := bitsOf w.toNat 8 6
/-- First source of layout V. -/
def vA (w : W64) : Nat := bitsOf w.toNat 14 6
/-- Second source of layout V. -/
def vB (w : W64) : Nat := bitsOf w.toNat 20 6
/-- Third source of layout V. -/
def vC (w : W64) : Nat := bitsOf w.toNat 26 6
/-- Guard predicate of layout V. -/
def vG (w : W64) : Nat := bitsOf w.toNat 32 4
/-- Zeroing of inactive lanes of layout V. -/
def vZ (w : W64) : Bool := w.getLsbD 36
/-- Element type of layout V. -/
def vT (w : W64) : Nat := bitsOf w.toNat 37 3
/-- Rounding mode of layout V. -/
def vRm (w : W64) : Nat := bitsOf w.toNat 40 3
/-- Bits [47:43] of layout V. -/
def vX (w : W64) : Nat := bitsOf w.toNat 43 5
/-- The immediate of layout V. -/
def vImm (w : W64) : Nat := bitsOf w.toNat 48 16

/-! ## Program registers (R45) -/

/-- Scalar register; s0 reads as zero. -/
def Tile.sreg (t : Tile) (k : Nat) : W64 := if k = 0 then 0 else kget 0 t.s k
/-- Write a scalar register; a write of s0 is discarded. -/
def Tile.setS (t : Tile) (k : Nat) (v : W64) : Tile := if k = 0 then t else { t with s := nset 0 t.s k v }
/-- Predicate register; p0 reads as all ones. -/
def Tile.preg (t : Tile) (k : Nat) : BitVec 256 := if k = 0 then BitVec.allOnes 256 else kget 0 t.p k
/-- Write a predicate register; a write of p0 is discarded. The 32-bit words that `written` names take fresh check bits (R34, R384). -/
def Tile.setP (t : Tile) (k : Nat) (v : BitVec 256) (written : Nat → Bool := fun _ => true) : Tile :=
  if k = 0 then t
  else { t with
    p := nset 0 t.p k v
    vecUe := t.vecUe.filter (fun x => x / 256 != 64 + k || !written (x % 256))
    vecCe := t.vecCe.filter (fun x => x / 256 != 64 + k || !written (x % 256)) }
/-- Vector register. -/
def Tile.vreg (t : Tile) (k : Nat) : BitVec 8192 := kget 0 t.v k
/-- Write a vector register: the lanes that `written` names take fresh check bits (R34). -/
def Tile.setV (t : Tile) (k : Nat) (v : BitVec 8192) (written : Nat → Bool := fun _ => true) : Tile :=
  { t with
    v := nset 0 t.v k v
    vecUe := t.vecUe.filter (fun x => x / 256 != k || !written (x % 256))
    vecCe := t.vecCe.filter (fun x => x / 256 != k || !written (x % 256)) }

end Sys2Proof.Machine
end

