-- ==== Sys2Proof/Machine/VecOps.lean ====
section
/-! DEFINITION. Lanes, guards and element operations of the vector engine (R46, R52, R63, R64), its bank accesses (R32, R71,
R72), and health counting (R40, R114). -/

namespace Sys2Proof.Machine

/-! ## Lanes (R46) -/

/-- Element `i` of `w` bits of a register. -/
def elemAt (w i v : Nat) : Nat := bitsOf v (w * i) w

/-- The number whose elements of `w` bits, from the lowest, are a list. -/
def packElems (w : Nat) : List Nat → Nat
  | [] => 0
  | x :: l => x % 2 ^ w + 2 ^ w * packElems w l

/-- The 256 lanes of a vector register. -/
def laneList (v : BitVec 8192) : List Nat := (List.range 256).map (fun i => elemAt 32 i v.toNat)

/-- A vector register from its lanes. -/
def ofLanes (l : List Nat) : BitVec 8192 := BitVec.ofNat 8192 (packElems 32 l)

/-- The guard rule (R52): lane by lane the new value, the old one, or zero. -/
def guarded (g : BitVec 256) (z : Bool) (old new : List Nat) : List Nat :=
  (old.zip new).zipIdx.map (fun x => if g.getLsbD x.2 then x.1.2 else if z then 0 else x.1.1)

/-- The TILE_SRAM record of an uncorrectable word of a vector register or an accumulator buffer (R34, R397).
DEDUCED: log entry 24. -/
def State.vecUeRec (s : State) (n : Nat) (w : Who) (store row word : Nat) : FaultRec :=
  sramRec n w store 0 row word 0 ((s.tile n).pc.toNat % 65536)

/-- A read of words of vector or predicate registers finds their errors (R34, R384): an uncorrectable word gives a record and no data;
corrected words are counted and written back. DEDUCED: log entry 24. -/
def State.wordErrors (s : State) (w : Who) (n : Nat) (hit : Nat → Bool) : State × Bool :=
  let t := s.tile n
  match t.vecUe.find? hit with
  | some x => (s.sramUe n (s.vecUeRec n w 2 (x / 32) (x % 32)), false)
  | none =>
    let ce := t.vecCe.filter hit
    if ce.isEmpty then (s, true)
    else
      let s := (s.setF (.tileFault n) Fld.tileFaultSramCe 1).bumpF (.tileSramCeCount n) Fld.tileSramCeCountCount ce.length
      (s.modTile n (fun t => { t with vecCe := t.vecCe.filter (fun x => !hit x) }), true)

/-- The tile reads words of its registers and goes on with `k`; an uncorrectable one ends the program with its tile FAULTED (R34).
DEDUCED: log entry 24. -/
def State.readWords32 (s : State) (n : Nat) (hit : Nat → Bool) (k : State → State) : State :=
  match s.wordErrors (Who.tile n) n hit with
  | (s, true) => k s
  | (s, false) => s.faultTile n none

/-- The tile reads whole registers: v0 to v63, and p[k] as register 64 + k. DEDUCED: log entry 24. -/
def State.readVecs (s : State) (n : Nat) (rs : List Nat) (k : State → State) : State :=
  s.readWords32 n (fun x => rs.contains (x / 256)) k

/-- The register that p[k] is to `State.readVecs`; p0 is no storage (R45). DEDUCED: log entry 24. -/
def predIx (k : Nat) : List Nat := if k % 16 = 0 then [] else [64 + k % 16]

/-- The guard of layout V as a register that the instruction reads. -/
def guardIx (w : W64) : List Nat := predIx (vG w)

/-- Write the lanes of v[d] under the guard, which is read (R52, R384), and retire. -/
def State.writeLanes (s : State) (n : Nat) (w : W64) (new : List Nat) : State :=
  s.readVecs n (guardIx w) (fun s =>
    (s.modTile n (fun t =>
      t.setV (vD w) (ofLanes (guarded (t.preg (vG w)) (vZ w) (laneList (t.vreg (vD w))) new))
        (fun i => (t.preg (vG w)).getLsbD i || vZ w))).retire n)

/-! ## Element types (R50, R63) -/

/-- The floating-point format of an element type. -/
def typeFmt : Nat → Option FloatFmt
  | 0 => some fp32
  | 1 => some bf16
  | 2 => some fp16
  | _ => none

/-- The width of an element type. -/
def typeBits (t : Nat) : Nat := if t = 1 ∨ t = 2 then 16 else 32

/-- A type and rounding mode that an instruction of R63 accepts (R52, R63): the type is listed, and for a floating-point type
the mode is 0 to 3. -/
def typeOk (types : List Nat) (w : W64) : Bool := types.contains (vT w) && (vT w > 2 || vRm w ≤ 3)

/-- Apply an element operation to the elements of a lane. -/
def onLane (t : Nat) (f : Nat → Nat → Nat → Nat) (a b c : Nat) : Nat :=
  if typeBits t = 16 then
    packElems 16 ((List.range 2).map (fun i => f (elemAt 16 i a) (elemAt 16 i b) (elemAt 16 i c)))
  else f a b c % 2 ^ 32

/-- An element operation of up to three vector sources (R63): `ff` on floating-point values in the rounding mode, `fi` on 32-bit
integers. -/
def lane3 (n : Nat) (types : List Nat) (ff : FloatFmt → Nat → Nat → Nat → Nat → Nat) (fi : Nat → Nat → Nat → Nat → Nat)
    (srcs : W64 → List Nat) (w : W64) (s : State) : State :=
  if !typeOk types w then s.malformed n
  else s.readVecs n (srcs w) (fun s =>
    let t := s.tile n
    let f := match typeFmt (vT w) with
      | some fmt => ff fmt (vRm w)
      | none => fi (vT w)
    let a := laneList (t.vreg (vA w))
    let b := laneList (t.vreg (vB w))
    let c := laneList (t.vreg (vC w))
    s.writeLanes n w ((a.zip (b.zip c)).map (fun x => onLane (vT w) f x.1 x.2.1 x.2.2)))

/-- Sources of one, two and three vector operands. -/
def src1 (w : W64) : List Nat := [vA w]
/-- Two vector sources. -/
def src2 (w : W64) : List Nat := [vA w, vB w]
/-- Three vector sources. -/
def src3 (w : W64) : List Nat := [vA w, vB w, vC w]

/-- An integer operation on 32-bit lanes. -/
def intOp (f : Int → Int → Int) (_t a b _c : Nat) : Nat := (f a b % (2 ^ 32 : Int)).toNat

/-! ## Bank accesses of the vector engine (R32, R71, R72) -/

/-- The aperture offset of a bank row; a bank beyond the offset field stays an unpopulated one (R72). -/
def rowOff (bank row : Nat) : Nat := min bank 63 * 2 ^ 17 + row * 128

/-- Read pieces of one bank access: one refusal for an unpopulated bank, nothing on an uncorrectable word. -/
def State.bankRead (s : State) (n : Nat) (ps : List (Nat × Nat)) : State × Option (List Byte) :=
  match ps with
  | [] => (s, some [])
  | p :: _ =>
    if 48 ≤ bankOf p.1 then
      ((s.sramRead (Who.tile n) n p.1 1).1, some (List.replicate (ps.map Prod.snd).sum 0))
    else
      ps.foldl (fun acc p =>
        match acc.2 with
        | none => acc
        | some l =>
          match acc.1.sramRead (Who.tile n) n p.1 p.2 with
          | (s, some m) => (s, some (l ++ m))
          | (s, none) => (s, none)) (s, some [])

/-- Write pieces of one bank access: one refusal for an unpopulated bank; false on an uncorrectable word that a piece cuts. -/
def State.bankWrite (s : State) (n : Nat) (ps : List (Nat × List Byte)) : State × Bool :=
  match ps with
  | [] => (s, true)
  | p :: _ =>
    if 48 ≤ bankOf p.1 then s.sramWrite (Who.tile n) n p.1 p.2
    else ps.foldl (fun acc p => if acc.2 then acc.1.sramWrite (Who.tile n) n p.1 p.2 else acc) (s, true)

/-- The byte pieces of a column access (R32): element column `c` of width `w` in 1,024 / w rows from row `r`. -/
def colPieces (bank r w c : Nat) : List (Nat × Nat) :=
  (List.range (1024 / w)).map (fun i => (rowOff bank (r + i) + c * w / 8, max 1 (w / 8)))

/-- The 128 B of a column from the bytes of its pieces. -/
def colPack (w c : Nat) (l : List Byte) : List Byte :=
  if w = 4 then leBytes 128 (packElems 4 (l.map (fun b => if c % 2 = 0 then b.toNat % 16 else b.toNat / 16))) else l

/-! ## Health counters (R40, R114) -/

/-- The health set of a tensor ID: the lowest-numbered valid set whose tag matches, else the untagged set. -/
def State.healthSet (s : State) (n tensor : Nat) : Nat :=
  ((List.range 16).find? (fun k =>
    s.rf (.tileHealthTag n k) Fld.tileHealthTagValid == 1 && s.rf (.tileHealthTag n k) Fld.tileHealthTagTensorId == tensor)).getD 16

/-- Count converted elements under a tensor ID, while the counters are enabled. -/
def State.health (s : State) (n tensor : Nat) (ev : List HealthEvent) : State :=
  if s.rf (.tileCtrl n) Fld.tileCtrlHealthEn = 0 ∨ ev.isEmpty then s
  else
    let k := s.healthSet n tensor
    let add (s : State) (c m : Nat) : State := if m = 0 then s else s.bumpF (.tileHealthCnt n k c) Fld.tileHealthCntCount m
    let s := add s 0 ev.length
    let s := add s 1 (ev.countP (· == .zero))
    let s := add s 2 (ev.countP (· == .saturation))
    add s 3 (ev.countP (· == .nonfinite))

end Sys2Proof.Machine
end

