-- ==== Sys2Proof/Machine/TisMove.lean ====
section
/-! DEFINITION. The lane movement instructions of TIS (R52, R65, R66) and its vector loads and stores (R71, R72). -/

namespace Sys2Proof.Machine

/-! ## Lane movement (R65) -/

/-- A permutation of the lanes of v[a]: lane `i` takes lane `f i`, or zero. -/
def moveOp (n : Nat) (srcs : W64 → List Nat) (f : Tile → W64 → Nat → Option Nat) (w : W64) (s : State) : State :=
  s.readVecs n (srcs w) (fun s =>
    let t := s.tile n
    let a := (t.vreg (vA w)).toNat
    s.writeLanes n w ((List.range 256).map (fun i => match f t w i with | some j => elemAt 32 j a | none => 0)))

/-- VPERM (R65). -/
def execVperm (n : TileId) (s : State) : Out :=
  clocked 6 s (tisStep n 0x80 (moveOp n (fun w => [vA w, vB w])
    (fun t w i => some (elemAt 32 i (t.vreg (vB w)).toNat % 256))))
/-- VXSWZ (R65). -/
def execVxswz (n : TileId) (s : State) : Out :=
  clocked 6 s (tisStep n 0x81 (moveOp n (fun w => [vA w]) (fun _ w i => some (i ^^^ (vImm w % 256)))))
/-- VROT (R65). -/
def execVrot (n : TileId) (s : State) : Out :=
  clocked 6 s (tisStep n 0x82 (moveOp n (fun w => [vA w]) (fun _ w i => some ((i + vImm w % 256) % 256))))
/-- VSLIDE (R65). -/
def execVslide (n : TileId) (s : State) : Out :=
  clocked 6 s (tisStep n 0x83 (moveOp n (fun w => [vA w]) (fun _ w i =>
    let k := (i : Int) + sgn 16 (vImm w)
    if 0 ≤ k ∧ k ≤ 255 then some k.toNat else none)))

/-- VEXT extracts a lane into a scalar, zero-extended (R65). -/
def vextOp (n : Nat) (w : W64) (s : State) : State :=
  s.readVecs n [vA w] (fun s =>
    (s.modTile n (fun t => t.setS (vD w % 32)
      (BitVec.ofNat 64 (elemAt 32 ((t.sreg (vB w % 32)).toNat % 256) (t.vreg (vA w)).toNat)))).retire n)

/-- VEXT (R65). -/
def execVext (n : TileId) (s : State) : Out := clocked 6 s (tisStep n 0x84 (vextOp n))

/-- VINS writes one lane under its guard bit (R52, R65). -/
def vinsOp (n : Nat) (w : W64) (s : State) : State :=
  s.readVecs n (guardIx w) (fun s =>
    (s.modTile n (fun t =>
      let i := (t.sreg (vB w % 32)).toNat % 256
      let on := (t.preg (vG w)).getLsbD i
      let x := if on then (t.sreg (vA w % 32)).toNat % 2 ^ 32 else 0
      if on || vZ w then t.setV (vD w) (ofLanes ((laneList (t.vreg (vD w))).set i x)) (fun j => j == i) else t)).retire n)

/-- VINS (R65). -/
def execVins (n : TileId) (s : State) : Out := clocked 6 s (tisStep n 0x85 (vinsOp n))

/-- VCOMP compresses the selected lanes and writes their count (R65). -/
def vcompOp (n : Nat) (w : W64) (s : State) : State :=
  s.readVecs n (vA w :: guardIx w) (fun s =>
    (s.modTile n (fun t =>
      let g := t.preg (vG w)
      let sel := ((laneList (t.vreg (vA w))).zipIdx.filter (fun x => g.getLsbD x.2)).map Prod.fst
      let rest := if vZ w then List.replicate 256 0 else laneList (t.vreg (vD w))
      (t.setV (vD w) (ofLanes (sel ++ rest.drop sel.length)) (fun i => vZ w || i < sel.length)).setS (vC w % 32)
        (BitVec.ofNat 64 sel.length))).retire n)

/-- VCOMP (R65). -/
def execVcomp (n : TileId) (s : State) : Out := clocked 6 s (tisStep n 0x86 (vcompOp n))

/-- VEXPN expands lanes to the selected positions (R65). -/
def vexpnOp (n : Nat) (w : W64) (s : State) : State :=
  s.readVecs n (vA w :: guardIx w) (fun s =>
    let t := s.tile n
    let g := t.preg (vG w)
    let a := laneList (t.vreg (vA w))
    s.writeLanes n w ((List.range 256).map (fun i => a.getD ((List.range i).countP (fun j => g.getLsbD j)) 0)))

/-- VEXPN (R65). -/
def execVexpn (n : TileId) (s : State) : Out := clocked 6 s (tisStep n 0x87 (vexpnOp n))

/-- VPHX writes Philox words into the lanes (R66). -/
def vphxOp (n : Nat) (w : W64) (s : State) : State :=
  let t := s.tile n
  let k := (t.sreg (vA w % 32)).toNat
  let b := (t.sreg (vB w % 32)).toNat
  let c := (t.sreg (vC w % 32)).toNat
  s.writeLanes n w ((List.range 256).map (fun i =>
    let x := (b + i / 4) % 2 ^ 64
    philox (bitsOf x 0 32, bitsOf x 32 32, bitsOf c 0 32, bitsOf c 32 32) (bitsOf k 0 32, bitsOf k 32 32) (i % 4)))

/-- VPHX (R66). -/
def execVphx (n : TileId) (s : State) : Out := clocked 6 s (tisStep n 0x88 (vphxOp n))

/-! ## Loads (R71) -/

/-- The byte pieces of each chunk of a load or store, chunk 0 first. -/
abbrev Chunks := List (List (Nat × Nat))

/-- The chunks of VLD and VST: chunk k is row A[16:7] of bank A[22:17] + k. -/
def bankChunks (t : Tile) (w : W64) : Chunks :=
  let a := ((t.sreg (vA w % 32)) + (BitVec.ofInt 64 (sgn 16 (vImm w) * 128))).toNat
  (List.range 8).map (fun k => [(rowOff (bankOf a + k) (bitsOf a 7 10), 128)])

/-- The chunks of VLDL and VSTL: 1 KiB of consecutive aperture. -/
def linearChunks (t : Tile) (w : W64) : Chunks :=
  let a := ((t.sreg (vA w % 32)) + (BitVec.ofInt 64 (sgn 16 (vImm w) * 1024))).toNat % 2 ^ 23 / 1024 * 1024
  (List.range 8).map (fun k => [(a + 128 * k, 128)])

/-- The element width of VLDC and VSTC. -/
def colWidth (w : W64) : Nat := 4 * 2 ^ (vImm w % 4)

/-- The element column of VLDC and VSTC. -/
def colIndex (w : W64) : Nat := bitsOf (vImm w) 2 8

/-- The chunks of VLDC and VSTC: column c of bank A[22:17] + k, from row A[16:7] rounded down (R32). -/
def colChunks (t : Tile) (w : W64) : Chunks :=
  let a := (t.sreg (vA w % 32)).toNat
  let rows := 1024 / colWidth w
  (List.range 8).map (fun k => colPieces (bankOf a + k) (bitsOf a 7 10 / rows * rows) (colWidth w) (colIndex w))

/-- Load eight chunks into v[d] under the guard (R52, R71, R72). -/
def loadChunks (n : Nat) (cs : Chunks) (post : List Byte → List Byte) (w : W64) (s : State) : State :=
  let r := cs.foldl (fun acc c =>
    match acc.2 with
    | none => acc
    | some l =>
      match acc.1.bankRead n c with
      | (s, some m) => (s, some (l ++ post m))
      | (s, none) => (s, none)) (s, some [])
  match r with
  | (s, some l) => s.writeLanes n w ((List.range 256).map (fun i => leNat ((l.drop (4 * i)).take 4)))
  | (s, none) => s.faultTile n none

/-- VLD (R71). -/
def execVld (n : TileId) (s : State) : Out :=
  clocked 6 s (tisStep n 0xA1 (fun w s => loadChunks n (bankChunks (s.tile n) w) id w s))
/-- VLDL (R71). -/
def execVldl (n : TileId) (s : State) : Out :=
  clocked 6 s (tisStep n 0xA3 (fun w s => loadChunks n (linearChunks (s.tile n) w) id w s))

/-- VLDC; a column that is not below 1,024 / w is malformed (R72). -/
def vldcOp (n : Nat) (w : W64) (s : State) : State :=
  if 1024 / colWidth w ≤ colIndex w then s.malformed n
  else loadChunks n (colChunks (s.tile n) w) (colPack (colWidth w) (colIndex w)) w s

/-- VLDC (R71). -/
def execVldc (n : TileId) (s : State) : Out := clocked 6 s (tisStep n 0xA5 (vldcOp n))

/-! ## Stores (R71) -/

/-- Write chunk after chunk, ending at an uncorrectable word. -/
def storeChunks (n : Nat) (ps : List (List (Nat × List Byte))) (s : State) : State :=
  match ps.foldl (fun acc c => if acc.2 then acc.1.bankWrite n c else acc) (s, true) with
  | (s, true) => s.retire n
  | (s, false) => s.faultTile n none

/-- The guarded lanes of chunk `k` of v[c] as pieces of a bank row at `o` (R72). -/
def rowStores (g : BitVec 256) (data : List Byte) (k o : Nat) : List (Nat × List Byte) :=
  ((List.range 32).filter (fun i => g.getLsbD (32 * k + i))).map (fun i =>
    (o + 4 * i, (data.drop (128 * k + 4 * i)).take 4))

/-- A store of whole rows. -/
def rowStoreOp (n : Nat) (chunks : Tile → W64 → Chunks) (w : W64) (s : State) : State :=
  s.readVecs n (vC w :: guardIx w) (fun s =>
    let t := s.tile n
    let data := leBytes 1024 (t.vreg (vC w)).toNat
    storeChunks n ((chunks t w).zipIdx.map (fun x => rowStores (t.preg (vG w)) data x.2 ((x.1.headD (0, 0)).1))) s)

/-- VST (R71). -/
def execVst (n : TileId) (s : State) : Out := clocked 6 s (tisStep n 0xA2 (rowStoreOp n bankChunks))
/-- VSTL (R71). -/
def execVstl (n : TileId) (s : State) : Out := clocked 6 s (tisStep n 0xA4 (rowStoreOp n linearChunks))

/-- The pieces that a column store of chunk `k` writes: the elements of guarded lanes; a 4-bit element is merged into its byte. -/
def colStores (s : State) (n : Nat) (g : BitVec 256) (data : Nat) (k ew col : Nat) (ps : List (Nat × Nat)) :
    List (Nat × List Byte) :=
  (ps.zipIdx.filter (fun x => g.getLsbD (32 * k + x.2 * ew / 32))).map (fun x =>
    let v := elemAt ew (x.2 + k * (1024 / ew)) data
    if ew = 4 then
      let old := (s.byteAt (apBase n + x.1.1)).toNat
      (x.1.1, [BitVec.ofNat 8 (if col % 2 = 0 then old / 16 * 16 + v else old % 16 + 16 * v)])
    else (x.1.1, leBytes x.1.2 v))

/-- VSTC (R71, R72). -/
def vstcOp (n : Nat) (w : W64) (s : State) : State :=
  if 1024 / colWidth w ≤ colIndex w then s.malformed n
  else s.readVecs n (vC w :: guardIx w) (fun s =>
    let t := s.tile n
    storeChunks n ((colChunks t w).zipIdx.map (fun x =>
      colStores s n (t.preg (vG w)) (t.vreg (vC w)).toNat x.2 (colWidth w) (colIndex w) x.1)) s)

/-- VSTC (R71). -/
def execVstc (n : TileId) (s : State) : Out := clocked 6 s (tisStep n 0xA6 (vstcOp n))

/-! ## Accumulator sets (R31, R71) -/

/-- The key of a row of an accumulator set. -/
def accKey (m k row : Nat) : Nat := 128 * m + 64 * k + row

/-- The row of an accumulator set. -/
def Tile.accRow (t : Tile) (m k row : Nat) : BitVec 2048 := kget 0 t.acc (accKey m k row)

/-- Set `k` of array `m` is marked failed (R391). -/
def Tile.setFailed (t : Tile) (m k : Nat) : Bool := t.failed.getLsbD (2 * m + k)

/-- Reading the entries of some columns in rows of an accumulator set finds their errors (R34): an uncorrectable word gives a record and
no data, and corrected words are counted and written back. DEDUCED: log entry 24. -/
def State.accErrors (s : State) (n m k : Nat) (rows : List Nat) (cols : W64) : State × Bool :=
  let t := s.tile n
  let hit (x : Nat) : Bool := cols.getLsbD (x % 64) && rows.any (fun r => x / 64 == accKey m k r)
  match t.accUe.find? hit with
  | some x => (s.sramUe n (s.vecUeRec n (Who.tile n) 1 (x / 32) (x % 32)), false)
  | none =>
    let ce := t.accCe.filter hit
    if ce.isEmpty then (s, true)
    else
      let s := (s.setF (.tileFault n) Fld.tileFaultSramCe 1).bumpF (.tileSramCeCount n) Fld.tileSramCeCountCount ce.length
      (s.modTile n (fun t => { t with accCe := t.accCe.filter (fun x => !hit x) }), true)

/-- The vector engine reads rows of an accumulator set (R34): an uncorrectable word ends the program with its tile FAULTED. -/
def State.readAcc (s : State) (n m k : Nat) (rows : List Nat) (f : State → State) : State :=
  match s.accErrors n m k rows (BitVec.allOnes 64) with
  | (s, false) => s.faultTile n none
  | (s, true) => f s

/-- A vector-engine access to a set waits while a pass uses it (R31), and a write while a drain has still to read it (R30).
DEDUCED: log entry 22. -/
def accHeld (t : Tile) (m k : Nat) (write : Bool) : BitVec 4 :=
  if t.setInPass m k then 1 else if write && t.setInDrain m k then 2 else 0

/-- VRACC reads four rows of long sums (R71); a failed set gives nothing (R391). DEDUCED: log entry 22. -/
def vraccOp (n : Nat) (w : W64) (s : State) : State :=
  let m := vImm w % 4
  let k := bitsOf (vImm w) 2 1
  let q := bitsOf (vImm w) 3 4
  let held := accHeld (s.tile n) m k false
  if held ≠ 0 then s.waitFor n held
  else if (s.tile n).setFailed m k then s.retire n
  else s.readAcc n m k ((List.range 4).map (fun r => 4 * q + r)) (fun s =>
    let t := s.tile n
    s.writeLanes n w ((List.range 256).map (fun i => elemAt 32 (i % 64) (t.accRow m k (4 * q + i / 64)).toNat)))

/-- VRACC (R71). -/
def execVracc (n : TileId) (s : State) : Out := clocked 6 s (tisStep n 0xA7 (vraccOp n))

/-- VWACC writes the guarded lanes of v[c] into four rows of long sums (R71, R72). DEDUCED: log entry 22. -/
def vwaccOp (n : Nat) (w : W64) (s : State) : State :=
  let m := vImm w % 4
  let k := bitsOf (vImm w) 2 1
  let q := bitsOf (vImm w) 3 4
  let held := accHeld (s.tile n) m k true
  if held ≠ 0 then s.waitFor n held
  else if (s.tile n).setFailed m k then s.retire n
  else s.readVecs n (vC w :: guardIx w) (fun s =>
    (s.modTile n (fun t =>
      let g := t.preg (vG w)
      let data := (t.vreg (vC w)).toNat
      (List.range 4).foldl (fun t r =>
        let key := accKey m k (4 * q + r)
        let old := (t.accRow m k (4 * q + r)).toNat
        let new := packElems 32 ((List.range 64).map (fun j =>
          if g.getLsbD (64 * r + j) then elemAt 32 (64 * r + j) data else elemAt 32 j old))
        let written (x : Nat) : Bool := x / 64 == key && g.getLsbD (64 * r + x % 64)
        { t with
          acc := nset 0 t.acc key (BitVec.ofNat 2048 new)
          accUe := t.accUe.filter (fun x => !written x)
          accCe := t.accCe.filter (fun x => !written x) }) t)).retire n)

/-- VWACC (R71). -/
def execVwacc (n : TileId) (s : State) : Out := clocked 6 s (tisStep n 0xA8 (vwaccOp n))

end Sys2Proof.Machine
end

