-- ==== Sys2Proof/Machine/Walk.lean ====
section
/-! DEFINITION. Set-ups, walks and feeders of the address generators (R78 to R87). -/

namespace Sys2Proof.Machine

/-! ## The set-up block (R83) -/

/-- Bits of a set-up block from a byte on. -/
def setupBits (x : BitVec 512) (byte lo width : Nat) : Nat := bitsOf x.toNat (8 * byte + lo) width
/-- base. -/
def suBase (x : BitVec 512) : Nat := setupBits x 0 0 64
/-- count[l]. -/
def suCount (x : BitVec 512) (l : Nat) : Nat := setupBits x (8 + 2 * l) 0 16
/-- stride[l]. -/
def suStride (x : BitVec 512) (l : Nat) : Int := sgn 32 (setupBits x (20 + 4 * l) 0 32)
/-- extent. -/
def suExtent (x : BitVec 512) : Nat := setupBits x 44 0 7
/-- Group count g. -/
def suGroups (x : BitVec 512) : Nat := 2 ^ setupBits x 45 0 2
/-- Element step code. -/
def suStepCode (x : BitVec 512) : Nat := setupBits x 45 2 2
/-- Column orientation. -/
def suColumn (x : BitVec 512) : Bool := setupBits x 45 4 1 == 1
/-- Source through the router. -/
def suSrc (x : BitVec 512) : Bool := setupBits x 45 5 1 == 1
/-- FP6 elements are packed. -/
def suPacked (x : BitVec 512) : Bool := setupBits x 45 6 1 == 1
/-- Destination through the router. -/
def suDst (x : BitVec 512) : Bool := setupBits x 45 7 1 == 1
/-- xfer_fmt. -/
def suXferFmt (x : BitVec 512) : Nat := setupBits x 46 0 4
/-- group_stride. -/
def suGroupStride (x : BitVec 512) : Int := sgn 32 (setupBits x 48 0 32)
/-- pitch. -/
def suPitch (x : BitVec 512) : Int := sgn 32 (setupBits x 52 0 32)
/-- aux_base. -/
def suAux (x : BitVec 512) : Nat := setupBits x 56 0 64

/-- The walk length L (R78). -/
def walkLen (x : BitVec 512) : Nat := ((List.range 6).map (suCount x)).foldl (· * ·) 1

/-- Whether a code is FP6 or MXFP6. -/
def isFp6 (f : Nat) : Bool := f == 5 || f == 6 || f == 12 || f == 13

/-- The source width w of a format under a set-up (R78). -/
def srcWidth (x : BitVec 512) (f : Nat) : Nat := if suPacked x ∧ isFp6 f then 6 else elemBits f

/-- The extent mask (R82). -/
def extentMask (x : BitVec 512) : W64 := BitVec.ofNat 64 (2 ^ suExtent x - 1)

/-- The set-up conditions of R84 that do not concern the pair or a transfer. -/
def setupBad (x : BitVec 512) (f : Nat) : Bool :=
  suExtent x == 0 || 64 < suExtent x || suStepCode x == 3
    || (suColumn x && (suSrc x || suGroups x != 1 || suStepCode x != 0 || suPacked x))
    || (suPacked x && (!isFp6 f || suGroups x != 1 || suStepCode x != 0))

/-- The set-up conditions of R84 for a transfer. -/
def xferBad (x : BitVec 512) : Bool :=
  setupBad x (suXferFmt x) || suXferFmt x == 15 || (elemBits (suXferFmt x) == 4 && suExtent x % 2 == 1)

/-! ## Walks (R78 to R81) -/

/-- start[s]: the loop nest, level 0 innermost. -/
def walkStart (x : BitVec 512) (s : Nat) : Int :=
  ((List.range 6).foldl (fun acc l =>
    let c := suCount x l
    (acc.1 / max 1 c, acc.2 + (acc.1 % max 1 c : Nat) * suStride x l)) ((s, 0) : Nat × Int)).2

/-- Reduce an address to its space: aperture offset modulo 2^23, or modulo 2^64 (R81). -/
def inSpace (router : Bool) (a : Int) : Nat := (a % (if router then (2 ^ 64 : Int) else 2 ^ 23)).toNat

/-- The byte address and the bit in the byte of element `t` of slice `s` (R79 to R81); a slice in column orientation is the column
that holds its start (R80). DEDUCED: log entry 102. -/
def elemPlace (x : BitVec 512) (f s t : Nat) : Nat × Nat :=
  let w := srcWidth x f
  let st := walkStart x s
  if suColumn x then
    let b := inSpace false (suBase x + (st * w).fdiv 8)
    let row := bitsOf b 7 10 / 64 * 64
    let b := b - bitsOf b 7 10 * 128 + row * 128
    let b := b - b % max 1 (w / 8)
    ((b + 128 * t) % 2 ^ 23, ((st * w) % 8).toNat)
  else
    let st := if w = 6 then st - st % 4 else st
    let q := 64 / suGroups x
    let e := st + (t / q : Nat) * suGroupStride x + (t % q : Nat) * (2 ^ suStepCode x : Nat)
    (inSpace (suSrc x) (suBase x + (e * w).fdiv 8), ((e * w) % 8).toNat)

/-- The bytes that hold element `t` of slice `s`, each as the tag of its block and its place in the block, and the bit of the first
byte that the element begins at ("Feeders"). A block is an aligned 128 B of the source, or a column access, which is told apart
by its column and width. -/
def elemBytes (x : BitVec 512) (f s t : Nat) : List (Nat × Nat) × Nat :=
  let w := srcWidth x f
  let (a, b) := elemPlace x f s t
  if suColumn x then
    let rows := 1024 / w
    let tag := 2 ^ 70 + (((bankOf a * 1024 + bitsOf a 7 10 / rows * rows) * 1024 + (a % 128 * 8 + b) / w) * 64 + w)
    let r := bitsOf a 7 10 % rows * w
    ((List.range ((r % 8 + w + 7) / 8)).map (fun k => (tag, r / 8 + k)), r % 8)
  else
    ((List.range ((b + w + 7) / 8)).map (fun k => ((a + k) % 2 ^ 64 / 128, (a + k) % 128)), b)

/-- The distinct blocks of a slice, in element order. -/
def sliceBlocks (x : BitVec 512) (f s : Nat) : List Nat :=
  ((List.range (suExtent x)).flatMap (fun t => (elemBytes x f s t).1.map Prod.fst)).foldl
    (fun l b => if l.contains b then l else l ++ [b]) []

/-- Byte `k` of the block with a tag among the blocks taken. -/
def takenByte (l : List Stage) (tag k : Nat) : Byte :=
  match l.find? (fun e => e.tag == tag) with
  | some e => e.data.extractLsb' (8 * k) 8
  | none => 0

/-- The elements of slice `s` from the blocks taken for it, those at and beyond the extent absent (R46, R81). -/
def sliceElems (x : BitVec 512) (f s : Nat) (l : List Stage) : List Nat :=
  (List.range (suExtent x)).map (fun t =>
    let (bs, b) := elemBytes x f s t
    bitsOf (leNat (bs.map (fun p => takenByte l p.1 p.2))) b (srcWidth x f))

/-- The words of a block that a slice reads. -/
def sliceWords (x : BitVec 512) (f s tag : Nat) : BitVec 32 :=
  ((List.range (suExtent x)).flatMap (fun t => (elemBytes x f s t).1.filter (fun p => p.1 == tag))).foldl
    (fun (m : BitVec 32) p => m ||| BitVec.ofNat 32 (2 ^ (p.2 / 4))) 0

/-- Fetch a block through the router as two line reads, with at most 24 blocks outstanding (R87). -/
def State.routerBlock (s : State) (n a tag : Nat) : State × Got :=
  let o := Owner.agen n a
  let at_ := 128 * tag
  let far : Bool := match s.target at_ with | .there _ _ => true | _ => false
  let full := far && 46 < s.fab.openReqs.countP (fun r => r.owner == o && !r.write)
  if full && !((s.arrived o at_).isSome && (s.arrived o (at_ + 64)).isSome) then (s, .wait)
  else
    match s.readAt (Who.tile n) o at_ 64 with
    | (s, .fail) => (s, .fail)
    | (s, g) =>
      match s.readAt (Who.tile n) o (at_ + 64) 64, g with
      | (s, .fail), _ => (s, .fail)
      | (s, .bytes m), .bytes l => (s.useLines o at_ 128, .bytes (l ++ m))
      | (s, _), _ => (s, .wait)

/-- Fetch a block for AGEN `a` (R86, R87): nothing is delivered from an unpopulated bank but zeros with a record (R72). -/
def State.fetchBlock (s : State) (n a : Nat) (x : BitVec 512) (tag : Nat) : State × Got :=
  let got : State × Option (List Byte) → State × Got
    | (s, some l) => (s, .bytes l)
    | (s, none) => (s, .fail)
  if 2 ^ 70 ≤ tag then
    let w := tag % 64
    let k := (tag - 2 ^ 70) / 64
    let bank := k / 1024 / 1024
    let (s, l) := s.bankRead n (colPieces bank (k / 1024 % 1024) w (k % 1024))
    got (s, l.map (colPack w (k % 1024)))
  else if suSrc x then s.routerBlock n a tag
  else got (s.sramRead (Who.tile n) n (128 * tag % 2 ^ 23) 128)

/-- The next slice of a walk takes a block: a block already staged is a hit, a missing one is fetched and replaces the oldest of 32
entries. -/
def State.takeBlock (s : State) (n a : Nat) (x : BitVec 512) (tag : Nat) : State × Got :=
  let y := (s.tile n).agen a
  if y.taken.any (fun e => e.tag == tag) then (s, .bytes [])
  else match y.staged.find? (fun e => e.tag == tag) with
    | some e =>
      ((s.bumpF (.agenHits n a) Fld.agenHitsCount 1).modTile n (fun t => t.setAgen a { y with taken := y.taken ++ [e] }), .bytes [])
    | none =>
      match s.fetchBlock n a x tag with
      | (s, .bytes l) =>
        ((s.bumpF (.agenBlocks n a) Fld.agenBlocksCount 1).modTile n (fun t =>
          let y := t.agen a
          let e : Stage := ⟨tag, BitVec.ofNat 1024 (leNat (l.take 128)), 0, 0⟩
          let m := y.staged ++ [e]
          t.setAgen a { y with staged := m.drop (m.length - 32), taken := y.taken ++ [e] }), .bytes [])
      | r => r

/-- The TILE_SRAM record of an uncorrectable word of a staged block (R34, R397). DEDUCED: log entry 24. -/
def State.stageUeRec (s : State) (n a place word : Nat) : FaultRec :=
  sramRec n (Who.tile n) 3 a place word 0 ((s.tile n).pc.toNat % 65536)

/-- The lowest word of a mask. -/
def lowWord (m : BitVec 32) : Nat := ((List.range 32).find? (fun i => m.getLsbD i)).getD 0

/-- The words that a slice reads in staging are checked (R34): the state after it, and whether they gave their data. -/
def State.checkStaged (s : State) (n a : Nat) (x : BitVec 512) (f : Nat) : State × Bool :=
  let y := (s.tile n).agen a
  let used (e : Stage) : BitVec 32 := sliceWords x f y.slice e.tag
  match y.taken.find? (fun e => e.ue &&& used e != 0) with
  | some e =>
    let place := y.staged.findIdx (fun z => z.tag == e.tag)
    (s.sramUe n (s.stageUeRec n a place (lowWord (e.ue &&& used e))), false)
  | none =>
    let k := (y.taken.map (fun e => (List.range 32).countP (fun i => (e.ce &&& used e).getLsbD i))).sum
    if k = 0 then (s, true)
    else
      (((s.setF (.tileFault n) Fld.tileFaultSramCe 1).bumpF (.tileSramCeCount n) Fld.tileSramCeCountCount k).modTile n (fun t =>
        let y := t.agen a
        t.setAgen a { y with staged := y.staged.map (fun e =>
          if y.taken.any (fun z => z.tag == e.tag) then { e with ce := e.ce &&& ~~~used e } else e) }), true)

/-- Deliver the next slice of a walk: its blocks are taken, those that are missing asked for together, and its elements are read from
them (R86). DESIGN CHOICE: log entry 23. -/
def State.deliverSlice (s : State) (n a : Nat) (x : BitVec 512) (f : Nat) : State × Got :=
  let r := (sliceBlocks x f ((s.tile n).agen a).slice).foldl (fun acc b =>
    match acc.2 with
    | .fail => acc
    | g =>
      let (s, h) := acc.1.takeBlock n a x b
      (s, match g, h with | .wait, .bytes _ => .wait | _, h => h)) (s, Got.bytes [])
  match r with
  | (s, .bytes _) =>
    match s.checkStaged n a x f with
    | (s, false) => (s, .fail)
    | (s, true) =>
      ((s.bumpF (.agenSlices n a) Fld.agenSlicesCount 1).modTile n (fun t =>
        let y := t.agen a
        t.setAgen a { y with slice := y.slice + 1, taken := [], elems := y.elems ++ [sliceElems x f y.slice y.taken] }), .bytes [])
  | r => r

/-- Deliver up to `k` slices of a walk. DEDUCED: log entry 30. -/
def State.deliverSlices (s : State) (n a : Nat) (x : BitVec 512) (f : Nat) : Nat → State × Got
  | 0 => (s, .bytes [])
  | k + 1 =>
    match s.deliverSlice n a x f with
    | (s, .bytes _) => s.deliverSlices n a x f k
    | r => r

/-- One byte of the destination of a drain as it stands: zero in an unpopulated bank. -/
def State.oldByte (s : State) (o : Owner) (a : Nat) : Byte :=
  match s.target a with
  | .there _ _ =>
    match s.fab.fetched.find? (fun f => f.1 == o && f.2.1 == lineOf a) with
    | some f => (lineBytes f.2.2).getD (a % 64) 0
    | none => 0
  | .here off =>
    match regionOf off with
    | .hbm | .lp => (s.current off 1).headD 0
    | .aperture t x => if 48 ≤ bankOf x then 0 else s.byteAt (apBase t + x)
    | _ => 0
  | .bad => 0

/-- Read bytes of a space, checking for errors and refusals: bank rows of this tile, or lines through the router. -/
def State.readSpace (s : State) (n : Nat) (o : Owner) (router : Bool) (a k : Nat) : State × Got :=
  if router then
    match s.readRange (Who.tile n) o a k with
    | (s, .bytes l) => (s.useLines o a k, .bytes l)
    | r => r
  else
    (List.range ((a % 128 + k + 127) / 128)).foldl (fun acc i =>
      match acc.2 with
      | .bytes l =>
        let lo := if i = 0 then a else a / 128 * 128 + 128 * i
        let hi := min (a + k) (a / 128 * 128 + 128 * (i + 1))
        (match acc.1.sramRead (Who.tile n) n (lo % 2 ^ 23) (hi - lo) with
        | (s, some m) => (s, .bytes (l ++ m))
        | (s, none) => (s, .fail))
      | _ => acc) (s, .bytes [])

/-- The rows of tile SRAM that bytes at an aperture offset fall in, each with its bytes. -/
def sramParts (o : Nat) (l : List Byte) : List (Nat × List Byte) :=
  (List.range ((o % 128 + l.length + 127) / 128)).map (fun i =>
    let lo := if i = 0 then o else o / 128 * 128 + 128 * i
    let hi := min (o + l.length) (o / 128 * 128 + 128 * (i + 1))
    (lo % 2 ^ 23, (l.drop (lo - o)).take (hi - lo)))

/-- Write the pieces of one drain row or slice to tile SRAM at aperture offsets: one record if any of them falls in an unpopulated bank
(R72); false on an uncorrectable word that the write cuts. -/
def State.writeSram (s : State) (n : Nat) (ps : List (Nat × List Byte)) : State × Bool :=
  let parts := ps.flatMap (fun p => sramParts p.1 p.2)
  let s := match parts.find? (fun p => 48 ≤ bankOf p.1) with
    | some p => (s.sramWrite (Who.tile n) n p.1 p.2).1
    | none => s
  (parts.filter (fun p => bankOf p.1 < 48)).foldl
    (fun acc p => if acc.2 then acc.1.sramWrite (Who.tile n) n p.1 p.2 else acc) (s, true)

end Sys2Proof.Machine
end

