-- ==== Sys2Proof/Machine/TisArray.lean ====
section
/-! DEFINITION. The array and AGEN instructions of TIS: LAUNCH, DRAIN, AGLD and XFER (R58 to R62, R84, R94). -/

namespace Sys2Proof.Machine

/-- The format class of a code in an array (R60): 0 for 8-bit floating point, 1 for 6 and 4 bits, 2 for integers, 3 for 16 bits,
4 for heritage, none otherwise. -/
def fmtClass (f : Nat) : Option Nat :=
  if f = 3 ∨ f = 4 ∨ f = 10 ∨ f = 11 then some 0
  else if f = 5 ∨ f = 6 ∨ f = 7 ∨ f = 12 ∨ f = 13 ∨ f = 14 then some 1
  else if f = 8 then some 2
  else if f = 1 ∨ f = 2 then some 3
  else if f = 15 then some 4
  else none

/-- The format pair of a LAUNCH belongs to one row of R60. -/
def pairOk (a b : Nat) : Bool :=
  match fmtClass a, fmtClass b with
  | some x, some y => x == y && (x != 3 || a == b)
  | _, _ => false

/-- A set-up that stops the sequencer (R84). -/
def State.setupFault (s : State) (n : Nat) : State := s.stopTile n ⟨3, some (mkRec Cls.agenSetup 2 Kind.tile n)⟩

/-- The wait_reason of queued work of an AGEN (R62): 1 for a pass, 3 for a transfer, 0 for none. DESIGN CHOICE: log entry 104. -/
def Agen.queuedReason (y : Agen) : BitVec 4 :=
  match y.queued with
  | some w => if w.forPass then 1 else 3
  | none => 0

/-- Why a LAUNCH waits (R30, R59, R62), 0 if it does not: a queued launch or queued work of an AGEN, or a drain that has not read
the set. DEDUCED, DESIGN CHOICE: log entries 31, 104. -/
def launchHeld (t : Tile) (m k : Nat) : BitVec 4 :=
  if (t.array m).queued.isSome then 1
  else if (t.agen (2 * m)).queued.isSome then (t.agen (2 * m)).queuedReason
  else if (t.agen (2 * m + 1)).queued.isSome then (t.agen (2 * m + 1)).queuedReason
  else if t.setInDrain m k then 2
  else 0

/-- Note the masks of the most recent LAUNCH that named a set (R61). DEDUCED: log entry 29. -/
def Tile.noteMasks (t : Tile) (m k : Nat) (rows cols : W64) : Tile :=
  { t with setMask := nset (BitVec.allOnes 128) t.setMask (2 * m + k) (cols ++ rows) }

/-- A pass that takes no array cycles is the last pass of its array, unless another one runs (R29, R82). -/
def Tile.emptyPass (t : Tile) (m k : Nat) : Tile :=
  if (t.array m).run.isNone then t.setArray m { t.array m with lastSet := k == 1 } else t

/-- Start a pass: it runs, and its walks with it (R62, R91). -/
def Tile.startPass (t : Tile) (m : Nat) (p : Pass) : Tile :=
  let y := t.array m
  let t := t.setArray m { y with run := some p, queued := none, lastSet := p.set == 1 }
  let go (t : Tile) (a : Nat) (x : BitVec 512) : Tile :=
    let z := t.agen a
    t.setAgen a { z with run := some ⟨x, true, false⟩, queued := none, slice := 0, staged := [], taken := [], elems := [], scales := [] }
  go (go t (2 * m) p.setA) (2 * m + 1) p.setB

/-- Queue a pass behind running work (R59, R62). -/
def Tile.queuePass (t : Tile) (m : Nat) (p : Pass) : Tile :=
  let y := t.array m
  let t := t.setArray m { y with queued := some p }
  let put (t : Tile) (a : Nat) (x : BitVec 512) : Tile :=
    let z := t.agen a
    t.setAgen a { z with queued := some ⟨x, true, false⟩ }
  put (put t (2 * m) p.setA) (2 * m + 1) p.setB

/-- Whether a pass of array `m` can start now: no pass runs on the array and no walk on its AGENs (R91). -/
def Tile.arrayFree (t : Tile) (m : Nat) : Bool :=
  (t.array m).run.isNone && (t.agen (2 * m)).run.isNone && (t.agen (2 * m + 1)).run.isNone

/-- LAUNCH (R58 to R62): malformed for a format pair outside R60; faulted for an invalid set-up (R84); complete at once without
array cycles (R29, R82); else started or queued. DESIGN CHOICE: log entry 108. -/
def launchOp (n : Nat) (w : W64) (s : State) : State :=
  let t := s.tile n
  let m := vImm w % 4
  let k := bitsOf (vImm w) 2 1
  let fa := bitsOf (vImm w) 4 4
  let fb := bitsOf (vImm w) 8 4
  let xa := (t.agen (2 * m)).loaded
  let xb := (t.agen (2 * m + 1)).loaded
  if !pairOk fa fb then s.malformed n
  else if setupBad xa fa || setupBad xb fb || walkLen xa != walkLen xb then s.setupFault n
  else if launchHeld t m k ≠ 0 then s.waitFor n (launchHeld t m k)
  else
    let rows := s.rget (.maRowMask n m) &&& t.sreg (vA w % 32) &&& extentMask xa
    let cols := s.rget (.maColMask n m) &&& t.sreg (vB w % 32) &&& extentMask xb
    let s := s.modTile n (fun t => t.noteMasks m k rows cols)
    if rows = 0 ∨ cols = 0 ∨ walkLen xa = 0 then
      ((s.bumpF (.maPassCount n m) Fld.maPassCountPasses 1).modTile n (fun t => t.emptyPass m k)).retire n
    else
      let p : Pass := { rows := rows, cols := cols, set := k, fresh := (vImm w).testBit 3, fmtA := fa, fmtB := fb,
                        srKey := t.srKey, setA := xa, setB := xb, chunk := 0, checks := [] }
      (s.modTile n (fun t => if t.arrayFree m then t.startPass m p else t.queuePass m p)).retire n

/-- LAUNCH (R59). -/
def execLaunch (n : TileId) (s : State) : Out := clocked 6 s (tisStep n 0x40 (launchOp n))

/-- DRAIN latches what it drains and starts or queues (R61, R70, R92): format 15 and a reserved rounding mode are malformed. One
drain of an array may wait behind the one that runs. DESIGN CHOICE, DEDUCED: log entries 21, 29. -/
def drainOp (n : Nat) (w : W64) (s : State) : State :=
  let t := s.tile n
  let m := vImm w % 4
  let k := bitsOf (vImm w) 2 1
  let f := bitsOf (vImm w) 3 4
  if f = 15 ∨ 5 ≤ vRm w then s.malformed n
  else if 2 ≤ (t.array m).drains.length then s.waitFor n 2
  else
    let masks := kget (BitVec.allOnes 128) t.setMask (2 * m + k)
    let d : DrainOp :=
      { set := k, fmt := f, health := (vX w).testBit 0, packed6 := (vX w).testBit 1, sat := (vX w).testBit 2, rm := vRm w,
        dest := t.sreg (vA w % 32), pitch := t.sreg (vB w % 32), tensor := (t.sreg (vC w % 32)).setWidth 32,
        rows := masks.extractLsb' 0 64, cols := masks.extractLsb' 64 64, srKey := t.srKey, srIndex := t.srIndex,
        started := false }
    (s.modTile n (fun t =>
      let y := t.array m
      let t := t.setArray m { y with drains := y.drains ++ [d] }
      if vRm w = 4 then { t with srIndex := t.srIndex + 4096 } else t)).retire n

/-- DRAIN (R61). DESIGN CHOICE: log entry 21. -/
def execDrain (n : TileId) (s : State) : Out := clocked 6 s (tisStep n 0x41 (drainOp n))

/-- AGLD loads a set-up block of 64 B (R58, R62). -/
def agldOp (n : Nat) (w : W64) (s : State) : State :=
  let a := vImm w % 8
  match s.sramRead (Who.tile n) n (((s.tile n).sreg (vA w % 32)).toNat % 2 ^ 23 / 64 * 64) 64 with
  | (s, some l) =>
    (s.modTile n (fun t => t.setAgen a { t.agen a with loaded := BitVec.ofNat 512 (leNat l) })).retire n
  | (s, none) => s.faultTile n none

/-- AGLD (R62). -/
def execAgld (n : TileId) (s : State) : Out := clocked 6 s (tisStep n 0x42 (agldOp n))

/-- XFER starts or queues a stand-alone transfer (R62, R82, R84, R94); it waits behind queued work. DESIGN CHOICE: log entry 104. -/
def xferOp (n : Nat) (w : W64) (s : State) : State :=
  let a := vImm w % 8
  let y := (s.tile n).agen a
  if xferBad y.loaded then s.setupFault n
  else if y.queued.isSome then s.waitFor n y.queuedReason
  else if walkLen y.loaded = 0 then s.retire n
  else if y.run.isNone then
    (s.modTile n (fun t =>
      t.setAgen a { y with run := some ⟨y.loaded, false, false⟩, slice := 0, staged := [], taken := [], elems := [], scales := [] })).retire n
  else (s.modTile n (fun t => t.setAgen a { y with queued := some ⟨y.loaded, false, false⟩ })).retire n

/-- XFER (R94). -/
def execXfer (n : TileId) (s : State) : Out := clocked 6 s (tisStep n 0x43 (xferOp n))

end Sys2Proof.Machine
end

