-- ==== Sys2Proof/Machine/Array.lean ====
section
/-! DEFINITION. What the arrays, drains and transfers of a tile do between instructions: queued passes, hand-offs, check points,
completion (R88 to R94, R105 to R111, R387 to R391). -/

namespace Sys2Proof.Machine

/-! ## Queued passes (R91) -/

/-- A queued pass starts once the running pass has run its last array cycle and the AGENs are free. -/
def queuedPassStart (n m : Nat) (s : State) : State :=
  match ((s.tile n).array m).queued with
  | some p => if (s.tile n).arrayFree m then s.modTile n (fun t => t.startPass m p) else s
  | none => s

/-- QUEUED_PASS_START (R91). -/
def execQueuedPassStart (n : TileId) (m : Fin 4) (s : State) : Out := clocked 6 s (queuedPassStart n m)

/-- An AGEN's walk ends: its staged blocks go, and a queued transfer starts (R62, R86). -/
def Tile.endWalk (t : Tile) (a : Nat) : Tile :=
  let y := t.agen a
  let y := { y with run := none, slice := 0, staged := [], taken := [], elems := [], scales := [] }
  match y.queued with
  | some w => t.setAgen a (if w.forPass then y else { y with run := some w, queued := none })
  | none => t.setAgen a y

/-- An AGEN's walk ends, and with it what its reads through the router have fetched or still fetch (R86). -/
def State.endWalk (s : State) (n a : Nat) : State := (s.modTile n (fun t => t.endWalk a)).dropFetched (.agen n a)

/-! ## Operands of a hand-off (R85 to R89) -/

/-- The pass hands off at the end of each chunk of 4,096 slices: the classes of 8 bits or fewer (R89). -/
def chunked (f : Nat) : Bool := match fmtClass f with | some c => c ≤ 2 | none => false

/-- The first slice of the next hand-off of a pass, and how many slices it covers (R89). -/
def Pass.span (p : Pass) : Nat × Nat :=
  let l := walkLen p.setA
  if chunked p.fmtA then (4096 * p.chunk, min 4096 (l - 4096 * p.chunk)) else (0, l)

/-- The set bits of a mask, ascending. -/
def maskBits (m : W64) : List Nat := (List.range 64).filter (fun i => m.getLsbD i)

/-- One slice as the cells see it: the values on the row buses and on the column buses. -/
structure SliceVals where
  a : List Num
  b : List Num

/-- The operands of the slices that the feeders of array `m` have delivered since the last hand-off. -/
def Tile.operands (t : Tile) (m : Nat) (p : Pass) : List SliceVals :=
  (((t.agen (2 * m)).elems).zip ((t.agen (2 * m + 1)).elems)).map (fun e =>
    ⟨e.1.map (decodeElem p.fmtA), e.2.map (decodeElem p.fmtB)⟩)

/-- The E8M0 code of element `t` in the `b`th block of an MX hand-off (R85); a plain operand contributes 127 (R107). -/
def Tile.scaleCode (t : Tile) (a f b i : Nat) : Nat :=
  if isMx f then (((t.agen a).scales.getD b []).getD i 0).toNat else 127

/-- An element of a slice; what is not driven is zero. -/
def busVal (l : List Num) (i : Nat) : Num := l.getD i (.fin false 0 0)

/-! ## Exact accumulation (R105 to R108) -/

/-- An exact accumulator with its three flags: units of 2^-32. -/
structure Acc where
  sum : Int
  nan : Bool
  pos : Bool
  neg : Bool

/-- An empty accumulator. -/
def Acc.zero : Acc := ⟨0, false, false, false⟩

/-- Add an exact product (R105, R106). -/
def Acc.add (c : Acc) (v : Num) : Acc :=
  match v with
  | .nan => { c with nan := true }
  | .inf true => { c with neg := true }
  | .inf false => { c with pos := true }
  | .fin x m e => { c with sum := c.sum + alignTo x m (e + 32) 0 }

/-- Whether a flag is set. -/
def Acc.flagged (c : Acc) : Bool := c.nan || c.pos || c.neg

/-- The value that the flags and a finite value make at a hand-off (R106). -/
def Acc.value (c : Acc) (v : Num) : Num :=
  if c.nan || (c.pos && c.neg) then .nan else if c.pos then .inf false else if c.neg then .inf true else v

/-- The sum of one cell over slices. -/
def cellSum (sl : List SliceVals) (i j : Nat) : Acc :=
  sl.foldl (fun c v => c.add (Num.mul (busVal v.a i) (busVal v.b j))) Acc.zero

/-- A finite value in units of 2^-32; 0 for others. -/
def fix32 : Num → Int
  | .fin x m e => if 0 ≤ e + 32 then alignTo x m (e + 32) 0 else (alignTo x m 0 0) / (2 ^ (-(e + 32)).toNat : Int)
  | _ => 0

/-- A finite value in units of 2^-16, the grid of the elements of 8 bits or fewer; 0 for others. -/
def fix16 : Num → Int
  | .fin x m e => alignTo x m (e + 16) 0
  | _ => 0

/-- The unit sum of a row (or of a column, with the buses exchanged) over slices, and whether it holds a flag (R387, R390). -/
def unitSum (own others : SliceVals → List Num) (lanes : List Nat) (sl : List SliceVals) (i : Nat) : Int × Bool :=
  (sl.map (fun v => fix16 (busVal (own v) i) * (lanes.map (fun j => fix16 (busVal (others v) j))).sum)).sum |>
    fun x => (x, sl.any (fun v => !(busVal (own v) i).isFin || lanes.any (fun j => !(busVal (others v) j).isFin)))

/-- The check point of exact sums (R387, R388): unit sums against the sums of the cells. -/
def exactCheck (rows cols : List Nat) (sl : List SliceVals) (cell : Nat → Nat → Int) (flag : Nat → Nat → Bool) (last : Nat) :
    CheckPoint :=
  { exact := true, n := 0, last := last
    rows := rows.map (fun i =>
      let u := unitSum (·.a) (·.b) cols sl i
      ⟨u.2 || cols.any (flag i), u.1, 0, (cols.map (cell i)).sum⟩)
    cols := cols.map (fun j =>
      let u := unitSum (·.b) (·.a) rows sl j
      ⟨u.2 || rows.any (fun i => flag i j), u.1, 0, (rows.map (fun i => cell i j)).sum⟩) }

/-! ## MX passes (R107) -/

/-- The state of a cell of an MX pass: block register, and flags. -/
structure MxCell where
  reg : Nat
  flags : Acc

/-- One block of a cell of an MX pass: the exact block sum, scaled and added to the block register in mode 0 (R107). -/
def mxBlock (c : MxCell) (block : Acc) (xa xb : Nat) : MxCell :=
  let bad := xa == 255 || xb == 255
  let v := Num.ofInt false block.sum (-32 + (xa : Int) + xb - 254)
  { reg := if bad then c.reg else fp32.result 0 (Num.add 0 (fp32.decode c.reg) v)
    flags := ⟨0, c.flags.nan || block.nan || bad, c.flags.pos || block.pos, c.flags.neg || block.neg⟩ }

/-! ## 16-bit and heritage passes (R109, R111) -/

/-- The FP32 accumulator of a cell of a 16-bit pass over slices (R109). -/
def cell16 (acc : Nat) (sl : List SliceVals) (i j : Nat) : Nat :=
  sl.foldl (fun c v => fp32.result 0 (Num.add 0 (fp32.decode c) (Num.mul (busVal v.a i) (busVal v.b j)))) acc

/-- FP32 addition to nearest. -/
def addF32 (a b : Nat) : Nat := fp32.result 0 (Num.add 0 (fp32.decode a) (fp32.decode b))

/-- One level of the pairwise tree (R111). -/
def pairUp : List Nat → List Nat
  | a :: b :: l => addF32 a b :: pairUp l
  | l => l

/-- The tree sum of 32 products (R111). -/
def treeSum (q : List Nat) : Nat := ((pairUp (pairUp (pairUp (pairUp (pairUp q))))).headD 0)

/-- The sum of a cell of a heritage pass (R111). -/
def cellHeritage (sl : List SliceVals) (i j : Nat) : Nat :=
  let q := sl.map (fun v => fp32.result 0 (Num.mul (busVal v.a i) (busVal v.b j)))
  let group (h : Nat) : Nat := treeSum ((List.range 32).map (fun k => q.getD (32 * h + k) 0))
  (List.range' 1 ((sl.length + 31) / 32 - 1)).foldl (fun acc h => addF32 acc (group h)) (group 0)

/-- The captured cell values of a heritage pass after the groups that `sl` covers. -/
def cellAt (f : Nat) (sl : List SliceVals) (i j : Nat) : Nat := if f = 15 then cellHeritage sl i j else cell16 0 sl i j

/-- An FP32 value in units of 2^-149; 0 for others. -/
def fix149 (b : Nat) : Int :=
  match fp32.decode b with
  | .fin x m e => alignTo x m (e + 149) 0
  | _ => 0

/-- A unit of the 16-bit and heritage classes over slices (R387): the FP32 sum to nearest, the magnitude sum rounded toward +∞, and
whether it holds a flag. -/
def unit16 (own others : SliceVals → List Num) (lanes : List Nat) (sl : List SliceVals) (i : Nat) : Nat × Nat × Bool :=
  sl.foldl (fun c v =>
    let o := busVal (own v) i
    let sum := lanes.foldl (fun x j => Num.add 0 x (busVal (others v) j)) (.fin false 0 0)
    let abs : Num → Num := fun x => match x with | .fin _ m e => .fin false m e | .inf _ => .inf false | .nan => .nan
    let mags := lanes.foldl (fun x j => Num.add 0 x (abs (busVal (others v) j))) (.fin false 0 0)
    (fp32.result 0 (Num.add 0 (fp32.decode c.1) (Num.mul o sum)),
     fp32.result 3 (Num.add 3 (fp32.decode c.2.1) (Num.mul (abs o) mags)),
     c.2.2 || !o.isFin || lanes.any (fun j => !(busVal (others v) j).isFin))) (0, 0, false)

/-- A check lane of the 16-bit and heritage classes (R389, R390). -/
def lane16 (u : Nat × Nat × Bool) (cells : List Nat) : CheckLane :=
  let s := cells.foldl addF32 0
  let odd (b : Nat) : Bool := !(fp32.decode b).isFin
  ⟨u.2.2 || odd u.1 || odd u.2.1 || odd s || cells.any odd, fix149 u.1, fix149 u.2.1, fix149 s⟩

/-- The check point of a 16-bit or heritage pass after the first `k` slices (R388, R389). -/
def roundedCheck (f : Nat) (rows cols : List Nat) (sl : List SliceVals) (k : Nat) : CheckPoint :=
  let sl := sl.take k
  { exact := false, n := k, last := k - 1
    rows := rows.map (fun i => lane16 (unit16 (·.a) (·.b) cols sl i) (cols.map (cellAt f sl i)))
    cols := cols.map (fun j => lane16 (unit16 (·.b) (·.a) rows sl j) (rows.map (fun i => cellAt f sl i j))) }

/-! ## The set addition (R108, R110) -/

/-- A hand-off value: its FP32 or fixed-point value, and the word f of R102. -/
structure HandOff where
  val : Num
  f : Nat

/-- f of an 80-bit hand-off value (R102). -/
def foldAcc (x : Int) : Nat :=
  let b := (x % (2 ^ 80 : Int)).toNat
  bitsOf b 0 32 ^^^ bitsOf b 32 32 ^^^ bitsOf b 64 16

/-- A set entry after a hand-off (R108, R110). -/
def setEntry (tile : Nat) (p : Pass) (old : Nat) (x : HandOff) : Nat :=
  let first := p.fresh && p.chunk == 0
  let entry := if first then 0 else old
  if p.fmtA = 8 then
    let v : Int := fix32 x.val / 2 ^ 32
    (Max.max (-(2 ^ 31 : Int)) (Min.min (2 ^ 31 - 1) (sgn 32 entry + v)) % (2 ^ 32 : Int)).toNat
  else
    let sum := Num.add 0 (fp32.decode entry) x.val
    if first || p.fmtA = 15 then fp32.result 0 sum
    else
      match sum with
      | .fin neg m e =>
        (fp32.roundFin 4 (setWord p.srKey tile p.chunk entry x.f) neg m e).getD (fp32.signBit neg + fp32.infBits)
      | v => fp32.result 0 v

/-- The hand-off value of a cell, and the check points of the hand-off (R89, R106 to R111, R388). -/
def Tile.handOff (t : Tile) (m : Nat) (p : Pass) (sl : List SliceVals) (base : Nat) : (Nat → Nat → HandOff) × List CheckPoint :=
  let rows := maskBits p.rows
  let cols := maskBits p.cols
  let k := sl.length
  match fmtClass p.fmtA with
  | some c =>
    if 3 ≤ c then
      (fun i j => let b := cellAt p.fmtA sl i j; ⟨fp32.decode b, b⟩,
       (List.range ((k + 4095) / 4096)).map (fun h => roundedCheck p.fmtA rows cols sl (min k (4096 * (h + 1)))))
    else if isMx p.fmtA || isMx p.fmtB then
      let nb := (k + 31) / 32
      let block (h : Nat) : List SliceVals := (sl.drop (32 * h)).take 32
      let xa (h i : Nat) : Nat := t.scaleCode (2 * m) p.fmtA h i
      let xb (h j : Nat) : Nat := t.scaleCode (2 * m + 1) p.fmtB h j
      let upTo (h i j : Nat) : MxCell :=
        (List.range h).foldl (fun c g => mxBlock c (cellSum (block g) i j) (xa g i) (xb g j)) ⟨0, Acc.zero⟩
      (fun i j => let c := upTo nb i j; ⟨c.flags.value (fp32.decode c.reg), c.reg⟩,
       (List.range nb).map (fun h => exactCheck rows cols (block h) (fun i j => (cellSum (block h) i j).sum)
         (fun i j => (upTo (h + 1) i j).flags.flagged) (base + min k (32 * (h + 1)) - 1)))
    else
      (fun i j => let c := cellSum sl i j; ⟨c.value (Num.ofInt false c.sum (-32)), foldAcc c.sum⟩,
       [exactCheck rows cols sl (fun i j => (cellSum sl i j).sum) (fun i j => (cellSum sl i j).flagged) (base + k - 1)])
  | none => (fun _ _ => ⟨.fin false 0 0, 0⟩, [])

/-- Add the hand-off sums into the unmasked entries of the named set (R28, R89, R110). -/
def Tile.addSet (t : Tile) (n m : Nat) (p : Pass) (x : Nat → Nat → HandOff) : Tile :=
  (maskBits p.rows).foldl (fun t i =>
    let key := accKey m p.set i
    let old := (t.accRow m p.set i).toNat
    let new := packElems 32 ((List.range 64).map (fun j =>
      let e := elemAt 32 j old
      if p.cols.getLsbD j then setEntry n p e (x i j) else e))
    let done (y : Nat) : Bool := y / 64 == key && p.cols.getLsbD (y % 64)
    { t with acc := nset 0 t.acc key (BitVec.ofNat 2048 new), accUe := t.accUe.filter (fun y => !done y),
             accCe := t.accCe.filter (fun y => !done y) }) t

/-- The pass ends at an error or a refusal of its walk or of its set (R34, R87, R231, R251). -/
def State.dropPass (s : State) (n m : Nat) : State :=
  let s := s.modTile n (fun t => t.setArray m { t.array m with run := none })
  (((s.endWalk n (2 * m)).endWalk n (2 * m + 1)).faultTile n none).settle n

/-- Read the rows of scales of `k` further blocks of a walk (R85). -/
def State.deliverScales (s : State) (n a : Nat) (x : BitVec 512) (first : Nat) : Nat → State × Got
  | 0 => (s, .bytes [])
  | k + 1 =>
    let b := first + ((s.tile n).agen a).scales.length
    match s.readSpace n (.agen n a) (suSrc x) (inSpace (suSrc x) ((suAux x : Int) + b * suPitch x)) (suExtent x) with
    | (s, .bytes l) =>
      (s.modTile n (fun t => t.setAgen a { t.agen a with scales := (t.agen a).scales ++ [l] })).deliverScales n a x first k
    | r => r

/-- A feeder delivers slices up to `last`, and the scales of the blocks from `first / 32` on (R85, R86). DEDUCED: log entry 30. -/
def State.feed (s : State) (n a : Nat) (x : BitVec 512) (f first last : Nat) : State × Got :=
  match s.deliverSlices n a x f (last - ((s.tile n).agen a).slice) with
  | (s, .bytes _) =>
    if isMx f then s.deliverScales n a x (first / 32) ((last - first + 31) / 32 - ((s.tile n).agen a).scales.length)
    else (s, .bytes [])
  | r => r

/-- Both feeders deliver slices `i` to `i + k - 1` and their scales (R85, R86). DEDUCED: log entry 30. -/
def State.stagePass (s : State) (n m : Nat) (p : Pass) (i k : Nat) : State × Got :=
  match s.feed n (2 * m) p.setA p.fmtA i (i + k) with
  | (s, .fail) => (s, .fail)
  | (s, g) =>
    match s.feed n (2 * m + 1) p.setB p.fmtB i (i + k), g with
    | (s, .bytes _), .wait => (s, .wait)
    | r, _ => r

/-- What the feeders have delivered for a hand-off is used up. -/
def Tile.useOperands (t : Tile) (a : Nat) : Tile := t.setAgen a { t.agen a with elems := [], scales := [] }

/-- The old sums that a hand-off adds to are read (R34, R108): not those of a set that starts from zero. -/
def State.readOldSums (s : State) (n m : Nat) (p : Pass) : State × Bool :=
  if p.fresh && p.chunk == 0 then (s, true) else s.accErrors n m p.set (maskBits p.rows) p.cols

/-- A hand-off of the running pass of array `m` (R89): the slices of the chunk are delivered, as far as their data have come, the sums
are rounded into the named set, and the check points are left to compare. At the last one the array cycles of the pass are over.
DESIGN CHOICE: log entry 23. -/
def handOffOp (n m : Nat) (s : State) : State :=
  match ((s.tile n).array m).run with
  | none => s
  | some p =>
    let (i, k) := p.span
    match s.stagePass n m p i k with
    | (s, .wait) => s
    | (s, .fail) => s.dropPass n m
    | (s, .bytes _) =>
      match s.readOldSums n m p with
      | (s, false) => s.dropPass n m
      | (s, true) =>
        let t := s.tile n
        let (x, checks) := t.handOff m p (t.operands m p) i
        let checks := if s.rf (.tileCtrl n) Fld.tileCtrlChecksumEn = 1 then checks else []
        let p' : Pass := { p with chunk := p.chunk + 1, checks := p.checks ++ checks }
        let s := s.modTile n (fun t => ((t.addSet n m p x).useOperands (2 * m)).useOperands (2 * m + 1))
        if walkLen p.setA ≤ i + k then
          let s := s.modTile n (fun t =>
            let y := t.array m
            t.setArray m { y with run := none, finishing := y.finishing ++ [p'] })
          (s.endWalk n (2 * m)).endWalk n (2 * m + 1)
        else s.modTile n (fun t => t.setArray m { t.array m with run := some p' })

/-- HAND_OFF (R89). -/
def execHandOff (n : TileId) (m : Fin 4) (s : State) : Out := clocked 6 s (handOffOp n m)

/-! ## Check points (R388 to R391) -/

/-- A row or column passes at a check point (R388 to R390). -/
def CheckLane.passes (c : CheckPoint) (l : CheckLane) : Bool :=
  l.flagged || (if c.exact then l.unit == l.cells
    else ((l.cells - l.unit).natAbs * 2 ^ 20 : Nat) ≤ (c.n + 64) * l.mag.natAbs + 2 ^ 43 * (c.n + 64))

/-- The logical index of the first lane that fails, 0xFF if none does. -/
def firstFail (c : CheckPoint) (mask : W64) (ls : List CheckLane) : Nat :=
  (((maskBits mask).zip ls).find? (fun x => !x.2.passes c)).elim 0xFF (·.1)

/-- The walks of the passes of array `m` end, running or queued (R391). -/
def State.endPassWalk (s : State) (n a : Nat) : State :=
  let s := s.modTile n (fun t =>
    let z := t.agen a
    t.setAgen a (match z.queued with | some w => if w.forPass then { z with queued := none } else z | none => z))
  match ((s.tile n).agen a).run with
  | some w => if w.forPass then s.endWalk n a else s
  | none => s

/-- A failing comparison (R391): the array stops, the sets of the failed and the abandoned passes are marked failed, the queued
launch is discarded, and the sequencer enters FAULTED with a TILE_CHECK record. `ps` are the failed pass and the later ones. -/
def State.checkFails (s : State) (n m row col last : Nat) (ps : List Pass) : State :=
  let s := (s.setF (.tileFault n) Fld.tileFaultCheckMismatch 1).bumpF (.maCheckFail n m) Fld.maCheckFailCount 1
  let s := s.modTile n (fun t =>
    let y := t.array m
    let t := { t with failed := ps.foldl (fun (f : BitVec 8) (p : Pass) => f ||| BitVec.ofNat 8 (2 ^ (2 * m + p.set))) t.failed }
    t.setArray m { y with run := none, finishing := y.finishing.take (y.finishing.length + y.run.toList.length - ps.length),
                          queued := none })
  let s := (s.endPassWalk n (2 * m)).endPassWalk n (2 * m + 1)
  (s.faultTile n (some { mkRec Cls.tileCheck 2 Kind.tile n with
    detail0 := BitVec.ofNat 64 (m + row * 2 ^ 8 + col * 2 ^ 16 + last * 2 ^ 32)
    detail1 := (s.tile n).pc.setWidth 16 |>.zeroExtend 48 })).settle n

/-- The oldest check point of array `m` is compared (R388). -/
def checkPointOp (n m : Nat) (s : State) : State :=
  let y := (s.tile n).array m
  let all := y.finishing ++ y.run.toList
  match all.dropWhile (fun p => p.checks.isEmpty) with
  | [] => s
  | p :: later =>
    match p.checks with
    | [] => s
    | c :: rest =>
      let row := firstFail c p.rows c.rows
      let col := firstFail c p.cols c.cols
      if row = 0xFF ∧ col = 0xFF then
        let upd (q : Pass) : Pass := if q = p then { q with checks := rest } else q
        s.modTile n (fun t => t.setArray m
          (if y.finishing.any (· == p) then { y with finishing := modifyFirst (· == p) upd y.finishing }
           else { y with run := y.run.map upd }))
      else s.checkFails n m row col c.last (p :: later)

/-- CHECK_POINT (R388). -/
def execCheckPoint (n : TileId) (m : Fin 4) (s : State) : Out := clocked 6 s (checkPointOp n m)

/-- A pass completes after its last check point has passed (R90, R388). -/
def passCompleteOp (n m : Nat) (s : State) : State :=
  let y := (s.tile n).array m
  match y.finishing with
  | p :: rest =>
    if p.checks.isEmpty then
      ((s.bumpF (.maPassCount n m) Fld.maPassCountPasses 1).modTile n (fun t => t.setArray m { y with finishing := rest })).settle n
    else s
  | [] => s

/-- PASS_COMPLETE (R90). DESIGN CHOICE: log entry 3. -/
def execPassComplete (n : TileId) (m : Fin 4) (s : State) : Out := clocked 6 s (passCompleteOp n m)

/-! ## Drains (R92, R93, R104) -/

/-- The bits of an element in a drained row, and the bytes of a row (R93). x[1] packs FP6 elements, and is ignored for MXFP6.
DEDUCED: log entry 102. -/
def DrainOp.elemWidth (d : DrainOp) : Nat := if d.packed6 ∧ (d.fmt = 5 ∨ d.fmt = 6) then 6 else elemBits d.fmt

/-- The exact source of a drained entry (R61): INT32 for an integer output, FP32 otherwise. -/
def DrainOp.source (d : DrainOp) (e : Nat) : Num :=
  if d.fmt = 8 ∨ d.fmt = 9 then Num.ofInt false (sgn 32 e) 0 else fp32.decode e

/-- The scales and the converted elements of row `i` (R103, R104); masked columns take no part. -/
def DrainOp.convertRow (d : DrainOp) (tile i : Nat) (row : BitVec 2048) : List Nat × List (Nat × HealthEvent) :=
  let vs := (List.range 64).map (fun j => d.source (elemAt 32 j row.toNat))
  let scales := (List.range 2).map (fun h =>
    mxScale d.fmt (((vs.zipIdx.drop (32 * h)).take 32).filterMap (fun x => if d.cols.getLsbD x.2 then some x.1 else none)))
  (scales, vs.zipIdx.map (fun x =>
    let r := if d.rm = 4 then srWord d.srKey tile (d.srIndex.toNat + 64 * i + x.2) else 0
    convert d.fmt d.rm r d.sat (if isMx d.fmt then x.1.scale (mxFactor (scales.getD (x.2 / 32) 0x7F)) else x.1)))

/-- The pieces of one drained row: byte ranges that hold only unmasked elements, with their bytes; a byte that a masked element
shares keeps the masked bits, given the byte's old value (R28, R93). -/
def DrainOp.rowPieces (d : DrainOp) (elems : List Nat) (old : Nat → Byte) : List (Nat × List Byte) :=
  let w := d.elemWidth
  let bits := packElems w (elems.zipIdx.map (fun x => if d.cols.getLsbD x.2 then x.1 else 0))
  let keep := packElems w ((List.range 64).map (fun j => if d.cols.getLsbD j then 2 ^ w - 1 else 0))
  let byte (b : Nat) : Option (Nat × Byte) :=
    let k := bitsOf keep (8 * b) 8
    if k = 0 then none
    else some (b, BitVec.ofNat 8 (bitsOf bits (8 * b) 8) ||| (old b &&& BitVec.ofNat 8 (255 - k)))
  ((List.range (8 * w)).filterMap byte).foldr (fun x acc =>
    match acc with
    | (o, l) :: rest => if x.1 + 1 = o then (x.1, x.2 :: l) :: rest else (x.1, [x.2]) :: acc
    | [] => [(x.1, [x.2])]) []

/-- Bytes of a row that masked and unmasked elements share. -/
def DrainOp.sharedBytes (d : DrainOp) : List Nat :=
  let w := d.elemWidth
  let keep := packElems w ((List.range 64).map (fun j => if d.cols.getLsbD j then 2 ^ w - 1 else 0))
  (List.range (8 * w)).filter (fun b => bitsOf keep (8 * b) 8 != 0 && bitsOf keep (8 * b) 8 != 255)

/-- The place in the tile's own SRAM that a 64-bit address names. -/
def State.ownSram (s : State) (n a : Nat) : Option Nat :=
  match s.target a with
  | .here off => if apBase n ≤ off ∧ off < apBase n + 0x800000 then some (off - apBase n) else none
  | _ => none

/-- Write the pieces of one drain row or slice at 64-bit addresses (R61, R72, R94): the tile's own banks, or through the router on
BULK, until one is refused. -/
def State.tileWrites (s : State) (n : Nat) (o : Owner) (ps : List (Nat × List Byte)) : State × Bool :=
  let own := ps.filterMap (fun p => (s.ownSram n p.1).map (fun x => (x, p.2)))
  (ps.filter (fun p => (s.ownSram n p.1).isNone)).foldl
    (fun acc p => if acc.2 then acc.1.writeRange (Who.tile n) o VC.bulk p.1 p.2 else acc) (s.writeSram n own)

/-- The bytes of a drained row, scales among them, at their addresses (R93, R104). -/
def DrainOp.rowWrites (d : DrainOp) (i : Nat) (scales elems : List Nat) (old : Nat → Byte) : List (Nat × List Byte) :=
  let base := (d.dest + BitVec.ofNat 64 i * d.pitch).toNat
  let sb := (d.dest + 64 * d.pitch).toNat
  (d.rowPieces elems (fun b => old ((base + b) % 2 ^ 64))).map (fun p => ((base + p.1) % 2 ^ 64, p.2))
    ++ if isMx d.fmt then (List.range 2).filterMap (fun h =>
        if bitsOf d.cols.toNat (32 * h) 32 = 0 then none
        else some ((sb + 2 * i + h) % 2 ^ 64, [BitVec.ofNat 8 (scales.getD h 0)])) else []

/-- One row of a drain: its scales, its elements, its health counts. DESIGN CHOICE: log entry 23. -/
def State.drainRow (s : State) (n m : Nat) (d : DrainOp) (i : Nat) : State × Bool :=
  let (scales, conv) := d.convertRow n i ((s.tile n).accRow m d.set i)
  let s := if d.health then
      s.health n d.tensor.toNat ((conv.zipIdx.filter (fun x => d.cols.getLsbD x.2)).map (fun x => x.1.2)) else s
  s.tileWrites n (.drain n m) (d.rowWrites i scales (conv.map Prod.fst) (s.oldByte (.drain n m)))

/-- A byte of a drain's destination is read before it is merged: at another device, in a memory window, or in a populated bank; any other
address is met by the write alone (R34, R72). -/
def State.mergeReads (s : State) (a : Nat) : Bool :=
  match s.target a with
  | .there _ _ => true
  | .here off => match regionOf off with
    | .hbm | .lp => true
    | .aperture _ x => bankOf x < 48
    | _ => false
  | .bad => false

/-- The bytes that masked and unmasked elements of a drain share, which are read first. -/
def State.drainReads (s : State) (n m : Nat) (d : DrainOp) : State × Got :=
  let need := (maskBits d.rows).flatMap (fun i =>
    d.sharedBytes.map (fun b => ((d.dest + BitVec.ofNat 64 i * d.pitch).toNat + b) % 2 ^ 64))
  (need.filter s.mergeReads).foldl (fun acc a =>
    match acc.2 with
    | .fail => acc
    | g =>
      let (s, r) := acc.1.readAt (Who.tile n) (.drain n m) a 1
      (s, match r, g with | .fail, _ => .fail | .bytes _, .bytes _ => .bytes [] | _, _ => .wait)) (s, Got.bytes [])

/-- The oldest drain of array `m` ends without its data (R231, R251, R392). -/
def State.dropDrain (s : State) (n m : Nat) : State :=
  ((s.modTile n (fun t => t.setArray m { t.array m with drains := (t.array m).drains.drop 1 })).faultTile n none).settle n

/-- The oldest drain of array `m` has read its set. -/
def State.drainStarted (s : State) (n m : Nat) : State :=
  s.modTile n (fun t => t.setArray m { t.array m with drains := match (t.array m).drains with
    | d :: rest => { d with started := true } :: rest
    | [] => [] })

/-- A drain begins reading its set once no pass uses the set (R30, R92): every row is converted and written. A failed set is not
read and nothing is written (R391). A refusal or an error puts the tile in FAULTED (R231, R251, R392).
DESIGN CHOICE: log entry 23. -/
def drainStartOp (n m : Nat) (s : State) : State :=
  let t := s.tile n
  match (t.array m).drains with
  | [] => s
  | d :: _ =>
    if d.started || t.setInPass m d.set then s
    else if t.setFailed m d.set then s.drainStarted n m
    else match s.drainReads n m d with
      | (s, .wait) => s
      | (s, .fail) => (s.dropFetched (.drain n m)).dropDrain n m
      | (s, .bytes _) =>
        match s.accErrors n m d.set (maskBits d.rows) d.cols with
        | (s, false) => (s.dropFetched (.drain n m)).dropDrain n m
        | (s, true) =>
          match (maskBits d.rows).foldl (fun acc i => if acc.2 then acc.1.drainRow n m d i else acc) (s, true) with
          | (s, true) => (s.dropFetched (.drain n m)).drainStarted n m
          | (s, false) => (s.dropFetched (.drain n m)).dropDrain n m

/-- DRAIN_START (R92). -/
def execDrainStart (n : TileId) (m : Fin 4) (s : State) : Out := clocked 6 s (drainStartOp n m)

/-- A drain completes when every write of it has been acknowledged (R92). -/
def drainCompleteOp (n m : Nat) (s : State) : State :=
  let y := (s.tile n).array m
  match y.drains with
  | d :: rest =>
    if d.started && !s.ownAcks (.drain n m) then (s.modTile n (fun t => t.setArray m { y with drains := rest })).settle n else s
  | [] => s

/-- DRAIN_COMPLETE (R92). DESIGN CHOICE: log entry 3. -/
def execDrainComplete (n : TileId) (m : Fin 4) (s : State) : Out := clocked 6 s (drainCompleteOp n m)

/-! ## Transfers (R94) -/

/-- The packed bytes of a slice of a transfer; the bits above its last element are zero. -/
def xferBytes (x : BitVec 512) (elems : List Nat) : List Byte :=
  let w := srcWidth x (suXferFmt x)
  leBytes ((suExtent x * w + 7) / 8) (packElems w elems)

/-- Write the slice that a transfer has read last, at its destination. -/
def State.xferWrite (s : State) (n a : Nat) (x : BitVec 512) : State × Bool :=
  let y := (s.tile n).agen a
  let at_ := (suAux x : Int) + ((y.slice : Int) - 1) * suPitch x
  let l := xferBytes x (y.elems.headD [])
  let s := s.modTile n (fun t => t.useOperands a)
  if suDst x then s.tileWrites n (.agen n a) [(inSpace true at_, l)] else s.writeSram n [(inSpace false at_, l)]

/-- Move up to `k` slices of a transfer, each read and then written. DESIGN CHOICE: log entry 23. -/
def State.xferMove (s : State) (n a : Nat) (x : BitVec 512) : Nat → State × Got
  | 0 => (s, .bytes [])
  | k + 1 =>
    match s.deliverSlice n a x (suXferFmt x) with
    | (s, .bytes _) =>
      match s.xferWrite n a x with
      | (s, true) => s.xferMove n a x k
      | (s, false) => (s, .fail)
    | r => r

/-- A transfer ends, and a queued one starts, once its own writes have been acknowledged (R94). -/
def State.xferEnd (s : State) (n a : Nat) : State := if s.ownAcks (.agen n a) then s else s.endWalk n a

/-- A transfer moves the slices whose data have come, and completes when every write of it has been acknowledged (R94). It ends at the
first refusal or error with its tile in FAULTED. DESIGN CHOICE: log entry 23. -/
def xferCompleteOp (n a : Nat) (s : State) : State :=
  match ((s.tile n).agen a).run with
  | none => s
  | some w =>
    if w.forPass then s
    else if w.issued then s.xferEnd n a
    else
      match s.xferMove n a w.setup (walkLen w.setup - ((s.tile n).agen a).slice) with
      | (s, .wait) => s
      | (s, .fail) => (s.endWalk n a).faultTile n none
      | (s, .bytes _) =>
        (s.modTile n (fun t => t.setAgen a { t.agen a with run := some { w with issued := true } })).xferEnd n a

/-- XFER_COMPLETE (R94). DESIGN CHOICE: log entry 3. -/
def execXferComplete (n : TileId) (a : Fin 8) (s : State) : Out := clocked 6 s (xferCompleteOp n a)

end Sys2Proof.Machine
end

