-- ==== Sys2Proof/Machine/HostOps.lean ====
section
/-! DEFINITION. Message-signalled interrupts to host cores and to the external host, and the transactions that the device sends on
its PCI Express links (R308, R319, R324). -/

namespace Sys2Proof.Machine

/-- Deliver an identity to the supervisor interrupt file of a hart; identities 0 and above 255 are discarded (R308, R328).
PRESUMED, DEDUCED: log entries 80, 99, 101. -/
def State.msi (s : State) (hart identity : Nat) : State :=
  if hart < 96 ∧ 0 < identity ∧ identity < 256 then
    let x := kget 0 s.io.imsic hart ||| BitVec.ofNat 256 (2 ^ identity)
    { s with io := { s.io with imsic := nset 0 s.io.imsic hart x } }
  else s

/-- Send a transaction on a link: unit 0 the endpoint, unit p + 1 root port p. -/
def State.sendTlp (s : State) (link : Nat) (t : Tlp) : State :=
  let last := match t with
    | .memWrite a l _ _ => if link = 0 then some ((a + l.length - 1) % 2 ^ 64) else s.io.lastWrite
    | _ => s.io.lastWrite
  { s with io := { s.io with out := (link, t) :: s.io.out, lastWrite := last } }

/-! Bits of the uncorrectable error status of PCI Express (R314). -/
namespace Aer
abbrev poisoned := 12
abbrev timeout := 14
abbrev aborted := 15
abbrev unexpected := 16
abbrev unsupported := 20
end Aer

/-- An error is noted in the error status of a link (R314). PRESUMED: log entry 80. -/
def State.aerSet (s : State) (link bit : Nat) : State :=
  { s with io := { s.io with aer := nset 0 s.io.aer link (kget 0 s.io.aer link ||| BitVec.ofNat 32 (2 ^ bit)) } }

/-- Complete a request of a link with status UR. -/
def State.unsupported (s : State) (link : Nat) : State := (s.aerSet link Aer.unsupported).sendTlp link (.cpl 1 [])

/-- Complete a request of a link with status CA. -/
def State.abortCpl (s : State) (link : Nat) : State := (s.aerSet link Aer.aborted).sendTlp link (.cpl 4 [])

/-- A PCI Express PLL, 0 of the endpoint or p + 1 of root port p, loses lock: counted, unless its domain is in reset (R362, R363).
DEDUCED: log entry 93. -/
def State.pcieUnlock (s : State) (link : Nat) : State :=
  if s.released 8 then
    let s := { s with io := { s.io with pllLost := s.io.pllLost ||| BitVec.ofNat 5 (2 ^ link) } }
    (s.bumpF .clkPhyEvents Fld.clkPhyEventsPcieUnlocks 1).setF .clkStatus Fld.clkStatusPcieLock 0
  else s

/-- A link that reaches L0 has its PLL in lock; CLK.STATUS.pcie_lock is 1 while all five are (R362). DEDUCED: log entry 93. -/
def State.relock (s : State) (link : Nat) : State :=
  if s.io.pllLost.getLsbD link then
    let x := s.io.pllLost &&& ~~~BitVec.ofNat 5 (2 ^ link)
    let s := { s with io := { s.io with pllLost := x } }
    if x = 0 then s.setF .clkStatus Fld.clkStatusPcieLock 1 else s
  else s

/-- The endpoint may issue a TLP: its link is in L0 with Bus Master Enable set (R322), no reset of it is under way (R375), and it is in D0
(R314). DEDUCED, PRESUMED: log entries 59, 80. -/
def State.hostUp (s : State) : Bool :=
  s.rf (.rstUnit 544) Fld.rstUnitState == 0 && s.rf .pcieEpStatus Fld.pcieEpStatusLinkUp == 1 && s.rf .pcieEpStatus Fld.pcieEpStatusBusMaster == 1
    && !s.io.d3hot

/-- MSI-X Enable is set. -/
def State.msixOn (s : State) : Bool := s.rf .pcieEpStatus Fld.pcieEpStatusMsixEnable == 1

/-- A vector is masked: by Function Mask, or by bit 32 of the second quadword of its table entry. PRESUMED: log entry 80. -/
def State.msixMasked (s : State) (v : Nat) : Bool := s.io.fnMask || (s.rget (.pcieMsixTable v 1)).getLsbD 32

/-- Set or clear the pending bit of a vector. -/
def State.setPba (s : State) (v : Nat) (b : Bool) : State :=
  let x := s.rget (.pcieMsixPba (v / 64))
  let m := BitVec.ofNat 64 (2 ^ (v % 64))
  s.rset (.pcieMsixPba (v / 64)) (if b then x ||| m else x &&& ~~~m)

/-- The message of a vector: a 4 B write of its data to its address. PRESUMED: log entry 80. -/
def State.msixMessage (s : State) (v : Nat) : State :=
  s.sendTlp 0 (.memWrite (s.rget (.pcieMsixTable v 0)).toNat
    (leBytes 4 ((s.rget (.pcieMsixTable v 1)).toNat % 2 ^ 32)) false false)

/-- Raise a vector (R319): its message, or its pending bit while it is masked or MSI-X is disabled. A device whose endpoint may send
nothing leaves it pending. -/
def State.msix (s : State) (v : Nat) : State :=
  if s.msixMasked v || !s.msixOn || !s.hostUp then s.setPba v true else s.msixMessage v

/-- Pending vectors that have become unmasked send their messages. -/
def State.flushPba (s : State) : State :=
  (List.range 2048).foldl (fun s v =>
    if (s.rget (.pcieMsixPba (v / 64))).getLsbD (v % 64) && !s.msixMasked v && s.msixOn && s.hostUp then
      (s.setPba v false).msixMessage v
    else s) s

end Sys2Proof.Machine
end

