-- ==== Sys2Proof/Machine/Faults.lean ====
section
/-! DEFINITION. The fault collector and its ring, FAULT_N, the lantern freeze and the readout chains (R394 to R409). -/

namespace Sys2Proof.Machine

/-! ## The collector (R399 to R401) -/

/-- A record of this severity asserts FAULT_N (R401); pin_level 3 never does. -/
def State.pinLevel (s : State) (sev : Nat) : Bool :=
  s.af .fltCtrl Fld.fltCtrlPinLevel != 3 && s.af .fltCtrl Fld.fltCtrlPinLevel ≤ sev

/-- A record is lost (R400). -/
def State.loseRecord (s : State) : State :=
  let s := (s.rset .fltLost (s.rget .fltLost + 1)).setF .fltStatus Fld.fltStatusOverflow 1
  { s with flt := { s.flt with lostRun := s.flt.lostRun + 1 } }

/-- The interrupts that follow an acknowledged record write (R401), and the frame of the record (R422).
DEDUCED: log entries 74, 101. -/
def State.recordNotices (s : State) (l : List Byte) : State :=
  let s := if s.rf .fltNotify Fld.fltNotifyHartEn = 1 then
      s.msi (s.rf .fltNotify Fld.fltNotifyHart) (s.rf .fltNotify Fld.fltNotifyIdentity) else s
  let s := if s.rf .fltNotify Fld.fltNotifyVectorEn = 1 then s.msix (s.rf .fltNotify Fld.fltNotifyVector) else s
  if s.faultFwd then s.notifyPeer 22 l else s

/-- Write a numbered record to the fault ring, or lose it if the ring is full (R399, R400). -/
def State.writeRecord (s : State) (n : NumRec) (early : Bool) : State :=
  if s.fltUsed < 2 ^ s.fltFs then
    let j := s.rf .fltTail Fld.fltTailTail
    let l := recBytes s.devId n.body n.seq.toNat (s.flt.lostRun != 0) early ((j / 2 ^ s.fltFs + 1) % 2 == 1) s.flt.lostRun
    let s := { s with flt := { s.flt with lostRun := 0 } }
    let a := s.af .fltRingBase Fld.fltRingBaseBase * 4096 + 64 * (j % 2 ^ s.fltFs)
    let s := (s.winWrite ⟨Kind.device, 0, 0, none⟩ a l).1
    (s.setF .fltTail Fld.fltTailTail (j + 1)).recordNotices l
  else s.loseRecord

/-- Queue a frame on the trace port (R440): a byte 0x7E, the type, the payload and the XOR of the payload; a frame that finds 16
queued is counted in dropped. DEDUCED: log entry 97. -/
def State.traceFrame (s : State) (typ : Nat) (payload : List Byte) : State :=
  if s.sys.traceQ.length < 16 then
    { s with sys := { s.sys with traceQ := s.sys.traceQ ++
        [(0x7E#8 :: BitVec.ofNat 8 typ :: payload) ++ [payload.foldl (· ^^^ ·) 0]] } }
  else s.bumpF .bootTrace Fld.bootTraceDropped 1

/-- The trace port runs and carries frames of a kind (R440). -/
def State.traceOn (s : State) (kind : Fld) : Bool :=
  s.rf .bootTrace Fld.bootTraceEnable == 1 && s.rf .bootTrace kind == 1

/-- The collector receives the next record (R394, R399 to R401): it is numbered and traced, may assert FAULT_N, and is written, held in
the early buffer, or lost. DEDUCED: log entry 75. -/
def State.collect (s : State) : State :=
  match s.flt.net with
  | [] => s
  | r :: rest =>
    let n : NumRec := ⟨r, s.flt.seq⟩
    let s := { s with flt := { s.flt with net := rest, seq := s.flt.seq + 1 } }
    let s := if s.traceOn Fld.bootTraceRecords then
        s.traceFrame 1 (recBytes s.devId r n.seq.toNat (s.flt.lostRun != 0) false false s.flt.lostRun) else s
    let s := if s.pinLevel r.sev then s.setF .fltStatus Fld.fltStatusPin 1 else s
    if s.fltOn then s.writeRecord n false
    else if s.flt.early.length < 256 then { s with flt := { s.flt with early := s.flt.early ++ [n] } }
    else s.loseRecord

/-- FAULT_RECORD (R394). DEDUCED: log entry 75. -/
def execFaultRecord (s : State) : Out := clocked 0 s (fun s => s.collect)

/-- The records of the early buffer are written when the ring becomes enabled (R399). DEDUCED: log entry 74. -/
def State.flushEarly (s : State) : State :=
  let l := s.flt.early
  l.foldl (fun s n => s.writeRecord n true) { s with flt := { s.flt with early := [] } }

/-- The error code of a FLT commit (R409). DEDUCED, DESIGN CHOICE: log entries 74, 110. -/
def State.fltCommitError (s : State) : Nat :=
  let on := s.rf .fltCtrl Fld.fltCtrlEnable == 1
  let fs := s.rf .fltCtrl Fld.fltCtrlFs
  if s.fltOn && on then 1
  else if on && !s.inWindow (s.rf .fltRingBase Fld.fltRingBaseBase * 4096) (64 * 2 ^ fs) then 2
  else if on && (fs < 6 || 20 < fs) then 3
  else 0

/-- FLT.COMMIT with commit = 1 (R409); in a freeze no record is written to memory (R405). DEDUCED: log entry 74. -/
def State.fltCommit (s : State) : State :=
  let e := s.fltCommitError
  let s := s.setF .fltStatus Fld.fltStatusCommitError e
  if e ≠ 0 then s
  else
    let s := (s.commitReg .fltRingBase).commitReg .fltCtrl
    if s.fltOn && !s.frozen then s.flushEarly else s

/-- FLT_COMMIT (R409). It lies in D0, whose clock a freeze leaves running. -/
def execFltCommit (s : State) : Out := always s (fun s => s.fltCommit)

/-! ## FAULT_N and ALERT_N (R401, R406, R420) -/

/-- Writing 1 to FLT.STATUS.pin (R401): a newer record that asserts FAULT_N, a freeze or a failed load keeps it.
DEDUCED: log entry 74. -/
def State.clearPin (s : State) : State :=
  if s.frozen || s.loadFailed || s.flt.net.any (fun r => s.pinLevel r.sev) then s else s.setF .fltStatus Fld.fltStatusPin 0

/-- FAULT_PIN_CLEAR (R401). -/
def execFaultPinClear (s : State) : Out := always s (fun s => s.clearPin)

/-- FAULT_N on GL[2]: low while asserted, which a freeze does; open-drain, so otherwise not driven (R401, R405, R406, R455).
DEDUCED: log entry 98. -/
def State.faultN (s : State) : Level := if s.runPhase && (s.faultHolds || s.frozen) then some false else none

/-- The level of a guyline output but FAULT_N: in a freeze the one it had when the freeze began (R405, R436).
DEDUCED: log entry 98. -/
def State.outLevel (s : State) (i : Nat) : Level := (if s.frozen then s.sys.held else s.levels0).getD i none

/-- PPS_OUT on GL[1] (R417). -/
def State.ppsOut (s : State) : Level := s.outLevel 0
/-- ALERT_N on GL[3] (R401, R420, R455). -/
def State.alertN (s : State) : Level := s.outLevel 1
/-- SBO0 on GL[4] (R438). -/
def State.sbo0 (s : State) : Level := s.outLevel 2
/-- SBO1 on GL[5] (R438). -/
def State.sbo1 (s : State) : Level := s.outLevel 3
/-- GPIO[i] on GL[16 + i] (R439). -/
def State.gpio (s : State) (i : Nat) : Level := s.outLevel (4 + i)

/-! ## Freeze (R404) -/

/-- FREEZE_N is sampled asserted: it is honoured once the root PLL has locked after the release of D1 (R404, R441). D2 is released only with
that lock; before, a free value says whether it is there, and it stays. DEDUCED: log entry 77. -/
def State.sampleFreeze (s : State) : State :=
  if s.frozen then s
  else if s.rf .clkStatus Fld.clkStatusRootLock = 1 then s.freeze 1 0
  else if s.released 1 then
    let (s, b) := s.free 1
    if b = 1 then (s.setF .clkStatus Fld.clkStatusRootLock 1).freeze 1 0 else s
  else s

/-- FREEZE (R404, R441). DEDUCED: log entry 77. -/
def execFreeze (s : State) : Out := always s (fun s => s.sampleFreeze)

/-- FREEZE_KEY: the basecamp controller writes the key to FRZ.CTRL (R404). -/
def execFreezeKey (s : State) : Out := always s (fun s => s.freeze 2 0)

/-! ## Readout chains (R407) -/

/-- A 39-bit codeword of SECDED (39,32) for a word of data and its errors, 0 none, 1 one bit, 2 more (R32, R407): no rule states the
code. DESIGN CHOICE: log entry 10. -/
opaque Config.codeword : W32 → Nat → BitVec 39

/-- The words of a chain whose layout no rule states. DESIGN CHOICE: log entry 10. -/
opaque Config.chainLen : Nat → Nat

/-- A word of a chain whose layout no rule states: a function of the frozen state of the units. DESIGN CHOICE: log entry 10. -/
opaque Config.chainWord : State → Nat → Nat → W64

/-- The chains of R407. -/
def chainExists (c : Nat) : Bool :=
  c < 384 || (0x1000 ≤ c && c < 0x1000 + 384) || (0x2000 ≤ c && c < 0x2000 + 96) || (0x3000 ≤ c && c < 0x3000 + 40)
    || (0x4000 ≤ c && c < 0x4000 + 64) || (0x5000 ≤ c && c < 0x5006)

/-- Words of the SRAM and program memory chain of a tile: one codeword for each 32-bit word. DEDUCED: log entry 76. -/
def sramChainLen : Nat := 0x600000 / 4 + 0x10000 / 4

/-- Words in a chain; 0 if it does not exist or the device is not frozen. -/
def State.chainLen (s : State) (c : Nat) : Nat :=
  if !s.frozen || !chainExists c then 0
  else if 0x1000 ≤ c && c < 0x2000 then sramChainLen
  else Config.chainLen c

/-- The state that a readout chain can show: that of the units whose clocks a freeze stops. DEDUCED: log entry 76. -/
def State.frozenPart (s : State) : State :=
  { s with pending := [], csr := s.csr.filter (fun e => 0xF00001000000 ≤ e.1.addr), stn := 0, sys := Sys.reset, readData := 0,
           freeCtr := 0 }

/-- The codeword of a 32-bit word of memory at a local offset. DEDUCED: log entry 76. -/
def State.codewordAt (s : State) (a : Nat) : W64 :=
  let e := if s.ue.contains (a / 4) then 2 else if s.ce.contains (a / 4) then 1 else 0
  (Config.codeword (BitVec.ofNat 32 (leNat (s.bytesAt a 4))) e).setWidth 64

/-- A word of a chain; zero beyond its length. DEDUCED: log entry 76. -/
def State.chainWord (s : State) (c w : Nat) : W64 :=
  if s.chainLen c ≤ w then 0
  else if 0x1000 ≤ c && c < 0x2000 then
    let n := c - 0x1000
    if w < 0x600000 / 4 then s.codewordAt (apBase n + 4 * w) else s.codewordAt (progBase n + 4 * (w - 0x600000 / 4))
  else Config.chainWord s.frozenPart c w

/-- A read of the selected word advances the word index (R407, R446). DEDUCED: log entry 76. -/
def State.chainRead (s : State) : State :=
  let w := s.rf .frzChainSel Fld.frzChainSelWord
  let x := s.chainWord (s.rf .frzChainSel Fld.frzChainSelChain) w
  { s.setF .frzChainSel Fld.frzChainSelWord (w + 1) with readData := x }

/-- CHAIN_DATA_READ (R407). -/
def execChainDataRead (s : State) : Out := always s (fun s => s.chainRead)

end Sys2Proof.Machine
end

