-- ==== Sys2Proof/Machine/FabLink.lean ====
section
/-! DEFINITION. The lane and link layers of the fabric: flits received and acknowledged, replay, retraining, and the packets of a port that
goes DOWN (R278 to R292). -/

namespace Sys2Proof.Machine

/-! ## Fields of a flit (R280) -/

/-- A field of a flit by byte and bit. -/
def flitBits (f : BitVec 2048) (byte lo width : Nat) : Nat := bitsOf f.toNat (8 * byte + lo) width
/-- The sequence number. -/
def flitSeq (f : BitVec 2048) : Nat := flitBits f 0 0 12
/-- The type: 0 IDLE, 1 DATA, 2 HELLO. -/
def flitType (f : BitVec 2048) : Nat := flitBits f 0 12 4
/-- Slot `i`. -/
def flitSlot (f : BitVec 2048) (i : Nat) : BitVec 128 := f.extractLsb' (96 + 128 * i) 128
/-- Slot `i` begins a packet. -/
def flitStart (f : BitVec 2048) (i : Nat) : Bool := flitBits f 10 i 1 == 1
/-- The CRC of a flit matches. -/
def flitCrcOk (f : BitVec 2048) : Bool := crc32 (leBytes 252 f.toNat) == f.extractLsb' 2016 32

/-! ## Sending -/

/-- A port that exchanges flits with its neighbour: UP, or exchanging HELLOs. -/
def State.portHears (s : State) (p : Nat) : Bool := s.portUp p || s.portState p == 2

/-- Send an IDLE flit, which carries the acknowledgement and credits (R280); a port that is disabled or not trained sends nothing
(R279). DEDUCED: log entry 72. -/
def State.idleFlit (s : State) (p : Nat) (nak : Bool) : State := if s.portHears p then (s.putFlit p 0 0 0 [] nak).1 else s

/-- A DATA flit as it is sent again: with the cumulative acknowledgement of now (R281), the CRC computed anew.
DEDUCED: log entry 72. -/
def reack (f : BitVec 2048) (ack : Nat) (ackValid : Bool) : BitVec 2048 :=
  let body := leBytes 2 f.toNat ++ leBytes 2 (ack % 4096 + if ackValid then 4096 else 0) ++ (leBytes 252 f.toNat).drop 4
  BitVec.ofNat 2048 (leNat (body ++ leBytes 4 (crc32 body).toNat))

/-- The unacknowledged flits of a port as they are sent again. -/
def Port.replayed (x : Port) : List (BitVec 2048) := x.retry.map (fun f => reack f.flit x.lastSeq x.anySeq)

/-- Replay: send every unacknowledged flit again in order (R282). -/
def State.resend (s : State) (p : Nat) : State :=
  { s with fab := { s.fab with wire := ((s.port p).replayed.map (fun f => (p, f))).reverse ++ s.fab.wire } }

/-! ## A port that goes DOWN (R284, R285) -/

/-- The serial number of this device. -/
def State.serial (s : State) : W64 := s.rget .fuseSerial

/-- Put a management packet into the output queue of a port, with hop 0 (R291). -/
def State.sendMgmt (s : State) (p : Nat) (m : MgmtMsg) : State :=
  let typ := match m with
    | .register _ => PT.register | .assign _ _ _ => PT.assign | .route _ _ _ => PT.route | .ready _ => PT.ready
    | .takeoverReq _ => PT.takeoverReq | .takeoverAck _ _ => PT.takeoverAck | .reassign => PT.reassign
  let b := (Config.mgmtBytes typ s.fab.mgmtOut.length).take 256
  let b := if typ = PT.reassign then (b ++ List.replicate 16 0).take 16 else b ++ List.replicate ((16 - b.length % 16) % 16) 0
  let k : Pkt := { vc := VC.mgmt, hop := 0, typ := typ, dst := 0, src := s.devId, path := false, gen := 0, tag := 0, off := 0,
                   payload := b }
  let s := { s with fab := { s.fab with mgmtOut := (p, m) :: s.fab.mgmtOut } }
  s.enqueue p k

/-- The UP ports. -/
def State.ports3 (s : State) : List Nat := (List.range 64).filter s.portUp

/-- The links that this device reports (R300). -/
def State.ownLinks (s : State) : List LinkRep :=
  s.ports3.map (fun p => ⟨p, (s.port p).peerSerial, (s.port p).peerPort⟩)

/-- This device is root-eligible (R299). -/
def State.eligibleRoot (s : State) : Bool := s.rf .fabId Fld.fabIdEligible == 1

/-- The board slot, from the straps GL[5:0] (R430). -/
def State.boardSlot (s : State) : Nat := s.rf .bootStraps Fld.bootStrapsStraps % 64

/-- The report of this device (R300). -/
def State.ownRep (s : State) : RegRep :=
  { serial := s.serial, eligible := s.eligibleRoot, slot := s.boardSlot, heldId := if s.idValid then some s.devId else none,
    links := s.ownLinks, id := none, ready := s.idValid }

/-- The root records a report (R300); after assignment, links that differ change the topology (R474). -/
def State.record (s : State) (r : RegRep) : State :=
  let old := s.fab.registered.find? (fun x => x.serial == r.serial)
  let r := { r with id := match old with | some x => x.id | none => r.id, ready := match old with | some x => x.ready | none => r.ready }
  let new := match old with | some x => x.links != r.links | none => true
  { s with fab := { s.fab with
      registered := s.fab.registered.filter (fun x => x.serial != r.serial) ++ [r]
      changed := s.fab.changed || (s.idValid && new) } }

/-- This device is the root. -/
def State.isRoot (s : State) : Bool := s.rf .fabId Fld.fabIdRoot == 1

/-- Show which port is the parent. -/
def State.setParent (s : State) (p : Option Nat) : State :=
  let s := match s.fab.parent with | some q => s.setF (.fabPortStatus q) Fld.fabPortStatusParent 0 | none => s
  let s := match p with | some q => s.setF (.fabPortStatus q) Fld.fabPortStatusParent 1 | none => s
  { s with fab := { s.fab with parent := p } }

/-- The UP port whose HELLO offers the same root at the lowest distance (R474). -/
def State.nextParent (s : State) : Option Nat :=
  let ps := s.ports3.filter (fun p => (s.port p).peerRootValid && some (s.port p).peerRoot == s.fab.candidate)
  match ps with
  | [] => none
  | p :: l => some (l.foldl (fun b q => if (s.port q).peerDist < (s.port b).peerDist then q else b) p)

/-- Report the UP ports to the root (R303, R474): the root records its own report, another device sends it through its parent port. -/
def State.reportLinks (s : State) : State :=
  if s.isRoot then s.record s.ownRep
  else
    let s := match s.fab.parent with
      | some p => if s.portUp p then s else s.setParent s.nextParent
      | none => s.setParent s.nextParent
    match s.fab.parent with
    | some p => s.sendMgmt p (.register s.ownRep)
    | none => s

/-- The number of packets of a port that are not known to be delivered. -/
def Port.undelivered (x : Port) : Nat := x.sent.length + x.outQ.length

/-- Resolve the packets of a port that has gone DOWN (R285): through another UP port to the same neighbour, or discarded; the number
discarded. DEDUCED: log entry 73. -/
def State.resolvePort (s : State) (p : Nat) : State × Nat :=
  let x := s.port p
  match s.ports3.find? (fun q => q != p && (s.port q).peerSerial == x.peerSerial) with
  | some q => ((s.setPort p { x with takeover := some q, partSlots := [] }).sendMgmt q (.takeoverReq p), 0)
  | none =>
    let n := x.undelivered
    let s := s.setPort p { x with sent := [], outQ := [], retry := [], partSlots := [] }
    (s.bumpF (.fabPortEvents p) Fld.fabPortEventsDropped n, n)

/-- A port goes DOWN (R284, R285, R474). -/
def State.portDown (s : State) (p : Nat) : State :=
  let serial := (s.port p).peerSerial
  let s := (s.setPortState p 5).setF (.fabPortStatus p) Fld.fabPortStatusVersion 0
  let s := s.bumpF (.fabPortEvents p) Fld.fabPortEventsDowns 1
  let (s, n) := s.resolvePort p
  let s := s.report { mkRec Cls.fabLinkDown 2 Kind.port p with
    detail0 := BitVec.ofNat 64 (p + n % 2 ^ 24 * 2 ^ 8), detail1 := serial.setWidth 48 }
  if s.idValid then s.reportLinks else s

/-- A port enters ISOLATED (R284, R298). -/
def State.isolate (s : State) (p cls : Nat) : State :=
  let s := (s.setPortState p 6).setF (.fabPortStatus p) Fld.fabPortStatusVersion 0
  let s := s.report (mkRec cls 2 Kind.port p)
  if s.idValid then s.reportLinks else s

/-- A port retrains (R284); a fourth retrain within 1 s puts it DOWN. -/
def State.retrain (s : State) (p : Nat) : State :=
  let x := s.port p
  let t := s.now.toNat
  let recent := x.retrainAt.filter (fun u => t < u + 1000000000)
  let s := s.setPort p { x with retrainAt := t :: recent, replays := 0 }
  let s := s.bumpF (.fabPortEvents p) Fld.fabPortEventsRetrains 1
  if 3 ≤ recent.length then s.portDown p else s.setPortState p 4

/-- A replay starts (R282); the sixteenth in a row with no flit acknowledged retrains the port (R284). DEDUCED: log entry 72. -/
def State.replay (s : State) (p : Nat) : State :=
  let x := s.port p
  if x.retry.isEmpty then s
  else
    let s := (s.setPort p { x with replays := x.replays + 1 }).bumpF (.fabPortLink p) Fld.fabPortLinkReplays 1
    let s := s.resend p
    if 16 ≤ x.replays + 1 then s.retrain p else s

/-! ## Receiving (R281) -/

/-- The acknowledgement of a flit header: acknowledged flits leave the retry buffer (R282). -/
def State.takeAck (s : State) (p : Nat) (f : BitVec 2048) : State :=
  let x := s.port p
  let a := flitBits f 2 0 12
  if flitBits f 2 12 1 = 1 ∧ x.retry.any (fun r => r.seq == a) then
    let rest := (x.retry.dropWhile (fun r => r.seq != a)).drop 1
    let gone := x.retry.takeWhile (fun r => r.seq != a) ++ (x.retry.find? (fun r => r.seq == a)).toList
    s.setPort p { x with retry := rest, replays := 0, sent := x.sent.filter (fun k => !gone.any (fun r => r.seq == k.last)) }
  else s

/-- The credit returns of a flit header (R280, R289). -/
def State.takeCredits (s : State) (p : Nat) (f : BitVec 2048) : State :=
  [4, 6, 8].foldl (fun s b =>
    let key := creditKey (flitBits f b 0 3) (flitBits f b 3 3)
    let x := s.port p
    s.setPort p { x with credits := nset 0 x.credits key (kget 0 x.credits key - flitBits f b 6 10) }) s

/-- The header of a flit whose CRC matches: acknowledgement, credit returns, and a replay on nak (R280, R282). The credit returns of a
DATA flit that is discarded come again when it is replayed, and are taken then. DEDUCED: log entry 72. -/
def State.takeHeader (s : State) (p : Nat) (f : BitVec 2048) (credits : Bool := true) : State :=
  let s := s.takeAck p f
  let s := if credits then s.takeCredits p f else s
  let s := if flitBits f 2 13 1 = 1 then s.replay p else s
  s.pumpPort p

/-- Flit `n` of a port is the first flit that lies whole in its codeword of 514 symbols of 10 bits. DESIGN CHOICE: log entry 118. -/
def firstWhole (n : Nat) : Bool :=
  let c := 2048 * n / 5140
  2048 * n + 2048 ≤ 5140 * (c + 1) && (n == 0 || 2048 * (n - 1) < 5140 * c)

/-- FEC corrections and failures (R278): an uncorrectable codeword marks every flit that it touches, and is counted once, by the first
flit that lies whole in it. DEDUCED: log entry 101. DEDUCED, DESIGN CHOICE: log entries 101, 118. -/
def State.countFec (s : State) (p corrected : Nat) (bad : Bool) : State :=
  let x := s.port p
  let s := (s.setPort p { x with rxFlits := x.rxFlits + 1 }).bumpF (.fabPortFec p) Fld.fabPortFecCorrected corrected
  if bad && firstWhole x.rxFlits then s.bumpF (.fabPortFec p) Fld.fabPortFecUncorrectable 1 else s

/-- The types of HFP packets, the channels and payload lengths that each allows (R286). -/
def pktAllowed (typ vc len : Nat) : Bool :=
  match typ with
  | 0x01 | 0x05 => vc == VC.req && len == 0
  | 0x02 => (vc == VC.req || vc == VC.bulk) && len == 4
  | 0x03 => (vc == VC.req || vc == VC.bulk) && len == 5
  | 0x04 => vc == VC.sig && len == 1
  | 0x06 => vc == VC.req && len == 1
  | 0x10 => vc == VC.rsp && (len == 4 || len == 1)
  | 0x11 => vc == VC.rsp && len == 0
  | 0x12 => vc == VC.rsp && len == 1
  | 0x20 => vc == VC.red && len == 16
  | 0x30 | 0x31 | 0x32 | 0x33 | 0x34 | 0x35 => vc == VC.mgmt && len ≤ 16
  | 0x36 => vc == VC.mgmt && len == 1
  | _ => false

/-- The source field of a header is valid: its reserved bits are zero, and it does not name this device. DEDUCED: log entry 57. -/
def State.sourceValid (s : State) (h : BitVec 128) : Bool :=
  bitsOf h.toNat 45 3 == 0 && !(s.idValid && bitsOf h.toNat 32 12 == s.devId)

/-- A malformed packet is counted and recorded (R287). -/
def State.noteMalformed (s : State) : State :=
  (s.bumpF .fabDrops Fld.fabDropsMalformed 1).report (mkRec Cls.fabMalformed 0 Kind.device 0)

/-- A malformed packet (R287): counted, recorded, a request with a valid source answered with ERR code 5. -/
def State.malformedPkt (s : State) (h : BitVec 128) (k : Pkt) : State :=
  let s := s.noteMalformed
  if isRequest k.typ && s.sourceValid h then s.respondErr k 5 else s

/-- Slots of a packet leave the receive buffer of a port: their credits are owed (R289). -/
def State.freeSlots (s : State) (p : Nat) (k : Pkt) : State :=
  let x := s.port p
  s.setPort p { x with owed := x.owed ++ [(k.vc, k.hop, k.slots.length)] }

/-- A whole packet has arrived at port `p` (R287, R290, R291): malformed, for this device, or forwarded. -/
def State.deliver (s : State) (p : Nat) (h : BitVec 128) (body : List (BitVec 128)) : State :=
  let k := pktOf h body
  if !headerClean h || !pktAllowed k.typ k.vc body.length || (k.vc == VC.mgmt && k.hop != 0) then (s.freeSlots p k).malformedPkt h k
  else if k.vc = VC.mgmt ∨ (s.idValid ∧ k.dst = s.devId) then { s with fab := { s.fab with inq := s.fab.inq ++ [(p, k)] } }
  else
    let s := s.freeSlots p k
    if s.levels ≤ k.hop + 1 then
      (s.bumpF .fabDrops Fld.fabDropsHops 1).report (mkRec Cls.fabHops 0 Kind.device 0)
    else (s.sendPkt Who.noOne { k with hop := k.hop + 1 }).1

/-- The slots of an accepted flit, in order (R280): packets begin at start slots and continue into later flits.
DEDUCED: log entry 28. -/
def State.takeSlots (s : State) (p : Nat) (f : BitVec 2048) : List Nat → State
  | [] => s
  | i :: l =>
    let x := s.port p
    let part := if flitStart f i then [flitSlot f i] else if x.partSlots.isEmpty then [] else x.partSlots ++ [flitSlot f i]
    match part with
    | [] => s.takeSlots p f l
    | h :: body =>
      if body.length = headerLen h then
        ((s.setPort p { x with partSlots := [] }).deliver p h body).takeSlots p f l
      else (s.setPort p { x with partSlots := part }).takeSlots p f l

/-- A receiver discards a DATA flit (R281): on the first discard it sends nak. -/
def State.discardFlit (s : State) (p : Nat) : State :=
  let x := s.port p
  let s := s.bumpF (.fabPortLink p) Fld.fabPortLinkFailed 1
  if x.nak then s else (s.setPort p { x with nak := true }).idleFlit p true

/-- A port receives a DATA flit (R281). -/
def State.dataFlit (s : State) (p : Nat) (f : BitVec 2048) (corrected : Nat) (bad : Bool) : State :=
  if !s.portHears p then s
  else
    let s := s.countFec p corrected bad
    if bad || !flitCrcOk f then s.discardFlit p
    else
      let next := flitSeq f == ((s.port p).lastSeq + 1) % 4096
      let s := s.takeHeader p f (flitType f != 1 || next)
      if flitType f ≠ 1 then s
      else if next then
        let s := s.setPort p { s.port p with lastSeq := flitSeq f, anySeq := true, nak := false }
        let s := (s.bumpF (.fabPortFlits p) Fld.fabPortFlitsRx 1).takeSlots p f (List.range 15)
        s.idleFlit p false
      else s.discardFlit p

/-- DATA_FLIT (R281): `corrected` symbols were corrected, `bad` says that an uncorrectable codeword marks the flit (R278). -/
def execDataFlit (p : PortId) (flit : BitVec 2048) (corrected : W16) (bad : Bool) (s : State) : Out :=
  clocked 7 s (fun s => s.dataFlit p flit corrected.toNat bad)

/-- IDLE_FLIT (R280). -/
def execIdleFlit (p : PortId) (flit : BitVec 2048) (corrected : W16) (bad : Bool) (s : State) : Out :=
  clocked 7 s (fun s =>
    if !s.portHears p then s
    else
      let s := s.countFec p corrected.toNat bad
      if bad || !flitCrcOk flit || flitType flit != 0 then s else s.takeHeader p flit)

/-- ACK_TIMEOUT: the oldest unacknowledged flit has waited ack_timeout (R282). -/
def execAckTimeout (p : PortId) (s : State) : Out := clocked 7 s (fun s => if s.portUp p then s.replay p else s)

/-- NAK_REPEAT: a receiver that still waits repeats its nak once per ack timeout (R281). -/
def execNakRepeat (p : PortId) (s : State) : Out :=
  clocked 7 s (fun s => if s.portHears p && (s.port p).nak then s.idleFlit p true else s)

/-! ## Training (R284, R297) -/

/-- RETRAIN_TIMEOUT: a retrain does not complete within 2 ms (R284). -/
def execRetrainTimeout (p : PortId) (s : State) : Out := clocked 7 s (fun s => if s.portState p = 4 then s.portDown p else s)

/-- A port that is enabled, in force (R279). -/
def State.portEnabled (s : State) (p : Nat) : Bool := s.af (.fabPortCfg p) Fld.fabPortCfgEnable == 1

/-- PORT_TRAINING_ATTEMPT: a DOWN port attempts training while it is enabled (R284). -/
def execPortTrainingAttempt (p : PortId) (s : State) : Out :=
  clocked 7 s (fun s => if s.portState p = 5 ∧ s.portEnabled p then s.setPortState p 1 else s)

/-- A link that trains anew starts its numbers and credits afresh, and keeps what it knows of its first neighbour. Packets whose takeover
has not been answered are not sent again (R285). DEDUCED: log entry 72. -/
def Port.fresh (x : Port) : Port :=
  { Port.reset with outQ := if x.takeover.isSome then [] else x.outQ, retrainAt := x.retrainAt, knownPeer := x.knownPeer,
                    firstPeer := x.firstPeer, firstPort := x.firstPort, peerSerial := x.peerSerial, peerPort := x.peerPort,
                    turn := x.turn }

/-- A port trains anew (R285, R289): the levels and shares are exchanged. -/
def State.freshPort (s : State) (p : Nat) : State :=
  let x := s.port p
  let s := if x.takeover.isSome then s.bumpF (.fabPortEvents p) Fld.fabPortEventsDropped x.undelivered else s
  s.setPort p { x.fresh with lvl := s.levels, shr := s.aget .fabVcShare }

/-- LANES_TRAINED: training completes and HELLOs are exchanged, or a retrain completes and the port resumes with its sequence numbers
and retry buffer (R284, R297). -/
def execLanesTrained (p : PortId) (s : State) : Out :=
  clocked 7 s (fun s =>
    if s.portState p = 1 then
      (s.freshPort p).setPortState p 2
    else if s.portState p = 4 then ((s.setPortState p 3).resend p).pumpPort p
    else s)

/-- PCS_LOSS_OF_LOCK: the PCS of a port loses lock, with its SerDes PLL or alone (R284, R362); a monitor whose domain is in reset reports
nothing (R363). -/
def execPcsLossOfLock (p : PortId) (pll : Bool) (s : State) : Out :=
  clocked 7 s (fun s =>
    let s := if pll && s.released 7 then s.bumpF .clkPhyEvents Fld.clkPhyEventsSerdesUnlocks 1 else s
    if s.portState p = 3 then s.retrain p else if s.portState p = 2 then s.setPortState p 1 else s)

/-- FAB.PORT_COMMIT with commit = 1 (R279): an enabled port trains; a disabled one powers its lanes down. A port that is enabled anew comes UP
next to any neighbour: only one that went DOWN must meet the same (R284, R297). DEDUCED: log entry 73. -/
def State.portCommit (s : State) (p : Nat) : State :=
  let was := s.portEnabled p
  let s := s.commitReg (.fabPortCfg p)
  let on := s.portEnabled p
  if on && !was then (s.setPort p { s.port p with knownPeer := false }).setPortState p 1
  else if !on && was then
    let up := s.portUp p
    let s := (s.setPortState p 0).setF (.fabPortStatus p) Fld.fabPortStatusVersion 0
    let s := if up then (s.resolvePort p).1 else s
    if up && s.idValid then s.reportLinks else s
  else s

/-- FAB_PORT_COMMIT (R279). -/
def execFabPortCommit (p : PortId) (s : State) : Out := clocked 7 s (fun s => s.portCommit p)

/-- The error code of a FAB.COMMIT: levels outside 1 to 6, or a channel's share per level below 34 slots.
DESIGN CHOICE: log entry 110. -/
def State.fabCommitError (s : State) : Nat :=
  let levels := s.rf .fabCfg Fld.fabCfgLevels
  let share (v : Nat) : Nat := bitsOf (s.rget .fabVcShare).toNat (8 * v) 8
  let total := ((List.range 6).map share).sum
  if levels < 1 || 6 < levels then 1
  else if (List.range 6).any (fun v => 24576 * share v / max 1 total / levels < 34) then 2
  else 0

/-- FAB.COMMIT with commit = 1 (R282, R289). -/
def State.fabCommit (s : State) : State :=
  let e := s.fabCommitError
  let s := s.setF .fabStatus Fld.fabStatusCommitError e
  if e ≠ 0 then s
  else
    let t := s.rf .fabCfg Fld.fabCfgAckTimeout
    let s := s.setF .fabCfg Fld.fabCfgAckTimeout (max 100 (min 900 t))
    ((s.commitReg .fabCfg).commitReg .fabVcShare).commitReg .fabInbound

/-- FAB_COMMIT (R289). -/
def execFabCommit (s : State) : Out := clocked 7 s (fun s => s.fabCommit)

end Sys2Proof.Machine
end

