-- ==== Sys2Proof/Machine/PegOps.lean ====
section
/-! DEFINITION. The peg unit: one update, its mirror write, and every waiter evaluated (R221 to R224). -/

namespace Sys2Proof.Machine

/-- One update of a peg (R221, R222). -/
inductive PegUpd where
  | add (n : BitVec 63) (fault : Bool)
  | value (v : W64)
  deriving DecidableEq, Repr

/-- The value of a peg: count in bits [62:0], fault bit 63. -/
def State.peg (s : State) (p : Nat) : W64 := s.rget (.pegValue p)

/-- The value after an update. -/
def PegUpd.apply (u : PegUpd) (v : W64) : W64 :=
  match u with
  | .add n f => BitVec.ofNat 64 ((v.toNat % 2 ^ 63 + n.toNat) % 2 ^ 63 + (if f ∨ v.getLsbD 63 then 2 ^ 63 else 0))
  | .value x => x

/-- The fault bit of a peg (R221). -/
def pegFaulted (v : W64) : Bool := v.getLsbD 63

/-- A wait condition on a peg count: 1 at least, 2 equal, 0 none (R56, and the descriptor header). -/
def pegCond (cond : Nat) (v value : W64) : Bool :=
  match cond with
  | 0 => true
  | 1 => value.toNat ≤ v.toNat % 2 ^ 63
  | _ => value.toNat == v.toNat % 2 ^ 63

/-- The PEG_FAULT record of a waiter (R223). -/
def pegFaultRec (kind unitIx p : Nat) : FaultRec :=
  { mkRec Cls.pegFault (if kind = Kind.tile then 2 else 1) kind unitIx with addr := BitVec.ofNat 64 (0xF00012000000 + 64 * p) }

/-- A tile in PWAIT on a peg sees its new value (R222, R223). -/
def State.wakeTile (s : State) (p : Nat) (v : W64) (n : Nat) : State :=
  match (s.tile n).pwait with
  | some x =>
    if x.peg ≠ p then s
    else if pegFaulted v then s.faultTile n (some (pegFaultRec Kind.tile n p))
    else if pegCond x.cond v x.value then s.modTile n (fun t => { t with pwait := some { x with seen := true } })
    else s
  | none => s

/-! ## Descriptor headers -/

/-- Bits of a descriptor's 64 B. -/
def Desc.bits (d : Desc) (byte lo width : Nat) : Nat := bitsOf d.raw.toNat (8 * byte + lo) width
/-- op. -/
def Desc.op (d : Desc) : Nat := d.bits 0 0 8
/-- ver. -/
def Desc.ver (d : Desc) : Nat := d.bits 0 8 4
/-- prio. -/
def Desc.prio (d : Desc) : Nat := d.bits 0 12 3
/-- serial. -/
def Desc.serial (d : Desc) : Bool := d.bits 0 16 1 == 1
/-- no_signal. -/
def Desc.noSignal (d : Desc) : Bool := d.bits 0 17 1 == 1
/-- job. -/
def Desc.job (d : Desc) : Nat := d.bits 4 0 8
/-- wait_peg. -/
def Desc.waitPeg (d : Desc) : Nat := d.bits 8 0 16
/-- wait_cond. -/
def Desc.waitCond (d : Desc) : Nat := d.bits 10 0 8
/-- wait_value. -/
def Desc.waitValue (d : Desc) : Nat := d.bits 16 0 63
/-- signal_peg. -/
def Desc.signalPeg (d : Desc) : Nat := d.bits 24 0 16
/-- signal_add. -/
def Desc.signalAdd (d : Desc) : Nat := d.bits 32 0 63
/-- op_block. -/
def Desc.opBlock (d : Desc) : Nat := d.bits 40 0 64
/-- count. -/
def Desc.count (d : Desc) : Nat := d.bits 48 0 64
/-- cookie. -/
def Desc.cookie (d : Desc) : W64 := if d.bad then 0 else BitVec.ofNat 64 (d.bits 56 0 64)
/-- A field of the operation block that a started descriptor holds. -/
def Desc.blk (d : Desc) (i n : Nat) : Nat := bitsOf d.block.toNat (8 * i) (8 * n)

/-- The descriptors that may start as far as their order goes: every earlier one has started, and with serial every earlier one
has completed (R215). -/
def Ring.inOrder (x : Ring) (d : Desc) : Bool :=
  let earlier := x.descs.takeWhile (fun e => !Desc.isLive d.idx e)
  earlier.all (fun e => e.started || e.phase == .ended || e.phase == .journaled)
    && (!d.serial || earlier.all (fun e => e.phase == .journaled))

/-- A descriptor waits on peg `p` (R215, PEG.WAITERS). -/
def Ring.waitsOn (x : Ring) (p : Nat) (d : Desc) : Bool :=
  d.phase == .admitted && !d.bad && d.waitCond != 0 && d.waitPeg == p && x.inOrder d

/-- The descriptors of a ring that wait on a peg see its new value (R222, R223). -/
def State.wakeRing (s : State) (p : Nat) (v : W64) (r : Nat) : State :=
  let x := s.ring r
  s.setRing r { x with descs := x.descs.map (fun d =>
    if x.waitsOn p d then
      { d with
        pegFault := d.pegFault || (!d.pegSeen && pegFaulted v)
        pegSeen := d.pegSeen || (!d.pegFault && !pegFaulted v && pegCond d.waitCond v (BitVec.ofNat 64 d.waitValue)) }
    else d) }

/-- The mirror writes of a peg that wait for an earlier one go out, oldest first, while none of the peg is open (R224): 8 B writes; a refused
one writes its record and the update stands. `n` bounds how many. -/
def State.mirrorPump (s : State) (p : Nat) : Nat → State
  | 0 => s
  | n + 1 =>
    if s.hasOpen (.peg p) then s
    else match popFirst (fun (m : Nat × Nat × W64) => m.1 == p) s.fab.mirrors with
      | some (m, rest) =>
        let s := { s with fab := { s.fab with mirrors := rest } }
        ((s.writeAt ⟨Kind.pegs, p, 0, none⟩ (.peg p) VC.req m.2.1 (leBytes 8 m.2.2.toNat)).1).mirrorPump p n
      | none => s

/-- The mirror writes of a peg that may go out now go out. -/
def State.mirrorNext (s : State) (p : Nat) : State := s.mirrorPump p s.fab.mirrors.length

/-- A request of an owner has ended: the next mirror write of a peg follows it (R224). -/
def State.mirrorAfter (s : State) (o : Owner) : State := match o with | .peg p => s.mirrorNext p | _ => s

/-- The mirror write of a peg (R224), which never overtakes an earlier one of that peg. -/
def State.mirror (s : State) (p : Nat) : State :=
  if s.rf (.pegMirror p) Fld.pegMirrorEnable = 1 then
    ({ s with fab := { s.fab with
        mirrors := s.fab.mirrors ++ [(p, s.rf (.pegMirror p) Fld.pegMirrorAddress * 8, s.peg p)] } } : State).mirrorNext p
  else s

/-- The next task of the release order. -/
def StepRun.next (x : StepRun) : Option Task := x.order[x.tasks.length]?

/-- The peg and the count that a task waits for before its release (R199). -/
def StepRun.waitOf (x : StepRun) (t : Task) : Option (Nat × Nat) :=
  if t.bwd then (if t.block + 1 = x.blocks then x.bwdIn.map (fun p => (p, x.pegBase + t.mb + 1)) else none)
  else if t.block = 0 then x.fwdIn.map (fun p => (p, x.pegBase + t.mb + 1)) else none

/-- The peg wait of the scheduler's next task sees a new value (R222, R223). -/
def StepRun.seePeg (x : StepRun) (p : Nat) (v : W64) : StepRun :=
  match x.next.bind x.waitOf with
  | some (q, n) =>
    if q ≠ p then x
    else if pegFaulted v then { x with pegFault := true }
    else if n ≤ v.toNat % 2 ^ 63 then { x with pegSeen := true } else x
  | none => x

/-- The scheduler sees the new value of a peg. -/
def State.wakeSched (s : State) (p : Nat) (v : W64) : State :=
  match s.sched.run with
  | some x => if x.aborting then s else { s with sched := { s.sched with run := some (x.seePeg p v) } }
  | none => s

/-- An update of rule 6 whose return peg reaches its target may end (R180). -/
def Update.seePeg (u : Update) (p : Nat) (v : W64) : Update :=
  match u.target with
  | some h => if bitsOf u.block.toNat (8 * 26) 16 = p ∧ h ≤ v.toNat % 2 ^ 63 then { u with returned := true } else u
  | none => u

/-- The state engine sees the new value of a peg. -/
def State.wakeEngine (s : State) (p : Nat) (v : W64) : State :=
  { s with engine := { s.engine with updates := s.engine.updates.map (fun u => u.seePeg p v) } }

/-- The peg unit applies one update and evaluates every waiter (R222). -/
def State.pegApply (s : State) (p : Nat) (u : PegUpd) : State :=
  let v := u.apply (s.peg p)
  let s := (((s.rset (.pegValue p) v).mirror p).wakeSched p v).wakeEngine p v
  let s := (s.tiles.map Prod.fst).foldl (fun s n => s.wakeTile p v n) s
  (s.rings.map Prod.fst).foldl (fun s r => s.wakeRing p v r) s

/-- A signal adds to a peg (R221). -/
def State.pegSignal (s : State) (p n : Nat) : State := s.pegApply p (.add (BitVec.ofNat 63 n) false)

/-- A completion in fault sets the fault bit of its peg and adds nothing (R220). -/
def State.pegFault (s : State) (p : Nat) : State := s.pegApply p (.add 0 true)

end Sys2Proof.Machine
end

