-- ==== Sys2Proof/Machine/TisControl.lean ====
section
/-! DEFINITION. The control and synchronisation instructions of TIS (R54 to R57), and the commands to a sequencer (R36 to R39,
R47, R475). -/

namespace Sys2Proof.Machine

/-! ## Branches -/

/-- A branch target: the address of the branch plus imm, bits [2:0] of the sum ignored (R54). -/
def branchTarget (t : Tile) (w : W64) : W64 := (t.pc.zeroExtend 64 + fImm w) &&& 0xFFFFFFFFFFFFFFF8#64

/-- A branch that is taken or not (R54); a taken branch whose target lies outside the program memory is malformed (R75). The
effect `f` on the tile happens with the branch. -/
def branchIf (n : Nat) (taken : Tile → W64 → Bool) (f : W64 → Tile → Tile) (w : W64) (s : State) : State :=
  let t := s.tile n
  if taken t w then
    if (branchTarget t w).toNat ≤ 0xFFF8 then (s.modTile n (f w)).retireTo n ((branchTarget t w).setWidth 17)
    else s.malformed n
  else (s.modTile n (f w)).retire n

/-- A branch that does nothing else. -/
def plainBranch (n : Nat) (taken : Tile → W64 → Bool) : W64 → State → State := branchIf n taken (fun _ t => t)

/-- A branch on a predicate register, which is read (R384). -/
def predBranch (n : Nat) (taken : BitVec 256 → Bool) (w : W64) (s : State) : State :=
  s.readVecs n (predIx (fA w)) (plainBranch n (fun t w => taken (t.preg (fA w % 16))) w)

/-- BR (R54). -/
def execBr (n : TileId) (s : State) : Out := clocked 6 s (tisStep n 0x03 (plainBranch n (fun _ _ => true)))
/-- BEQ (R54). -/
def execBeq (n : TileId) (s : State) : Out :=
  clocked 6 s (tisStep n 0x04 (plainBranch n (fun t w => t.sreg (fA w) == t.sreg (fB w))))
/-- BNE (R54). -/
def execBne (n : TileId) (s : State) : Out :=
  clocked 6 s (tisStep n 0x05 (plainBranch n (fun t w => t.sreg (fA w) != t.sreg (fB w))))
/-- BLT, signed (R54). -/
def execBlt (n : TileId) (s : State) : Out :=
  clocked 6 s (tisStep n 0x06 (plainBranch n (fun t w => (t.sreg (fA w)).slt (t.sreg (fB w)))))
/-- BLTU, unsigned (R54). -/
def execBltu (n : TileId) (s : State) : Out :=
  clocked 6 s (tisStep n 0x07 (plainBranch n (fun t w => (t.sreg (fA w)).ult (t.sreg (fB w)))))
/-- BNZD decrements s[d] and branches if the computed value is not zero (R54). -/
def execBnzd (n : TileId) (s : State) : Out :=
  clocked 6 s (tisStep n 0x08 (branchIf n (fun t w => t.sreg (fD w) - 1 != 0) (fun w t => t.setS (fD w) (t.sreg (fD w) - 1))))
/-- BPANY (R54). -/
def execBpany (n : TileId) (s : State) : Out :=
  clocked 6 s (tisStep n 0x09 (predBranch n (· != 0)))
/-- BPNONE (R54). -/
def execBpnone (n : TileId) (s : State) : Out :=
  clocked 6 s (tisStep n 0x0A (predBranch n (· == 0)))

/-! ## Waiting -/

/-- The wait_reason of the selected work that remains, 0 if none does (R55): passes, drains, transfers, acknowledgements. Vector
instructions complete before the next command. -/
def State.waitReason (s : State) (n : Nat) (sel : Nat) : BitVec 4 :=
  let t := s.tile n
  if (List.range 4).any (fun m => sel.testBit m && t.passBusy m) then 1
  else if (List.range 4).any (fun m => sel.testBit (4 + m) && t.drainBusy m) then 2
  else if (List.range 8).any (fun a => sel.testBit (8 + a) && t.xferBusy a) then 3
  else if sel.testBit 17 && s.tileAcks n then 6
  else 0

/-- Every bit of WAIT. -/
def waitAll : Nat := 0x3FFFF

/-- WAIT completes when no selected work remains (R55). -/
def waitOp (n : Nat) (w : W64) (s : State) : State :=
  let r := s.waitReason n (fImm w).toNat
  if r = 0 then s.retire n else s.waitFor n r

/-- WAIT (R55). -/
def execWait (n : TileId) (s : State) : Out := clocked 6 s (tisStep n 0x0B (waitOp n))

/-- PWAIT waits until a peg satisfies its condition (R54, R56, R223); condition 3 is malformed (R75).
DESIGN CHOICE: log entry 107. -/
def pwaitOp (n : Nat) (w : W64) (s : State) : State :=
  let t := s.tile n
  let p := (t.sreg (fA w)).toNat % 65536
  let c := fX w % 4
  if c = 3 then s.malformed n
  else if pegFaulted (s.peg p) ∧ c ≠ 0 then s.faultTile n (some (pegFaultRec Kind.tile n p))
  else if (match t.pwait with | some x => x.seen | none => false) || pegCond c (s.peg p) (t.sreg (fB w)) then s.retire n
  else s.modTile n (fun t => { t with wait := 5, pwait := some ⟨p, c, t.sreg (fB w), false⟩ })

/-- PWAIT (R56). -/
def execPwait (n : TileId) (s : State) : Out := clocked 6 s (tisStep n 0x0C (pwaitOp n))

/-- PSIG adds to a peg once all earlier work has completed and been acknowledged (R57). -/
def psigOp (n : Nat) (w : W64) (s : State) : State :=
  let r := s.waitReason n waitAll
  if r = 0 then
    let t := s.tile n
    (s.retire n).pegSignal ((t.sreg (fA w)).toNat % 65536) (t.sreg (fB w)).toNat
  else s.waitFor n r

/-- PSIG (R57). -/
def execPsig (n : TileId) (s : State) : Out := clocked 6 s (tisStep n 0x0D (psigOp n))

/-- The halt instruction (R54): the next instruction is where RESUME continues. -/
def execHalt (n : TileId) (s : State) : Out := clocked 6 s (tisStep n 0x01 (fun _ s => (s.retire n).stopTile n ⟨2, none⟩))

/-- END waits for all work, enters IDLE and reports completion (R54, R57). -/
def endOp (n : Nat) (s : State) : State :=
  let r := s.waitReason n waitAll
  if r = 0 then (s.retire n).modTile n (fun t => { t with seq := .idle, ended := true, cause := 0 })
  else s.waitFor n r

/-- END (R54). -/
def execEndProgram (n : TileId) (s : State) : Out := clocked 6 s (tisStep n 0x02 (fun _ s => endOp n s))

/-! ## Commands to a sequencer -/

/-- A START, RESUME or other command is discarded (R37). DEDUCED: log entry 34. -/
def State.ignoreCmd (s : State) (n : Nat) : State := s.setF (.tileFault n) Fld.tileFaultCmdIgnored 1

/-- The pipeline scheduler owns the sequencer's starts (R37). -/
def State.schedOwned (s : State) (n : Nat) : Bool := s.rf (.tileCtrl n) Fld.tileCtrlSchedOwned == 1

/-- Start the program of an idle sequencer at `pc` with the given scalar registers, the others zero (R47). -/
def State.startAt (s : State) (n pc : Nat) (args : NMap W64) : State :=
  s.modTile n (fun t => { t with
    seq := .run, pc := BitVec.ofNat 17 (pc % 65536 / 8 * 8), s := args, cause := 0, wait := 0, pwait := none })

/-- A re-pitch holds every start (R354). -/
def State.repitching (s : State) : Bool := s.rf .bootRepitchStatus Fld.bootRepitchStatusState != 0

/-- A tile takes no new work: a re-pitch holds it, or a reset of it is under way (R354, R375). DEDUCED: log entry 34. -/
def State.startHeld (s : State) (n : Nat) : Bool := s.repitching || s.rf (.rstUnit n) Fld.rstUnitState != 0

/-- START (R37, R47). DEDUCED: log entry 34. -/
def State.seqStart (s : State) (n : Nat) : State :=
  if s.schedOwned n ∨ s.startHeld n ∨ (s.tile n).seq ≠ .idle then s.ignoreCmd n
  else s.startAt n (s.rf (.seqEntry n) Fld.seqEntryEntryPc) []

/-- HALT is obeyed from any agent; it changes a running sequencer only (R37, R38). -/
def State.seqHalt (s : State) (n : Nat) : State :=
  if (s.tile n).seq = .run ∧ (s.tile n).stopping = none then s.stopTile n ⟨1, none⟩ else s

/-- RESUME (R37, R47). -/
def State.seqResume (s : State) (n : Nat) : State :=
  if s.schedOwned n ∨ s.startHeld n ∨ (s.tile n).seq ≠ .halted then s.ignoreCmd n
  else s.modTile n (fun t => { t with seq := .run, cause := 0 })

/-- SEQ_START: START written to SEQ.CTRL (R47). -/
def execSeqStart (n : TileId) (s : State) : Out := clocked 6 s (fun s => s.seqStart n)
/-- SEQ_HALT: HALT written to SEQ.CTRL (R38). -/
def execSeqHalt (n : TileId) (s : State) : Out := clocked 6 s (fun s => s.seqHalt n)
/-- SEQ_RESUME: RESUME written to SEQ.CTRL (R37). -/
def execSeqResume (n : TileId) (s : State) : Out := clocked 6 s (fun s => s.seqResume n)

/-- The watchdog's count has reached its limit (R39): the sequencer runs, the watchdog is enabled, and the instruction at the
program counter does not wait for a pass, drain or transfer. DESIGN CHOICE: log entry 106. -/
def State.watchdogExpires (s : State) (n : Nat) : State :=
  let t := s.tile n
  if t.seq = .run ∧ t.stopping = none ∧ s.rf (.seqWatchdog n) Fld.seqWatchdogLimit ≠ 0 ∧ t.wait ≠ 1 ∧ t.wait ≠ 2 ∧ t.wait ≠ 3 then
    (s.setF (.tileFault n) Fld.tileFaultWatchdog 1).stopNow n ⟨4, some (mkRec Cls.tileWatchdog 2 Kind.tile n)⟩
  else s

/-- SEQUENCER_WATCHDOG (R39). -/
def execSequencerWatchdog (n : TileId) (s : State) : Out := clocked 6 s (fun s => s.watchdogExpires n)

/-- A fetch past the last instruction fetches nothing and faults the sequencer once launched work completes (R475). -/
def State.fetchPastEnd (s : State) (n : Nat) : State :=
  let t := s.tile n
  if t.seq = .run ∧ t.stopping = none ∧ t.pc = 0x10000#17 then s.malformed n else s

/-- FETCH_PAST_PROGRAM_END (R475). -/
def execFetchPastProgramEnd (n : TileId) (s : State) : Out := clocked 6 s (fun s => s.fetchPastEnd n)

end Sys2Proof.Machine
end

