-- ==== Sys2Proof/Machine/TileCtl.lean ====
section
/-! DEFINITION. What other agents do to a tile: its program memory, its vector and AGEN registers, its SRAM aperture (R34 to R36,
R77, R95). -/

namespace Sys2Proof.Machine

/-- A register access that is irregular under R6: any width or alignment but an aligned 4 or 8 bytes. DEDUCED: log entry 16. -/
def irregularSize (addr size : Nat) : Bool := !((size == 8 && addr % 8 == 0) || (size == 4 && addr % 4 == 0))

/-- A CSR_ACCESS record that names an address (R6, R44, R77, R95). -/
def csrRec (w : Who) (addr : Nat) : FaultRec := { whoRec Cls.csrAccess w addr with sev := 0 }

/-- A 64-bit register value after an aligned access of 4 or 8 bytes at `addr` (R6). -/
def mergeHalf (old : W64) (addr size : Nat) (data : W64) : W64 :=
  if size = 8 then data
  else if addr % 8 = 0 then old.extractLsb' 32 32 ++ data.extractLsb' 0 32
  else data.extractLsb' 0 32 ++ old.extractLsb' 0 32

/-- The sequencer is IDLE or HALTED, so program memory and program state accept writes (R36, R77, R95). -/
def State.seqOpen (s : State) (n : Nat) : Bool := (s.tile n).seq == .idle || (s.tile n).seq == .halted

/-- A write to program memory (R36). DESIGN CHOICE: log entry 105. -/
def State.progWrite (s : State) (w : Who) (n off size : Nat) (data : W64) : State :=
  if irregularSize off size then s.report (csrRec w (progBase n + off))
  else if s.seqOpen n then s.store (progBase n + off) (leBytes size data.toNat)
  else (s.setF (.tileFault n) Fld.tileFaultProgBusy 1).report
    { whoRec Cls.tileProgBusy w (progBase n + off) with sev := 0, kind := Kind.tile, unitIx := n }

/-- PROGRAM_MEMORY_WRITE (R36). -/
def execProgramMemoryWrite (agent : Agent) (n : TileId) (offset : W16) (size : Nat) (data : W64) (s : State) : Out :=
  agentDo 6 agent s (fun s => s.progWrite (Agent.who agent) n offset.toNat size data)

/-- A 256-bit predicate with one 64-bit word replaced. -/
def setWord64 (v : BitVec 256) (w : Nat) (x : W64) : BitVec 256 :=
  BitVec.ofNat 256 (v.toNat - bitsOf v.toNat (64 * w) 64 * 2 ^ (64 * w) + x.toNat * 2 ^ (64 * w))

/-- A vector register with one 64-bit word replaced. -/
def setWord8192 (v : BitVec 8192) (w : Nat) (x : W64) : BitVec 8192 :=
  BitVec.ofNat 8192 (v.toNat - bitsOf v.toNat (64 * w) 64 * 2 ^ (64 * w) + x.toNat * 2 ^ (64 * w))

/-- Program state as the VEC registers show it (R45, R77): SR_KEY, SR_INDEX, SREG, PREG and VREG_DATA. -/
def State.vecView (s : State) (n : Nat) : Reg → W64
  | .vecSrKey _ => (s.tile n).srKey
  | .vecSrIndex _ => (s.tile n).srIndex
  | .vecSreg _ k => (s.tile n).sreg k
  | .vecPreg _ k w => ((s.tile n).preg k).extractLsb' (64 * w) 64
  | .vecVregData _ w => ((s.tile n).vreg (s.rf (.vecVregSel n) Fld.vecVregSelReg)).extractLsb' (64 * w) 64
  | r => s.rget r

/-- The lanes of VREG_DATA[w], or the 32-bit words of PREG[w], that an access of 4 or 8 bytes covers. -/
def accessLanes (w addr size : Nat) : List Nat :=
  if size = 8 then [2 * w, 2 * w + 1] else if addr % 8 = 0 then [2 * w] else [2 * w + 1]

/-- A read of lanes of v[k] through VREG_DATA, or of words of p[k - 64] through PREG, by another agent finds their errors (R34, R384),
and leaves the sequencer as it is. DEDUCED: log entry 24. -/
def State.laneErrors (s : State) (w : Who) (n k : Nat) (lanes : List Nat) : State × Bool :=
  s.wordErrors w n (fun x => x / 256 == k && lanes.contains (x % 256))

/-- Set program state through a VEC register (R77); the lanes that the access covers take fresh check bits (R34). -/
def State.setVecView (s : State) (n : Nat) (r : Reg) (addr size : Nat) (x : W64) : State :=
  match r with
  | .vecSrKey _ => s.modTile n (fun t => { t with srKey := x })
  | .vecSrIndex _ => s.modTile n (fun t => { t with srIndex := x })
  | .vecSreg _ k => s.modTile n (fun t => t.setS k x)
  | .vecPreg _ k w =>
    s.modTile n (fun t => t.setP k (setWord64 (t.preg k) w x) (fun i => (accessLanes w addr size).contains i))
  | .vecVregData _ w =>
    let k := s.rf (.vecVregSel n) Fld.vecVregSelReg
    s.modTile n (fun t => t.setV k (setWord8192 (t.vreg k) w x) (fun i => (accessLanes w addr size).contains i))
  | _ => s

/-- The register is one of those that R77 guards. -/
def isVecState : Reg → Bool
  | .vecSrKey _ | .vecSrIndex _ | .vecSreg _ _ | .vecPreg _ _ _ | .vecVregData _ _ => true
  | _ => false

/-- A write to a register of program state is accepted only while the sequencer is IDLE or HALTED (R77). -/
def State.vecWrite (s : State) (w : Who) (n : Nat) (r : Reg) (addr size : Nat) (data : W64) : State :=
  if s.seqOpen n then s.setVecView n r addr size (mergeHalf (s.vecView n r) addr size data) else s.report (csrRec w addr)

/-- Word `w` of the loaded set-up of an AGEN. -/
def State.setupWord (s : State) (n a w : Nat) : W64 := ((s.tile n).agen a).loaded.extractLsb' (64 * w) 64

/-- A write to AGEN.SETUP is accepted only while the sequencer is IDLE or HALTED (R95). -/
def State.agenWrite (s : State) (who : Who) (n a w addr size : Nat) (data : W64) : State :=
  if s.seqOpen n then
    s.modTile n (fun t =>
      let y := t.agen a
      let x := mergeHalf (s.setupWord n a w) addr size data
      let v := y.loaded.toNat
      t.setAgen a { y with loaded := BitVec.ofNat 512 (v - bitsOf v (64 * w) 64 * 2 ^ (64 * w) + x.toNat * 2 ^ (64 * w)) })
  else s.report (csrRec who addr)

/-- AGEN_SETUP_WRITE (R95). -/
def execAgenSetupWrite (agent : Agent) (n : TileId) (a w : Fin 8) (data : W64) (s : State) : Out :=
  agentDo 6 agent s (fun s => s.agenWrite (Agent.who agent) n a w (Reg.agenSetup n a w).addr 8 data)

/-- An access of another agent to a tile's aperture (R35): one bank access for each 64 B line that it touches, in ascending order, until one
meets an error; the bytes read, if none did. DESIGN CHOICE: log entry 4. -/
def State.apertureAccess (s : State) (w : Who) (n off size : Nat) (write : Option (List Byte)) : State × Option (List Byte) :=
  (pieces off (match write with | some l => l.length | none => size)).foldl (fun acc p =>
    match acc.2, write with
    | none, _ => acc
    | some m, some l =>
      let (s, ok) := acc.1.sramWrite w n p.1 ((l.drop (p.1 - off)).take p.2)
      (s, if ok then some m else none)
    | some m, none => let (s, r) := acc.1.sramRead w n p.1 p.2; (s, r.map (m ++ ·))) (s, some [])

/-- Keep what a read returned to its requester. -/
def State.observe (s : State) (r : Option (List Byte)) : State :=
  { s with readData := match r with | some l => BitVec.ofNat 64 (leNat (l.take 8)) | none => 0 }

/-- A core's access to an aperture that is an AMO, LR or SC, or not naturally aligned and of 1, 2, 4 or 8 bytes (R310).
DEDUCED: log entry 71. -/
def apertureFault (agent : Agent) (offset : Nat) (access : SizedAccess Nat) : Option CoreId :=
  match agent with | .core c => if access.atomic || !coreSize offset access.size then some c else none | _ => none

/-- A core's access that met an uncorrectable error takes an access-fault exception (R392). -/
def State.coreLost (s : State) (agent : Agent) (a : Nat) (lost : Bool) : State :=
  match agent with | .core c => if lost then s.accessFault c a else s | _ => s

/-- APERTURE_ACCESS (R35). -/
def execApertureAccess (agent : Agent) (n : TileId) (offset : BitVec 23) (access : SizedAccess Nat) (write : Option (List Byte))
    (s : State) : Out :=
  agentDo 6 agent s (fun s => match apertureFault agent offset.toNat access with
    | some c => s.accessFault c (apBase n + offset.toNat)
    | none =>
      let (s, r) := s.apertureAccess (Agent.who agent) n offset.toNat access.size write
      (s.observe r).coreLost agent (apBase n + offset.toNat) r.isNone)

/-- The scheduled write-back of a corrected SRAM word (R34): the word takes fresh check bits; a word that has become uncorrectable is
met as any read meets it. -/
def State.sramWriteBack (s : State) (n : Nat) : State :=
  match (s.tile n).writeBack with
  | [] => s
  | w :: rest =>
    let s := s.modTile n (fun t => { t with writeBack := rest })
    if s.ue.contains w then s.sramUe n (s.sramUeRec n (Who.tile n) w)
    else { s with ce := s.ce.filter (· != w) }

/-- CORRECTED_WORD_WRITE_BACK (R34). -/
def execCorrectedWordWriteBack (n : TileId) (s : State) : Out := clocked 6 s (fun s => s.sramWriteBack n)

end Sys2Proof.Machine
end

