-- ==== Sys2Proof/Machine/Coherence.lean ====
section
/-! DEFINITION. The commands of the coherent memory system: requests, messages that cores, agents and homes receive, the retry class, and
bias flips (R251, R256 to R276). -/

namespace Sys2Proof.Machine

/-! ## The commands: requests -/

/-- A core asks for a line: it is running, has no miss on it, and holds no copy that the request would not improve.
DEDUCED: log entry 66. -/
def State.coreAsk (s : State) (c addr : Nat) (retires : Bool) (kind : ReqKind) : State :=
  let la := lineOf addr
  let x := s.core c
  let may := match kind, (x.copy la).map (fun l => l.st) with
    | .rdShared, none => true
    | .rdOwn, none | .rdOwn, some .shared => true
    | .upgrade, some .shared => true
    | _, _ => false
  if !s.coreRuns c || !may || x.misses.any (fun m => m.line == la) then s
  else
    let m : Miss := ⟨la, kind == .upgrade, retires, none, false, none, 0, 0⟩
    (s.setCore c { x with misses := x.misses ++ [m] }).arrive (.core (Fin.ofNat 96 c)) la kind

/-- A core's access that R251 refuses takes an access-fault exception if it would retire (R309). -/
def State.coreUndecoded (s : State) (c addr : Nat) (retires : Bool) : State :=
  if !s.coreRuns c then s
  else
    let s := s.undecoded (coreWho c) addr
    if retires then s.accessFault c addr else s

/-- A core's request at a physical address: one with a bit above bit 47 takes an access-fault exception (R309); else to the home of its line, or refused where the offset is in no row of the local map (R251). No request of
a core at an aperture or a register is one of these (R255). -/
def State.coreRequest (s : State) (c addr : Nat) (retires : Bool) (kind : ReqKind) : State :=
  if 2 ^ 48 ≤ addr then if s.coreRuns c && retires then s.accessFault c addr else s
  else if isWindow addr then s.coreAsk c addr retires kind
  else if isAbsent addr then s.coreUndecoded c addr retires
  else s

/-- A non-caching agent's request at a local offset, in the same way; a refused read returns zero (R251). -/
def State.agentRequest (s : State) (agent : Agent) (addr : Nat) (kind : ReqKind) : State :=
  if isWindow addr then s.arrive agent (lineOf addr) kind
  else if isAbsent addr then
    let s := s.undecoded (Agent.who agent) addr
    if kind = .rdNA then s.mesh! (.data agent (lineOf addr) 0) else s
  else s

/-- A message of a command has reached the home of a line: its MCLK ends there unless another message of it follows (R258).
DESIGN CHOICE: log entry 62. -/
def State.lineMclkEnd (s : State) (la : Nat) : State := s.mclkEnd (s.homeOf la)

/-- RD_SHARED: a home receives RdShared (R269). DEDUCED: log entries 66, 71. -/
def execRdShared (c : CoreId) (addr : W64) (retires : Bool) (s : State) : Out :=
  clocked 5 s (fun s => (s.coreRequest c addr.toNat retires .rdShared).lineMclkEnd (lineOf addr.toNat))
/-- RD_OWN: a home receives RdOwn (R269). DEDUCED: log entry 66. -/
def execRdOwn (c : CoreId) (addr : W64) (retires : Bool) (s : State) : Out :=
  clocked 5 s (fun s => (s.coreRequest c addr.toNat retires .rdOwn).lineMclkEnd (lineOf addr.toNat))
/-- UPGRADE: a home receives Upgrade (R269). -/
def execUpgrade (c : CoreId) (addr : W64) (retires : Bool) (s : State) : Out :=
  clocked 5 s (fun s => (s.coreRequest c addr.toNat retires .upgrade).lineMclkEnd (lineOf addr.toNat))

/-- RD_NA: a home serves a non-caching read (R269). -/
def execRdNa (agent : Agent) (addr : BitVec 48) (s : State) : Out :=
  agentDo 4 agent s (fun s => (s.agentRequest agent addr.toNat .rdNA).lineMclkEnd (lineOf addr.toNat))
/-- WR_NA: a home performs a whole-line write of a non-caching agent (R269). -/
def execWrNa (agent : Agent) (addr : BitVec 48) (data : Line) (s : State) : Out :=
  agentDo 4 agent s (fun s => (s.agentRequest agent addr.toNat (.wrNA data)).lineMclkEnd (lineOf addr.toNat))
/-- WR_PART: a home merges and writes a byte-enabled write (R269). -/
def execWrPart (agent : Agent) (addr : BitVec 48) (mask : W64) (data : Line) (s : State) : Out :=
  agentDo 4 agent s (fun s => (s.agentRequest agent addr.toNat (.wrPart mask data)).lineMclkEnd (lineOf addr.toNat))

/-! ## The commands: snoops at a core (R273, R274) -/

/-- Take the first snoop of a kind for a core: line, forward target, agent target. -/
def State.takeSnoop (s : State) (k : SnpKind) (c : Nat) : Option (Nat × Option Nat × Option Agent × State) :=
  match popFirst (fun m => match m with | .snp k' c' _ _ _ => k' == k && c' == c | _ => false) s.mesh with
  | some (.snp _ _ la f a, rest) => some (la, f, a, { s with mesh := rest })
  | _ => none

/-- A core receives the first snoop of a kind. -/
def State.recvSnoop (s : State) (k : SnpKind) (c : Nat) (evicting : Bool) : State :=
  match s.takeSnoop k c with
  | some (la, f, a, s) => s.answer k c la f a evicting
  | none => s

/-- SNP_SHARED (R273). -/
def execSnpShared (c : CoreId) (evicting : Bool) (s : State) : Out := clocked 5 s (fun s => s.recvSnoop .shared c evicting)
/-- SNP_INV (R273). -/
def execSnpInv (c : CoreId) (evicting : Bool) (s : State) : Out := clocked 5 s (fun s => s.recvSnoop .inv c evicting)
/-- SNP_CUR (R269). -/
def execSnpCur (c : CoreId) (evicting : Bool) (s : State) : Out := clocked 5 s (fun s => s.recvSnoop .cur c evicting)

/-! ## The commands: responses -/

/-- The first message on the mesh that `f` picks is received. -/
def State.receive (s : State) (f : Msg → Bool) (g : State → Msg → State) : State :=
  match popFirst f s.mesh with
  | some (m, rest) => g { s with mesh := rest } m
  | none => s

/-- A core receives a grant (R273, R275). -/
def State.recvGrant (s : State) (g : LineState) (c : Nat) (mask : W64) (data : Line) : State :=
  s.receive (fun m => match m with | .cmp g' c' _ => g' == g && c' == c | _ => false)
    (fun s m => match m with | .cmp _ _ la => s.onGrant g c la mask data | _ => s)

/-- CMP_S (R269). -/
def execCmpS (c : CoreId) (s : State) : Out := clocked 5 s (fun s => s.recvGrant .shared c 0 0)
/-- CMP_E (R275). -/
def execCmpE (c : CoreId) (mask : W64) (data : Line) (s : State) : Out := clocked 5 s (fun s => s.recvGrant .exclusive c mask data)
/-- CMP_M (R275). -/
def execCmpM (c : CoreId) (mask : W64) (data : Line) (s : State) : Out := clocked 5 s (fun s => s.recvGrant .modified c mask data)

/-- A home receives a message of its line, which may end its MCLK (R258). DESIGN CHOICE: log entry 62. -/
def State.atHome (s : State) (m : Msg) : State := match m.lineFor with | some la => (s.onMsg m).lineMclkEnd la | none => s.onMsg m

/-- COMP_ACK: a home receives CompAck from a core (R273, R275). -/
def execCompAck (c : CoreId) (s : State) : Out :=
  clocked 4 s (fun s => s.receive (fun m => match m with | .compAck x _ => x == c.val | _ => false) State.atHome)

/-- SNP_ACK: a home receives a core's snoop answer (R273, R274). -/
def execSnpAck (c : CoreId) (s : State) : Out :=
  clocked 4 s (fun s => s.receive (fun m => match m with | .snpAck x _ _ _ _ => x == c.val | _ => false) State.atHome)

/-- WR_ACK: a non-caching agent receives the acknowledgement of its write (R257). -/
def execWrAck (s : State) : Out :=
  clocked 4 s (fun s => s.receive (fun m => match m with | .wrAck _ _ => true | _ => false) State.onMsg)

/-- WB_ACK: a core receives the acknowledgement of its write-back (R272). -/
def execWbAck (c : CoreId) (s : State) : Out :=
  clocked 5 s (fun s => s.receive (fun m => match m with | .wbAck x _ => x == c.val | _ => false) State.onMsg)

/-- DENY: a core receives a bias denial (R263). DEDUCED: log entry 63. -/
def execDeny (c : CoreId) (s : State) : Out :=
  clocked 5 s (fun s => s.receive (fun m => match m with | .deny x _ => x == c.val | _ => false) State.onMsg)

/-! ## The commands: data and write-backs -/

/-- DATA: a requester receives a line from the home (R272). -/
def execData (agent : Agent) (s : State) : Out :=
  clocked (max 4 (Agent.domain agent)) s (fun s => s.receive (fun m => match m with | .data a _ _ => a == agent | _ => false)
    (fun s m => match m with
      | .data (.core _) _ _ => s.onMsg m
      | .data _ _ d => { s with readData := d.setWidth 64 }
      | _ => s))

/-- FWD_DATA: a core receives a line cache to cache (R273). -/
def execFwdData (c : CoreId) (s : State) : Out :=
  clocked 5 s (fun s => s.receive (fun m => match m with | .fwdData x _ _ _ => x == c.val | _ => false) State.onMsg)

/-- SNP_DATA: a home receives a core's snoop data (R269, R273). -/
def execSnpData (c : CoreId) (s : State) : Out :=
  clocked 4 s (fun s => s.receive (fun m => match m with | .snpData x _ _ => x == c.val | _ => false) State.atHome)

/-- WB_DIRTY: a home absorbs a dirty eviction of a core, in flight or begun now (R274). DESIGN CHOICE: log entry 64. -/
def execWbDirty (c : CoreId) (addr : BitVec 48) (s : State) : Out :=
  clocked 4 s (fun s =>
    let la := lineOf addr.toNat
    match popFirst (fun m => match m with | .wbDirty x l _ => x == c.val && l == la | _ => false) s.mesh with
    | some (.wbDirty _ _ d, rest) => (({ s with mesh := rest } : State).absorb c la (some d)).lineMclkEnd la
    | _ =>
      match (s.core c).copy la with
      | some ⟨.modified, d⟩ => ((s.setCore c ((s.core c).drop la)).absorb c la (some d)).lineMclkEnd la
      | _ => s.lineMclkEnd la)

/-- WB_CLEAN: a home absorbs a clean eviction of an owned line, in flight or begun now (R274). DESIGN CHOICE: log entry 64. -/
def execWbClean (c : CoreId) (addr : BitVec 48) (s : State) : Out :=
  clocked 4 s (fun s =>
    let la := lineOf addr.toNat
    match popFirst (fun m => match m with | .wbClean x l => x == c.val && l == la | _ => false) s.mesh with
    | some (_, rest) => (({ s with mesh := rest } : State).absorb c la none).lineMclkEnd la
    | none =>
      match (s.core c).copy la with
      | some ⟨.exclusive, _⟩ => ((s.setCore c ((s.core c).drop la)).absorb c la none).lineMclkEnd la
      | _ => s.lineMclkEnd la)

/-! ## The commands: hold, retry, flips -/

/-- HOLD_EXPIRY: the minimum hold of a line expires (R275). -/
def execHoldExpiry (addr : BitVec 48) (s : State) : Out := clocked 4 s (fun s => s.expireHold (lineOf addr.toNat))

/-- A retry-class request may be served: nothing is open on its line or holds it, and it needs a new entry (R271). -/
def State.mayRetry (s : State) (x : Home) (r : HomeReq) : Bool :=
  !x.openOn r.line && (x.entry r.line).isNone && !s.flips r.line && !s.deviceBias r.line && !s.bankHeld r.line

/-- The oldest retry-class request that way 19 and buffer 15 can serve leaves the class: they serve it, or it is an ordinary request again where
it needs no new entry any more (R271). -/
def State.retryGrant (s : State) (h : Nat) : State :=
  let x := s.home h
  match popFirst (fun (r : HomeReq × Nat) => !s.mayRetry x r.1 || x.pickRetry r.1.line != .none) x.retry with
  | some ((r, _), rest) =>
    if s.mayRetry x r then
      let s := s.setHome h { x with retry := rest, serving := some r.line }
      match r.agent with
      | .core c => (s.serveNew r c (x.pickRetry r.line)).1
      | _ => s
    else ((s.setHome h { x with retry := rest }).arrive r.agent r.line r.kind).mclkEnd h
  | none => s

/-- RETRY_GRANT (R271). -/
def execRetryGrant (h : HomeId) (s : State) : Out := clocked 4 s (fun s => s.retryGrant h)

/-- The error code of a bias commit (R264): of conditions 2 and 3 on one run the narrower, that it crosses the windows, is reported (R15).
DEDUCED: log entry 117. -/
def State.biasError (s : State) (first count : Nat) : Nat :=
  let hbmPages := 524288
  let ok (x : Nat) : Bool := if x < hbmPages then x * 2 ^ 21 < s.hbmSize else (x - hbmPages) * 2 ^ 21 < s.lpSize
  let last := first + count - 1
  if s.flip.isSome then 1
  else if count = 0 then 0
  else if first < hbmPages && hbmPages ≤ last then 3
  else if 2621440 ≤ last || !ok last then 2
  else 0

/-- HOME.BIAS_COMMIT with commit = 1 (R264, R265). -/
def State.biasCommit (s : State) : State :=
  let f (x : Fld) : Nat := s.rf .homeBiasCmd x
  let first := f Fld.homeBiasCmdFirst
  let count := f Fld.homeBiasCmdCount
  let e := s.biasError first count
  let s := s.setF .homeBiasStatus Fld.homeBiasStatusCommitError e
  if e ≠ 0 then s
  else
    let s := s.commitReg .homeBiasCmd
    let peg := f Fld.homeBiasCmdPeg
    let en := f Fld.homeBiasCmdPegEn == 1
    let s := s.setF .homeBiasStatus Fld.homeBiasStatusChanged 0
    if count = 0 then (if en then s.pegSignal peg 1 else s)
    else
      let s := s.setF .homeBiasStatus Fld.homeBiasStatusBusy 1
      ({ s with flip := some ⟨first, count, f Fld.homeBiasCmdTarget == 1, en, peg, 0⟩ } : State).flipRecall

/-- BIAS_COMMIT (R264). -/
def execBiasCommit (s : State) : Out := clocked 4 s (fun s => s.biasCommit)

/-- Every home has finished its walk and its recalls of the run (R265). -/
def State.flipDone (s : State) (f : Flip) : Bool :=
  !f.device || s.homes.all (fun x => x.2.dir.all (fun e => !s.flips e.line) && x.2.txns.all (fun t => !s.flips t.line))

/-- The pages of a run take their bias (R265, R266). -/
def State.setBias (s : State) (f : Flip) : State :=
  let run (x : Nat) : Bool := f.first ≤ x && x < f.first + f.count
  let was := (s.bias.filter run).length
  let s := s.setF .homeBiasStatus Fld.homeBiasStatusChanged (if f.device then f.count - was else was)
  let below := s.bias.filter (fun x => x < f.first)
  let above := s.bias.filter (fun x => f.first + f.count ≤ x)
  { s with bias := below ++ (if f.device then List.range' f.first f.count else []) ++ above }

/-- The flip completes (R265, R266): the run takes its bias, held requests are served, and the peg is signalled. -/
def State.flipEnd (s : State) : State :=
  match s.flip with
  | none => s
  | some f =>
    if s.flipDone f then
      let s := (s.setBias f).setF .homeBiasStatus Fld.homeBiasStatusBusy 0
      let s : State := { s with flip := none }
      let s := (s.homes.map Prod.fst).foldl (fun s h => s.drainHome h) s
      if f.pegEn then s.pegSignal f.peg 1 else s
    else s

/-- BIAS_FLIP_COMPLETE (R265). -/
def execBiasFlipComplete (s : State) : Out := clocked 4 s (fun s => s.flipEnd)

end Sys2Proof.Machine
end

