-- ==== Sys2Proof/Machine/Memory.lean ====
section
/-! DEFINITION. The memory controllers: commits, background zeroing, the write-back of corrected lines, patrol scrub and row repair
(R237 to R246). -/

namespace Sys2Proof.Machine

/-! ## Commit (R244) -/

/-- HBMC.COMMIT or LPMC COMMIT (R244): the scrub and repair fields take effect, the period clamped to 3,600 s to 86,400 s. -/
def State.hbmcCommit (s : State) (i : Nat) : State :=
  let p := s.rf (.hbmcScrubCfg i) Fld.hbmcScrubCfgPeriod
  let s := s.setF (.hbmcScrubCfg i) Fld.hbmcScrubCfgPeriod (max 3600 (min 86400 p))
  (s.commitReg (.hbmcScrubCfg i)).commitReg (.hbmcRepairCfg i)

/-- HBMC_COMMIT (R244). -/
def execHbmcCommit (i : Fin 24) (s : State) : Out := clocked 3 s (fun s => s.hbmcCommit i)

/-! ## Training and zeroing (R237 to R239) -/

/-- The LPDDR5X tier is populated (R248). -/
def State.lpPopulated (s : State) : Bool := s.rf (.lpmcPop 0) Fld.lpmcPopChannels != 0

/-- Memory without what a window holds: it reads as zero with valid check bits (R237, R239). -/
def State.zeroWindow (s : State) (lo hi : Nat) : State :=
  { s with
    mem := s.mem.filter (fun c => c.1 < lo || hi ≤ c.1)
    ue := s.ue.filter (fun w => 4 * w < lo || hi ≤ 4 * w)
    ce := s.ce.filter (fun w => 4 * w < lo || hi ≤ 4 * w) }

/-- Every stack has trained and zeroed (R237). -/
def State.hbmTrained (s : State) : State :=
  (List.range 16).foldl (fun s i => s.setF (.hbmcStatus i) Fld.hbmcStatusTrained 1) (s.zeroWindow 0 0x10000000000)

/-- A channel of LPDDR5X is populated (R248). -/
def State.lpHas (s : State) (c : Nat) : Bool := bitsOf (s.rf (.lpmcPop (c / 8)) Fld.lpmcPopChannels) (c % 8) 1 == 1

/-- The LPDDR5X controllers end training (R238): the tier works, or a populated channel that failed disables it; every watermark stands at the
bottom of its channel (R239). DEDUCED: log entry 68. -/
def State.lpTrained (s : State) (fail : Option Nat) : State :=
  let s := s.zeroWindow 0x10000000000 0x50000000000
  let s := (List.range 8).foldl (fun s q => s.setMc (32 + q) { s.mc (32 + q) with watermark := [], inited := [] }) s
  if !s.lpPopulated then s
  else match fail.filter s.lpHas with
    | some c =>
      let s := (List.range 8).foldl (fun s q => s.setF (.hbmcStatus (16 + q)) Fld.hbmcStatusTierOk 0) s
      (s.setF .hbmcLpSize Fld.hbmcLpSizeBytes 0).report (mkRec Cls.lpddrTrain 2 Kind.lpmc c)
    | none =>
      (List.range 8).foldl (fun s q =>
        (s.setF (.hbmcStatus (16 + q)) Fld.hbmcStatusTrained 1).setF (.hbmcStatus (16 + q)) Fld.hbmcStatusTierOk 1) s

/-- Populated channels of a home: 16 pseudo-channels, or eight or four channels of LPDDR5X (R230, R236, R248). -/
def State.homeChannels (s : State) (h : Nat) : Nat := if h < 32 then 16 else if s.lpFull then 8 else 4

/-- Check groups of one channel of a home (R232, R235, R236). -/
def State.groupsOf (s : State) (h : Nat) : Nat :=
  if h < 32 then s.hbmSize / (512 * 256) / 8 else s.lpSize / ((if s.lpFull then 64 else 32) * 256) / 8

/-- Background zeroing has passed the top of every channel of instance `q` (R239). -/
def State.zeroingDone (s : State) (q : Nat) : State :=
  if s.rf (.hbmcStatus (16 + q)) Fld.hbmcStatusTierOk = 1 then
    let m := s.mc (32 + q)
    (s.setF (.hbmcStatus (16 + q)) Fld.hbmcStatusInitDone 1).setMc (32 + q) { m with watermark := [], inited := [] }
  else s

/-- Background zeroing moves every watermark of an instance up by one check group, at most to the top of its channel (R239).
DESIGN CHOICE: log entry 3. -/
def State.zeroStep (s : State) (q : Nat) : State :=
  let h := 32 + q
  if s.rf (.hbmcStatus (16 + q)) Fld.hbmcStatusTierOk = 1 ∧ s.rf (.hbmcStatus (16 + q)) Fld.hbmcStatusInitDone = 0 then
    (List.range (s.homeChannels h)).foldl (fun s ch =>
      let g := kget 0 (s.mc h).watermark ch
      if g < s.groupsOf h then
        let s := if s.aboveMark h ch g then s.zeroGroup h ch g else s
        s.setMc h { s.mc h with watermark := nset 0 (s.mc h).watermark ch (g + 1) }
      else s) s
  else s

/-- LP_BACKGROUND_ZEROING_DONE (R239). -/
def execLpBackgroundZeroingDone (q : Fin 8) (s : State) : Out := clocked 3 s (fun s => s.zeroingDone q)

/-! ## Corrected lines (R240) -/

/-- The home writes back the oldest corrected line that waits (R240), to DRAM and into its system-level cache if the line is there (R260). The
write uses the line's check units (R233); words that have become uncorrectable meanwhile stay so (R241).
DESIGN CHOICE: log entry 116. -/
def State.lineWriteBack (s : State) (h : Nat) : State :=
  let m := s.mc h
  match m.writeBack with
  | [] => s
  | la :: rest =>
    let s := s.setMc h { m with writeBack := rest }
    let lost := if s.above la then [] else s.scrubUe la
    let s := (s.initGroup la).checkAccess la true
    let s := ({ s with ce := s.ce.filter (fun w => !(wordsOf la 64).contains w) } : State).loseWords lost
    if (s.slcCopy la).isSome then s.modSlc la (fun e => { e with ce := 0 }) else s

/-- CORRECTED_LINE_WRITE_BACK (R240). -/
def execCorrectedLineWriteBack (h : HomeId) (s : State) : Out := clocked 3 s (fun s => s.lineWriteBack h)

/-! ## Patrol scrub (R243) -/

/-- The lines of a check group that hold an error, in order (R232, R243). -/
def State.markedLines (s : State) (h ch g : Nat) : List Nat :=
  (s.groupLines h ch g).filter (fun la => s.usable la && s.homeOf la == h && (!(s.scrubUe la).isEmpty || !(s.ceIn la 64).isEmpty))

/-- The scrubber reads one line (R243): single-bit errors are corrected under R240, and each uncorrectable word writes a record. -/
def State.scrubLine (s : State) (h la : Nat) : State :=
  let us := s.scrubUe la
  let cs := (s.ceIn la 64).length
  let s := if cs = 0 then s else s.correctedDram la cs
  us.foldl (fun s u =>
    ((s.bumpF (.hbmcUeCount (mcOf h)) Fld.hbmcUeCountScrub 1).noteRow h la 0 true).report
      { mkRec Cls.memScrubUe 0 Kind.home h with addr := BitVec.ofNat 64 (4 * u), detail1 := BitVec.ofNat 48 cs }) s

/-- A group is skipped: an LPDDR5X group above the watermark that no write has initialised (R239, R243). -/
def State.scrubSkips (s : State) (h ch g : Nat) : Bool := s.aboveMark h ch g

/-- The passes that every home of a controller has completed. -/
def State.passesOf (s : State) (h : Nat) : Nat := ((homesOf h).map (fun x => (s.mc x).passes)).foldl min (s.mc h).passes

/-- SCRUB_STATUS of a home's controller: the passes that all its homes have completed, and the least progress among them.
DEDUCED: log entry 68. -/
def State.scrubStatus (s : State) (h : Nat) : State :=
  let p := s.passesOf h
  let part (x : Nat) : Nat := if (s.mc x).passes ≠ p then 65535 else
    ((s.mc x).scrubChannel * s.groupsOf x + (s.mc x).scrubGroup) * 65536 / max 1 (s.homeChannels x * s.groupsOf x)
  let s' := s.setF (.hbmcScrubStatus (mcOf h)) Fld.hbmcScrubStatusPasses p
  s'.setF (.hbmcScrubStatus (mcOf h)) Fld.hbmcScrubStatusProgress ((homesOf h).map part |>.foldl min 65535)

/-- The scrubber of a home reads the next check group and moves on (R243); at the end of its pass the row counts of the period start anew
(R245). -/
def State.scrubNext (s : State) (h : Nat) : State :=
  let ch := (s.mc h).scrubChannel
  let g := (s.mc h).scrubGroup
  let s := if s.scrubSkips h ch g then s else (s.markedLines h ch g).foldl (fun s la => s.scrubLine h la) s
  let m := s.mc h
  if g + 1 < s.groupsOf h then s.setMc h { m with scrubGroup := g + 1 }
  else if ch + 1 < s.homeChannels h then s.setMc h { m with scrubChannel := ch + 1, scrubGroup := 0 }
  else
    let rows := (m.rows.filter (fun r => r.marked)).map (fun r => { r with count := 0 })
    s.setMc h { m with scrubChannel := 0, scrubGroup := 0, passes := m.passes + 1, rows := rows }

/-- A scrub read of a home; when it completes a pass of its controller, the counts of the stack or of the devices are added, once (R242). -/
def State.scrub (s : State) (h ecs : Nat) : State :=
  if s.af (.hbmcScrubCfg (mcOf h)) Fld.hbmcScrubCfgEnable = 0 ∨ s.groupsOf h = 0 then s
  else
    let t := s.scrubNext h
    let t := if t.passesOf h = s.passesOf h then t else t.bumpF (.hbmcStackEcs (mcOf h)) Fld.hbmcStackEcsCount ecs
    t.scrubStatus h

/-- PATROL_SCRUB_READ (R243); `ecs` is what the stack counts, read once per pass (R242). -/
def execPatrolScrubRead (h : HomeId) (ecs : W32) (s : State) : Out := clocked 3 s (fun s => s.scrub h ecs.toNat)

/-! ## Row repair (R245, R246) -/

/-- A marked row is taken for repair (R245); with no spare left in its bank nothing happens to it (R246).
DEDUCED: log entries 68, 69. -/
def State.repairStart (s : State) (h : Nat) : State :=
  let m := s.mc h
  match m.rows.find? (fun r => r.marked && !r.exhausted) with
  | none => s
  | some r =>
    if s.af (.hbmcRepairCfg (mcOf h)) Fld.hbmcRepairCfgAutoRepair = 0 ∨ m.repairing.isSome then s
    else if kget 0 m.sparesUsed (Config.bankOfRow h r.row) < Config.sparesPerBank then
      (s.setMc h { m with repairing := some r.row }).setF (.hbmcStatus (mcOf h)) Fld.hbmcStatusRepairBusy 1
    else
      let s := s.setMc h { m with rows := modifyFirst (fun x => x.row == r.row) (fun x => { x with exhausted := true }) m.rows }
      (s.bumpF (.hbmcRepairStatus (mcOf h)) Fld.hbmcRepairStatusExhausted 1).report (mcRec Cls.memRepairExhausted h r.line)

/-- ROW_REPAIR (R245). -/
def execRowRepair (h : HomeId) (s : State) : Out := clocked 3 s (fun s => s.repairStart h)

/-- ROW_REPAIR_COMPLETE (R245). -/
def execRowRepairComplete (h : HomeId) (s : State) : Out := clocked 3 s (fun s => s.repairEnd h)

end Sys2Proof.Machine
end

