-- ==== Sys2Proof/Machine/Sha.lean ====
section
/-! DEFINITION. The hash functions of FIPS 180-4 by which images are judged and keys and signatures are made (R339, R341, R352, R353):
SHA-256, and SHA-512 with its HMAC and MGF1. One description serves both. -/

namespace Sys2Proof

/-- A member of the SHA-2 family: the bits of a word, the rounds, the rotations of the two sums over working words, and the two rotations
and the shift of each sum over message words. -/
structure ShaKind where
  w : Nat
  rounds : Nat
  sumA : List Nat
  sumE : List Nat
  mixOld : List Nat × Nat
  mixNew : List Nat × Nat
  deriving DecidableEq, Repr

/-- SHA-256. -/
def ShaKind.s256 : ShaKind := ⟨32, 64, [2, 13, 22], [6, 11, 25], ([7, 18], 3), ([17, 19], 10)⟩
/-- SHA-512. -/
def ShaKind.s512 : ShaKind := ⟨64, 80, [28, 34, 39], [14, 18, 41], ([1, 8], 7), ([19, 61], 6)⟩

/-! The constants are the leading bits of the fractional parts of roots of primes: cube roots for the rounds, square roots of the first
eight for the initial value. -/

/-- No number from 2 to below `q` divides `p`. -/
def noDivisor (p q : Nat) : Bool := (List.range q).all (fun d => d < 2 || p % d != 0)

/-- The first 80 primes: those below 410. -/
def shaPrimes : List Nat := (List.range 410).filter (fun p => 2 ≤ p && noDivisor p p)

/-- The greatest number of `b` further bits above `r` whose power `k` is at most `n`. -/
def rootBits (k n : Nat) : Nat → Nat → Nat
  | 0, r => r
  | b + 1, r => rootBits k n b (if (r + 2 ^ b) ^ k ≤ n then r + 2 ^ b else r)

/-- The first `w` bits of the fractional part of the root `k` of `p`. -/
def rootFraction (w k p : Nat) : BitVec w := BitVec.ofNat w (rootBits k (p * 2 ^ (w * k)) (w + 8) 0)

/-- The round constants of a kind. -/
def ShaKind.constants (f : ShaKind) : List (BitVec f.w) := (shaPrimes.take f.rounds).map (rootFraction f.w 3)
/-- The initial hash value of a kind. -/
def ShaKind.initial (f : ShaKind) : List (BitVec f.w) := (shaPrimes.take 8).map (rootFraction f.w 2)

/-- The exclusive or of a word's rotations. -/
def rotations {w : Nat} (l : List Nat) (x : BitVec w) : BitVec w := l.foldl (fun acc n => acc ^^^ x.rotateRight n) 0

/-- A sum over a message word: rotations and a shift. -/
def mixed {w : Nat} (m : List Nat × Nat) (x : BitVec w) : BitVec w := rotations m.1 x ^^^ (x >>> m.2)

/-- One round on the eight working words, with the sum of a constant and a message word. -/
def ShaKind.round (f : ShaKind) (v : List (BitVec f.w)) (kw : BitVec f.w) : List (BitVec f.w) :=
  match v with
  | [a, b, c, d, e, g, h, i] =>
    let add := i + rotations f.sumE e + ((e &&& g) ||| (~~~e &&& h)) + kw
    [add + rotations f.sumA a + ((a &&& (b ||| c)) ||| (b &&& c)), a, b, c, d + add, e, g, h]
  | _ => v

/-- The message schedule: `n` further words on the sixteen latest, the newest first. -/
def ShaKind.extend (f : ShaKind) : Nat → List (BitVec f.w) → List (BitVec f.w)
  | 0, l => l
  | n + 1, l => f.extend n ((mixed f.mixNew (l.getD 1 0) + l.getD 6 0 + mixed f.mixOld (l.getD 14 0) + l.getD 15 0) :: l)

/-- The bytes of a word. -/
def ShaKind.size (f : ShaKind) : Nat := f.w / 8

/-- The `n` big-endian words that a byte string begins with, the last first. -/
def ShaKind.wordsRev (f : ShaKind) : Nat → List Byte → List (BitVec f.w) → List (BitVec f.w)
  | 0, _, acc => acc
  | n + 1, l, acc => f.wordsRev n (l.drop f.size) (BitVec.ofNat f.w (leNat (l.take f.size).reverse) :: acc)

/-- One block of sixteen words. -/
def ShaKind.compress (f : ShaKind) (v : List (BitVec f.w)) (l : List Byte) : List (BitVec f.w) :=
  let sched := (f.extend (f.rounds - 16) (f.wordsRev 16 l [])).reverse
  List.zipWith (· + ·) v ((List.zipWith (· + ·) f.constants sched).foldl f.round v)

/-- `n` blocks. -/
def ShaKind.compressAll (f : ShaKind) (v : List (BitVec f.w)) : Nat → List Byte → List (BitVec f.w)
  | 0, _ => v
  | n + 1, l => f.compressAll (f.compress v (l.take (16 * f.size))) n (l.drop (16 * f.size))

/-- A number in `n` bytes, most significant first. -/
def beBytes (n v : Nat) : List Byte := (leBytes n v).reverse

/-- The hash of a byte string: it is followed by a 1 bit, zeros, and its length in bits in two words. PRESUMED: log entry 121. -/
def ShaKind.hash (f : ShaKind) (l : List Byte) : List Byte :=
  let b := 16 * f.size
  let fill := (2 * b - 1 - 2 * f.size - l.length % b) % b
  let m := l ++ 0x80#8 :: List.replicate fill 0 ++ beBytes (2 * f.size) (8 * l.length)
  (f.compressAll f.initial (m.length / b) m).flatMap (fun x => beBytes f.size x.toNat)

/-- SHA-256 of a byte string, 32 B. PRESUMED: log entry 121. -/
def sha256 (l : List Byte) : List Byte := ShaKind.s256.hash l
/-- SHA-512 of a byte string, 64 B. PRESUMED: log entry 121. -/
def sha512 (l : List Byte) : List Byte := ShaKind.s512.hash l

/-- HMAC-SHA-512 with a key of at most 128 B. PRESUMED: log entry 121. -/
def hmac512 (key msg : List Byte) : List Byte :=
  let k := key ++ List.replicate (128 - key.length) 0
  sha512 (k.map (· ^^^ 0x5C) ++ sha512 (k.map (· ^^^ 0x36) ++ msg))

/-- MGF1-SHA-512: `n` bytes made from a seed. PRESUMED: log entry 121. -/
def mgf512 (seed : List Byte) (n : Nat) : List Byte :=
  ((List.range ((n + 63) / 64)).flatMap (fun i => sha512 (seed ++ beBytes 4 i))).take n

end Sys2Proof
end

