-- ==== Sys2Proof/Machine/Slh.lean ====
section
/-! DEFINITION. The signatures of FIPS 205 by which images are accepted and reports attested (R339, R352, R353): SLH-DSA with SHA-2 at
security category 3, of which the device uses the parameter sets SLH-DSA-SHA2-192s (images) and SLH-DSA-SHA2-192f (attestation). -/

namespace Sys2Proof

/-- A parameter set with Winternitz parameter 16: the bytes of a hash, the layers of trees and the height of each, and the number and the
height of the few-time trees. -/
structure SlhSet where
  n : Nat
  layers : Nat
  height : Nat
  fewTrees : Nat
  fewHeight : Nat
  deriving DecidableEq, Repr

/-- SLH-DSA-SHA2-192s. -/
def SlhSet.s192 : SlhSet := ⟨24, 7, 9, 17, 14⟩
/-- SLH-DSA-SHA2-192f. -/
def SlhSet.f192 : SlhSet := ⟨24, 22, 3, 33, 8⟩

/-- The chains of a one-time key: two digits for each byte of a hash, and three for their checksum. -/
def SlhSet.chains (q : SlhSet) : Nat := 2 * q.n + 3

/-- The place of a hash in the structure: layer, tree, type, and three words whose meaning the type gives. -/
structure SlhPlace where
  layer : Nat
  tree : Nat
  kind : Nat
  x : Nat
  y : Nat
  z : Nat
  deriving DecidableEq, Repr

/-- The 22 B of a place. -/
def SlhPlace.bytes (a : SlhPlace) : List Byte :=
  beBytes 1 a.layer ++ beBytes 8 a.tree ++ beBytes 1 a.kind ++ beBytes 4 a.x ++ beBytes 4 a.y ++ beBytes 4 a.z

/-- The hash of one value at a place, and the secret of a place: SHA-256 after the public seed, filled to a block. -/
def SlhSet.hashOne (q : SlhSet) (seed : List Byte) (a : SlhPlace) (m : List Byte) : List Byte :=
  (sha256 (seed ++ List.replicate (64 - q.n) 0 ++ a.bytes ++ m)).take q.n

/-- The hash of several values at a place: SHA-512 after the public seed, filled to a block. -/
def SlhSet.hashMany (q : SlhSet) (seed : List Byte) (a : SlhPlace) (m : List Byte) : List Byte :=
  (sha512 (seed ++ List.replicate (128 - q.n) 0 ++ a.bytes ++ m)).take q.n

/-- The digits of a byte string in base 16, high digit first. -/
def nibbles (l : List Byte) : List Nat := l.flatMap (fun b => [b.toNat / 16, b.toNat % 16])

/-- The digits that a one-time key signs: those of the message and of their checksum. -/
def SlhSet.digits (_q : SlhSet) (m : List Byte) : List Nat :=
  let d := nibbles m
  let sum := (d.map (15 - ·)).sum
  d ++ [sum / 256 % 16, sum / 16 % 16, sum % 16]

/-! ## One-time keys -/

/-- `steps` steps of a chain from step `at_`. -/
def SlhSet.chain (q : SlhSet) (seed : List Byte) (a : SlhPlace) : Nat → Nat → List Byte → List Byte
  | 0, _, m => m
  | steps + 1, at_, m => q.chain seed a steps (at_ + 1) (q.hashOne seed { a with z := at_ } m)

/-- The secret that begins chain `i` of the one-time key `leaf`. -/
def SlhSet.chainSecret (q : SlhSet) (sk seed : List Byte) (layer tree leaf i : Nat) : List Byte :=
  q.hashOne seed ⟨layer, tree, 5, leaf, i, 0⟩ sk

/-- The public value of a one-time key from the ends of its chains. -/
def SlhSet.chainsEnd (q : SlhSet) (seed : List Byte) (layer tree leaf : Nat) (ends : List (List Byte)) : List Byte :=
  q.hashMany seed ⟨layer, tree, 1, leaf, 0, 0⟩ ends.flatten

/-- The public value of a one-time key. -/
def SlhSet.oneTimePublic (q : SlhSet) (sk seed : List Byte) (layer tree leaf : Nat) : List Byte :=
  q.chainsEnd seed layer tree leaf ((List.range q.chains).map (fun i =>
    q.chain seed ⟨layer, tree, 0, leaf, i, 0⟩ 15 0 (q.chainSecret sk seed layer tree leaf i)))

/-- A one-time signature: each chain as far as its digit. -/
def SlhSet.oneTimeSign (q : SlhSet) (sk seed : List Byte) (layer tree leaf : Nat) (m : List Byte) : List Byte :=
  ((q.digits m).zipIdx.map (fun (d, i) =>
    q.chain seed ⟨layer, tree, 0, leaf, i, 0⟩ d 0 (q.chainSecret sk seed layer tree leaf i))).flatten

/-- The `i`-th value of `n` bytes in a byte string. -/
def SlhSet.part (q : SlhSet) (l : List Byte) (i : Nat) : List Byte := (l.drop (q.n * i)).take q.n

/-- The public value that a one-time signature leads to: each chain from its digit to its end. -/
def SlhSet.oneTimeRecover (q : SlhSet) (seed : List Byte) (layer tree leaf : Nat) (m sig : List Byte) : List Byte :=
  q.chainsEnd seed layer tree leaf ((q.digits m).zipIdx.map (fun (d, i) =>
    q.chain seed ⟨layer, tree, 0, leaf, i, 0⟩ (15 - d) d (q.part sig i)))

/-! ## Trees of hashes -/

/-- A node `z` levels above the leaves of a tree whose leaves are `leaf`, at places like `a`. -/
def SlhSet.node (q : SlhSet) (seed : List Byte) (a : SlhPlace) (leaf : Nat → List Byte) : Nat → Nat → List Byte
  | 0, i => leaf i
  | z + 1, i =>
    q.hashMany seed { a with y := z + 1, z := i } (q.node seed a leaf z (2 * i) ++ q.node seed a leaf z (2 * i + 1))

/-- The siblings on the way from leaf `i` up `levels` levels. -/
def SlhSet.siblings (q : SlhSet) (seed : List Byte) (a : SlhPlace) (leaf : Nat → List Byte) (levels i : Nat) : List Byte :=
  (List.range levels).flatMap (fun j => q.node seed a leaf j ((i / 2 ^ j) ^^^ 1))

/-- The root that a node and the siblings above it lead to; `z` levels have been climbed, and the node is the `i`-th of its level. -/
def SlhSet.climb (q : SlhSet) (seed : List Byte) (a : SlhPlace) (m : List Byte) (i z : Nat) : Nat → List Byte → List Byte
  | 0, _ => m
  | up + 1, sibs =>
    let s := sibs.take q.n
    q.climb seed a (q.hashMany seed { a with y := z + 1, z := i / 2 } (if i % 2 = 0 then m ++ s else s ++ m)) (i / 2) (z + 1) up
      (sibs.drop q.n)

/-- The root of the tree of one-time keys in a layer. -/
def SlhSet.treeRoot (q : SlhSet) (sk seed : List Byte) (layer tree : Nat) : List Byte :=
  q.node seed ⟨layer, tree, 2, 0, 0, 0⟩ (q.oneTimePublic sk seed layer tree) q.height 0

/-- The bytes of one layer's signature. -/
def SlhSet.layerBytes (q : SlhSet) : Nat := q.n * (q.chains + q.height)

/-- Sign a value with leaf `leaf` of a tree. -/
def SlhSet.treeSign (q : SlhSet) (sk seed : List Byte) (layer tree leaf : Nat) (m : List Byte) : List Byte :=
  q.oneTimeSign sk seed layer tree leaf m
    ++ q.siblings seed ⟨layer, tree, 2, 0, 0, 0⟩ (q.oneTimePublic sk seed layer tree) q.height leaf

/-- The root that a layer's signature leads to. -/
def SlhSet.treeRecover (q : SlhSet) (seed : List Byte) (layer tree leaf : Nat) (m sig : List Byte) : List Byte :=
  q.climb seed ⟨layer, tree, 2, 0, 0, 0⟩ (q.oneTimeRecover seed layer tree leaf m sig) leaf 0 q.height (sig.drop (q.n * q.chains))

/-- Signatures of `k` layers from `layer` on, each of the root below it. -/
def SlhSet.layersSign (q : SlhSet) (sk seed : List Byte) : Nat → Nat → Nat → Nat → List Byte → List Byte
  | 0, _, _, _, _ => []
  | k + 1, layer, tree, leaf, m =>
    q.treeSign sk seed layer tree leaf m
      ++ q.layersSign sk seed k (layer + 1) (tree / 2 ^ q.height) (tree % 2 ^ q.height) (q.treeRoot sk seed layer tree)

/-- The root of the top layer that signatures of `k` layers lead to. -/
def SlhSet.layersRecover (q : SlhSet) (seed : List Byte) : Nat → Nat → Nat → Nat → List Byte → List Byte → List Byte
  | 0, _, _, _, m, _ => m
  | k + 1, layer, tree, leaf, m, sig =>
    q.layersRecover seed k (layer + 1) (tree / 2 ^ q.height) (tree % 2 ^ q.height)
      (q.treeRecover seed layer tree leaf m (sig.take q.layerBytes)) (sig.drop q.layerBytes)

/-! ## The few-time trees -/

/-- What a message digest selects: a leaf of each few-time tree, and the tree and leaf of layer 0 that sign their roots. -/
structure SlhPick where
  leaves : List Nat
  tree : Nat
  leaf : Nat
  deriving DecidableEq, Repr

/-- The number of a big-endian byte string. -/
def beNat (l : List Byte) : Nat := leNat l.reverse

/-- Bytes of a digest that select leaves of the few-time trees, a tree, and a leaf. -/
def SlhSet.pickBytes (q : SlhSet) : Nat × Nat × Nat :=
  ((q.fewTrees * q.fewHeight + 7) / 8, (q.height * (q.layers - 1) + 7) / 8, (q.height + 7) / 8)

/-- What a digest selects. -/
def SlhSet.pick (q : SlhSet) (d : List Byte) : SlhPick :=
  let (b, t, l) := q.pickBytes
  { leaves := (List.range q.fewTrees).map (fun i =>
      beNat (d.take b) / 2 ^ (8 * b - q.fewHeight * (i + 1)) % 2 ^ q.fewHeight)
    tree := beNat ((d.drop b).take t) % 2 ^ (q.height * (q.layers - 1))
    leaf := beNat ((d.drop (b + t)).take l) % 2 ^ q.height }

/-- The secret of a few-time leaf. -/
def SlhSet.fewSecret (q : SlhSet) (sk seed : List Byte) (p : SlhPick) (i : Nat) : List Byte :=
  q.hashOne seed ⟨0, p.tree, 6, p.leaf, 0, i⟩ sk

/-- A few-time leaf from its secret. -/
def SlhSet.fewLeaf (q : SlhSet) (seed : List Byte) (p : SlhPick) (i : Nat) (secret : List Byte) : List Byte :=
  q.hashOne seed ⟨0, p.tree, 3, p.leaf, 0, i⟩ secret

/-- The few-time signature of a digest: the secret of each selected leaf and its siblings. Leaves are numbered through all trees. -/
def SlhSet.fewSign (q : SlhSet) (sk seed : List Byte) (p : SlhPick) : List Byte :=
  let leaf (i : Nat) : List Byte := q.fewLeaf seed p i (q.fewSecret sk seed p i)
  p.leaves.zipIdx.flatMap (fun (x, t) =>
    let i := t * 2 ^ q.fewHeight + x
    q.fewSecret sk seed p i ++ q.siblings seed ⟨0, p.tree, 3, p.leaf, 0, 0⟩ leaf q.fewHeight i)

/-- The bytes of a few-time signature, and of one tree's share. -/
def SlhSet.fewBytes (q : SlhSet) : Nat := q.n * (q.fewHeight + 1)

/-- The value that a few-time signature leads to: the hash of all roots. -/
def SlhSet.fewRecover (q : SlhSet) (seed : List Byte) (p : SlhPick) (sig : List Byte) : List Byte :=
  q.hashMany seed ⟨0, p.tree, 4, p.leaf, 0, 0⟩ (p.leaves.zipIdx.flatMap (fun (x, t) =>
    let i := t * 2 ^ q.fewHeight + x
    let share := (sig.drop (q.fewBytes * t)).take q.fewBytes
    q.climb seed ⟨0, p.tree, 3, p.leaf, 0, 0⟩ (q.fewLeaf seed p i (share.take q.n)) i 0 q.fewHeight (share.drop q.n)))

/-! ## Keys, signatures and their verification -/

/-- The digest of a message under a public key and a randomizer. -/
def SlhSet.digest (q : SlhSet) (r seed root m : List Byte) : List Byte :=
  let (b, t, l) := q.pickBytes
  mgf512 (r ++ seed ++ sha512 (r ++ seed ++ root ++ m)) (b + t + l)

/-- The public key of two seeds: the public seed and the root of the top tree. PRESUMED: log entry 121. -/
def SlhSet.publicKey (q : SlhSet) (sk seed : List Byte) : List Byte := seed ++ q.treeRoot sk seed (q.layers - 1) 0

/-- The bytes of a signature. -/
def SlhSet.sigBytes (q : SlhSet) : Nat := q.n + q.fewTrees * q.fewBytes + q.layers * q.layerBytes

/-- Sign a message, with `rand` added to what the randomizer is made from. PRESUMED: log entry 121. -/
def SlhSet.signWith (q : SlhSet) (sk prf key rand m : List Byte) : List Byte :=
  let seed := key.take q.n
  let r := (hmac512 prf (rand ++ m)).take q.n
  let p := q.pick (q.digest r seed (key.drop q.n) m)
  let few := q.fewSign sk seed p
  r ++ few ++ q.layersSign sk seed q.layers 0 p.tree p.leaf (q.fewRecover seed p few)

/-- A signature of a message is good under a public key. PRESUMED: log entry 121. -/
def SlhSet.verifies (q : SlhSet) (key m sig : List Byte) : Bool :=
  let seed := key.take q.n
  let p := q.pick (q.digest (sig.take q.n) seed (key.drop q.n) m)
  let few := (sig.drop q.n).take (q.fewTrees * q.fewBytes)
  sig.length == q.sigBytes && key.length == 2 * q.n
    && q.layersRecover seed q.layers 0 p.tree p.leaf (q.fewRecover seed p few) (sig.drop (q.n + q.fewTrees * q.fewBytes))
      == key.drop q.n

/-- A message as it is signed itself, with an empty context. DEDUCED, PRESUMED: log entries 85, 121. -/
def slhPure (m : List Byte) : List Byte := 0 :: 0 :: m

/-- A message as it is signed by its SHA-256 digest, with an empty context: the digest follows the object identifier of SHA-256.
PRESUMED: log entry 121. -/
def slhPrehash (digest : List Byte) : List Byte :=
  [0x01, 0x00, 0x06, 0x09, 0x60, 0x86, 0x48, 0x01, 0x65, 0x03, 0x04, 0x02, 0x01] ++ digest

end Sys2Proof
end

