-- ==== Sys2Proof/Machine/Image.lean ====
section
/-! DEFINITION. The configuration image: its header, sections and checks (R337 to R346), and the values that its shadows give the
registers (R41 to R43, R246, R248, R346). -/

namespace Sys2Proof.Machine

/-! ## Parts of a byte string -/

/-- The little-endian number in bytes `a` to `a + n - 1`. -/
def numAt (l : List Byte) (a n : Nat) : Nat := leNat ((l.drop a).take n)

/-- Bytes `a` to `b - 1` are all zero. -/
def zeroFrom (l : List Byte) (a b : Nat) : Bool := ((l.drop a).take (b - a)).all (· == 0)

/-- The first `n` pieces of `k` bytes. -/
def chunksOf (k : Nat) : Nat → List Byte → List (List Byte)
  | 0, _ => []
  | n + 1, l => l.take k :: chunksOf k n (l.drop k)

/-! ## The header (R337) and its checks (R344, orders 2 to 4 and 7) -/

/-- signed_length. -/
def imgSigned (l : List Byte) : Nat := numAt l 12 4
/-- total_length. -/
def imgTotal (l : List Byte) : Nat := numAt l 8 4
/-- section_count. -/
def imgCount (l : List Byte) : Nat := numAt l 22 2
/-- svn. -/
def imgSvn (l : List Byte) : Nat := numAt l 20 1
/-- key_slot. -/
def imgSlot (l : List Byte) : Nat := numAt l 19 1
/-- public_key. -/
def imgKey (l : List Byte) : List Byte := (l.drop 64).take 48
/-- The image digest (R339). -/
def imgDigest (l : List Byte) : List Byte := sha256 (l.take (imgSigned l))
/-- The signature (R339). -/
def imgSignature (l : List Byte) : List Byte := (l.drop (imgSigned l)).take 16224

/-- Order 2: a header of all ones is code 1, any other failing header code 2. DEDUCED: log entry 82. -/
def headerCode (l : List Byte) : Nat :=
  if (l.take 256).all (· == 0xFF) then 1
  else if numAt l 0 4 = 0x49325748 ∧ numAt l 4 2 = 1 ∧ numAt l 6 2 = 256 ∧ imgTotal l = imgSigned l + 16256
      ∧ imgTotal l ≤ 1048576 ∧ imgSigned l % 64 = 0 ∧ 1 ≤ imgCount l ∧ imgCount l ≤ 64 ∧ numAt l 21 1 < 2 ∧ zeroFrom l 112 256
    then 0
  else 2

/-- Order 3: device_id and steppings. -/
def State.deviceCode (s : State) (l : List Byte) : Nat :=
  if numAt l 16 2 = s.rf .fusePart Fld.fusePartDeviceId ∧ bitsOf (numAt l 18 1) (s.rf .fusePart Fld.fusePartStepping) 1 = 1 then 0
  else 3

/-- The 32 B of a key slot's hash, as the FUSE registers show them. -/
def State.keyHash (s : State) (slot : Nat) : List Byte :=
  (List.range 4).flatMap (fun w => leBytes 8 (s.rget (.fuseKeyHash slot w)).toNat)

/-- Order 4: the slot is programmed, not revoked, and holds the hash of the key (R341). DEDUCED: log entry 82. -/
def State.keyCode (s : State) (l : List Byte) : Nat :=
  let k := imgSlot l
  if k < 4 ∧ bitsOf (s.rf .fuseKeyState Fld.fuseKeyStateProgrammed) k 1 = 1
      ∧ bitsOf (s.rf .fuseKeyState Fld.fuseKeyStateRevoked) k 1 = 0 ∧ s.keyHash k = sha256 (imgKey l) then 0
  else 4

/-- Order 7: svn against the rollback counter (R342). DEDUCED: log entry 82. -/
def State.svnCode (s : State) (l : List Byte) : Nat :=
  if s.rf .fuseRollback Fld.fuseRollbackCounter ≤ imgSvn l ∧ imgSvn l ≤ 63 then 0 else 6

/-! ## The section table (R338) -/

/-- A section: type, offset, length. -/
structure Section where
  typ : Nat
  off : Nat
  len : Nat
  deriving DecidableEq, Repr

/-- The sections in table order. -/
def sections (l : List Byte) : List Section :=
  (chunksOf 16 (imgCount l) (l.drop 256)).map (fun e => ⟨numAt e 0 2, numAt e 4 4, numAt e 8 4⟩)

/-- Sections lie at multiples of 64 in ascending order, without overlap and within the signed part, and every byte that none covers is
zero; `at_` is the end of what has been covered. -/
def sectionsFit (l : List Byte) (signed : Nat) : Nat → List Section → Bool
  | at_, [] => at_ ≤ signed && zeroFrom l at_ signed
  | at_, x :: rest =>
    x.off % 64 == 0 && at_ ≤ x.off && x.off + x.len ≤ signed && zeroFrom l at_ x.off && sectionsFit l signed (x.off + x.len) rest

/-- The offsets of sections ascend. -/
def offsetsAscend : List Section → Bool
  | x :: y :: l => x.off < y.off && offsetsAscend (y :: l)
  | _ => true

/-- Each listed type appears once, and no type is reserved. DEDUCED: log entry 82. -/
def typesOk : List Section → Bool
  | [] => true
  | x :: l => 1 ≤ x.typ && x.typ ≤ 8 && !l.any (fun y => y.typ == x.typ) && typesOk l

/-- The bytes of the section of a type. -/
def sectionOf (l : List Byte) (t : Nat) : Option (List Byte) :=
  ((sections l).find? (fun x => x.typ == t)).map (fun x => (l.drop x.off).take x.len)

/-- The entries of a section of `k`-byte entries. -/
def entriesOf (l : List Byte) (t k : Nat) : List (List Byte) :=
  match sectionOf l t with
  | some b => chunksOf k (b.length / k) b
  | none => []

/-- The section of a type is a whole number of entries within its limit. -/
def entriesFit (l : List Byte) (t k limit : Nat) : Bool :=
  match sectionOf l t with
  | some b => b.length % k == 0 && b.length / k ≤ limit
  | none => true

/-! ## The content of the sections -/

/-- A tile code names a physical tile. -/
def tileCodeOk (c : Nat) : Bool := c < 512 && c % 16 ≤ 12

/-- TILE_LIST: tile codes. -/
def imgTiles (l : List Byte) : List Nat := (entriesOf l 4 2).map leNat

/-- An ARRAY_REPAIR entry: tile code, array, whether a column, logical index. -/
structure ArrayFix where
  tile : Nat
  array : Nat
  column : Bool
  index : Nat
  deriving DecidableEq, Repr

/-- The entry of its 4 B. -/
def ArrayFix.of (v : Nat) : ArrayFix := ⟨v % 65536, bitsOf v 16 2, bitsOf v 18 1 == 1, bitsOf v 24 6⟩

/-- Its fields are in range. -/
def arrayFixOk (v : Nat) : Bool := tileCodeOk (v % 65536) && bitsOf v 19 5 == 0 && bitsOf v 30 2 == 0

/-- A MEM_REPAIR entry is in range. -/
def memFixOk (e : List Byte) : Bool :=
  let tier := numAt e 0 1
  let unit := numAt e 1 1
  let ch := numAt e 2 1
  bitsOf (numAt e 3 1) 6 1 == 0 && ((tier == 0 && unit < 16 && ch < 32) || (tier == 1 && unit < 8 && ch < 8))

/-- The home, bank and row that a MEM_REPAIR entry names (R235, R236, R338). -/
def memFixPlace (e : List Byte) : Nat × Nat × Nat :=
  let unit := numAt e 1 1
  let ch := numAt e 2 1
  let b := numAt e 3 1
  let home := if numAt e 0 1 = 0 then 2 * unit + ch / 8 % 2 else 32 + unit
  let chan := if numAt e 0 1 = 0 then ch % 8 + ch / 16 * 8 else ch
  (home, Config.repairBank home chan (b % 64) (b / 128), numAt e 4 4)

/-- LPDDR_POP is in range. -/
def popOk (e : List Byte) : Bool :=
  e.length == 4 && numAt e 0 1 ≤ 2 && numAt e 1 1 ≤ 4 && (numAt e 0 1 == 0 || 1 ≤ numAt e 1 1) && numAt e 2 1 ≤ 1 && numAt e 3 1 ≤ 2

/-- An OPTIONS entry: the register it names, its offset and its value. -/
def optionOf (e : List Byte) : Option Reg × Nat × W64 :=
  let o := numAt e 0 8
  ((Reg.ofAddr o).bind (fun r => if r.addr = o then some r else none), o, BitVec.ofNat 64 (numAt e 8 8))

/-- The registers and values of the OPTIONS section. -/
def imgOptions (l : List Byte) : List (Reg × W64) :=
  (entriesOf l 2 16).filterMap (fun e => (optionOf e).1.map (fun r => (r, (optionOf e).2.2)))

/-- An OPTIONS entry names a register with a field that the image sets, and sets nothing else (R346). -/
def optionOk (e : List Byte) : Bool :=
  match optionOf e with
  | (some r, _, v) => r.imageMask != 0 && (v &&& ~~~r.imageMask) == 0
  | _ => false

/-- No number appears twice. -/
def distinct : List Nat → Bool
  | [] => true
  | x :: l => !l.contains x && distinct l

/-- The options pass the commit checks of their blocks (R346): those of the fabric block are the only ones that judge fields of the
image. DEDUCED: log entries 82, 87. -/
def optionsCommit (l : List Byte) : Bool :=
  ((imgOptions l).foldl (fun s e => s.rset e.1 e.2) State.reset).fabCommitError == 0

/-- Code 7: the content of the sections. DEDUCED: log entry 82. -/
def contentOk (l : List Byte) : Bool :=
  (match sectionOf l 1 with | some b => 4 ≤ b.length && b.length ≤ 196608 && b.length % 4 == 0 | none => false)
    && entriesFit l 2 16 4096 && (entriesOf l 2 16).all optionOk && distinct ((entriesOf l 2 16).map (fun e => numAt e 0 8))
    && optionsCommit l
    && entriesFit l 3 8 1024 && (entriesOf l 3 8).all (fun e => Config.trimKnown (BitVec.ofNat 32 (numAt e 0 4)))
    && entriesFit l 4 2 32 && (imgTiles l).all tileCodeOk
    && entriesFit l 5 4 1024 && (entriesOf l 5 4).all (fun e => arrayFixOk (leNat e))
    && entriesFit l 6 8 512 && (entriesOf l 6 8).all memFixOk
    && (match sectionOf l 7 with | some b => popOk b | none => true)
    && entriesFit l 8 16 4096 && (entriesOf l 8 16).all (fun e => zeroFrom e 10 16)

/-! ## The tile map (R41, R42) and array repairs (R25, R344) -/

/-- Two different tiles of one row are named (R42). -/
def rowClash : List Nat → Bool
  | [] => false
  | c :: l => l.any (fun d => d / 16 == c / 16 && d != c) || rowClash l

/-- An array's spare row or column that an entry uses is used already; entries of named tiles are ignored (R344).
DEDUCED: log entry 87. -/
def fixClash (bad : List Nat) : List ArrayFix → List ArrayFix → Bool
  | _, [] => false
  | used, x :: l =>
    (!bad.contains x.tile && used.any (fun y => y.tile == x.tile && y.array == x.array && y.column == x.column))
      || fixClash bad (x :: used) l

/-- The factory repairs of the fuses. -/
def State.fuseFixes (s : State) : List ArrayFix := s.sys.fuses.arrayRepair.map (fun w => ArrayFix.of w.toNat)

/-- The repairs of the image. -/
def imgFixes (l : List Byte) : List ArrayFix := (entriesOf l 5 4).map (fun e => ArrayFix.of (leNat e))

/-- Order 8: 2 the table, 7 a section, 8 the tile map. -/
def State.sectionCode (s : State) (l : List Byte) : Nat :=
  let x := sections l
  let bad := s.sys.fuses.badTiles ++ imgTiles l
  if !sectionsFit l (imgSigned l) (256 + 16 * imgCount l) x || !offsetsAscend x || !typesOk x then 2
  else if !contentOk l then 7
  else if rowClash bad || fixClash bad s.fuseFixes (imgFixes l) then 8
  else 0

/-- The first code that is not 0. -/
def firstCode : List (Unit → Nat) → Nat
  | [] => 0
  | f :: l => if f () = 0 then firstCode l else f ()

/-- Orders 2 to 8 of one read of an image (R344): the first failing code, 0 if it passes. -/
def State.judge (s : State) (l : List Byte) : Nat :=
  firstCode [fun _ => headerCode l, fun _ => s.deviceCode l, fun _ => s.keyCode l,
    fun _ => if SlhSet.s192.verifies (imgKey l) (slhPrehash (imgDigest l)) (imgSignature l) then 0 else 5,
    fun _ => s.svnCode l, fun _ => s.sectionCode l]

/-- Orders 2 to 8 with up to three reads (R345): the code, the reads made, and the image of the last one. DEDUCED: log entry 82. -/
def State.judgeReads (s : State) (read : Nat → List Byte) : Nat × Nat × List Byte :=
  if s.judge (read 0) ≠ 5 then (s.judge (read 0), 1, read 0)
  else if s.judge (read 1) ≠ 5 then (s.judge (read 1), 2, read 1)
  else (s.judge (read 2), 3, read 2)

/-! ## What the shadows hold (R346, R347) -/

/-- The unusable column of the row of a logical tile; 13 if it has none (R41). -/
def badColumn (bad : List Nat) (n : Nat) : Nat :=
  match bad.find? (fun c => c / 16 == n / 12) with
  | some c => c % 16
  | none => 13

/-- The physical column of logical tile `n` (R41). -/
def physColumn (bad : List Nat) (n : Nat) : Nat := if n % 12 < badColumn bad n then n % 12 else n % 12 + 1

/-- The code of the physical tile of logical tile `n`. -/
def physCode (bad : List Nat) (n : Nat) : Nat := n / 12 * 16 + physColumn bad n

/-- TILE.ID and TILE.MAP of logical tile `n`. -/
def tileShadow (bad : List Nat) (n : Nat) : List (Reg × W64) :=
  let row := n / 12 % 16
  let col := physColumn bad n
  let die := n / 192
  [(.tileId n, BitVec.ofNat 64 (row * 2 ^ 16 + col * 2 ^ 20 + die * 2 ^ 24)),
   (.tileMap n, BitVec.ofNat 64 (row + col * 2 ^ 4 + die * 2 ^ 8 + (if col = n % 12 then 0 else 2 ^ 9)))]

/-- The rows of a die whose spare is in use, a bit each. -/
def spareRows (bad : List Nat) (die : Nat) : Nat :=
  ((List.range 16).map (fun r => if badColumn bad (12 * (16 * die + r)) < 12 then 2 ^ r else 0)).sum

/-- MA.REPAIR of array `m` of logical tile `n` (R25): repairs of the fuses, and those of the image with source 1. -/
def repairShadow (bad : List Nat) (fuse image : List ArrayFix) (n m : Nat) : Option (Reg × W64) :=
  let mine (l : List ArrayFix) : List ArrayFix :=
    l.filter (fun x => x.tile == physCode bad n && x.array == m && !bad.contains x.tile)
  let fix (col : Bool) : Option ArrayFix := (mine fuse ++ mine image).find? (fun x => x.column == col)
  let v := (match fix false with | some x => x.index + 2 ^ 6 | none => 0)
    + (match fix true with | some x => x.index * 2 ^ 8 + 2 ^ 14 | none => 0) + (if (mine image).isEmpty then 0 else 2 ^ 15)
  if v = 0 then none else some (.maRepair n m, BitVec.ofNat 64 v)

/-- The usable size of the HBM window (R232, R235): every pseudo-channel holds 48,000,000,000 / 32 B in whole check groups.
DEDUCED: log entry 83. -/
def hbmUsable : Nat := 512 * 256 * (8 * (48000000000 / 32 / 2496))

/-- The usable size of the LPDDR5X window (R232, R236, R248). DEDUCED: log entry 83. -/
def lpUsable (pop capacity : Nat) : Nat :=
  (if pop = 0 then 0 else if pop = 1 then 32 else 64) * 256 * (8 * (capacity * 8000000000 / 2496))

/-- LPMC.POP of the population section (R248). -/
def popWord (e : List Byte) : Nat :=
  let pop := numAt e 0 1
  if pop = 0 then 0
  else (if pop = 1 then 0x0F else 0xFF) + numAt e 1 1 * 2 ^ 8 + numAt e 2 1 * 2 ^ 12 + numAt e 3 1 * 2 ^ 13

/-- The spares used of each bank, by the hard repairs made (R246). -/
def sparesOf (l : List (Nat × Nat × Nat)) (h : Nat) : NMap Nat :=
  (l.filter (fun x => x.1 == h)).foldl (fun m x => nset 0 m x.2.1 (kget 0 m x.2.1 + 1)) []

/-- One MEM_REPAIR entry (R246, R344): a row already repaired needs nothing; a bank without a spare counts and leaves a record.
DEDUCED: log entry 87. -/
def State.hardRepair (s : State) (e : List Byte) : State :=
  let p := memFixPlace e
  if s.sys.hardRepairs.contains p then s
  else if kget 0 (sparesOf s.sys.hardRepairs p.1) p.2.1 < Config.sparesPerBank then
    { s with sys := { s.sys with hardRepairs := s.sys.hardRepairs ++ [p] } }
  else
    (s.bumpF (.hbmcRepairStatus (mcOf p.1)) Fld.hbmcRepairStatusExhausted 1).report (mcRec Cls.memRepairExhausted p.1 0)

/-- The spares left in the fullest bank of a controller's homes. -/
def sparesMin (l : List (Nat × Nat × Nat)) (i : Nat) : Nat :=
  let homes := if i < 16 then [2 * i, 2 * i + 1] else [16 + i]
  let used := (homes.flatMap (fun h => (sparesOf l h).map Prod.snd)).foldl max 0
  Config.sparesPerBank - used

/-- Every value that a passing image gives a register (R346). DEDUCED: log entry 83. -/
def State.shadows (s : State) (l digest : List Byte) : List (Reg × W64) :=
  let bad := s.sys.fuses.badTiles ++ imgTiles l
  let pop := (sectionOf l 7).getD [0, 0, 0, 0]
  (List.range 384).flatMap (tileShadow bad)
    ++ (List.range 1536).filterMap (fun k => repairShadow bad s.fuseFixes (imgFixes l) (k / 4) (k % 4))
    ++ [(.tileMapStatus, BitVec.ofNat 64 (spareRows bad 0 + spareRows bad 1 * 2 ^ 16 + (imgTiles l).dedup.length * 2 ^ 32)),
        (.hbmcHbmSize, BitVec.ofNat 64 hbmUsable), (.hbmcLpSize, BitVec.ofNat 64 (lpUsable (numAt pop 0 1) (numAt pop 1 1))),
        (.bootImage, BitVec.ofNat 64 (imgSvn l + imgSlot l * 2 ^ 8 + imgTotal l * 2 ^ 16))]
    ++ (List.range 8).map (fun q => (.lpmcPop q, BitVec.ofNat 64 (popWord pop)))
    ++ (List.range 24).map (fun i => (.hbmcRepairStatus i, BitVec.ofNat 64 (sparesMin s.sys.hardRepairs i * 2 ^ 16)))
    ++ (List.range 4).map (fun w => (.bootDigest w, BitVec.ofNat 64 (numAt digest (8 * w) 8)))
    ++ (List.range 4).map (fun w => (.bootImageId w, BitVec.ofNat 64 (numAt l (32 + 8 * w) 8)))
    ++ imgOptions l

/-- The fields of a register whose Reset is "image". -/
def imageBits (r : Reg) : W64 := r.maskWhere (fun f => f.image)

/-- Give the image fields of a register a value, as written and in force, and remember it for resets of its unit (R346, R376). -/
def State.shadow (s : State) (r : Reg) (v : W64) : State :=
  let m := imageBits r
  let put (old : W64) : W64 := (old &&& ~~~m) ||| (v &&& m)
  let s := (s.rset r (put (s.rget r))).aset r (put (s.aget r))
  { s with image := kset Reg.addr r.reset s.image r (put r.reset) }

/-- Order 9 for the registers (R347): fields that an earlier image set and this one does not return to the image defaults.
DESIGN CHOICE: log entry 6. -/
def State.applyShadows (s : State) (l : List (Reg × W64)) : State :=
  let s := { (s.image.foldl (fun s e => s.shadow e.1 e.1.reset) s) with image := [] }
  l.foldl (fun s e => s.shadow e.1 e.2) s

end Sys2Proof.Machine
end

