-- ==== Sys2Proof/Machine/Boot.lean ====
section
/-! DEFINITION. The configuration load, recovery and hold, fuse programming, attestation and the re-pitch (R333 to R358). -/

namespace Sys2Proof.Machine

/-! ## Management frames (R349, R422) -/

/-- The frames that carry a byte string in fragments of up to 1,024 B, in order (R422); `n` bounds their number. -/
def State.partFrames (s : State) (dst : BitVec 48) (op seq : Nat) : Nat → Nat → List Byte → List MgmtFrame
  | 0, _, _ => []
  | n + 1, off, l =>
    if l.isEmpty then []
    else
      let p := l.take 1024
      { dst := some dst, op := op, status := 0, seq := seq, offset := off, length := p.length, data := p, mac := s.mac, etherType := 0x88B5 }
        :: s.partFrames dst op seq n (off + 1024) (l.drop 1024)

/-- Begin to send an attestation or a certificate (R422). DEDUCED: log entry 84. -/
def State.sendParts (s : State) (dst : BitVec 48) (op seq n : Nat) (l : List Byte) : State :=
  { s with sys := { s.sys with sendQ := s.partFrames dst op seq n 0 l } }

/-- A BCLK cycle of the sending of an attestation or a certificate: whether its next frame has gone out a free value says, as no rule times
it (R422). DESIGN CHOICE, DEDUCED: log entries 1, 84. -/
def State.sendNext (s : State) : State :=
  match s.sys.sendQ with
  | [] => s
  | f :: rest =>
    let (s, b) := s.free 1
    if b = 1 then ({ s with sys := { s.sys with sendQ := rest } } : State).sendFrame f else s

/-- A request of the ops in run is served, or answered with status 2 while an earlier attestation or certificate is being sent (R422).
DEDUCED: log entry 84. -/
def State.unlessSending (s : State) (dst : BitVec 48) (op seq : Nat) (f : State → State) : State :=
  if s.sys.sendQ.isEmpty then f s else s.answerFrame dst op 2 seq 0 []

/-! ## The memories that hold the controller's code (R333, R334) -/

/-- An uncorrectable word lies in `n` bytes from an address. DESIGN CHOICE: log entry 120. -/
def EccMarks.badIn (m : EccMarks) (a n : Nat) : Bool := m.ue.any (fun w => a < 4 * w + 4 && 4 * w < a + n)

/-- A read of `n` bytes corrects the words with a single-bit error (R34). DESIGN CHOICE: log entry 120. -/
def EccMarks.read (m : EccMarks) (a n : Nat) : EccMarks := { m with ce := m.ce.filter (fun w => 4 * w + 4 ≤ a || a + n ≤ 4 * w) }

/-- Bytes of the boot ROM (R333). -/
def romSize : Nat := 64 * 2 ^ 10

/-- `n` bytes of the boot ROM from an address (R333). -/
def romBytes (a n : Nat) : List Byte := (List.range n).map (fun i => if a + i < romSize then Config.romByte (a + i) else 0)

/-- The code that the basecamp controller executes, the ROM's or the firmware's, has an uncorrectable word: such a read returns nothing (R34,
R333), and the controller does nothing. DESIGN CHOICE: log entry 120. -/
def State.codeLost (s : State) : Bool :=
  if s.sys.rv.inSram then s.sys.sramEcc.badIn 0 s.sys.firmware.length else s.sys.romEcc.badIn 0 romSize

/-- The controller executes the ROM, which corrects its single-bit errors (R34, R334). DESIGN CHOICE: log entry 120. -/
def State.readRom (s : State) : State := { s with sys := { s.sys with romEcc := s.sys.romEcc.read 0 romSize } }

/-- Answer the LOAD frame of the load that ends (R350). -/
def State.replyLoad (s : State) (code : Nat) : State :=
  match s.sys.loadReply with
  | some (dst, seq) => ({ s with sys := { s.sys with loadReply := none } } : State).answerFrame dst 5 code seq 0 []
  | none => s

/-- BOOT.STATUS.stage. -/
def State.stage (s : State) : Nat := s.rf .bootStatus Fld.bootStatusStage
/-- The ROM serves recovery frames: recovery or hold (R349, R351). -/
def State.romServes (s : State) : Bool := (s.stage == 5 || s.stage == 6) && !s.codeLost
/-- The firmware runs (R422). -/
def State.firmwareRuns (s : State) : Bool := s.stage == 4 && !s.codeLost
/-- Destinations of frames to several ports that the port accepts: all ports, and those of PTP over Ethernet and over UDP on IPv4 (R421).
DESIGN CHOICE: log entry 120. -/
def groupAddresses : List (BitVec 48) :=
  [0xFFFFFFFFFFFF, 0x011B19000000, 0x0180C200000E, 0x01005E000181, 0x01005E00006B]

/-- A frame reaches the software: to the port's own address, or in run to a group (R349, R421, R422).
DESIGN CHOICE: log entry 120. -/
def State.hears (s : State) (h : Ether) : Bool :=
  h.etherType == 0x88B5 && (h.dst == s.mac || (s.firmwareRuns && groupAddresses.contains h.dst))

/-- A frame of the management port: one that the port does not accept does nothing. -/
def onFrame (h : Ether) (s : State) (f : State → State) : Out := always s (fun s => if s.hears h then f s else s)

/-- A load that a frame started has not ended (R350). -/
def State.loadRuns (s : State) : Bool := s.sys.loadReply.isSome

/-! ## The guyline pins (R432, R435) -/

/-- The station clock enters HOLDOVER (R416). -/
def State.holdover (s : State) : State := (s.setF .timeStatus Fld.timeStatusState 3).setF .timeAlert Fld.timeAlertHoldover 1

/-- GL[11:0] are in load phase (R432). -/
def State.loadPhase (s : State) : Bool := s.rf .bootGlPhase Fld.bootGlPhaseLow == 1

/-- GL[11:0] enter load phase, and the station clock HOLDOVER (R355, R416). DESIGN CHOICE: log entry 128. -/
def State.glLoad (s : State) : State :=
  ((s.setF .bootGlPhase Fld.bootGlPhaseLow 1).setF .bootGlPhase Fld.bootGlPhaseXspiEn 1).holdover

/-- Every guyline pin is in run phase; a clock that load phase held becomes ACQUIRE (R416). DESIGN CHOICE: log entry 128. -/
def State.glRun (s : State) : State :=
  let s := if s.loadPhase then s.setF .timeStatus Fld.timeStatusState 1 else s
  (((s.setF .bootGlPhase Fld.bootGlPhaseLow 2).setF .bootGlPhase Fld.bootGlPhaseHigh 2).setF .bootGlPhase Fld.bootGlPhaseXspiEn 0).setF
    .bootGlPhase Fld.bootGlPhaseGlrun 1

/-! ## The load buffer (R333) -/

/-- `n` bytes from an address of a table whose first entry is at or above it. -/
def bytesFrom : NMap Byte → Nat → Nat → List Byte
  | _, _, 0 => []
  | [], _, n => List.replicate n 0
  | (k, v) :: m, a, n + 1 => if k = a then v :: bytesFrom m (a + 1) n else 0 :: bytesFrom ((k, v) :: m) (a + 1) n

/-- `n` bytes of the load buffer. -/
def State.bufBytes (s : State) (a n : Nat) : List Byte := bytesFrom (s.sys.loadBuf.dropWhile (fun e => e.1 < a)) a n

/-- The entries of bytes stored from an address on. -/
def bufCells : Nat → List Byte → NMap Byte
  | _, [] => []
  | a, b :: l => if b = 0 then bufCells (a + 1) l else (a, b) :: bufCells (a + 1) l

/-- A write of `n` bytes: a word it fills is good, and one it merges into is corrected or stays uncorrectable.
DESIGN CHOICE: log entry 120. -/
def EccMarks.written (m : EccMarks) (a n : Nat) : EccMarks :=
  { m.read a n with ue := m.ue.filter (fun w => 4 * w < a || a + n < 4 * w + 4) }

/-- Store bytes in the load buffer. -/
def State.putBuf (s : State) (a : Nat) (l : List Byte) : State :=
  let m := s.sys.loadBuf
  { s with sys := { s.sys with
      loadBuf := m.filter (fun e => e.1 < a) ++ bufCells a l ++ m.filter (fun e => a + l.length ≤ e.1)
      bufEcc := s.sys.bufEcc.written a l.length } }

/-! ## The configuration load (R344 to R348) -/

/-- A load fails (R348); what it has read does not stay in the load buffer (R350). DEDUCED: log entry 91. -/
def State.loadFail (s : State) (code : Nat) : State :=
  let s := { s with sys := { s.sys with loadRead := none } }
  (((s.setF .bootStatus Fld.bootStatusError code).setF .bootStatus Fld.bootStatusStage 5).glRun).replyLoad code

/-- Order 1: the fuses are read into their registers (R340, R421); a corrected word is counted. -/
def State.readFuses (s : State) : State :=
  let f := s.sys.fuses
  let s := (s.rset .fusePart f.part).rset .fuseSerial f.serial
  let s := s.rset .fuseRollback (BitVec.ofNat 64 f.rollback)
  let s := s.rset .fuseKeyState (BitVec.ofNat 64 (f.programmed.toNat + f.revoked.toNat * 16))
  let s := (List.range 16).foldl (fun s i => s.rset (.fuseKeyHash (i / 4) (i % 4)) (kget 0 f.keyHash i)) s
  let s := s.setF .fuseProgStatus Fld.fuseProgStatusFuseCe f.corrected
  s.setF .timeMac Fld.timeMacMac (0x02 * 2 ^ 40 + f.serial.toNat % 2 ^ 40)

/-- Copy the firmware into the SRAM, unless the SRAM that holds it is write-protected (R334, R344). DESIGN CHOICE: log entry 120. -/
def Sys.copyFirmware (x : Sys) (fw : List Byte) : Sys :=
  if x.fwProtected then x
  else { x with
    firmware := fw, sram := bufCells 0 fw ++ x.sram.filter (fun e => fw.length ≤ e.1), sramEcc := x.sramEcc.written 0 fw.length }

/-- Order 9: the shadows, the tile table, the firmware, and the guyline pins (R347). -/
def State.applyImage (s : State) (l : List Byte) : State :=
  let s := (entriesOf l 6 8).foldl (fun s e => s.hardRepair e) s
  let s := s.applyShadows (s.shadows l (imgDigest l))
  let s := (s.sys.hardRepairs.map Prod.fst).foldl (fun s h => s.setMc h { s.mc h with sparesUsed := sparesOf s.sys.hardRepairs h }) s
  let trims := (entriesOf l 3 8).foldl (fun m e => nset 0 m (numAt e 0 4) (BitVec.ofNat 32 (numAt e 4 4))) s.sys.fuses.trims
  let table := (entriesOf l 8 16).map (fun e => (BitVec.ofNat 64 (numAt e 0 8), numAt e 8 2 % 4096))
  let s := { s with sys := { s.sys.copyFirmware ((sectionOf l 1).getD []) with
    trims := trims, assignTable := table, imageFlags := numAt l 21 1, applied := true
    cert := none } }
  (s.setF .bootStatus Fld.bootStatusStage 3).glRun

/-- Orders 2 to 9 on the reads of an image (R344, R345). -/
def State.loadRun (s : State) (read : Nat → List Byte) : State :=
  let (code, reads, l) := s.judgeReads read
  let s := s.setF .bootStatus Fld.bootStatusAttempts reads
  if code ≠ 0 then s.loadFail code else s.applyImage l

/-- Byte strings as reads of a flash: a missing read repeats the last one; bytes beyond it read as erased,
and a load makes at most three. DEDUCED: log entry 91. -/
def flashRead (reads : List (List Byte)) (i : Nat) : List Byte :=
  let l := reads.getD (min i (reads.length - 1)) []
  l ++ List.replicate (1048576 - l.length) 0xFF

/-- A load from the NVM (R335, R344); what it reads from order 5 on is for the load buffer, which a failed load leaves as it was (R350).
DEDUCED: log entry 91. -/
def State.loadNvm (s : State) (reads : List (List Byte)) : State :=
  let s := s.setF .bootStatus Fld.bootStatusSource 0
  if bitsOf (s.rget .bootStraps).toNat 6 2 = 3 then (s.setF .bootStatus Fld.bootStatusAttempts 0).loadFail 1
  else
    let l := (s.judgeReads (flashRead reads)).2.2
    let s := { s with sys := { s.sys with loadRead := some ((l.take (imgTotal l)).drop 256) } }
    s.loadRun (flashRead reads)

/-- A load from the load buffer (R350). An uncorrectable word in the header or in the rest of the image fails the check that needs it.
DESIGN CHOICE: log entry 120. -/
def State.loadBuffered (s : State) : State :=
  let s := s.setF .bootStatus Fld.bootStatusSource 1
  let l := s.bufBytes 0 1048576
  let start := headerCode l = 0 ∧ s.deviceCode l = 0 ∧ s.keyCode l = 0
  let n := if start then imgTotal l else 256
  let bad (a k : Nat) : Bool := s.sys.bufEcc.badIn a k
  let s := { s with sys := { s.sys with bufEcc := s.sys.bufEcc.read 0 n } }
  if bad 0 256 then (s.setF .bootStatus Fld.bootStatusAttempts 1).loadFail 2
  else if start ∧ bad 256 (n - 256) then (s.setF .bootStatus Fld.bootStatusAttempts 3).loadFail 5
  else s.loadRun (fun _ => l)

/-- The boot mode, GL[9:8] (R335). -/
def State.bootMode (s : State) : Nat := bitsOf (s.rget .bootStraps).toNat 8 2

/-- What the boot mode selects once the fuses are read (R335, R432): the load from the NVM, hold, in which GL[11:0] enter load phase as the ROM
starts to wait, or recovery. -/
def State.startMode (s : State) (reads : List (List Byte)) : State :=
  match s.bootMode with
  | 0 => s.loadNvm reads
  | 2 => s.glLoad.setF .bootStatus Fld.bootStatusStage 6
  | _ => (s.setF .bootStatus Fld.bootStatusStage 5).glRun

/-- The start of the ROM after D2 (R335, R344): a reserved boot mode is noted, then the fuses are read, then what the boot mode selects. -/
def State.configurationLoad (s : State) (reads : List (List Byte)) : State :=
  if s.stage ≠ 0 ∨ s.loadFailed ∨ bitsOf (s.rf .rstDomains Fld.rstDomainsReleased) 2 1 = 0 ∨ s.codeLost then s
  else
    let s := s.readRom
    let s := if s.bootMode = 3 then s.setF .bootStatus Fld.bootStatusStrapError 1 else s
    if s.sys.fuses.uncorrectable then s.loadFail 10 else s.readFuses.startMode reads

/-- CONFIGURATION_LOAD (R344). DEDUCED: log entry 91. -/
def execConfigurationLoad (reads : List (List Byte)) (s : State) : Out :=
  clocked 2 s (fun s => s.configurationLoad reads)

/-- The seeds of a key pair by its label (R352): the secret's bytes are taken in ascending order. DEDUCED: log entry 85. -/
def keySeeds (secret : BitVec 256) (label : List Byte) : KeySeeds :=
  let part (i : Byte) : List Byte := (sha256 (leBytes 32 secret.toNat ++ label ++ [i])).take 24
  ⟨part 0, part 1, part 2⟩

/-- The label of the device identity key, "DEVID". -/
def identityLabel : List Byte := [0x44, 0x45, 0x56, 0x49, 0x44]

/-- The digest of the running image. -/
def State.digest (s : State) : List Byte := (List.range 4).flatMap (fun w => leBytes 8 (s.rget (.bootDigest w)).toNat)

/-- The label of the alias key: "ALIAS", the image digest and the svn byte. -/
def State.aliasLabel (s : State) : List Byte :=
  [0x41, 0x4C, 0x49, 0x41, 0x53] ++ s.digest ++ leBytes 1 (s.rf .bootImage Fld.bootImageSvn)

/-- A load derives the key pairs from the secret and locks it until the next reset of D2 (R352). DEDUCED: log entry 84. -/
def State.deriveKeys (s : State) : State :=
  if s.sys.secretLocked then s
  else { s with sys := { s.sys with
    identity := keySeeds s.sys.fuses.secret identityLabel, aliasKeys := keySeeds s.sys.fuses.secret s.aliasLabel, secretLocked := true } }

/-- The ROM jumps to the firmware in the SRAM, which starts, and the load has completed (R334, R344, R350).
DEDUCED: log entries 84, 91. -/
def State.startFirmware (s : State) : State :=
  let s := match s.sys.loadRead with
    | some l => s.putBuf 256 l
    | none => s
  let s := { s with sys := { s.sys with
    fwProtected := true, loadRead := none, rv := { s.sys.rv with inSram := true, pc := 0 }
    sramEcc := s.sys.sramEcc.read 0 s.sys.firmware.length } }
  ((s.setF .bootStatus Fld.bootStatusStage 4).setF .bootStatus Fld.bootStatusError 0).replyLoad 0

/-- Order 11 at the release of D8 (R342, R344): the keys; then the ROM begins to advance the rollback counter if the image asks for it, and
the firmware starts after that. DEDUCED: log entry 84. -/
def State.loadEnd (s : State) : State :=
  let s := s.deriveKeys
  let svn := s.rf .bootImage Fld.bootImageSvn
  if s.sys.imageFlags % 2 = 1 ∧ s.sys.fuses.rollback < svn then
    ({ s with sys := { s.sys with fuseOp := some (.load svn) } } : State).setF .fuseProgStatus Fld.fuseProgStatusBusy 1
  else s.startFirmware

/-! ## Recovery frames (R349 to R351) and the same ops in run (R422) -/

/-- The fields of an ANNOUNCE from byte 16 on. -/
def State.announceData (s : State) : List Byte :=
  leBytes 8 (s.rget .fuseSerial).toNat ++ leBytes 1 (s.rf .bootStatus Fld.bootStatusError) ++ leBytes 1 s.stage

/-- ANNOUNCE_TIMER: the ROM broadcasts ANNOUNCE every second (R349, R351). -/
def execAnnounceTimer (s : State) : Out :=
  always s (fun s =>
    if s.romServes then
      s.sendFrame { dst := none, op := 1, status := 0, seq := 0, offset := 0, length := 10, data := s.announceData,
                    mac := s.mac, etherType := 0x88B5 }
    else s)

/-- ANNOUNCE_FRAME: in run the firmware answers an ANNOUNCE with one ANNOUNCE (R422). -/
def execAnnounceFrame (src : Ether) (seq : W16) (s : State) : Out :=
  onFrame src s (fun s => if s.firmwareRuns then s.answerFrame src.src 1 0 seq.toNat 0 s.announceData else s)

/-- A DATA frame (R350, R351, R422). DEDUCED: log entry 84. -/
def State.dataFrame (s : State) (src : BitVec 48) (seq offset : Nat) (data : List Byte) : State :=
  let ack (s : State) (st : Nat) : State := s.answerFrame src 3 st seq offset []
  let accept (s : State) : State := if offset + data.length ≤ 1048576 then ack (s.putBuf offset data) 0 else ack s 1
  if s.loadRuns then ack s 2
  else if s.romServes then accept s
  else if s.firmwareRuns then
    if s.rf .bootRepitchStatus Fld.bootRepitchStatusState = 2 then accept s else ack s 2
  else s

/-- DATA_FRAME (R350). DESIGN CHOICE: log entry 4. -/
def execDataFrame (src : Ether) (seq : W16) (offset : W32) (data : List Byte) (s : State) : Out :=
  onFrame src s (fun s => s.dataFrame src.src seq.toNat offset.toNat data)

/-- A LOAD frame (R350, R351, R422): a load from the buffer, or from the NVM for offset 0xFFFF_FFFF. DEDUCED: log entry 84. -/
def State.loadFrame (s : State) (src : BitVec 48) (seq : Nat) (offset : W32) (reads : List (List Byte)) : State :=
  if s.loadRuns then s.answerFrame src 3 2 seq 0 []
  else if s.romServes then
    if s.frozen then s
    else
      let s := { s with sys := { s.sys with loadReply := some (src, seq) } }
      if offset = 0xFFFFFFFF then s.loadNvm reads
      else s.loadBuffered
  else if s.firmwareRuns then s.answerFrame src 5 0xFF seq 0 []
  else s

/-- LOAD_FRAME (R350): `reads` is what the flash holds, if it is read. -/
def execLoadFrame (src : Ether) (seq : W16) (offset : W32) (reads : List (List Byte)) (s : State) : Out :=
  onFrame src s (fun s => s.loadFrame src.src seq.toNat offset reads)

/-! ## Attestation (R352, R353) -/

/-- The public key of a pair (R352). DEDUCED: log entry 85. -/
def KeySeeds.publicKey (k : KeySeeds) : List Byte := SlhSet.f192.publicKey k.sk k.pk

/-- The alias public key. DEDUCED: log entry 85. -/
def State.aliasKey (s : State) : List Byte := s.sys.aliasKeys.publicKey

/-- Sign a message, itself, with an empty context: the signature, 35,664 B, made with a free random value. DEDUCED: log entry 85. -/
def State.sign (s : State) (k : KeySeeds) (msg : List Byte) : State × List Byte :=
  ({ s with freeCtr := s.freeCtr + 1 },
    SlhSet.f192.signWith k.sk k.prf k.publicKey (leBytes 24 (Config.freeValue s.freeCtr).toNat) (slhPure msg))

/-- Bytes 8 to 23 of a report. -/
def State.identity (s : State) : List Byte :=
  leBytes 8 (s.rget .fuseSerial).toNat ++ leBytes 2 (s.rf .fusePart Fld.fusePartDeviceId)
    ++ leBytes 1 (s.rf .fusePart Fld.fusePartStepping) ++ leBytes 1 (s.rf .bootImage Fld.bootImageKeySlot)
    ++ leBytes 1 (s.rf .bootImage Fld.bootImageSvn) ++ leBytes 1 (s.rf .fuseRollback Fld.fuseRollbackCounter)
    ++ leBytes 1 (s.rf .bootStatus Fld.bootStatusSource) ++ [0]

/-- The 256 B of an attestation report (R353). -/
def State.reportBytes (s : State) (nonce : BitVec 256) : List Byte :=
  leBytes 4 0x52545441 ++ leBytes 2 1 ++ leBytes 2 0 ++ s.identity ++ s.digest
    ++ (List.range 4).flatMap (fun w => leBytes 8 (s.rget (.bootImageId w)).toNat) ++ leBytes 32 nonce.toNat
    ++ leBytes 8 s.now.toNat ++ leBytes 4 (s.rget .bootStraps).toNat ++ List.replicate 60 0 ++ s.aliasKey
    ++ List.replicate 16 0

/-- The first attestation request after a load makes the alias certificate (R353). DEDUCED: log entry 85. -/
def State.certify (s : State) : State :=
  if s.sys.cert.isSome then s
  else
    let body := s.identity ++ s.digest ++ s.aliasKey
    let (s, sig) := s.sign s.sys.identity body
    { s with sys := { s.sys with cert := some (body ++ sig) } }

/-- ATTEST (R353, R422): a report in 36 frames. DEDUCED: log entry 84. -/
def execAttest (src : Ether) (seq : W16) (nonce : BitVec 256) (s : State) : Out :=
  onFrame src s (fun s =>
    if s.firmwareRuns then s.unlessSending src.src 17 seq.toNat (fun s =>
      let s := s.certify
      let rep := s.reportBytes nonce
      let (s, sig) := s.sign s.sys.aliasKeys rep
      s.sendParts src.src 17 seq.toNat 36 (rep ++ sig))
    else s)

/-- CERT (R353, R422): the alias certificate in 35 frames. DEDUCED: log entry 84. -/
def execCert (src : Ether) (seq : W16) (s : State) : Out :=
  onFrame src s (fun s =>
    if s.firmwareRuns then s.unlessSending src.src 19 seq.toNat (fun s =>
      let s := s.certify
      s.sendParts src.src 19 seq.toNat 35 (s.sys.cert.getD []))
    else s)

/-! ## Fuse programming (R343) -/

/-- Refuse a fuse command. -/
def State.fuseRefuse (s : State) (e : Nat) : State := s.setF .fuseProgStatus Fld.fuseProgStatusError e

/-- The unlock field is right and no fuses are being blown (R343). -/
def State.fuseReady (s : State) (unlock : W32) : Bool := unlock == 0x46555345 && s.sys.fuseOp.isNone

/-- Begin to blow fuses. -/
def State.fuseBegin (s : State) (op : FuseOp) : State :=
  let s := (s.setF .fuseProgStatus Fld.fuseProgStatusBusy 1).setF .fuseProgStatus Fld.fuseProgStatusError 0
  { s with sys := { s.sys with fuseOp := some op } }

/-- Op 1 of FUSE.PROG_CMD: advance the rollback counter (R343). -/
def State.fuseRollback (s : State) (unlock : W32) (target : Nat) : State :=
  if !s.fuseReady unlock then s.fuseRefuse 1
  else if target < s.sys.fuses.rollback then s.fuseRefuse 4
  else s.fuseBegin (.rollback target)

/-- FUSE_ADVANCE_ROLLBACK (R343). -/
def execFuseAdvanceRollback (unlock : W32) (target : BitVec 6) (s : State) : Out :=
  always s (fun s => s.fuseRollback unlock target.toNat)

/-- Op 2 of FUSE.PROG_CMD: program a key slot (R343). -/
def State.fuseSlot (s : State) (unlock : W32) (slot : Nat) : State :=
  if !s.fuseReady unlock then s.fuseRefuse 1
  else if slot = 0 ∨ s.sys.fuses.programmed.getLsbD slot then s.fuseRefuse 2
  else s.fuseBegin (.program slot)

/-- FUSE_PROGRAM_SLOT (R343). -/
def execFuseProgramSlot (unlock : W32) (slot : BitVec 2) (s : State) : Out :=
  always s (fun s => s.fuseSlot unlock slot.toNat)

/-- Op 3 of FUSE.PROG_CMD: revoke a key slot (R343). -/
def State.fuseRevoke (s : State) (unlock : W32) (slot : Nat) : State :=
  if !s.fuseReady unlock then s.fuseRefuse 1
  else if s.sys.applied && s.rf .bootImage Fld.bootImageKeySlot == slot then s.fuseRefuse 3
  else s.fuseBegin (.revoke slot)

/-- FUSE_REVOKE_SLOT (R343). -/
def execFuseRevokeSlot (unlock : W32) (slot : BitVec 2) (s : State) : Out :=
  always s (fun s => s.fuseRevoke unlock slot.toNat)

/-- The first `k` bits that are set in a number, in ascending order. DEDUCED: log entry 86. -/
def lowBits (v : Nat) : Nat → Nat → Nat → Nat
  | 0, _, _ => 0
  | _, _, 0 => 0
  | n + 1, i, k + 1 => if bitsOf v i 1 = 1 then 2 ^ i + lowBits v n (i + 1) k else lowBits v n (i + 1) (k + 1)

/-- Blow the key hash of a slot from PROG_DATA, `k` bits of it, onto what the slot holds. DEDUCED: log entry 86. -/
def State.blowHash (s : State) (slot k : Nat) : NMap W64 :=
  let v := leNat ((List.range 4).flatMap (fun w => leBytes 8 (s.rget (.fuseProgData w)).toNat))
  let x := lowBits v 256 0 k
  (List.range 4).foldl (fun m w =>
    nset 0 m (4 * slot + w) (kget 0 m (4 * slot + w) ||| BitVec.ofNat 64 (x / 2 ^ (64 * w)))) s.sys.fuses.keyHash

/-- What an operation leaves in the fuses: whole, or after `k` bits when the next one does not read back blown.
DEDUCED: log entry 86. -/
def State.blow (s : State) (op : FuseOp) (failed : Option Nat) : Fuses :=
  let f := s.sys.fuses
  match op, failed with
  | .rollback t, none => { f with rollback := t }
  | .rollback t, some k => { f with rollback := max f.rollback (min (t - 1) (f.rollback + k)) }
  | .program slot, none =>
    { f with programmed := f.programmed ||| BitVec.ofNat 4 (2 ^ slot), keyHash := s.blowHash slot 256 }
  | .program slot, some k => { f with keyHash := s.blowHash slot (min k 256) }
  | .revoke slot, none => { f with revoked := f.revoked ||| BitVec.ofNat 4 (2 ^ slot) }
  | .revoke _, some _ => f
  | .load t, none => { f with rollback := t }
  | .load t, some k => { f with rollback := max f.rollback (min (t - 1) (f.rollback + k)) }

/-- What a reset or a loss of power during the blowing leaves in the fuses (R342): a free number of the bits.
DEDUCED: log entry 86. -/
def State.fusesLeft (s : State) : Fuses :=
  let f := s.sys.fuses
  let v := (Config.freeValue s.freeCtr).toNat
  match s.sys.fuseOp with
  | none => f
  | some (.rollback t) | some (.load t) => { f with rollback := f.rollback + v % (t - f.rollback + 1) }
  | some (.program slot) =>
    { f with
      keyHash := s.blowHash slot (min (v % 258) 256)
      programmed := if v % 258 = 257 then f.programmed ||| BitVec.ofNat 4 (2 ^ slot) else f.programmed }
  | some (.revoke slot) => { f with revoked := if v % 2 = 1 then f.revoked ||| BitVec.ofNat 4 (2 ^ slot) else f.revoked }

/-- The blowing of fuses ends (R342, R343): whole, or with a bit that does not read blown after `k` others; then the firmware starts, if the
ROM blew them. DEDUCED: log entries 84, 86. -/
def State.fuseEnd (s : State) (failed : Option Nat) : State :=
  match s.sys.fuseOp with
  | none => s
  | some op =>
    let f := s.blow op failed
    let s := { s with sys := { s.sys with fuses := f, fuseOp := none } }
    let s := (s.setF .fuseProgStatus Fld.fuseProgStatusBusy 0).rset .fuseRollback (BitVec.ofNat 64 f.rollback)
    let s := match failed with
      | none => s
      | some _ => (s.setF .fuseProgStatus Fld.fuseProgStatusError 5).report (mkRec Cls.fuseProg 1 Kind.basecamp 0)
    match op with
    | .load _ => s.startFirmware
    | _ => s

/-- FUSE_PROG_COMPLETE (R343). -/
def execFuseProgComplete (failed : Option Nat) (s : State) : Out := always s (fun s => s.fuseEnd failed)

/-! ## Re-pitch (R354 to R357) -/

/-- BOOT.REPITCH_STATUS.state. -/
def State.repitchState (s : State) : Nat := s.rf .bootRepitchStatus Fld.bootRepitchStatusState
/-- Put a re-pitch in a state. -/
def State.setRepitch (s : State) (x : Nat) : State := s.setF .bootRepitchStatus Fld.bootRepitchStatusState x
/-- BOOT.REPITCH_STATUS.error. -/
def State.repitchError (s : State) (e : Nat) : State := s.setF .bootRepitchStatus Fld.bootRepitchStatusError e

/-- ENTER written to BOOT.REPITCH_CTRL (R354). DEDUCED: log entry 88. -/
def State.repitchEnter (s : State) : State :=
  if s.repitchState = 0 then (s.setRepitch 1).repitchError 0 else s.repitchError 2

/-- ENTER. -/
def execEnter (s : State) : Out := always s (fun s => s.repitchEnter)

/-- The compute field is idle (R354). -/
def State.fieldIdle (s : State) : Bool :=
  s.sched.run.isNone && s.tiles.all (fun e =>
    e.2.seq != .run && !e.2.launched && (List.range 8).all (fun a => !e.2.xferBusy a))

/-- The field is idle: GL[11:0] enter load phase and the station clock HOLDOVER (R354, R416, R435). -/
def State.repitchLoad (s : State) : State :=
  if s.repitchState = 1 ∧ s.fieldIdle then (s.setRepitch 2).glLoad else s

/-- REPITCH_FIELD_IDLE (R354). -/
def execRepitchFieldIdle (s : State) : Out := clocked 2 s (fun s => s.repitchLoad)

/-- REPITCH_IDLE_TIMEOUT: the field was not idle within 1 s (R354). -/
def execRepitchIdleTimeout (s : State) : Out :=
  always s (fun s => if s.repitchState = 1 then (s.setRepitch 0).repitchError 1 else s)

/-- GL[11:0] return to run phase and the hold ends (R356, R416, R435). -/
def State.repitchExit (s : State) : State :=
  let s := ((s.setRepitch 0).glRun).setF .timeStatus Fld.timeStatusState 1
  { s with sys := { s.sys with leaving := false } }

/-- The re-pitch ends, after the xSPI command that runs (R356, R435). DEDUCED: log entry 88. -/
def State.repitchLeave (s : State) : State :=
  if s.sys.xspi.isSome then { s with sys := { s.sys with leaving := true } } else s.repitchExit

/-- LEAVE written to BOOT.REPITCH_CTRL (R356). -/
def execLeave (s : State) : Out := clocked 2 s (fun s => if s.repitchState = 2 then s.repitchLeave else s.repitchError 2)

/-- REPITCH_TIME_LIMIT: still in load phase 120 s after ENTER (R356). -/
def execRepitchTimeLimit (s : State) : Out :=
  clocked 2 s (fun s => if s.repitchState = 2 then (s.repitchError 3).repitchLeave else s)

/-- VERIFY: orders 2 to 8 on what the flash holds (R356); only verify_code changes. DEDUCED: log entry 88. -/
def State.verify (s : State) (reads : List (List Byte)) : State :=
  if s.repitchState ≠ 2 ∨ s.sys.xspi.isSome then s.repitchError 2
  else
    let code := if bitsOf (s.rget .bootStraps).toNat 6 2 = 3 then 1 else (s.judgeReads (flashRead reads)).1
    s.setF .bootRepitchStatus Fld.bootRepitchStatusVerifyCode code

/-- VERIFY. -/
def execVerify (reads : List (List Byte)) (s : State) : Out :=
  clocked 2 s (fun s => s.verify reads)

/-! ## xSPI commands (R336, R355, R437) -/

/-- The transfers of each NVM mode, GL[7:6] (R335). -/
def nvmMode : Nat → Option XspiMode
  | 0 => some { octal := true, ddr := true, sck := 100, read := 0xEE, readExt := some 0x11, dummy := 20 }
  | 1 => some { octal := true, ddr := false, sck := 100, read := 0xEE, readExt := some 0x11, dummy := 20 }
  | 2 => some { octal := false, ddr := false, sck := 25, read := 0x0C, readExt := none, dummy := 8 }
  | _ => none

/-- The transfers that the straps select. -/
def State.nvm (s : State) : Option XspiMode := nvmMode (bitsOf (s.rget .bootStraps).toNat 6 2)

/-- The read command of the NVM mode (R335). DEDUCED: log entry 88. -/
def State.xspiReadOp (s : State) : Nat := (s.nvm.map (fun m => m.read)).getD 0xEE

/-- The extension byte that follows an opcode: the opcode inverted, in the octal protocols (R336). -/
def State.xspiExt (s : State) (opcode : Nat) : Option Nat :=
  match s.nvm with
  | some m => if m.octal then some (255 - opcode) else none
  | none => none

/-- BOOT.XSPI_CMD: a command runs, in load phase, one at a time, with 0 to 256 data bytes (R355); one that
would send an uncorrectable word is not issued. DEDUCED, DESIGN CHOICE: log entries 88, 120. -/
def State.xspiIssue (s : State) (opcode : Nat) (addrEn write : Bool) (length address : Nat) : State :=
  if s.repitchState ≠ 2 ∨ s.sys.xspi.isSome ∨ s.sys.leaving ∨ 256 < length then s.repitchError 2
  else if write ∧ s.sys.bufEcc.ue.any (fun w => (List.range length).any (fun i => (address + i) % 1048576 / 4 == w)) then s.repitchError 2
  else
    let wrap := (List.range length).map (fun i => kget 0 s.sys.loadBuf ((address + i) % 1048576))
    let c : XspiCmd := ⟨opcode, addrEn, write, length, address, if write then wrap else [], s.nvm, s.xspiExt opcode⟩
    ({ s with sys := { s.sys with xspi := some c } } : State).setF .bootRepitchStatus Fld.bootRepitchStatusXspiBusy 1

/-- XSPI_READ. -/
def execXspiRead (addrEn write : Bool) (length : BitVec 9) (address : W32) (s : State) : Out :=
  clocked 2 s (fun s => s.xspiIssue s.xspiReadOp addrEn write length.toNat address.toNat)
/-- XSPI_WRITE_ENABLE. -/
def execXspiWriteEnable (addrEn write : Bool) (length : BitVec 9) (address : W32) (s : State) : Out :=
  clocked 2 s (fun s => s.xspiIssue 0x06 addrEn write length.toNat address.toNat)
/-- XSPI_READ_STATUS. -/
def execXspiReadStatus (addrEn write : Bool) (length : BitVec 9) (address : W32) (s : State) : Out :=
  clocked 2 s (fun s => s.xspiIssue 0x05 addrEn write length.toNat address.toNat)
/-- XSPI_PAGE_PROGRAM. -/
def execXspiPageProgram (addrEn write : Bool) (length : BitVec 9) (address : W32) (s : State) : Out :=
  clocked 2 s (fun s => s.xspiIssue 0x12 addrEn write length.toNat address.toNat)
/-- XSPI_SECTOR_ERASE. -/
def execXspiSectorErase (addrEn write : Bool) (length : BitVec 9) (address : W32) (s : State) : Out :=
  clocked 2 s (fun s => s.xspiIssue 0xDC addrEn write length.toNat address.toNat)

/-- An xSPI command ends (R355): data that it received go to the load buffer at the flash address modulo 1,048,576, and a re-pitch that
waits for it ends. -/
def State.xspiEnd (s : State) (data : List Byte) : State :=
  match s.sys.xspi with
  | none => s
  | some c =>
    let s := if c.write then s else
      let l := (List.range c.length).map (fun i => data.getD i 0xFF)
      let a := c.address % 1048576
      (s.putBuf a (l.take (1048576 - a))).putBuf 0 (l.drop (1048576 - a))
    let s := { s with sys := { s.sys with xspi := none } }
    let s := s.setF .bootRepitchStatus Fld.bootRepitchStatusXspiBusy 0
    if s.sys.leaving then s.repitchExit else s

/-- XSPI_COMMAND_COMPLETE: `data` is what the flash sends. -/
def execXspiCommandComplete (data : List Byte) (s : State) : Out :=
  clocked 2 s (fun s => s.xspiEnd data)

end Sys2Proof.Machine
end

