-- ==== Sys2Proof/Machine/RingOps.lean ====
section
/-! DEFINITION. Rings: the journal, the end of a descriptor and the stop of a ring, shared by every engine (R206, R212, R217 to
R220, R225). -/

namespace Sys2Proof.Machine

/-- Completion status codes (R220). -/
abbrev stOk := 0
/-- EMPTY. -/
abbrev stEmpty := 1
/-- PARTIAL. -/
abbrev stPartial := 2
/-- ABORTED_FAULT. -/
abbrev stAborted := 3
/-- HOST_LINK_LOST. -/
abbrev stLinkLost := 4
/-- DEFERRED. -/
abbrev stDeferred := 5
/-- TIMEOUT. -/
abbrev stTimeout := 6
/-- NONFINITE. -/
abbrev stNonfinite := 7
/-- CHECK_MISMATCH. -/
abbrev stMismatch := 8

/-- The state of a ring: 0 DISABLED, 1 RUNNING, 2 STOPPING, 3 STOPPED (R206). -/
def State.ringState (s : State) (r : Nat) : Nat := s.rf (.ringStatus r) Fld.ringStatusState
/-- Put a ring in a state. -/
def State.setRingState (s : State) (r x : Nat) : State := s.setF (.ringStatus r) Fld.ringStatusState x

/-- RING.HEAD in force. -/
def State.ringHead (s : State) (r : Nat) : Nat := s.af (.ringHead r) Fld.ringHeadHead
/-- RING.TAIL. -/
def State.ringTail (s : State) (r : Nat) : Nat := s.rf (.ringTail r) Fld.ringTailTail
/-- The difference of two indices modulo 2^32 (R206). -/
def idxSub (a b : Nat) : Nat := (a + 2 ^ 32 - b % 2 ^ 32) % 2 ^ 32
/-- log2 of the ring's slots in force. -/
def State.ringRs (s : State) (r : Nat) : Nat := s.af (.ringSize r) Fld.ringSizeRs
/-- log2 of the journal's entries in force. -/
def State.ringJs (s : State) (r : Nat) : Nat := s.af (.ringSize r) Fld.ringSizeJs
/-- The slot of descriptor `i` (R206). -/
def State.slotAddr (s : State) (r i : Nat) : Nat :=
  s.af (.ringBase r) Fld.ringBaseBase * 4096 + 64 * (i % 2 ^ s.ringRs r)

/-- The rings whose STATUS differs from its reset value, ascending: every ring that is not DISABLED is among them. -/
def State.activeRings (s : State) : List Nat :=
  s.csr.filterMap (fun e => match e.1 with | .ringStatus r => some r | _ => none)

/-- A descriptor as records and engines name it. -/
def descRef (r : Nat) (d : Desc) : DescRef := ⟨r, d.idx, d.cookie⟩

/-- The engine of a descriptor as a requester (R392). -/
def descWho (r : Nat) (d : Desc) : Who := ⟨Kind.rings, r, 1, some (descRef r d)⟩

/-- A write of an owner has been acknowledged: a descriptor keeps the time (R218), and a peg's next mirror write follows (R224). -/
def State.acked (s : State) (o : Owner) : State :=
  (s.ackDesc o).mirrorAfter o

/-! ## The journal (R218, R219) -/

/-- Free entries of the journal. -/
def State.journalRoom (s : State) (r : Nat) : Nat :=
  2 ^ s.ringJs r - idxSub (s.rf (.ringJournalTail r) Fld.ringJournalTailTail) (s.rf (.ringJournalHead r) Fld.ringJournalHeadHead)

/-- The 32 B of a journal entry (R218). -/
def journalBytes (cookie : W64) (units : Nat) (time : W64) (status op : Nat) (phase started stopped : Bool) (idx : W32) :
    List Byte :=
  leBytes 8 cookie.toNat ++ leBytes 8 units ++ leBytes 8 time.toNat ++ leBytes 1 status ++ leBytes 1 op
    ++ leBytes 1 ((if phase then 1 else 0) + (if started then 2 else 0) + (if stopped then 4 else 0)) ++ leBytes 1 0
    ++ leBytes 4 idx.toNat

/-- Write a journal entry at JOURNAL_TAIL as one 32 B write and advance the tail (R218). DEDUCED: log entry 53. -/
def State.writeJournal (s : State) (r : Nat) (cookie : W64) (units : Nat) (time : W64) (status op : Nat)
    (started stopped : Bool) (idx : W32) : State :=
  let j := s.rf (.ringJournalTail r) Fld.ringJournalTailTail
  let js := s.ringJs r
  let phase := (j / 2 ^ js + 1) % 2 == 1
  let a := s.af (.ringJournalBase r) Fld.ringJournalBaseBase * 4096 + 32 * (j % 2 ^ js)
  let s := (s.winWrite ⟨Kind.rings, r, 0, none⟩ a (journalBytes cookie units time status op phase started stopped idx)).1
  s.setF (.ringJournalTail r) Fld.ringJournalTailTail (j + 1)

/-! ## The end of a descriptor (R217, R220, R225) -/

/-- Whether the operation is COPY or FILL. -/
def Desc.isCopy (d : Desc) : Bool := d.op == 1 || d.op == 2

/-- A COPY or FILL that has started and has not completed: it issues lines, or it has issued the last one and `open_` says that a write of
it is not acknowledged (R225). -/
def Desc.copying (d : Desc) (open_ : Bool) : Bool :=
  d.isCopy && (d.phase == .running || (d.phase == .ended && d.status == stOk && open_))

/-- A descriptor ends with a status and units done. Its time is that of its last acknowledgement (R218), or that of its end where none has
come. DEDUCED: log entry 54. -/
def Desc.endsWith (d : Desc) (status units : Nat) (now : W64) : Desc :=
  { d with phase := .ended, status := status, units := units, ackTime := some (d.ackTime.getD now) }

/-- What a ring stop with cause status `c` does to an admitted descriptor (R225): a started COPY or FILL halts after its lines in
progress; one not started ends at once; any other runs to its own end. DEDUCED: log entry 54. -/
def stopDesc (c : Nat) (now : W64) (open_ : Bool) (d : Desc) : Desc :=
  if d.phase == .admitted then
    { d with started := false, stopped := true }.endsWith c 0 now
  else if d.copying open_ then
    { d with stopped := true }.endsWith (if c = stLinkLost then stLinkLost else stPartial) d.issued now
  else d

/-- A ring enters STOPPED when every admitted descriptor has its journal entry (R225, R227). -/
def State.ringSettle (s : State) (r : Nat) : State :=
  if s.ringState r = 2 ∧ (s.ring r).descs.all (fun d => d.phase == .journaled) then s.setRingState r 3 else s

/-- A ring stops (R225): stop_cause takes the status that stopped it, and every admitted descriptor ends as the table states.
DEDUCED: log entry 54. -/
def State.stopRing (s : State) (r c : Nat) : State :=
  if s.ringState r = 1 ∨ s.ringState r = 2 then
    let first := s.ringState r = 1 ∨ s.rf (.ringStatus r) Fld.ringStatusStopCause = 0
    let s := s.setRingState r 2
    let s := if first then s.setF (.ringStatus r) Fld.ringStatusStopCause c else s
    let x := s.ring r
    s.setRing r { x with descs := x.descs.map (fun d => stopDesc c s.now (s.hasOpen (.desc r d.idx)) d) }
  else s

/-- A descriptor ends: status and units done; a status of ABORTED_FAULT or HOST_LINK_LOST stops its ring (R217, R225). -/
def State.endDesc (s : State) (r : Nat) (idx : W32) (status units : Nat) : State :=
  let s := s.modDesc r idx (fun d => d.endsWith status units s.now)
  if status = stAborted ∨ status = stLinkLost then s.stopRing r status else s

/-- The local address of a byte that a record names (R397): the offset that the device's own fabric-global address gives. -/
def State.localAddr (s : State) (a : Nat) : Nat := match s.target a with | .here off => off | _ => a

/-- A rejected descriptor (R214): ABORTED_FAULT, not started, and a RING_DESC record that locates the first failing byte by its local address
(R397). -/
def State.rejectDesc (s : State) (r : Nat) (d : Desc) (loc byte addr tableByte : Nat) : State :=
  let s := s.report { mkRec Cls.ringDesc 1 Kind.rings r with
    desc := some (descRef r d), addr := BitVec.ofNat 64 (s.localAddr addr), detail0 := BitVec.ofNat 64 (byte + loc * 2 ^ 16)
    detail1 := BitVec.ofNat 48 tableByte }
  s.endDesc r d.idx stAborted 0

/-- The operation of a descriptor starts. -/
def State.startDesc (s : State) (r : Nat) (idx : W32) : State :=
  s.modDesc r idx (fun d => { d with phase := .running, started := true })

/-- The stash switch entry of a STEP waits for room in its ring's journal (R133). -/
def State.switchWaits (s : State) (r : Nat) (idx : W32) : Bool :=
  s.sched.stash.journal.any (fun e => e.1.ring == r && e.1.idx == idx)

/-- Every write of a descriptor has been acknowledged, writes to host memory by its flush reads (R320), every record that names it has been written, and so has its stash switch
entry (R203, R217, R398). -/
def State.descQuiet (s : State) (r : Nat) (d : Desc) : Bool :=
  !s.hasOpen (.desc r d.idx)
    && !s.io.flushes.any (fun f => f.ring == r && f.idx == d.idx)
    && !s.switchWaits r d.idx
    && !s.flt.net.any (fun f => match f.desc with | some x => x.ring == r && x.idx == d.idx | none => false)

/-- The journal entry of an ended descriptor (R217 to R219). PIPE.STEPS counts a STEP. DEDUCED: log entry 51. -/
def State.journalDesc (s : State) (r : Nat) (d : Desc) : State :=
  let units := match d.failAt with | some x => min x d.units | none => d.units
  let s := (s.dropFetched (.desc r d.idx)).writeJournal r d.cookie units (d.ackTime.getD s.now) d.status (if d.bad then 0 else d.op)
    d.started d.stopped d.idx
  let s := s.bumpF (.ringStats r) Fld.ringStatsCompleted 1
  let s := if d.bad || d.op != 0x10 then s
    else if d.status = stOk ∨ d.status = stEmpty then s.bumpF .pipeSteps Fld.pipeStepsDone 1
    else if d.status = stAborted then s.bumpF .pipeSteps Fld.pipeStepsAborted 1 else s
  (s.modDesc r d.idx (fun d => { d with phase := .journaled })).ringSettle r

/-- The signal of a completion to its peg (R217, R220): added, or the fault bit, or none. -/
def State.signalDesc (s : State) (d : Desc) : State :=
  if d.noSignal || d.bad then s
  else if d.status = stOk ∨ d.status = stEmpty ∨ d.status = stNonfinite ∨ (d.status = stPartial ∧ ¬d.stopped) then
    s.pegSignal d.signalPeg d.signalAdd
  else s.pegFault d.signalPeg

end Sys2Proof.Machine
end

