-- ==== Sys2Proof/Machine/Ring.lean ====
section
/-! DEFINITION. The commands of the rings: commit, doorbell, admission, completion, stop, and the age watchdog (R206 to R228). -/

namespace Sys2Proof.Machine

/-! ## Commit (R207) -/

/-- The credit that a ring holds of the 65,536 (R207, R212): of a RUNNING or STOPPING ring, or of one still holding tracker
entries. -/
def State.heldCredit (s : State) (r : Nat) : Nat :=
  if s.ringState r = 1 ∨ s.ringState r = 2 ∨ !(s.ring r).descs.isEmpty then s.af (.ringCfg r) Fld.ringCfgCredit else 0

/-- The credit that the rings other than `r` hold of the 65,536 (R207, R212): a ring that still holds tracker entries keeps its credit
though its STATUS shows DISABLED. -/
def State.otherCredit (s : State) (r : Nat) : Nat :=
  let held := (s.rings.map Prod.fst).filter (fun x => !s.activeRings.contains x)
  (((s.activeRings ++ held).filter (· != r)).map s.heldCredit).sum

/-- The error code of a commit, 0 if it passes (R207). DESIGN CHOICE: log entry 110. -/
def State.ringCommitError (s : State) (r : Nat) (arm : Bool) : Nat :=
  let st := s.ringState r
  let base := s.rf (.ringBase r) Fld.ringBaseBase * 4096
  let jbase := s.rf (.ringJournalBase r) Fld.ringJournalBaseBase * 4096
  let rs := s.rf (.ringSize r) Fld.ringSizeRs
  let js := s.rf (.ringSize r) Fld.ringSizeJs
  let credit := s.rf (.ringCfg r) Fld.ringCfgCredit
  let others := s.otherCredit r
  if st = 1 ∨ st = 2 then 1
  else if !s.inWindow base (64 * 2 ^ rs) || !s.inWindow jbase (32 * 2 ^ js) then 2
  else if rs < 4 || 16 < rs || js < 5 || 20 < js || 2 ^ js < 2 ^ rs + 16 then 3
  else if credit = 0 || 4096 < credit || (arm && 65536 < others + credit) then 4
  else if arm && 2 ^ rs < idxSub (s.ringTail r) (s.rf (.ringHead r) Fld.ringHeadHead) then 5
  else 0

/-- RING.COMMIT with commit = 1 (R207): the staged fields take effect together, and arm puts the ring in RUNNING. -/
def State.ringCommit (s : State) (r : Nat) (arm : Bool) : State :=
  let e := s.ringCommitError r arm
  let s := s.setF (.ringStatus r) Fld.ringStatusCommitError e
  if e ≠ 0 then s
  else
    let s := ((((s.commitReg (.ringBase r)).commitReg (.ringSize r)).commitReg (.ringJournalBase r)).commitReg (.ringCfg r)).commitReg
      (.ringHead r)
    if arm then
      let x := s.ring r
      (s.setRingState r 1).setRing r { x with agedSeen := [] }
    else s

/-- RING_COMMIT (R207). -/
def execRingCommit (r : RingId) (arm : Bool) (s : State) : Out := clocked 4 s (fun s => s.ringCommit r arm)

/-! ## Doorbell (R208, R210) -/

/-- The journal slots reserved for admitted descriptors (R219). -/
def Ring.reserved (x : Ring) : Nat :=
  (x.descs.map (fun d => if d.phase == .journaled then 0 else if d.op == 0x10 && !d.stashDone then 2 else 1)).sum

/-- A doorbell that publishes beyond credit (R210): counted, and one DEFERRED entry until the next admission if there is room. -/
def State.deferred (s : State) (r : Nat) : State :=
  let x := s.ring r
  if x.descs.length < s.af (.ringCfg r) Fld.ringCfgCredit then s
  else
    let s := s.bumpF (.ringStats r) Fld.ringStatsDeferred 1
    if x.deferredSent || s.journalRoom r ≤ x.reserved then s
    else
      let s := s.writeJournal r 0 (idxSub (s.ringTail r) (s.ringHead r)) s.now stDeferred 0 false false
        (BitVec.ofNat 32 (s.ringHead r))
      s.setRing r { x with deferredSent := true }

/-- A write of RING.DOORBELL (R208). -/
def State.doorbell (s : State) (r : Nat) (tail : W32) : State :=
  let old := s.ringTail r
  let head := s.ringHead r
  if tail.toNat = old then s
  else if s.ringState r = 1 ∧ idxSub old head < idxSub tail.toNat head ∧ idxSub tail.toNat head ≤ 2 ^ s.ringRs r then
    (s.setF (.ringTail r) Fld.ringTailTail tail.toNat).deferred r
  else
    (s.setF (.ringStatus r) Fld.ringStatusDoorbellError 1).report (mkRec Cls.ringDoorbell 0 Kind.rings r)

/-- DOORBELL (R208). -/
def execDoorbell (r : RingId) (tail : W32) (s : State) : Out := clocked 4 s (fun s => s.doorbell r tail)

/-- PIPE.ADMIT_COMMIT with commit = 1 (R11). -/
def State.admitCommit (s : State) : State := (s.commitReg .pipePrioWeight).commitReg .pipeAgeLimit

/-- ADMIT_COMMIT (R11). -/
def execAdmitCommit (s : State) : Out := clocked 4 s (fun s => s.admitCommit)

/-! ## Admission (R209, R211) -/

/-- A ring meets the first three conditions of R209. -/
def State.eligible (s : State) (r : Nat) : Bool :=
  s.ringState r == 1 && s.ringHead r != s.ringTail r && (s.ring r).descs.length < s.af (.ringCfg r) Fld.ringCfgCredit

/-- The priority of an eligible ring (R211): of the descriptor at HEAD for ver 2, else the ring's default. -/
def State.ringPrio (s : State) (r : Nat) : Nat :=
  let h := leNat (s.current (s.slotAddr r (s.ringHead r)) 2)
  if bitsOf h 8 4 = 2 then bitsOf h 12 3 else s.af (.ringCfg r) Fld.ringCfgDefaultPrio

/-- The weight of a priority in force; 0 acts as 1. -/
def State.prioWeight (s : State) (p : Nat) : Nat := max 1 (bitsOf (s.aget .pipePrioWeight).toNat (8 * p) 8)

/-- The next ring that the arbiter selects, and its state after it (R211): `n` moves to the next priority at most. -/
def State.arbitrate (s : State) : Nat → Arbiter → Option (Nat × Arbiter)
  | 0, _ => none
  | n + 1, a =>
    let rs := if a.served < s.prioWeight a.prio then
        s.activeRings.filter (fun r => s.eligible r && s.ringPrio r == a.prio) else []
    match rs with
    | [] => s.arbitrate n { a with prio := (a.prio + 7) % 8, served := 0 }
    | r0 :: _ =>
      let last := kget 0 a.last a.prio
      let r := (rs.find? (fun r => last < r + 1)).getD r0
      some (r, { a with served := a.served + 1, last := nset 0 a.last a.prio (r + 1) })

/-- The arbiter admits the descriptor at HEAD of the ring it selects (R209): the descriptor is read as one line, a tracker entry is
allocated, HEAD advances, in its staged value too. A read that meets an uncorrectable error admits it and ends it.
DESIGN CHOICE: log entry 109. -/
def State.admitNext (s : State) : State :=
  match s.arbitrate 9 s.arb with
  | none => s
  | some (r, a) =>
    let s := { s with arb := a }
    let head := s.ringHead r
    let idx := BitVec.ofNat 32 head
    let (s, got) := s.winRead ⟨Kind.rings, r, 1, some ⟨r, idx, 0⟩⟩ (s.slotAddr r head) 64
    let d : Desc :=
      { idx := idx, raw := match got with | some l => toLine l | none => 0, bad := got.isNone, phase := .admitted,
        headerOk := false, pegSeen := false, pegFault := false, started := false, stopped := false, status := 0, units := 0,
        issued := 0, failAt := none, blockOk := false, block := 0, pos := 0, missed := [], stashDone := false, ackTime := none }
    let x := s.ring r
    let s := s.setRing r { x with descs := x.descs ++ [d], deferredSent := false }
    let next := BitVec.ofNat 64 ((head + 1) % 2 ^ 32)
    let s := (s.rset (.ringHead r) next).aset (.ringHead r) next
    if d.bad then s.endDesc r idx stAborted 0 else s

/-- DESCRIPTOR_ADMISSION (R209). -/
def execDescriptorAdmission (s : State) : Out := clocked 4 s (fun s => s.admitNext)

/-! ## Completion (R217, R219, R220) -/

/-- An ended operation's journal entry is written once its writes are acknowledged, if the journal has room (R217, R219). -/
def State.complete (s : State) (r : Nat) (idx : W32) : State :=
  match s.desc? r idx with
  | some d => if d.phase == .ended && s.descQuiet r d && 0 < s.journalRoom r then s.journalDesc r d else s
  | none => s

/-- DESCRIPTOR_COMPLETION (R217). -/
def execDescriptorCompletion (r : RingId) (idx : W32) (s : State) : Out := clocked 4 s (fun s => s.complete r idx)

/-- The oldest completion that waits for journal room writes its entry (R219). -/
def State.journalRoomAppears (s : State) (r : Nat) : State :=
  match (s.ring r).descs.find? (fun d => d.phase == .ended && s.descQuiet r d) with
  | some d => s.complete r d.idx
  | none => s

/-- JOURNAL_ROOM (R219). -/
def execJournalRoom (r : RingId) (s : State) : Out := clocked 4 s (fun s => s.journalRoomAppears r)

/-- After its journal entry a descriptor signals or faults its peg and frees its tracker entry (R212, R217, R220).
DEDUCED: log entry 54. -/
def State.completionSignal (s : State) (r : Nat) (idx : W32) : State :=
  match (s.ring r).descs.find? (Desc.isJournaled idx) with
  | some d =>
    let s := s.signalDesc d
    let x := s.ring r
    s.setRing r { x with descs := x.descs.eraseP (Desc.isJournaled idx) }
  | none => s

/-- COMPLETION_SIGNAL (R217). -/
def execCompletionSignal (r : RingId) (idx : W32) (s : State) : Out := clocked 4 s (fun s => s.completionSignal r idx)

/-! ## Stopping (R227) -/

/-- STOP stops admission and puts a running ring in STOPPING with stop_cause 0 (R227). -/
def State.ringStop (s : State) (r : Nat) : State :=
  if s.ringState r = 1 then
    ((s.setRingState r 2).setF (.ringStatus r) Fld.ringStatusStopCause 0).ringSettle r
  else s

/-- RING_STOP_COMMAND (R227). -/
def execRingStopCommand (r : RingId) (s : State) : Out := clocked 4 s (fun s => s.ringStop r)

/-- DISABLE is accepted only in STOPPED (R227). -/
def State.ringDisable (s : State) (r : Nat) : State := if s.ringState r = 3 then s.setRingState r 0 else s

/-- RING_DISABLE (R227). -/
def execRingDisable (r : RingId) (s : State) : Out := clocked 4 s (fun s => s.ringDisable r)

/-! ## The age watchdog (R228) -/

/-- The phase of a descriptor in a RING_AGE record (R397). -/
def State.agePhase (s : State) (d : Desc) : Nat :=
  match d.phase with
  | .admitted =>
    if d.waitCond != 0 && !d.pegSeen && !pegCond d.waitCond (s.peg d.waitPeg) (BitVec.ofNat 64 d.waitValue) then 1 else 2
  | _ => 3

/-- The oldest published descriptor that has not completed exceeds the age limit (R228): reported once between two re-arms. -/
def State.ringAge (s : State) (r : Nat) : State :=
  let x := s.ring r
  let oldest : Option (DescRef × Nat) :=
    match x.descs.find? (fun d => d.phase != .journaled) with
    | some d => some (descRef r d, s.agePhase d)
    | none => if s.ringHead r = s.ringTail r then none else some (⟨r, BitVec.ofNat 32 (s.ringHead r), 0⟩, 0)
  match oldest with
  | none => s
  | some (d, ph) =>
    if s.af .pipeAgeLimit Fld.pipeAgeLimitLimit = 0 || x.agedSeen.contains d.idx then s
    else
      let s := s.setRing r { x with agedSeen := x.agedSeen ++ [d.idx] }
      (s.setF (.ringStatus r) Fld.ringStatusAged 1).report
        { mkRec Cls.ringAge 0 Kind.rings r with desc := some d, detail0 := BitVec.ofNat 64 ph }

/-- RING_AGE (R228). -/
def execRingAge (r : RingId) (s : State) : Out := clocked 4 s (fun s => s.ringAge r)

/-! ## Pegs (R221, R222) -/

/-- PEG_ADD: a write to PEG.ADD (R221). -/
def execPegAdd (p : PegId) (data : W64) (s : State) : Out :=
  clocked 4 s (fun s => s.pegApply p (.add (data.setWidth 63) (data.getLsbD 63)))

/-- PEG_VALUE_WRITE: a write to PEG.VALUE sets the count and the fault bit (R222). -/
def execPegValueWrite (p : PegId) (data : W64) (s : State) : Out := clocked 4 s (fun s => s.pegApply p (.value data))

/-- PEG_UPDATE: the peg unit applies one update, an addition or a signal, and evaluates every waiter (R222). -/
def execPegUpdate (p : PegId) (add : BitVec 63) (fault : Bool) (s : State) : Out :=
  clocked 4 s (fun s => s.pegApply p (.add add fault))

/-! ## COPY and FILL (R229) -/

/-- The operation block of a descriptor as a 512-bit value, read through its engine. -/
def State.readOpBlock (s : State) (r : Nat) (d : Desc) : State × Got := s.readRange (descWho r d) (.desc r d.idx) d.opBlock 64

/-- What a check of a descriptor's operation block gives. -/
inductive OpCheck where
  /-- It is accepted. -/
  | ok
  /-- A table or block of another device has not come yet. -/
  | wait
  /-- The read was refused or met an uncorrectable error; its record is written. -/
  | fail
  /-- It is rejected (R214): location, byte, address, table byte (R397). -/
  | reject (loc byte addr tableByte : Nat)
  deriving DecidableEq, Repr

/-- The first byte of a range that is not zero. -/
def firstNonzero (l : List Byte) (i n : Nat) : Option Nat := (List.range' i n).find? (fun k => l.getD k 0 != 0)

/-- Two ranges named by global addresses overlap (R229): judged on the memory they name. -/
def State.overlap (s : State) (a b n : Nat) : Bool :=
  let place (x : Nat) : Nat × Nat := match s.target x with
    | .here o => (2 ^ 13, o) | .there d o => (d, o) | .bad => (2 ^ 14 + x / 2 ^ 48, x % 2 ^ 48)
  let p := place a
  let q := place b
  p.1 == q.1 && p.2 < q.2 + n && q.2 < p.2 + n

/-- The check of a COPY's operation block (R229). DEDUCED: log entry 18. -/
def State.checkCopy (s : State) (d : Desc) (l : List Byte) : OpCheck :=
  match firstNonzero l 16 48 with
  | some b => .reject 1 b (d.opBlock + b) 0
  | none => if s.overlap (leNat (l.take 8)) (leNat ((l.drop 8).take 8)) d.count then .reject 3 0 0 0 else .ok

/-- The check of a FILL's operation block (R229); `slot` is the descriptor's own address. DEDUCED: log entry 18. -/
def checkFill (d : Desc) (l : List Byte) (slot : Nat) : OpCheck :=
  if d.count % 8 ≠ 0 then .reject 0 48 (slot + 48) 0
  else if leNat (l.take 8) % 8 ≠ 0 then .reject 1 0 d.opBlock 0
  else match firstNonzero l 16 48 with
    | some b => .reject 1 b (d.opBlock + b) 0
    | none => .ok

/-- One destination line of a running COPY or FILL (R229): read, then written; the operation ends at the first error or refusal. -/
def State.copyLine (s : State) (r : Nat) (d : Desc) (blk : List Byte) : State :=
  let o : Owner := .desc r d.idx
  let dstAt := if d.op = 1 then leNat ((blk.drop 8).take 8) else leNat (blk.take 8)
  let a := (dstAt + d.issued) % 2 ^ 64
  let n := min (64 - a % 64) (d.count - d.issued)
  let (s, g) : State × Got :=
    if d.op = 1 then s.readRange (descWho r d) o ((leNat (blk.take 8) + d.issued) % 2 ^ 64) n
    else
      let pat := (blk.drop 8).take 8
      (s, .bytes ((List.range n).map (fun i => pat.getD ((d.issued + i) % 8) 0)))
  match g with
  | .wait => s
  | .fail => s.endDesc r d.idx stAborted d.issued
  | .bytes l =>
    match (s.dropFetched o).writeAt (descWho r d) o VC.bulk a l d.issued with
    | (s, false) => s.endDesc r d.idx stAborted d.issued
    | (s, true) =>
      if d.issued + n = d.count then
        (s.modDesc r d.idx (fun e => { e with issued := d.count })).endDesc r d.idx stOk d.count
      else s.modDesc r d.idx (fun e => { e with issued := d.issued + n })

/-- Up to `k` destination lines of a running COPY or FILL. -/
def State.copyLines (s : State) (r : Nat) (idx : W32) (op : Nat) : Nat → State
  | 0 => s
  | k + 1 =>
    match s.desc? r idx with
    | some d =>
      if d.phase == .running && d.op == op && d.failAt.isNone then
        (s.copyLine r d (lineBytes d.block)).copyLines r idx op k
      else s
    | none => s

/-- COPY moves the next `lines` destination lines of a running COPY (R229). -/
def execCopy (r : RingId) (idx : W32) (lines : Nat) (s : State) : Out := clocked 4 s (fun s => s.copyLines r idx 1 lines)
/-- FILL writes the next `lines` destination lines of a running FILL (R229). -/
def execFill (r : RingId) (idx : W32) (lines : Nat) (s : State) : Out := clocked 4 s (fun s => s.copyLines r idx 2 lines)

end Sys2Proof.Machine
end

