-- ==== Sys2Proof/Machine/Endpoint.lean ====
section
/-! DEFINITION. The endpoint as a requester: the I/O operations HOST_READ, HOST_WRITE and HOST_MSIX, their completions and flush reads,
and the link to the external host with its losses (R314 to R325). -/

namespace Sys2Proof.Machine

/-! ## Tags and requests -/

/-- Bytes have still to come for an outstanding read. -/
def EpRead.open (e : EpRead) : Bool := e.len != 0

/-- The non-posted requests that the endpoint has outstanding. -/
def State.epTags (s : State) : List Nat := (s.io.reads.filter EpRead.open).map (fun e => e.tag) ++ s.io.flushes.map (fun e => e.tag)

/-- The maximum payload size in bytes (R314). -/
def State.payloadMax (s : State) : Nat := 128 * 2 ^ s.io.payload
/-- The maximum read request size in bytes (R314). -/
def State.readMax (s : State) : Nat := 128 * 2 ^ s.io.readSize

/-- The endpoint has 1,024 non-posted requests outstanding and issues no more (R314). -/
def State.epFull (s : State) : Bool := 1024 ≤ s.epTags.length

/-- A 14-bit tag that no outstanding request carries. -/
def State.freeTag (s : State) : Nat :=
  ((List.range 1025).map (fun i => (s.io.nextTag + i) % 16384)).find? (fun t => !s.epTags.contains t) |>.getD 0

/-- Issue a flush read after the write that ended at `units` (R320): a read of no bytes of the last address written.
DEDUCED: log entry 78. -/
def State.flushRead (s : State) (r : Nat) (idx : W32) (units addr : Nat) : State :=
  let t := s.freeTag
  let s := { s with io := { s.io with nextTag := (t + 1) % 16384, flushes := s.io.flushes ++ [(⟨t, r, idx, units⟩ : EpFlush)] } }
  s.sendTlp 0 (.memRead t addr 0 false false)

/-! ## The operation block of an I/O operation (R319) -/

/-- Host bus address of a HOST_READ or HOST_WRITE. -/
def Desc.hostAddr (d : Desc) : Nat := leNat ((lineBytes d.block).take 8)
/-- Its local or fabric-global address. -/
def Desc.ioAddr (d : Desc) : Nat := leNat (((lineBytes d.block).drop 8).take 8)
/-- Its flag [0], No Snoop. -/
def Desc.noSnoop (d : Desc) : Bool := d.block.getLsbD 128
/-- Its flag [1], Relaxed Ordering. -/
def Desc.relaxed (d : Desc) : Bool := d.block.getLsbD 129
/-- The first vector of a HOST_MSIX. -/
def Desc.firstVector (d : Desc) : Nat := leNat ((lineBytes d.block).take 2)

/-- The check of the operation block of an I/O operation (R319): reserved bytes and bits are zero, and vectors end at 2,048.
DEDUCED: log entry 18. -/
def checkIo (d : Desc) (l : List Byte) : OpCheck :=
  if d.op = 0x42 then
    match firstNonzero l 2 62 with
    | some b => .reject 1 b (d.opBlock + b) 0
    | none => if 2048 < leNat (l.take 2) + d.count then .reject 3 0 0 0 else .ok
  else if 4 ≤ (l.getD 16 0).toNat then .reject 1 16 (d.opBlock + 16) 0
  else match firstNonzero l 17 47 with
    | some b => .reject 1 b (d.opBlock + b) 0
    | none => .ok

/-- The messages that a HOST_MSIX has sent. -/
def State.sentOf (s : State) (r : Nat) (d : Desc) : List EpMsg := s.io.sent.filter (fun m => m.ring == r && m.idx == d.idx)

/-- The place from which on a flush read covers nothing of an operation yet. -/
def State.flushedTo (s : State) (r : Nat) (d : Desc) : Nat :=
  (s.io.flushes.filter (fun f => f.ring == r && f.idx == d.idx)).foldl (fun b f => max b f.units)
    (if d.op = 0x42 then d.pos else d.units)

/-- Units done of an I/O operation (R320, R321): for HOST_READ the bytes before the first outstanding read; for HOST_WRITE the offset of
the latest completed flush read; for HOST_MSIX the vectors before the first message that no completed flush read follows. -/
def State.ioUnits (s : State) (r : Nat) (d : Desc) : Nat :=
  if d.op = 0x40 then
    (s.io.reads.filter (fun e => e.ring == r && e.idx == d.idx)).foldl (fun b e => min b e.pos) d.issued
  else if d.op = 0x41 then d.units
  else ((s.sentOf r d).filter (fun m => d.pos ≤ m.pos)).foldl (fun b m => min b m.pos) d.issued

/-- The operation holds a write to host memory that is not acknowledged (R320, R324). -/
def State.unacked (s : State) (r : Nat) (d : Desc) : Bool :=
  if d.op = 0x41 then d.units < d.issued else (s.sentOf r d).any (fun m => d.pos ≤ m.pos)

/-! ## HOST_READ (R321) -/

/-- A running HOST_READ issues one read request of up to `n` bytes. -/
def State.hostReadPiece (s : State) (r : Nat) (d : Desc) (n : Nat) : State :=
  let a := (d.hostAddr + d.issued) % 2 ^ 64
  let n := min (min n (d.count - d.issued)) (4096 - a % 4096)
  if n = 0 ∨ !s.hostUp ∨ s.epFull ∨ d.failAt.isSome then s
  else
    let t := s.freeTag
    let s := { s with io := { s.io with nextTag := (t + 1) % 16384, reads := s.io.reads ++ [(⟨t, r, d.idx, d.issued, n, []⟩ : EpRead)] } }
    (s.sendTlp 0 (.memRead t a n d.noSnoop d.relaxed)).modDesc r d.idx (fun e => { e with issued := d.issued + n })

/-- Write the bytes of a completion to device memory in ascending order, up to the first refused line; the place of that line in the
operation. -/
def State.placeRead (s : State) (r : Nat) (d : Desc) (pos : Nat) (l : List Byte) : State × Option Nat :=
  let base := d.ioAddr + pos
  (pieces base l.length).foldl (fun acc p =>
    match acc.2 with
    | some _ => acc
    | none =>
      match acc.1.writeAt (descWho r d) (.desc r d.idx) VC.req (p.1 % 2 ^ 64) ((l.drop (p.1 - base)).take p.2) (pos + (p.1 - base)) with
      | (s, true) => (s, none)
      | (s, false) => (s, some (pos + (p.1 - base)))) (s, none)

/-- A HOST_READ has every byte and ends (R321). -/
def State.hostReadDone (s : State) (r : Nat) (idx : W32) : State :=
  match s.desc? r idx with
  | some d =>
    if d.phase == .running && d.issued == d.count && !s.io.reads.any (fun e => e.ring == r && e.idx == idx) then
      s.endDesc r idx (if d.failAt.isSome then stAborted else stOk) d.count
    else s
  | none => s

/-- The record of an error of the endpoint as a requester. -/
def cplRec (cls r : Nat) (d : Desc) (addr : Nat) : FaultRec :=
  { mkRec cls 1 Kind.endpoint 0 with desc := some (descRef r d), addr := BitVec.ofNat 64 addr }

/-- The record of a poisoned TLP (R316). -/
def poisonRec (kind unitIx addr : Nat) : FaultRec := { mkRec Cls.pciePoisoned 0 kind unitIx with addr := BitVec.ofNat 64 addr }

/-- A poisoned TLP is discarded: its error is noted and recorded (R314, R316). -/
def State.poisoned (s : State) (link kind unitIx addr : Nat) : State := (s.aerSet link Aer.poisoned).report (poisonRec kind unitIx addr)

/-- An outstanding read of a running HOST_READ, its descriptor, and the state without it. -/
def State.takeRead (s : State) (tag : Nat) : Option (EpRead × Option Desc × State) :=
  match popFirst (fun e : EpRead => e.tag == tag && e.open) s.io.reads with
  | some (e, rest) =>
    some (e, (s.desc? e.ring e.idx).bind (fun d => if d.phase == .running && d.op == 0x40 then some d else none),
      { s with io := { s.io with reads := rest } })
  | none => none

/-- A HOST_READ ends: bytes that wait for others are dropped with it. -/
def State.endRead (s : State) (r : Nat) (idx : W32) (st : Nat) (units : Nat) : State :=
  let reads := s.io.reads.filter (fun e => !(e.ring == r && e.idx == idx && !e.open))
  ({ s with io := { s.io with reads := reads } } : State).endDesc r idx st units

/-- The outstanding read of an operation that holds its lowest place. -/
def State.firstRead (s : State) (r : Nat) (idx : W32) : Option EpRead :=
  (s.io.reads.filter (fun e => e.ring == r && e.idx == idx)).foldl (fun b e =>
    match b with
    | some x => some (if e.pos < x.pos then e else x)
    | none => some e) none

/-- Write the bytes that have come for a HOST_READ in ascending address order, as far as no byte before them is missing (R319); the
operation ends at a refused line, or once it has every byte. -/
def State.placeReads (s : State) (r : Nat) (idx : W32) : Nat → State
  | 0 => s
  | n + 1 =>
    match s.desc? r idx, s.firstRead r idx with
    | some d, some e =>
      if e.got.isEmpty then s
      else
        let rest : List EpRead := if e.open then [{ e with pos := e.pos + e.got.length, got := [] }] else []
        let s := { s with io := { s.io with reads := rest ++ s.io.reads.filter (fun x => x != e) } }
        match s.placeRead r d e.pos e.got with
        | (s, some p) => s.endRead r idx stAborted p
        | (s, none) => s.placeReads r idx n
    | _, _ => s.hostReadDone r idx

/-- A completion of a HOST_READ arrives (R321): its bytes are written once those before them are, or UR or CA ends the operation. A
completion that answers no outstanding read is an error of the link (R314). -/
def State.readCompletion (s : State) (tag : Nat) (st : CplStatus) (data : List Byte) (poisoned : Bool) : State :=
  match s.takeRead tag with
  | none => s.aerSet 0 Aer.unexpected
  | some (_, none, s') => s'
  | some (e, some d, s') =>
    if poisoned then s.poisoned 0 Kind.endpoint 0 ((d.hostAddr + e.pos) % 2 ^ 64)
    else if st != .sc then
      (s'.report (cplRec Cls.pcieCplError e.ring d ((d.hostAddr + e.pos) % 2 ^ 64))).endRead e.ring d.idx stAborted (s.ioUnits e.ring d)
    else
      let l := data.take e.len
      let e' : EpRead := { e with len := e.len - l.length, got := e.got ++ l }
      let s := { s' with io := { s'.io with reads := e' :: s'.io.reads } }
      s.placeReads e.ring d.idx (s.io.reads.length + 1)

/-- READ_COMPLETION (R321). -/
def execReadCompletion (tag : BitVec 14) (st : CplStatus) (data : List Byte) (poisoned : Bool) (s : State) : Out :=
  clocked 8 s (fun s => s.readCompletion tag.toNat st data poisoned)

/-- A read request of a HOST_READ gets no completion within the completion timeout (R321). -/
def State.readTimeout (s : State) (tag : Nat) : State :=
  match s.takeRead tag with
  | some (e, some d, s') =>
    ((s'.aerSet 0 Aer.timeout).report (cplRec Cls.pcieCplTimeout e.ring d ((d.hostAddr + e.pos) % 2 ^ 64))).endRead e.ring d.idx stTimeout
      (s.ioUnits e.ring d)
  | some (_, none, s') => s'
  | none => s

/-- COMPLETION_TIMEOUT (R321). -/
def execCompletionTimeout (tag : BitVec 14) (s : State) : Out := clocked 8 s (fun s => s.readTimeout tag.toNat)

/-! ## HOST_WRITE (R320) -/

/-- A HOST_WRITE whose source is refused ends after its final flush read (R231, R320). DEDUCED: log entry 78. -/
def State.hostWriteFail (s : State) (r : Nat) (d : Desc) : State :=
  let s := if s.flushedTo r d < d.issued then s.flushRead r d.idx d.issued ((d.hostAddr + d.issued - 1) % 2 ^ 64) else s
  s.endDesc r d.idx stAborted d.units

/-- A running HOST_WRITE sends one posted write of up to `n` bytes of one source line, and a flush read after every 1,048,576 B and after
the last byte (R320). DEDUCED: log entry 78. -/
def State.hostWritePiece (s : State) (r : Nat) (d : Desc) (n : Nat) : State :=
  let a := (d.hostAddr + d.issued) % 2 ^ 64
  let src := (d.ioAddr + d.issued) % 2 ^ 64
  let n := min (min (min n (d.count - d.issued)) (64 - src % 64)) (min (4096 - a % 4096) (2 ^ 20 - d.issued % 2 ^ 20))
  if n = 0 ∨ !s.hostUp ∨ s.epFull then s
  else match s.readAt (descWho r d) (.desc r d.idx) src n with
    | (s, .wait) => s
    | (s, .fail) => s.hostWriteFail r d
    | (s, .bytes l) =>
      let s := (s.dropFetched (.desc r d.idx)).sendTlp 0 (.memWrite a l d.noSnoop d.relaxed)
      let k := d.issued + n
      let s := s.modDesc r d.idx (fun e => { e with issued := k })
      if k % 2 ^ 20 = 0 ∨ k = d.count then s.flushRead r d.idx k ((a + n - 1) % 2 ^ 64) else s

/-! ## HOST_MSIX (R319, R320) -/

/-- A HOST_MSIX that has raised its last vector ends once its final flush read has completed (R320). DEDUCED: log entry 78. -/
def State.msixDone (s : State) (r : Nat) (idx : W32) : State :=
  match s.desc? r idx with
  | some d =>
    if d.phase == .running && d.op == 0x42 && d.issued == d.count && !s.unacked r d
        && !s.io.flushes.any (fun f => f.ring == r && f.idx == idx) then
      let s := s.endDesc r idx stOk d.count
      { s with io := { s.io with sent := s.io.sent.filter (fun m => !(m.ring == r && m.idx == idx)) } }
    else s
  | none => s

/-- The address of a flush read that follows no message of its operation: that which the endpoint last wrote, and an open value where it has
written none. DEDUCED: log entry 78. -/
def State.lastWritten (s : State) : State × Nat :=
  match s.io.lastWrite with
  | some a => (s, a)
  | none => s.free 64

/-- A running HOST_MSIX raises its next vector: a message, or its pending bit while it is masked or MSI-X is disabled. A flush read follows
every 256 vectors, and the last message (R320). DEDUCED: log entry 78. -/
def State.hostMsixPiece (s : State) (r : Nat) (d : Desc) : State :=
  if d.issued = d.count ∨ !s.hostUp ∨ s.epFull then s
  else
    let v := d.firstVector + d.issued
    let s := if s.msixMasked v || !s.msixOn then s.setPba v true
      else
        let addr := (s.rget (.pcieMsixTable v 0)).toNat
        let s := s.msixMessage v
        { s with io := { s.io with sent := s.io.sent ++ [⟨r, d.idx, d.issued, addr⟩] } }
    let k := d.issued + 1
    let s := s.modDesc r d.idx (fun e => { e with issued := k })
    let s := match ((s.sentOf r d).filter (fun m => s.flushedTo r d ≤ m.pos)).getLast? with
      | some m => if k % 256 = 0 ∨ k = d.count then s.flushRead r d.idx k m.addr else s
      | none =>
        if k % 256 = 0 then
          let (s, a) := s.lastWritten
          s.flushRead r d.idx k a
        else s
    s.msixDone r d.idx

/-! ## Flush reads (R320) -/

/-- A flush read completes, with any status: every earlier posted write is acknowledged (R320). -/
def State.flushDone (s : State) (tag : Nat) : State :=
  match popFirst (fun f : EpFlush => f.tag == tag) s.io.flushes with
  | none => s
  | some (f, rest) =>
    let s := { s with io := { s.io with flushes := rest } }
    let s := s.ackDesc (.desc f.ring f.idx)
    match s.desc? f.ring f.idx with
    | none => s
    | some d =>
      if d.op = 0x42 then
        (s.modDesc f.ring f.idx (fun e => { e with pos := max e.pos f.units })).msixDone f.ring f.idx
      else
        let s := s.modDesc f.ring f.idx (fun e => { e with units := max e.units f.units })
        if d.phase == .running && f.units == d.count then s.endDesc f.ring f.idx stOk d.count else s

/-- FLUSH_READ_COMPLETION (R320). -/
def execFlushReadCompletion (tag : BitVec 14) (s : State) : Out := clocked 8 s (fun s => s.flushDone tag.toNat)

/-! ## The progress of the I/O operations -/

/-- A running I/O operation issues its next request: of up to `n` bytes, or up to `n` vectors. -/
def State.ioPiece (s : State) (r : Nat) (idx : W32) (op n : Nat) : State :=
  match s.desc? r idx with
  | some d =>
    if d.phase != .running || d.op != op then s
    else if op = 0x40 then s.hostReadPiece r d n
    else if op = 0x41 then s.hostWritePiece r d n
    else s.hostMsixPiece r d
  | none => s

/-- The next requests of an I/O operation: one read or write of up to `n` bytes and the size that the host has set (R314), or the next `n`
vectors one by one. DEDUCED: log entry 78. -/
def State.ioPieces (s : State) (r : Nat) (idx : W32) (op n : Nat) : State :=
  if op = 0x42 then (List.range (min n 2048)).foldl (fun s _ => s.ioPiece r idx op 1) s
  else s.ioPiece r idx op (min n (if op = 0x40 then s.readMax else s.payloadMax))

/-! ## The link (R322 to R325) -/

/-- A link width that PCI Express has. -/
def linkWidth (w : Nat) : Bool := w == 1 || w == 2 || w == 4 || w == 8 || w == 16

/-- The endpoint's link reaches L0 (R325): pending vectors that may be sent are sent. -/
def State.epLinkUp (s : State) (rate width : Nat) : State :=
  let s := (((s.relock 0).setF .pcieEpStatus Fld.pcieEpStatusLinkUp 1).setF .pcieEpStatus Fld.pcieEpStatusRate rate).setF .pcieEpStatus
    Fld.pcieEpStatusWidth width
  (s.setB .pcieEpStatus Fld.pcieEpStatusFlitMode (rate == 6)).flushPba

/-- The configuration space and the MSI-X table take their reset values (R325). DEDUCED, PRESUMED: log entries 79, 80. -/
def State.configReset (s : State) : State :=
  let s := (s.setF .pcieEpStatus Fld.pcieEpStatusBusMaster 0).setF .pcieEpStatus Fld.pcieEpStatusMsixEnable 0
  let gone (r : Reg) : Bool := match r with | .pcieMsixTable _ _ | .pcieMsixPba _ => true | _ => false
  { s with csr := s.csr.filter (fun e => !gone e.1), io := { s.io with bars := [], fnMask := false, payload := 0, readSize := 2, d3hot := false, aer := nset 0 s.io.aer 0 0 } }

/-- What a loss does to one admitted descriptor (R324): a HOST_WRITE or HOST_MSIX with an unacknowledged write, and a HOST_READ with an
outstanding read, complete with HOST_LINK_LOST. DEDUCED: log entry 79. -/
def State.lossEnds (before : State) (s : State) (r : Nat) (idx : W32) : State :=
  match before.desc? r idx with
  | none => s
  | some d =>
    let live := d.started && d.phase != .journaled && (d.phase == .running || d.op == 0x41)
    let cut := if d.op = 0x40 then before.io.reads.any (fun e => e.ring == r && e.idx == idx)
      else (d.op == 0x41 || d.op == 0x42) && before.unacked r d
    if live && cut then s.endDesc r idx stLinkLost (before.ioUnits r d) else s.msixDone r idx

/-- A loss of the external host's link (R324, R325): requests received whole before it are performed, and those that await a completion get
none. A function-level reset leaves the link in L0. DEDUCED: log entries 79, 95. -/
def State.linkLoss (s : State) (e : LinkLoss) : State :=
  let before := s
  let s := if e = .functionReset then s else s.setF .pcieEpStatus Fld.pcieEpStatusLinkUp 0
  let lost (e : RpRead) : RpRead := match e.reply with | .host _ => { e with reply := .lost } | _ => e
  let s := { s with io := { s.io with
    reads := [], flushes := [], sent := [], rpReads := s.io.rpReads.map lost, rpWaiting := s.io.rpWaiting.map (fun x => (lost x.1, x.2)) } }
  let s := (before.rings.flatMap (fun x => (x.2.descs.filter (fun d => d.phase != .journaled)).map (fun d => (x.1, d.idx)))).foldl (fun s x => before.lossEnds s x.1 x.2) s
  let s := if e = .recovery ∨ e = .detect ∨ e = .pllUnlock then s else s.configReset
  (s.bumpF .pcieEpEvents Fld.pcieEpEventsLosses 1).report (mkRec Cls.pcieLinkLost 0 Kind.endpoint 0)

/-- The event is a loss of the link (R323): PERST_N while it resets the endpoint alone, a hot reset or a link disable, and the other
events over a link in L0. While D8 is in reset the endpoint is held in reset, and none is (R365). DEDUCED: log entry 79. -/
def State.lossHappens (s : State) (e : LinkLoss) : Bool :=
  s.released 8 && (match e with
    | .perst => s.af .pcieEpCfg Fld.pcieEpCfgPerstScope == 0
    | .hotReset | .linkDisable => true
    | .functionReset | .recovery | .detect | .pllUnlock => s.rf .pcieEpStatus Fld.pcieEpStatusLinkUp == 1)

/-- HOST_LINK_LOSS (R323, R324); a loss of lock of the endpoint's PLL is counted whatever state its link is in (R362). -/
def execHostLinkLoss (e : LinkLoss) (s : State) : Out :=
  clocked 8 s (fun s =>
    let happens := s.lossHappens e
    let s := if e = .pllUnlock then s.pcieUnlock 0 else s
    if happens then s.linkLoss e else s)

/-- A BAR register of the function (R315): a 64-bit one that is not prefetchable, a 64-bit prefetchable one, and none. PRESUMED: log
entry 80. PRESUMED: log entry 80. -/
def State.barReg (s : State) (i : Nat) : W32 :=
  match i with
  | 0 => (kget 0 s.io.bars 0).setWidth 32 ||| 0x4
  | 1 => ((kget 0 s.io.bars 0) >>> 32).setWidth 32
  | 2 => (kget 0 s.io.bars 1).setWidth 32 ||| 0xC
  | 3 => ((kget 0 s.io.bars 1) >>> 32).setWidth 32
  | _ => 0

/-- Whether a bit is set, as a number. -/
def oneIf (b : Bool) : Nat := if b then 1 else 0

/-- The command register of the function: Bus Master Enable is bit 2. PRESUMED: log entry 80. -/
def State.commandReg (s : State) : Nat := 4 * s.rf .pcieEpStatus Fld.pcieEpStatusBusMaster
/-- The MSI-X message control: the table's size less one, Function Mask, and MSI-X Enable (R314). PRESUMED: log entry 80. -/
def State.msixControl (s : State) : Nat := 2047 + 2 ^ 14 * oneIf s.io.fnMask + 2 ^ 15 * oneIf s.msixOn
/-- The device control register: the payload and the read request sizes (R314). PRESUMED: log entry 80. -/
def State.deviceControl (s : State) : Nat := 2 ^ 5 * s.io.payload + 2 ^ 12 * s.io.readSize
/-- The power state: 0 of D0, 3 of D3hot (R314). PRESUMED: log entry 80. -/
def State.powerState (s : State) : Nat := 3 * oneIf s.io.d3hot

/-- A configuration request of the external host (R314, R315, R322): Bus Master Enable, the MSI-X controls, the memory BARs (2 GiB and
256 MiB), the payload and read request sizes, the power state and the error status, written or read; or a read of the BARs or of the
identification, which the FUSE block reports. PRESUMED: log entry 80. -/
def State.configRequest (s : State) (q : ConfigRequest) : State :=
  match q with
  | .busMaster b => (s.setB .pcieEpStatus Fld.pcieEpStatusBusMaster b).flushPba
  | .msix on mask => (({ s with io := { s.io with fnMask := mask } } : State).setB .pcieEpStatus Fld.pcieEpStatusMsixEnable on).flushPba
  | .bar i base =>
    let size := if i = 0 then 2 ^ 31 else 2 ^ 28
    { s with io := { s.io with bars := nset 0 s.io.bars i (BitVec.ofNat 64 (base.toNat / size * size)) } }
  | .readIds =>
    let x := s.rget .fusePart
    s.sendTlp 0 (.cpl 0 (leBytes 2 (fieldOf x Fld.fusePartVendorId) ++ leBytes 2 (fieldOf x Fld.fusePartDeviceId)
      ++ leBytes 1 (fieldOf x Fld.fusePartRevisionId)))
  | .readBar i => s.sendTlp 0 (.cpl 0 (leBytes 4 (s.barReg i.val).toNat))
  | .payload k => { s with io := { s.io with payload := k.val } }
  | .readRequest k => { s with io := { s.io with readSize := k.val } }
  | .power b => ({ s with io := { s.io with d3hot := b } } : State).flushPba
  | .clearErrors b => { s with io := { s.io with aer := nset 0 s.io.aer 0 (kget 0 s.io.aer 0 &&& ~~~b) } }
  | .readErrors => s.sendTlp 0 (.cpl 0 (leBytes 4 (kget 0 s.io.aer 0).toNat))
  | .readCommand => s.sendTlp 0 (.cpl 0 (leBytes 2 s.commandReg))
  | .readMsix => s.sendTlp 0 (.cpl 0 (leBytes 2 s.msixControl))
  | .readControl => s.sendTlp 0 (.cpl 0 (leBytes 2 s.deviceControl))
  | .readPower => s.sendTlp 0 (.cpl 0 (leBytes 2 s.powerState))

/-- PCIE_CONFIGURATION_REQUEST (R322); one that arrives while a reset of the endpoint asks it to become idle is refused with UR (R375). -/
def execPcieConfigurationRequest (q : ConfigRequest) (s : State) : Out :=
  clocked 8 s (fun s =>
    if s.rf .pcieEpStatus Fld.pcieEpStatusLinkUp ≠ 1 then s
    else if s.rf (.rstUnit 544) Fld.rstUnitState ≠ 0 then s.unsupported 0
    else s.configRequest q)

/-- PCIE.EP_COMMIT with commit = 1 (R11). -/
def State.epCommit (s : State) : State := s.commitReg .pcieEpCfg

/-- AWN.COMMIT with commit = 1 (R317). -/
def State.awnCommit (s : State) : State := s.commitReg .awnBase

/-- EP_COMMIT (R11). -/
def execEpCommit (s : State) : Out := clocked 8 s (fun s => s.epCommit)

/-- AWN_COMMIT (R317). -/
def execAwnCommit (s : State) : Out := clocked 8 s (fun s => s.awnCommit)

end Sys2Proof.Machine
end

