-- ==== Sys2Proof/Machine/RootPort.lean ====
section
/-! DEFINITION. The root ports: window and configuration accesses of the device, the links, and inbound requests under direct placement
(R326 to R330, R442). -/

namespace Sys2Proof.Machine

/-! ## Links (R325 to R327, R442) -/

/-- The link of root port `p` is in L0. -/
def State.rpUp (s : State) (p : Nat) : Bool := s.rf (.pcieRpStatus p) Fld.pcieRpStatusLinkUp == 1

/-- Root port `p` issues TLPs and takes requests: its link is in L0 and no reset of it is under way (R375).
DEDUCED: log entry 59. -/
def State.rpServes (s : State) (p : Nat) : Bool := s.rpUp p && s.rf (.rstUnit (545 + p)) Fld.rstUnitState == 0

/-- Root port `p` is enabled, in force. -/
def State.rpEnabled (s : State) (p : Nat) : Bool := s.af (.pcieRpCfg p) Fld.pcieRpCfgEnable == 1

/-- Assert or deassert RP_PERST_N[p] (R442). DEDUCED: log entry 81. -/
def State.setPerst (s : State) (p : Nat) (on : Bool) : State :=
  let m := BitVec.ofNat 4 (2 ^ p)
  { s with io := { s.io with rpPerst := if on then s.io.rpPerst ||| m else s.io.rpPerst &&& ~~~m } }

/-- RP_PERST_DEASSERT: RP_PERST_N[p] is deasserted 100 ms after D8 release, or 100 µs into a reset of the port, if it is enabled (R442). -/
def execRpPerstDeassert (p : RpId) (s : State) : Out :=
  clocked 8 s (fun s =>
    if s.rpEnabled p && s.released 8 then s.setPerst p false else s)

/-- The link of a root port reaches L0: the port is enabled and its hierarchy out of reset (R326, R442). -/
def State.rpLinkUp (s : State) (p rate width : Nat) : State :=
  if s.rpEnabled p && !s.io.rpPerst.getLsbD p then
    (((s.relock (p + 1)).setF (.pcieRpStatus p) Fld.pcieRpStatusLinkUp 1).setF (.pcieRpStatus p) Fld.pcieRpStatusRate rate).setF (.pcieRpStatus p)
      Fld.pcieRpStatusWidth width
  else s

/-- LINK_UP: the endpoint (none) or a root port reaches L0 (R325), at a rate of 1 to 6 and a width of PCI Express; no
link comes up at another (R314). -/
def execLinkUp (p : Option RpId) (rate : BitVec 3) (width : BitVec 5) (s : State) : Out :=
  clocked 8 s (fun s =>
    if 1 ≤ rate.toNat ∧ rate.toNat ≤ 6 ∧ linkWidth width.toNat then match p with
      | none => s.epLinkUp rate.toNat width.toNat
      | some p => s.rpLinkUp p rate.toNat width.toNat
    else s)

/-- A root port leaves L0 (R327). -/
def State.rpLinkDown (s : State) (p : Nat) : State :=
  if s.rpUp p then
    ((s.setF (.pcieRpStatus p) Fld.pcieRpStatusLinkUp 0).bumpF (.pcieRpEvents p) Fld.pcieRpEventsLinkDowns 1).report
      (mkRec Cls.rpLinkDown 0 Kind.rootPort p)
  else s

/-- RP_COMMIT (R11, R442): the port's enable takes effect; a port whose enable is 0 does not run, so its link leaves L0, and RP_PERST_N[p]
is asserted. DEDUCED: log entry 81. -/
def State.rpCommit (s : State) (p : Nat) : State :=
  let s := s.commitReg (.pcieRpCfg p)
  if s.rpEnabled p then s else (s.rpLinkDown p).setPerst p true

/-- RP_COMMIT. -/
def execRpCommit (p : RpId) (s : State) : Out := clocked 8 s (fun s => s.rpCommit p)

/-- RP_LINK_DOWN (R327), by a loss of lock of the port's PLL or not (R362); a monitor whose domain is in reset reports nothing (R363). -/
def execRpLinkDown (p : RpId) (pll : Bool) (s : State) : Out :=
  clocked 8 s (fun s => (if pll then s.pcieUnlock (p + 1) else s).rpLinkDown p)

/-! ## Window and configuration accesses (R310, R326) -/

/-- The local offset of an offset of the window of root port `p`. -/
def rpWindow (p o : Nat) : Nat := 0xF00040800000 + 0x200000 * p + o

/-- The maximum payload size of a link in bytes: 0 the endpoint, p + 1 root port p (R314, R326). DEDUCED: log entry 81. -/
def State.linkPayload (s : State) (link : Nat) : Nat := if link = 0 then s.payloadMax else 128 * 2 ^ kget 0 s.io.rpPayload (link - 1)

/-- The data of a completion in parts that end at the multiples of the payload size `m`; `k` bounds their number.
PRESUMED: log entry 80. -/
def cplParts (m : Nat) : Nat → Nat → List Byte → List (List Byte)
  | 0, _, l => [l]
  | k + 1, a, l => if l.length ≤ m - a % m then [l] else l.take (m - a % m) :: cplParts m k (a + (m - a % m)) (l.drop (m - a % m))

/-- A register read or a window load gives its value to its requester (R286, R316, R422). DEDUCED: log entry 90. -/
def State.replyRead (s : State) (r : Reply) (v : W64) : State :=
  match r with
  | .agent => { s with readData := v }
  | .fabric k => s.respond k PT.rddata (leBytes 8 v.toNat ++ List.replicate 8 0)
  | .host size => (cplParts (s.linkPayload 0) size 0 (leBytes size v.toNat)).foldl (fun s p => s.sendTlp 0 (.cpl 0 p)) s
  | .lost => s
  | .mgmt dst seq off => s.answerFrame dst 32 0 seq 0 (leBytes 8 off ++ leBytes 8 v.toNat)
  | .unit o addr size => s.keepFetched o addr (toLine (leBytes size v.toNat))

/-- A load or a configuration read that returns all ones (R326): counted and recorded. -/
def State.rpFails (s : State) (p addr size : Nat) (reply : Reply) : State :=
  let s := (s.bumpF (.pcieRpEvents p) Fld.pcieRpEventsMmioErrors 1).report
    { mkRec Cls.rpAccess 0 Kind.rootPort p with addr := BitVec.ofNat 64 addr }
  s.replyRead reply (BitVec.ofNat 64 (2 ^ (8 * size) - 1))

/-- A tag that no outstanding read of a root port carries. -/
def State.rpTag (s : State) (p : Nat) : Nat :=
  let used := (s.io.rpReads.filter (fun e => e.port == p)).map (fun e => e.tag)
  ((List.range (used.length + 1)).find? (fun t => !used.contains t)).getD 0

/-- Root port `p` has 1,024 non-posted requests outstanding and issues no more (R314, R326). -/
def State.rpFull (s : State) (p : Nat) : Bool := 1024 ≤ (s.io.rpReads.filter (fun e => e.port == p)).length

/-- Issue a read of a root port, which waits while the port has 1,024 outstanding; a link that is down answers all ones at once. -/
def State.rpRead (s : State) (p addr size : Nat) (tlp : Nat → Tlp) (reply : Reply := .agent) : State :=
  if !s.rpServes p then s.rpFails p addr size reply
  else if s.rpFull p then { s with io := { s.io with rpWaiting := s.io.rpWaiting ++ [(⟨p, 0, addr, size, reply⟩, tlp 0)] } }
  else
    let t := s.rpTag p
    let s := { s with io := { s.io with rpReads := s.io.rpReads ++ [(⟨p, t, addr, size, reply⟩ : RpRead)] } }
    s.sendTlp (p + 1) (tlp t)

/-- A request under a tag. -/
def Tlp.withTag (x : Tlp) (t : Nat) : Tlp :=
  match x with
  | .memRead _ a n ns ro => .memRead t a n ns ro
  | .cfgRead _ g => .cfgRead t g
  | x => x

/-- A read of a root port has ended: the oldest that waits at the port is issued. -/
def State.rpNext (s : State) (p : Nat) : State :=
  match popFirst (fun e : RpRead × Tlp => e.1.port == p) s.io.rpWaiting with
  | some ((e, x), rest) =>
    ({ s with io := { s.io with rpWaiting := rest } } : State).rpRead p e.addr e.size (fun t => x.withTag t) e.reply
  | none => s

/-- The bus address of an offset of a window (R326). -/
def State.busAddr (s : State) (p o : Nat) : Nat := s.rf (.pcieRpWin p) Fld.pcieRpWinBusBase * 2 ^ 21 + o

/-- RP_WINDOW_LOAD (R326): a load of a core that runs becomes a memory read; an AMO or LR faults (R310). DEDUCED: log entry 71. -/
def execRpWindowLoad (c : CoreId) (p : RpId) (offset : BitVec 21) (access : SizedAccess (BitVec 4)) (s : State) : Out :=
  clocked 8 s (fun s =>
    let o := offset.toNat
    if !s.coreRuns c then s
    else if access.atomic || !coreSize o access.size.toNat then s.accessFault c (rpWindow p o)
    else s.rpRead p (rpWindow p o) access.size.toNat (fun t => .memRead t (s.busAddr p o) access.size.toNat false false))

/-- RP_WINDOW_STORE (R326): a store of a core that runs becomes a posted write; over a link that is down it is discarded; an
SC faults (R310). -/
def execRpWindowStore (c : CoreId) (p : RpId) (offset : BitVec 21) (access : SizedAccess (BitVec 4)) (data : W64) (s : State) : Out :=
  clocked 8 s (fun s =>
    let o := offset.toNat
    if !s.coreRuns c then s
    else if access.atomic || !coreSize o access.size.toNat then s.accessFault c (rpWindow p o)
    else if s.rpServes p then s.sendTlp (p + 1) (.memWrite (s.busAddr p o) (leBytes access.size.toNat data.toNat) false false)
    else s)

/-- The target of a configuration request: RP_CFG_ADDR with bits [1:0] ignored (R332). -/
def State.cfgTarget (s : State) (p : Nat) : Nat := (s.rget (.pcieRpCfgAddr p)).toNat % 2 ^ 28 / 4 * 4

/-- A read of RP_CFG_DATA performs a configuration read (R326). -/
def State.cfgRead (s : State) (p : Nat) (reply : Reply := .agent) : State :=
  s.rpRead p (Reg.pcieRpCfgData p).addr 4 (fun t => .cfgRead t (s.cfgTarget p)) reply

/-- A write of RP_CFG_DATA performs a configuration write (R326); over a link that is down it is discarded, as a store is. -/
def State.cfgWrite (s : State) (p : Nat) (data : W32) : State :=
  let s := s.rset (.pcieRpCfgData p) (data.setWidth 64)
  if s.rpServes p then s.sendTlp (p + 1) (.cfgWrite (s.cfgTarget p) data) else s

/-- RP_CFG_READ: a read of `size` bytes at byte `o` of the slot of RP_CFG_DATA (R6, R326): of the whole slot or its lower half. -/
def execRpCfgRead (agent : Agent) (p : RpId) (o : BitVec 3) (size : BitVec 4) (s : State) : Out :=
  agentDo 8 agent s (fun s =>
    let addr := (Reg.pcieRpCfgData p).addr + o.toNat
    if irregularSize addr size.toNat then ({ s with readData := 0 } : State).report (csrRec (Agent.who agent) addr)
    else if o = 0 then s.cfgRead p else { s with readData := 0 })

/-- RP_CFG_WRITE: a write of `size` bytes at byte `o` of the slot of RP_CFG_DATA (R6, R326). -/
def execRpCfgWrite (agent : Agent) (p : RpId) (o : BitVec 3) (size : BitVec 4) (data : W64) (s : State) : Out :=
  agentDo 8 agent s (fun s =>
    let addr := (Reg.pcieRpCfgData p).addr + o.toNat
    if irregularSize addr size.toNat then s.report (csrRec (Agent.who agent) addr)
    else if o = 0 then s.cfgWrite p (data.setWidth 32) else s)

/-- An outstanding read of a root port, and the state without it. -/
def State.takeRp (s : State) (p tag : Nat) : Option (RpRead × State) :=
  (popFirst (fun e : RpRead => e.port == p && e.tag == tag) s.io.rpReads).map (fun x =>
    (x.1, { s with io := { s.io with rpReads := x.2 } }))

/-- RP_READ_COMPLETION (R326): the data of a load or configuration read, or all ones on UR or CA. -/
def execRpReadCompletion (p : RpId) (tag : BitVec 14) (st : CplStatus) (data : W64) (s : State) : Out :=
  clocked 8 s (fun s => match s.takeRp p tag.toNat with
    | some (e, s) =>
      (if st = .sc then s.replyRead e.reply (BitVec.ofNat 64 (data.toNat % 2 ^ (8 * e.size)))
        else s.rpFails p e.addr e.size e.reply).rpNext p
    | none => s.aerSet (p + 1) Aer.unexpected)

/-- RP_ACCESS_TIMEOUT (R326): no completion within 1 ms. -/
def execRpAccessTimeout (p : RpId) (tag : BitVec 14) (s : State) : Out :=
  clocked 8 s (fun s => match s.takeRp p tag.toNat with
    | some (e, s) => ((s.aerSet (p + 1) Aer.timeout).rpFails p e.addr e.size e.reply).rpNext p
    | none => s)

/-! ## Direct placement (R328, R329) -/

/-- A region of the placement table in force. -/
structure Placement where
  base : Nat
  length : Nat
  read : Bool
  write : Bool
  ports : Nat
  key : Nat
  deriving DecidableEq, Repr

/-- Region `i` of a table, if it is valid. -/
def placementOf (get : Reg → W64) (i : Nat) : Option Placement :=
  let k := get (.dplRegionKey i)
  let t := get (.dplRegionAttr i)
  if fieldOf k Fld.dplRegionKeyValid = 1 then
    some ⟨fieldOf (get (.dplRegionBase i)) Fld.dplRegionBaseBase * 4096, fieldOf t Fld.dplRegionAttrPages * 4096,
      fieldOf t Fld.dplRegionAttrRead == 1, fieldOf t Fld.dplRegionAttrWrite == 1, fieldOf t Fld.dplRegionAttrPorts,
      fieldOf k Fld.dplRegionKeyKey⟩
  else none

/-- The valid regions of a table. -/
def placements (get : Reg → W64) : List Placement := (List.range 512).filterMap (placementOf get)

/-- What a port's inbound request names (R328). -/
inductive RpTarget where
  | place (off : Nat)
  | msi (hart : Nat)
  | denied
  deriving DecidableEq, Repr

/-- Decode an inbound request (R328). -/
def State.rpDecode (s : State) (p addr len : Nat) (write : Bool) : RpTarget :=
  let key := addr / 2 ^ 32
  let o := addr % 2 ^ 32
  if key ≠ 0 then
    match (placements s.aget).find? (fun x => x.key == key) with
    | some x =>
      if o < x.length ∧ o + len ≤ x.length ∧ bitsOf x.ports p 1 = 1 ∧ (if write then x.write else x.read) then .place (x.base + o)
      else .denied
    | none => .denied
  else if write ∧ len = 4 ∧ bitsOf addr 20 12 = 0xFE0 ∧ bitsOf addr 12 8 < 96 ∧ bitsOf addr 0 12 = 0 then .msi (bitsOf addr 12 8)
  else .denied

/-- A root port as a requester. -/
def rpWho (p : Nat) : Who := ⟨Kind.rootPort, p, 0, none⟩

/-- An inbound write of one line, of a memory window or of an aperture (R231, R329). -/
def State.ioWrite (s : State) (w : Who) (a : Nat) (l : List Byte) : State :=
  match regionOf a with
  | .hbm | .lp => (s.winWrite w a l).1
  | .aperture n o => (s.sramWrite w n o l).1
  | _ => s.undecoded w a

/-- An inbound read of one line: refused offsets read as zero (R231, R251); nothing where it meets an uncorrectable error. -/
def State.ioRead (s : State) (w : Who) (a n : Nat) : State × Option (List Byte) :=
  match regionOf a with
  | .hbm | .lp => if s.usable a then s.winRead w a n else (s.outOfRange w a, some (List.replicate n 0))
  | .aperture t o => s.sramRead w t o n
  | _ => (s.undecoded w a, some (List.replicate n 0))

/-- An I/O agent's write, line by line. -/
def State.ioWriteRange (s : State) (w : Who) (a : Nat) (l : List Byte) : State :=
  (pieces a l.length).foldl (fun s x => s.ioWrite w x.1 ((l.drop (x.1 - a)).take x.2)) s

/-- An I/O agent's read, line by line: nothing where any line meets an uncorrectable error. -/
def State.ioReadRange (s : State) (w : Who) (a n : Nat) : State × Option (List Byte) :=
  (pieces a n).foldl (fun acc x =>
    let (s, r) := acc.1.ioRead w x.1 x.2
    (s, match acc.2, r with | some l, some m => some (l ++ m) | _, _ => none)) (s, some [])

/-- A completion of a read at an address to a link: its data, in as many TLPs as the payload size asks for (R314), or status CA (R318,
R329). -/
def State.complete? (s : State) (link a : Nat) (r : Option (List Byte)) : State :=
  match r with
  | some l => (cplParts (s.linkPayload link) l.length a l).foldl (fun s p => s.sendTlp link (.cpl 0 p)) s
  | none => s.abortCpl link

/-- A refused inbound request (R328). DEDUCED: log entry 81. -/
def State.dplDeny (s : State) (p addr : Nat) (write : Bool) : State :=
  let s := (s.bumpF .dplDenied Fld.dplDeniedCount 1).report
    { mkRec Cls.dplDenied 0 Kind.placement p with addr := BitVec.ofNat 64 addr }
  if write then s.aerSet (p + 1) Aer.unsupported else s.unsupported (p + 1)

/-- An inbound memory request of a root port (R316, R328, R329); one that a reset of the port has stopped is refused with UR (R375).
DEDUCED: log entry 59. -/
def State.rpInbound (s : State) (p addr len : Nat) (write : Option (List Byte)) (poisoned : Bool) : State :=
  if !s.rpUp p then s
  else if !s.rpServes p then if write.isSome then s else s.unsupported (p + 1)
  else if poisoned then
    let s := s.poisoned (p + 1) Kind.rootPort p addr
    if write.isSome then s else s.unsupported (p + 1)
  else match s.rpDecode p addr len write.isSome with
    | .denied => s.dplDeny p addr write.isSome
    | .msi h => s.msi h (leNat (write.getD []) % 256)
    | .place off =>
      match write with
      | some l => s.ioWriteRange (rpWho p) off l
      | none => let (s, r) := s.ioReadRange (rpWho p) off len; s.complete? (p + 1) addr r

/-- RP_INBOUND_REQUEST (R328). -/
def execRpInboundRequest (p : RpId) (addr : W64) (len : Nat) (write : Option (List Byte)) (poisoned : Bool) (s : State) : Out :=
  clocked 8 s (fun s => s.rpInbound p addr.toNat len write poisoned)

/-! ## The region table (R330) -/

/-- A region lies wholly within one memory window's usable size, or within the populated part of one tile aperture (R330). -/
def State.placementFits (s : State) (x : Placement) : Bool :=
  s.inWindow x.base x.length ||
    (match regionOf x.base with | .aperture _ o => o + x.length ≤ 0x600000 | _ => false)

/-- Two valid regions of a list carry the same key. -/
def sameKey : List Placement → Bool
  | [] => false
  | x :: l => l.any (fun y => y.key == x.key) || sameKey l

/-- The error code of a DPL commit (R330). DESIGN CHOICE: log entry 110. -/
def State.dplError (s : State) : Nat :=
  let t := placements s.rget
  if t.any (fun x => x.key == 0) || sameKey t then 1
  else if t.any (fun x => !s.placementFits x) then 2
  else if t.any (fun x => x.length == 0 || 1048576 * 4096 < x.length || !(x.read || x.write)) then 3
  else 0

/-- A write to DPL.COMMIT (R330). -/
def State.commitRegions (s : State) : State :=
  let e := s.dplError
  let s := s.setF .dplStatus Fld.dplStatusCommitError e
  if e ≠ 0 then s
  else
    let s := (List.range 512).foldl (fun s i =>
      ((s.commitReg (.dplRegionBase i)).commitReg (.dplRegionAttr i)).commitReg (.dplRegionKey i)) s
    { s with io := { s.io with dplPending := s.io.dplPending + 1 } }

/-- DPL_COMMIT (R330). -/
def execDplCommit (s : State) : Out := clocked 8 s (fun s => s.commitRegions)

/-- DPL_EPOCH_ADVANCE: every request decoded under the previous table is done (R330). -/
def execDplEpochAdvance (s : State) : Out :=
  clocked 8 s (fun s =>
    if s.io.dplPending = 0 then s
    else
      let s := { s with io := { s.io with dplPending := s.io.dplPending - 1 } }
      s.setF .dplStatus Fld.dplStatusEpoch (s.rf .dplStatus Fld.dplStatusEpoch + 1))

end Sys2Proof.Machine
end

