-- ==== Sys2Proof/Machine/Cores.lean ====
section
/-! DEFINITION. What the rules say of the host cores' reliability: residue checks, cache errors and the retirement watchdog (R311 to
R313). -/

namespace Sys2Proof.Machine

/-! ## What its hart reads of the device (R308, R413) -/

/-- The timer interrupt of hart `c` is pending: supervisor timer comparisons are on and station time has reached stimecmp, by whatever it
has advanced (R413). PRESUMED: log entry 127. -/
def State.timerPending (s : State) (c : Nat) : Bool :=
  let h := (s.core c).hart
  (kget 0 h.csr 0x30A).getLsbD 63 && (kget 0 h.csr 0x14D).toNat ≤ s.now.toNat

/-- A control and status register of hart `c` as a read returns it: time is the station counter (R308, R413), mhartid the hart's number, and
mip and sip show the timer interrupt. PRESUMED: log entry 127. -/
def State.hartCsr (s : State) (c n : Nat) : W64 :=
  let v := kget 0 (s.core c).hart.csr n
  if n = 0xC01 then s.now
  else if n = 0xF14 then BitVec.ofNat 64 c
  else if n = 0x344 ∨ n = 0x144 then if s.timerPending c then v ||| 0x20#64 else v
  else v

/-! ## Errors, hang and stop (R311 to R313) -/

/-- A core stops, and a record names it (R313). DEDUCED: log entry 70. -/
def State.coreStop (s : State) (c : Nat) : State :=
  (s.setCore c (s.core c).stop).report (mkRec Cls.coreStopped 2 Kind.core c)

/-- CORE_RESIDUE_MISMATCH (R311): the instruction is executed once more; `again` says that its second result mismatches too.
DEDUCED: log entry 70. -/
def execCoreResidueMismatch (c : CoreId) (again : Bool) (s : State) : Out :=
  clocked 5 s (fun s =>
    if !s.coreRuns c then s
    else if again then s.coreStop c
    else s.report { mkRec Cls.coreResidue 0 Kind.core c with corrected := true })

/-- An uncorrectable error in a line that a core holds (R312): a clean line is invalidated, to be fetched again from its home; a line it
owns dirty loses its data, and its home writes it so that every word decodes as uncorrectable. DEDUCED: log entry 70. -/
def State.cacheUe (s : State) (c la : Nat) (retires : Bool) : State :=
  let x := s.core c
  match x.copy la with
  | none => s
  | some ⟨.shared, _⟩ => s.setCore c (x.drop la)
  | some ⟨.exclusive, _⟩ => (s.setCore c (x.drop la)).mesh! (.wbClean c la)
  | some ⟨.modified, _⟩ =>
    let s := s.setCore c (x.drop la)
    let h := s.homeOf la
    let s := if (s.home h).openOn la then s else s.setHome h ((s.home h).free la)
    let s := s.spoilLine la
    let s := if retires then s.accessFault c la else s
    s.report { mkRec Cls.coreUe 0 Kind.core c with addr := BitVec.ofNat 64 la }

/-- A single-bit error in a line that a core holds is corrected on read and counted (R312). -/
def State.cacheCe (s : State) (c la : Nat) : State :=
  let x := s.core c
  if (x.copy la).isSome then s.setCore c { x with corrected := x.corrected + 1 } else s

/-- CORE_CACHE_UE (R312). -/
def execCoreCacheUe (c : CoreId) (addr : BitVec 48) (error : CacheError) (s : State) : Out :=
  clocked 5 s (fun s => match error with
    | .single => s.cacheCe c (lineOf addr.toNat)
    | .double retires => s.cacheUe c (lineOf addr.toNat) retires)

/-- CORE_HANG (R313): the retirement watchdog expires and the core stops. DEDUCED: log entry 70. -/
def execCoreHang (c : CoreId) (s : State) : Out :=
  clocked 5 s (fun s => if s.coreRuns c then (s.report (mkRec Cls.coreHang 2 Kind.core c)).coreStop c else s)

end Sys2Proof.Machine
end

