-- ==== Sys2Proof/Machine/FabDisc.lean ====
section
/-! DEFINITION. Discovery: HELLOs, the election of a root, registration, device IDs, routing tables, takeover and reassignment (R293 to
R303, R474). -/

namespace Sys2Proof.Machine

/-! ## The election (R299) -/

/-- Show the candidate, its distance and the parent port. -/
def State.setCandidate (s : State) (c : Option W64) (dist : Nat) (parent : Option Nat) : State :=
  let s := (s.rset .fabRoot (c.getD 0)).setF .fabStatus Fld.fabStatusRootDistance dist
  let s := s.setParent parent
  { s with fab := { s.fab with candidate := c, distance := dist } }

/-- Put discovery in a phase: 1 electing, 2 registering, 3 ready, 4 no root. -/
def State.setPhase (s : State) (ph : Nat) : State := s.setF .fabStatus Fld.fabStatusPhase ph

/-- Begin the election: an eligible device is its own candidate at distance 0, any other starts with none (R299). -/
def State.startElection (s : State) : State :=
  let s := s.setF .fabId Fld.fabIdRoot 0
  let s := { s with fab := { s.fab with registered := [], changed := false, parts := [], pendingId := none } }
  (s.setCandidate (if s.eligibleRoot then some s.serial else none) 0 none).setPhase 1

/-- Adopt a candidate that is offered at port `p`: a device that had declared itself root is root no longer (R299).
DESIGN CHOICE: log entry 119. -/
def State.adopt (s : State) (p : Nat) (c : W64) (dist : Nat) : State :=
  let s := if s.isRoot then
      let s := (s.setF .fabId Fld.fabIdRoot 0).setPhase 1
      { s with fab := { s.fab with registered := [], changed := false } }
    else s
  s.setCandidate (some c) (dist + 1) (some p)

/-- The candidate that a HELLO at port `p` offers is adopted if its serial is lower than that of the own candidate or there is none;
among equal offers the lowest distance and then the lowest port (R299). -/
def State.offer (s : State) (p : Nat) (c : W64) (dist : Nat) : State :=
  match s.fab.candidate with
  | none => s.adopt p c dist
  | some own =>
    if c < own then s.adopt p c dist
    else if c = own ∧ own ≠ s.serial then
      let better := match s.fab.parent with
        | some q => dist + 1 < s.fab.distance || (dist + 1 == s.fab.distance && p < q)
        | none => true
      if better then s.setCandidate (some c) (dist + 1) (some p) else s
    else s

/-! ## HELLO (R297, R298) -/

/-- A byte string as slots of a flit. -/
def slotsOf (l : List Byte) : List (BitVec 128) := payloadSlots ((l.length + 15) / 16) l

/-- The HELLO payload that a port sends (R297). -/
def State.helloPayload (s : State) (p : Nat) : List Byte :=
  let x := s.port p
  let bit (b : Bool) (k : Nat) : Nat := if b then 2 ^ k else 0
  leBytes 8 s.serial.toNat ++ leBytes 1 p
    ++ leBytes 1 (bit s.eligibleRoot 0 + s.boardSlot * 2 + bit s.idValid 7)
    ++ leBytes 2 (if s.idValid then s.devId else 0) ++ leBytes 2 4
    ++ leBytes 8 (s.fab.candidate.getD 0).toNat ++ leBytes 2 (s.fab.distance % 4096 + bit s.fab.candidate.isSome 12)
    ++ leBytes 8 x.peerSerial.toNat ++ leBytes 1 x.peerPort ++ leBytes 1 (bit x.heard 0)
    ++ leBytes 2 (s.rf .fabId Fld.fabIdEpoch) ++ List.replicate 12 0

/-- HELLO_TIMER: a port that exchanges HELLOs or is UP sends one (R297). -/
def execHelloTimer (p : PortId) (s : State) : Out :=
  clocked 7 s (fun s => if s.portHears p then (s.putFlit p 0 2 0 (slotsOf (s.helloPayload p))).1 else s)

/-- What a HELLO says. -/
structure HelloInfo where
  serial : W64
  port : Nat
  idValid : Bool
  id : Nat
  versions : Nat
  root : W64
  dist : Nat
  rootValid : Bool
  echoSerial : W64
  echoPort : Nat
  echoValid : Bool
  epoch : Nat
  deriving DecidableEq, Repr

/-- Read a HELLO flit. -/
def helloOf (f : BitVec 2048) : HelloInfo :=
  let b (byte lo w : Nat) : Nat := flitBits f (12 + byte) lo w
  { serial := BitVec.ofNat 64 (b 0 0 64), port := b 8 0 8, idValid := b 9 7 1 == 1, id := b 10 0 12, versions := b 12 0 16,
    root := BitVec.ofNat 64 (b 14 0 64), dist := b 22 0 12, rootValid := b 22 12 1 == 1, echoSerial := BitVec.ofNat 64 (b 24 0 64),
    echoPort := b 32 0 8, echoValid := b 33 0 1 == 1, epoch := b 34 0 16 }

/-- Show what a port knows of its neighbour. -/
def State.showPeer (s : State) (p : Nat) (i : HelloInfo) : State :=
  let r := Reg.fabPortStatus p
  let s := (s.rset (.fabPortPeer p) i.serial).setF r Fld.fabPortStatusPeerPort i.port
  (s.setF r Fld.fabPortStatusPeerId (if i.idValid then i.id else 0)).setB r Fld.fabPortStatusPeerIdValid i.idValid

/-- A device that holds an ID yields to the fabric of a neighbour: another root or epoch, and an epoch that is not older; at one epoch
the root of lower serial stands. DESIGN CHOICE: log entry 119. -/
def State.yields (s : State) (i : HelloInfo) : Bool :=
  let ahead := (i.epoch + 65536 - s.rf .fabId Fld.fabIdEpoch) % 65536
  if ahead = 0 then (match s.fab.candidate with | some c => i.root < c | none => true) else ahead < 32768

/-- A port comes UP (R284, R297, R303): next to a neighbour with a valid ID, a device adopts its root and epoch and registers; a device
that has them already reports its links. DESIGN CHOICE: log entry 119. -/
def State.comeUp (s : State) (p : Nat) (i : HelloInfo) : State :=
  let x := s.port p
  let s := (s.setPortState p 3).setF (.fabPortStatus p) Fld.fabPortStatusVersion 2
  let s := s.setPort p { x with knownPeer := true, firstPeer := i.serial, firstPort := i.port, replays := 0 }
  if i.idValid && i.rootValid && (!s.idValid || s.yields i) then
    let s := (s.adopt p i.root i.dist).setF .fabId Fld.fabIdEpoch i.epoch
    (s.setPhase 2).sendMgmt p (.register s.ownRep)
  else if s.idValid then s.reportLinks
  else s

/-- A port receives a HELLO (R284, R297 to R299). -/
def State.hello (s : State) (p : Nat) (i : HelloInfo) : State :=
  if bitsOf i.versions 2 1 = 0 then s.isolate p Cls.fabVersion
  else
    let x := s.port p
    let echo := i.echoValid && i.echoSerial == s.serial && i.echoPort == p
    let same := x.heard && x.peerSerial == i.serial && x.peerPort == i.port
    let count := if echo then (if same then x.helloCount + 1 else 1) else 0
    let s := s.setPort p { x with
      heard := true, peerSerial := i.serial, peerPort := i.port, helloCount := count
      peerRoot := i.root, peerDist := i.dist, peerRootValid := i.rootValid }
    let s := s.showPeer p i
    let electing := !s.idValid || s.rf .fabStatus Fld.fabStatusPhase != 3
    if s.portState p = 2 then
      if x.knownPeer && !(x.firstPeer == i.serial && x.firstPort == i.port) then s.isolate p Cls.fabTopology
      else
        let s := if i.rootValid && electing then s.offer p i.root i.dist else s
        if 2 ≤ count then (s.comeUp p i).pumpPort p else s
    else if i.rootValid && electing then s.offer p i.root i.dist
    else s

/-- HELLO (R297). -/
def execHello (p : PortId) (flit : BitVec 2048) (corrected : W16) (bad : Bool) (s : State) : Out :=
  clocked 7 s (fun s =>
    if !s.portHears p then s
    else
      let s := s.countFec p corrected.toNat bad
      if bad || !flitCrcOk flit || flitType flit != 2 then s
      else (s.takeHeader p flit).hello p (helloOf flit))

/-! ## The root (R299 to R302) -/

/-- ROOT_DECLARE: an eligible device that is its own candidate and saw no lower offer for settle ms declares itself root (R299). -/
def execRootDeclare (s : State) : Out :=
  clocked 7 s (fun s =>
    if s.eligibleRoot ∧ s.fab.candidate = some s.serial ∧ s.rf .fabStatus Fld.fabStatusPhase = 1 then
      let s := (s.setF .fabId Fld.fabIdRoot 1).setPhase 2
      let s := { s with fab := { s.fab with registered := [] } }
      s.record s.ownRep
    else s)

/-- NO_ROOT_TIMEOUT: with no candidate, after 2 × settle ms the device reports phase 4 (R299). -/
def execNoRootTimeout (s : State) : Out :=
  clocked 7 s (fun s =>
    if s.fab.candidate.isNone ∧ s.rf .fabStatus Fld.fabStatusPhase = 1 then
      (s.setPhase 4).report (mkRec Cls.fabNoRoot 0 Kind.device 0)
    else s)

/-- CANDIDATE_STABLE: a device whose candidate has been stable for settle ms registers through its parent port (R300). -/
def execCandidateStable (s : State) : Out :=
  clocked 7 s (fun s =>
    if s.isRoot || s.fab.candidate.isNone || s.fab.candidate == some s.serial then s
    else match s.fab.parent with
      | some p => (s.setPhase 2).sendMgmt p (.register s.ownRep)
      | none => s)

/-- The devices at each hop distance from a device, over reported links (R302). -/
def hopsFrom (reps : List RegRep) : Nat → Nat → List (W64 × Nat) → List (W64 × Nat)
  | 0, _, seen => seen
  | n + 1, k, seen =>
    let next := (reps.filter (fun r => !seen.any (fun e => e.1 == r.serial)
      && r.links.any (fun l => seen.any (fun e => e.1 == l.serial && e.2 == k)))).map (fun r => (r.serial, k + 1))
    if next.isEmpty then seen else hopsFrom reps n (k + 1) (seen ++ next)

/-- The hop distances to a device. -/
def distsTo (reps : List RegRep) (d : W64) : List (W64 × Nat) := hopsFrom reps reps.length 0 [(d, 0)]

/-- A distance, if it is known. -/
def distOf (t : List (W64 × Nat)) (u : W64) : Option Nat := (t.find? (fun e => e.1 == u)).map (fun e => e.2)

/-- The mask of a list of ports. -/
def portMask (l : List Nat) : W64 := l.foldl (fun m p => m ||| BitVec.ofNat 64 (2 ^ p)) 0

/-- Insert a link by its port. -/
def insLink (x : LinkRep) : List LinkRep → List LinkRep
  | [] => [x]
  | y :: l => if x.port < y.port then x :: y :: l else y :: insLink x l

/-- The masks of device `u` for destination `d`, its ports taken in ascending order (R302). -/
def routeOf (reps : List RegRep) (u : RegRep) (d : W64) : W64 × W64 :=
  let t := distsTo reps d
  let near := (u.links.foldl (fun l x => insLink x l) []).filterMap (fun l => (distOf t l.serial).map (fun k => (l.port, k)))
  match near.map (fun e => e.2) with
  | [] => (0, 0)
  | k :: ks =>
    let m := ks.foldl min k
    let ps := (near.filter (fun e => e.2 == m)).map (fun e => e.1)
    if 2 ≤ ps.length then (portMask (ps.take ((ps.length + 1) / 2)), portMask (ps.drop ((ps.length + 1) / 2)))
    else (portMask ps, portMask ((near.filter (fun e => e.2 == m + 1)).map (fun e => e.1)))

/-- Insert a report by serial. -/
def insRep (r : RegRep) : List RegRep → List RegRep
  | [] => [r]
  | x :: l => if r.serial < x.serial then r :: x :: l else x :: insRep r l

/-- The lowest ID not in use (R301). -/
def lowestId (used : List Nat) : Nat := ((List.range 4096).find? (fun i => !used.contains i)).getD 4095

/-- IDs that stand (R301): the one an assignment table lists, else the one the device holds; a device of lower serial keeps a disputed
one. -/
def keepIds (table : List (W64 × Nat)) : List RegRep → List Nat → List RegRep
  | [], _ => []
  | r :: l, used =>
    let listed := (table.find? (fun e => e.1 == r.serial)).map (fun e => e.2)
    let held := match listed with | some i => some i | none => r.id.or r.heldId
    match held with
    | some i =>
      if listed.isSome || !used.contains i then { r with id := some i } :: keepIds table l (i :: used)
      else { r with id := none } :: keepIds table l used
    | none => { r with id := none } :: keepIds table l used

/-- IDs for the devices that hold none, in ascending serial order (R301). -/
def freeIds : List RegRep → List Nat → List RegRep
  | [], _ => []
  | r :: l, used =>
    match r.id with
    | some _ => r :: freeIds l used
    | none => let i := lowestId used; { r with id := some i } :: freeIds l (i :: used)

/-- Assign IDs (R301). -/
def assignIds (table : List (W64 × Nat)) (reps : List RegRep) : List RegRep :=
  let sorted := reps.foldl (fun l r => insRep r l) []
  let kept := keepIds table sorted (table.filterMap (fun e => if sorted.any (fun r => r.serial == e.1) then some e.2 else none))
  freeIds kept (kept.filterMap (fun r => r.id))

/-- The IDs that devices new to the root take up again in the same epoch (R303): the listed one if no device holds it, else the one that the
device reports, unless another holds it. -/
def rejoinIds (table : List (W64 × Nat)) (taken : List Nat) : List RegRep → List Nat → List RegRep
  | [], _ => []
  | r :: l, used =>
    match r.id with
    | some _ => r :: rejoinIds table taken l used
    | none =>
      match (table.find? (fun e => e.1 == r.serial)).map (fun e => e.2) with
      | some i => { r with id := if taken.contains i then none else some i } :: rejoinIds table taken l used
      | none =>
        match r.heldId with
        | some i =>
          if used.contains i then r :: rejoinIds table taken l used
          else { r with id := some i } :: rejoinIds table taken l (i :: used)
        | none => r :: rejoinIds table taken l used

/-- The IDs of a redistribution (R474): every device keeps the ID it was assigned, a device new to the root takes one under R303. -/
def sameIds (table : List (W64 × Nat)) (reps : List RegRep) : List RegRep :=
  let sorted := reps.foldl (fun l r => insRep r l) []
  let taken := sorted.filterMap (fun r => r.id)
  let listed := table.filterMap (fun e => if sorted.any (fun r => r.serial == e.1 && r.id.isNone) then some e.2 else none)
  let kept := rejoinIds table taken sorted (taken ++ listed)
  freeIds kept (kept.filterMap (fun r => r.id))

/-- The ports of a source route from device `u` to `d` (R300), each the lowest port that comes nearer. -/
def sourceRoute (reps : List RegRep) (d : W64) : Nat → W64 → List Nat
  | 0, _ => []
  | n + 1, u =>
    if u = d then []
    else
      let t := distsTo reps d
      match reps.find? (fun r => r.serial == u), distOf t u with
      | some r, some k =>
        match r.links.find? (fun l => distOf t l.serial == some (k - 1)) with
        | some l => l.port :: sourceRoute reps d n l.serial
        | none => []
      | _, _ => []

/-- The table of a device: one pair of masks per destination ID (R302). -/
def tableOf (reps : List RegRep) (u : RegRep) (part : Nat) : List (W64 × W64) :=
  (List.range 16).map (fun i =>
    match reps.find? (fun r => r.id == some (16 * part + i)) with
    | some d => if d.serial = u.serial then (0, 0) else routeOf reps u d.serial
    | none => (0, 0))

/-- A routing register. -/
def isRoute : Reg → Bool
  | .fabRoutePrimary _ | .fabRouteAlternative _ => true
  | _ => false

/-- A device installs its ID and its whole table together (R300); the staged entries are discarded. -/
def State.install (s : State) (id epoch : Nat) (entries : List (W64 × W64)) : State :=
  let s := { s with csr := s.csr.filter (fun e => !isRoute e.1), act := s.act.filter (fun e => !isRoute e.1) }
  let set (s : State) (r : Reg) (v : W64) : State := (s.rset r v).aset r v
  let s := (List.range entries.length).foldl (fun s d =>
    match entries[d]? with
    | some (a, b) => set (set s (.fabRoutePrimary d) a) (.fabRouteAlternative d) b
    | none => s) s
  let s := (s.setF .fabId Fld.fabIdDeviceId id).setF .fabId Fld.fabIdValid 1
  let s := (s.setF .fabId Fld.fabIdEpoch epoch).bumpF .fabStatus Fld.fabStatusRouteGen 1
  s.setPhase 3

/-- The root sends a device its ASSIGN and its 256 ROUTE parts along a source route, or installs its own (R300). -/
def State.sendTable (s : State) (reps : List RegRep) (r : RegRep) (epoch : Nat) : State :=
  let id := r.id.getD 0
  if r.serial = s.serial then s.install id epoch ((List.range 256).flatMap (tableOf reps r))
  else
    match sourceRoute reps r.serial reps.length s.serial with
    | [] => s
    | p :: rest =>
      (List.range 256).foldl (fun s k => s.sendMgmt p (.route rest k (tableOf reps r k)))
        (s.sendMgmt p (.assign rest id epoch))

/-- The assignment is by a table (R301, mode 1). -/
def State.listing (s : State) : Bool := s.af .fabCfg Fld.fabCfgAssignMode == 1
/-- The assignment table of the root's image, in mode 1 (R301). -/
def State.listedIds (s : State) : List (W64 × Nat) := if s.listing then s.sys.assignTable else []

/-- Distribute tables for devices with their IDs (R300, R302); each device that is assigned one now and that the table of mode 1 does not
list produces a record (R301). -/
def State.giveTables (s : State) (epoch : Nat) (reps : List RegRep) : State :=
  let given (r : RegRep) : Bool := !s.fab.registered.any (fun x => x.serial == r.serial && x.id.isSome)
  let unlisted := if s.listing then reps.filter (fun r => given r && !s.sys.assignTable.any (fun e => e.1 == r.serial)) else []
  let s := unlisted.foldl (fun s _ => s.report (mkRec Cls.fabUnlisted 0 Kind.device 0)) s
  let s := { s with fab := { s.fab with registered := reps, changed := false } }
  reps.foldl (fun s r => s.sendTable reps r epoch) s

/-- The root assigns IDs and distributes tables (R300 to R302). -/
def State.distribute (s : State) (epoch : Nat) : State := s.giveTables epoch (assignIds s.listedIds s.fab.registered)

/-- The root distributes tables for the links now reported, with the same IDs and the same epoch (R474). -/
def State.redistribute (s : State) : State :=
  s.giveTables (s.rf .fabId Fld.fabIdEpoch) (sameIds s.listedIds s.fab.registered)

/-- REGISTRATION_SETTLE: the root, after settle ms without a new REGISTER, assigns IDs with a new epoch (R300, R303). -/
def execRegistrationSettle (s : State) : Out :=
  clocked 7 s (fun s => if s.isRoot ∧ s.rf .fabStatus Fld.fabStatusPhase = 2 then
    let s := s.record s.ownRep
    s.distribute ((s.rf .fabId Fld.fabIdEpoch + 1) % 65536) else s)

/-- TABLE_REDISTRIBUTION: settle ms after the last REGISTER that changed the links, the root distributes again with the same IDs and the
same epoch (R474). -/
def execTableRedistribution (s : State) : Out :=
  clocked 7 s (fun s => if s.isRoot ∧ s.fab.changed then s.redistribute else s)

/-! ## Management packets received (R285, R300, R303) -/

/-- The basecamp controller consumes the first management packet of a type that came by a port (R291). DEDUCED: log entry 73. -/
def State.consume (s : State) (p typ : Nat) : State :=
  match popFirst (fun e : Nat × Pkt => e.1 == p && e.2.typ == typ) s.fab.inq with
  | some ((_, k), rest) => (({ s with fab := { s.fab with inq := rest } } : State).freeSlots p k).idleFlit p false
  | none => s

/-- REGISTER: the root records a report, or a device sends it on through its parent port (R300). -/
def execRegister (p : PortId) (serial : W64) (eligible : Bool) (slot : BitVec 6) (heldId : Option (BitVec 12))
    (links : List (PortId × W64 × PortId)) (s : State) : Out :=
  clocked 7 s (fun s =>
    let s := s.consume p PT.register
    let r : RegRep := {
      serial := serial, eligible := eligible, slot := slot.toNat, heldId := heldId.map BitVec.toNat,
      links := links.map (fun l => ⟨l.1.val, l.2.1, l.2.2.val⟩), id := none, ready := heldId.isSome }
    if s.isRoot then s.record r
    else match s.fab.parent with
      | some q => s.sendMgmt q (.register r)
      | none => s)

/-- A device that holds its ID and every part installs them and sends READY (R300). -/
def State.tryInstall (s : State) : State :=
  match s.fab.pendingId with
  | some (id, epoch) =>
    if (List.range 256).all (fun k => s.fab.parts.any (fun e => e.1 == k)) then
      let entries := (List.range 256).flatMap (fun k => ((s.fab.parts.find? (fun e => e.1 == k)).map (fun e => e.2)).getD [])
      let s := s.install id epoch entries
      let s := { s with fab := { s.fab with parts := [], pendingId := none } }
      match s.fab.parent with
      | some q => s.sendMgmt q (.ready s.serial)
      | none => s
    else s
  | none => s

/-- ASSIGN: a device receives its ID, or passes it along the source route (R300, R291). DEDUCED: log entry 73. -/
def execAssign (p : PortId) (route : List PortId) (id : BitVec 12) (epoch : W16) (s : State) : Out :=
  clocked 7 s (fun s =>
    let s := s.consume p PT.assign
    match route with
    | q :: rest => s.sendMgmt q (.assign (rest.map (fun x => x.val)) id.toNat epoch.toNat)
    | [] => ({ s with fab := { s.fab with pendingId := some (id.toNat, epoch.toNat) } } : State).tryInstall)

/-- ROUTE: a device receives a part of its table, or passes it along the source route (R300, R291); one that does not hold the 16 entries
of a part is malformed (R287). -/
def execRoute (p : PortId) (route : List PortId) (part : Byte) (entries : List (W64 × W64)) (s : State) : Out :=
  clocked 7 s (fun s =>
    let s := s.consume p PT.route
    if entries.length ≠ 16 then s.noteMalformed
    else match route with
      | q :: rest => s.sendMgmt q (.route (rest.map (fun x => x.val)) part.toNat entries)
      | [] =>
        let parts := s.fab.parts.filter (fun e => e.1 != part.toNat) ++ [(part.toNat, entries)]
        ({ s with fab := { s.fab with parts := parts } } : State).tryInstall)

/-- READY: the root receives READY from a device, or a device sends it on through its parent port (R300). -/
def execReady (p : PortId) (serial : W64) (s : State) : Out :=
  clocked 7 s (fun s =>
    let s := s.consume p PT.ready
    if s.isRoot then
      let mark (r : RegRep) : RegRep := if r.serial = serial then { r with ready := true } else r
      { s with fab := { s.fab with registered := s.fab.registered.map mark } }
    else match s.fab.parent with
      | some q => s.sendMgmt q (.ready serial)
      | none => s)

/-- TAKEOVER_REQ: a neighbour's port met by this device's port `q` is DOWN; its partly received packet is discarded and the last seq
accepted is answered (R285). -/
def execTakeoverReq (p q : PortId) (s : State) : Out :=
  clocked 7 s (fun s =>
    let s := s.consume p PT.takeoverReq
    let x := s.port q
    let s := s.setPort q { x with partSlots := [] }
    s.sendMgmt p (.takeoverAck q x.lastSeq))

/-- Flood a REASSIGN on the UP ports but one (R291, R303). DEDUCED: log entry 73. -/
def State.flood (s : State) (but : Option Nat) : State :=
  (s.ports3.filter (fun p => some p != but)).foldl (fun s p => s.sendMgmt p .reassign) s

/-- A reassignment (R303): isolated ports train anew, the candidate is cleared, and election and registration run again while ID and table
stay. DEDUCED: log entry 73. -/
def State.restartElection (s : State) : State :=
  let s := (List.range 64).foldl (fun s p =>
    if s.portState p = 6 ∧ s.portEnabled p then (s.setPort p { s.port p with knownPeer := false }).setPortState p 1 else s) s
  s.startElection

/-- REASSIGN: a device floods a REASSIGN it receives and restarts election and registration (R303). A device that is electing already has
been reached by it and sends it no further. DEDUCED: log entry 73. -/
def execReassign (p : PortId) (s : State) : Out :=
  clocked 7 s (fun s =>
    let s := s.consume p PT.reassign
    if s.rf .fabStatus Fld.fabStatusPhase = 1 then s else (s.flood (some p.val)).restartElection)

/-- REASSIGN written to FAB.DISC_CTRL (R303). DEDUCED: log entry 73. -/
def State.discReassign (s : State) : State := (s.flood none).restartElection

/-- DISC_REASSIGN: a write of reassign to FAB.DISC_CTRL (R303). -/
def execDiscReassign (s : State) : Out := clocked 7 s (fun s => s.discReassign)

/-- FAB.ROUTE_COMMIT with commit = 1 (R296): every staged entry is installed together. -/
def State.routeCommit (s : State) : State :=
  let routes := s.csr.filter (fun e => isRoute e.1)
  let s := { s with act := s.act.filter (fun e => !isRoute e.1) }
  (routes.foldl (fun s e => s.aset e.1 e.2) s).bumpF .fabStatus Fld.fabStatusRouteGen 1

/-- ROUTE_COMMIT (R296). -/
def execRouteCommit (s : State) : Out := clocked 7 s (fun s => s.routeCommit)

end Sys2Proof.Machine
end

