-- ==== Sys2Proof/Machine/FabPkt.lean ====
section
/-! DEFINITION. Fabric requests performed at their destination, and the answers that an originator receives (R304 to R306). -/

namespace Sys2Proof.Machine

/-! ## At the destination (R304, R305) -/

/-- A fabric-inbound requester: the originating device. DEDUCED: log entry 57. -/
def inboundWho (k : Pkt) : Who := ⟨Kind.device, k.src, 0, none⟩

/-- Take the first packet of a type that waits to be performed; its receive buffer is freed. DEDUCED: log entry 72. -/
def State.takePkt (s : State) (typ : Nat) : Option (Pkt × State) :=
  match popFirst (fun e : Nat × Pkt => e.2.typ == typ) s.fab.inq with
  | some ((p, k), rest) => some (k, (({ s with fab := { s.fab with inq := rest } } : State).freeSlots p k).idleFlit p false)
  | none => none

/-- FAB.INBOUND opens a region (R304). -/
def State.inboundOpen (s : State) (f : Fld) : Bool := s.af .fabInbound f == 1

/-- A refused inbound access (R304): counted, recorded, answered by ERR. DEDUCED: log entry 57. -/
def State.deny (s : State) (k : Pkt) (code : Nat) : State :=
  ((s.bumpF .fabEvents Fld.fabEventsDenied 1).report (whoRec Cls.fabDenied (inboundWho k) k.off)).respondErr k code

/-- What an inbound memory access may reach. -/
inductive Inbound where
  | window | aperture (n o : Nat) | denied | refused
  deriving DecidableEq, Repr

/-- Decode the offset of an inbound memory access (R231, R251, R304). -/
def State.inbound (s : State) (off : Nat) : Inbound :=
  match regionOf off with
  | .hbm | .lp => if s.inboundOpen Fld.fabInboundMemory then .window else .denied
  | .aperture n o => if s.inboundOpen Fld.fabInboundAperture then .aperture n o else .denied
  | .registers => .denied
  | .absent => .refused

/-- A destination performs a line read and answers RDDATA or ERR (R304, R306). -/
def State.fabRead (s : State) (k : Pkt) : State :=
  let a := lineOf k.off
  let w := inboundWho k
  let answer : State × Option (List Byte) → State
    | (s, some l) => s.respond k PT.rddata l
    | (s, none) => s.respondErr k 3
  match s.inbound a with
  | .window => if s.usable a then answer (s.winRead w a 64) else (s.outOfRange w a).respondErr k 1
  | .aperture n o => answer (s.sramRead w n o 64)
  | .denied => s.deny k 2
  | .refused => (s.undecoded w a).respondErr k 1

/-- RD (R304). -/
def execRd (s : State) : Out :=
  clocked 7 s (fun s => match s.takePkt PT.rd with | some (k, s) => s.fabRead k | none => s)

/-- The bytes of a line that a mask names, as runs: offset and bytes. -/
def maskRuns (mask : Nat) (l : List Byte) : Nat → Nat → List (Nat × List Byte) → List (Nat × List Byte)
  | 0, _, acc => acc
  | n + 1, i, acc =>
    if bitsOf mask i 1 = 0 then maskRuns mask l n (i + 1) acc
    else match acc.getLast? with
      | some (o, r) =>
        if o + r.length = i then maskRuns mask l n (i + 1) (acc.dropLast ++ [(o, r ++ [l.getD i 0])])
        else maskRuns mask l n (i + 1) (acc ++ [(i, [l.getD i 0])])
      | none => maskRuns mask l n (i + 1) [(i, [l.getD i 0])]

/-- A destination performs a masked line write and answers WRACK or ERR (R305, R306). -/
def State.fabWrite (s : State) (k : Pkt) (mask : Nat) (l : List Byte) : State :=
  let a := lineOf k.off
  let w := inboundWho k
  match s.inbound a with
  | .window =>
    if s.usable a then
      (s.maskWrite w a (BitVec.ofNat 64 mask) (toLine l)).respond k PT.wrack []
    else (s.outOfRange w a).respondErr k 1
  | .aperture n o =>
    let (s, ok) := (maskRuns mask l 64 0 []).foldl (fun acc r =>
      let (s, ok) := acc.1.sramWrite w n (o + r.1) r.2
      (s, acc.2 && ok)) (s, true)
    if ok then s.respond k PT.wrack [] else s.respondErr k 3
  | .denied => s.deny k 2
  | .refused => (s.undecoded w a).respondErr k 1

/-- WR (R305). -/
def execWr (s : State) : Out :=
  clocked 7 s (fun s => match s.takePkt PT.wr with | some (k, s) => s.fabWrite k (2 ^ 64 - 1) k.payload | none => s)

/-- WRP (R305). -/
def execWrp (s : State) : Out :=
  clocked 7 s (fun s => match s.takePkt PT.wrp with
    | some (k, s) => s.fabWrite k (leNat (k.payload.take 8)) ((k.payload.drop 8).take 64)
    | none => s)

/-- A destination adds to a peg and answers WRACK; an offset that is no PEG.ADD register is answered by ERR code 4, and is recorded if it
lies in no row of the local map (R251, R305, R306). DEDUCED: log entry 57. -/
def State.fabPegAdd (s : State) (k : Pkt) : State :=
  match Reg.ofAddr k.off with
  | some (.pegAdd p) =>
    if s.inboundOpen Fld.fabInboundPeg then
      let x := leNat (k.payload.take 8)
      (s.pegApply p (.add (BitVec.ofNat 63 x) (bitsOf x 63 1 == 1))).respond k PT.wrack []
    else s.deny k 2
  | _ => (if isAbsent k.off then s.undecoded (inboundWho k) k.off else s).respondErr k 4

/-- PEGADD (R305). -/
def execPegadd (s : State) : Out :=
  clocked 7 s (fun s => match s.takePkt PT.pegadd with | some (k, s) => s.fabPegAdd k | none => s)

/-! ## At the originator (R305, R306) -/

/-- The open request that a response answers; a response that matches none is counted as late (R306). -/
def State.answered (s : State) (k : Pkt) : Option (OpenReq × State) :=
  match popFirst (fun r : OpenReq => r.tag == k.tag && r.gen == k.gen) s.fab.openReqs with
  | some (r, rest) => some (r, { s with fab := { s.fab with openReqs := rest } })
  | none => none

/-- The global address of an offset of a device. -/
def globalAddr (dev off : Nat) : Nat := 2 ^ 60 + dev * 2 ^ 48 + off

/-- RDDATA: read data for an open request is kept for its owner (R306). -/
def execRddata (s : State) : Out :=
  clocked 7 s (fun s => match s.takePkt PT.rddata with
    | some (k, s) =>
      match s.answered k with
      | some (r, s) => s.keepFetched r.owner (globalAddr r.dev r.off) (toLine k.payload)
      | none => s.bumpF .fabDrops Fld.fabDropsLate 1
    | none => s)

/-- WRACK: a fabric write is acknowledged to its originator (R305). -/
def execWrack (s : State) : Out :=
  clocked 7 s (fun s => match s.takePkt PT.wrack with
    | some (k, s) =>
      match s.answered k with
      | some (q, s) => s.acked q.owner
      | none => s.bumpF .fabDrops Fld.fabDropsLate 1
    | none => s)

end Sys2Proof.Machine
end

