-- ==== Sys2Proof/Machine/Stash.lean ====
section
/-! DEFINITION. The bivouac stash (R126 to R136): its configuration, the anchor layout, and what the release of a task decides. -/

namespace Sys2Proof.Machine

/-! ## Configuration (R126, R127) -/

/-- The kind of a stash block (R126). -/
inductive StashKind where
  | none | anchor | follower
  deriving DecidableEq, Repr

/-- A stash configuration: kinds and pages of the blocks in use, sizes and bases in pages. -/
structure StashCfg where
  enable : Bool
  live : Nat
  blocks : List (StashKind × Nat)
  hbmBase : Nat
  hbmPages : Nat
  lpBase : Nat
  lpPages : Nat
  deriving DecidableEq, Repr

/-- The stash configuration that register values state. -/
def stashCfgOf (get : Reg → W64) : StashCfg :=
  let f (r : Reg) (x : Fld) : Nat := fieldOf (get r) x
  { enable := f .pipeStashCfg Fld.pipeStashCfgEnable == 1, live := f .pipeStashCfg Fld.pipeStashCfgLive
    blocks := (List.range (min 256 (f .pipeStashCfg Fld.pipeStashCfgBlocks))).map (fun b =>
      (match f (.pipeStashBlock b) Fld.pipeStashBlockKind with | 1 => .anchor | 2 => .follower | _ => .none,
       f (.pipeStashBlock b) Fld.pipeStashBlockPages))
    hbmBase := f .pipeStashHbmBase Fld.pipeStashHbmBaseBase, hbmPages := f .pipeStashHbmSize Fld.pipeStashHbmSizePages
    lpBase := f .pipeStashLpBase Fld.pipeStashLpBaseBase, lpPages := f .pipeStashLpSize Fld.pipeStashLpSizePages }

/-- The registers of the stash's staged fields. -/
def stashStaged : List Reg :=
  [.pipeStashCfg, .pipeStashHbmBase, .pipeStashHbmSize, .pipeStashLpBase, .pipeStashLpSize]
    ++ (List.range 256).map Reg.pipeStashBlock

/-- The configuration in force. -/
def State.stashCfg (s : State) : StashCfg := stashCfgOf s.aget

/-- The configuration that will be in force from the next step boundary (R127, R193). -/
def State.nextStashCfg (s : State) : StashCfg :=
  match s.sched.stash.waiting with
  | some l => stashCfgOf (fun r => ((l.find? (fun v => v.1 == r)).map Prod.snd).getD (s.aget r))
  | none => s.stashCfg

/-- The kind of block `b`. -/
def StashCfg.kind (c : StashCfg) (b : Nat) : StashKind := ((c.blocks[b]?).map Prod.fst).getD .none
/-- The pages of an entry of block `b`. -/
def StashCfg.pages (c : StashCfg) (b : Nat) : Nat := ((c.blocks[b]?).map Prod.snd).getD 0

/-- An anchor entry's place (R130): slot, block, region, page. -/
structure AnchorPlace where
  slot : Nat
  block : Nat
  lp : Bool
  page : Nat
  deriving DecidableEq, Repr

/-- The anchor slots laid out so far: places, pages used in each region, and whether the layout has gone over to LPDDR5X. -/
structure AnchorLayout where
  places : List AnchorPlace
  hbm : Nat
  lp : Nat
  past : Bool
  deriving DecidableEq, Repr

/-- Place the next anchor entry (R130). -/
def AnchorLayout.put (a : AnchorLayout) (c : StashCfg) (slot b : Nat) : AnchorLayout :=
  let n := c.pages b
  if a.past || c.hbmPages < a.hbm + n then
    { a with places := a.places ++ [⟨slot, b, true, a.lp⟩], lp := a.lp + n, past := true }
  else { a with places := a.places ++ [⟨slot, b, false, a.hbm⟩], hbm := a.hbm + n }

/-- The anchor layout of the live slots (R130). DEDUCED: log entry 49. -/
def StashCfg.layout (c : StashCfg) : AnchorLayout :=
  (List.range c.live).foldl (fun a slot =>
    (List.range c.blocks.length).foldl (fun a b => if c.kind b = .anchor then a.put c slot b else a) a) ⟨[], 0, 0, false⟩

/-- The address of a page of a region. -/
def StashCfg.addr (c : StashCfg) (lp : Bool) (page : Nat) : Nat := ((if lp then c.lpBase else c.hbmBase) + page) * 4096

/-- The address of the anchor entry of a micro-batch (R130). DEDUCED: log entry 49. -/
def StashCfg.anchorAddr (c : StashCfg) (m b : Nat) : Nat :=
  match c.layout.places.find? (fun p => p.slot == m % max 1 c.live && p.block == b) with
  | some p => c.addr p.lp p.page
  | none => 0

/-- The error code of a stash commit, 0 if it passes (R127): the lowest of the conditions that hold.
DESIGN CHOICE: log entry 110. -/
def State.stashCommitError (s : State) (c : StashCfg) : Nat :=
  if c.lpPages < c.layout.lp then 1
  else if (List.range c.blocks.length).any (fun b => c.kind b == .follower && (b == 0 || c.kind (b - 1) != .anchor)) then 2
  else if !s.inHbm (c.hbmBase * 4096) (c.hbmPages * 4096) || !s.inLp (c.lpBase * 4096) (c.lpPages * 4096) then 3
  else if c.enable && c.live == 0 then 4
  else 0

/-- Put a passed stash commit in force. -/
def State.applyStash (s : State) : State :=
  match s.sched.stash.waiting with
  | some l =>
    let s := l.foldl (fun s v => s.aset v.1 v.2) (s.setF .pipeStashStatus Fld.pipeStashStatusPending 0)
    { s with sched := { s.sched with stash := { s.sched.stash with waiting := none } } }
  | none => s

/-- A write of PIPE.STASH_COMMIT (R127): outside a step it takes effect at once, within one at the next step boundary. -/
def State.stashCommit (s : State) : State :=
  let e := s.stashCommitError (stashCfgOf s.rget)
  let s := s.setF .pipeStashStatus Fld.pipeStashStatusCommitError e
  if e ≠ 0 then s
  else
    let s := { s with sched := { s.sched with stash := { s.sched.stash with
      waiting := some (stashStaged.map (fun r => (r, s.rget r))) } } }
    if s.sched.run.isSome then s.setF .pipeStashStatus Fld.pipeStashStatusPending 1 else s.applyStash

/-- STASH_COMMIT (R127). -/
def execStashCommit (s : State) : Out := clocked 4 s (fun s => s.stashCommit)

/-! ## Entries (R129 to R136) -/

/-- Change the stash controller. -/
def State.modStash (s : State) (f : Stash → Stash) : State :=
  { s with sched := { s.sched with stash := f s.sched.stash } }

/-- The release index of a task of a step. -/
def StepRun.indexOf (x : StepRun) (t : Task) : Nat := (x.order.idxOf? t).getD x.order.length

/-- A task of the step has completed. -/
def StepRun.isDone (x : StepRun) (i : Nat) : Bool := ((x.tasks[i]?).map (fun t => t.phase == .done)).getD false

/-- Parts of a region in use, in pages: the anchor slots and the follower entries (R131). -/
def State.stashParts (s : State) (c : StashCfg) (lp : Bool) : List (Nat × Nat) :=
  (0, if lp then c.layout.lp else c.layout.hbm)
    :: ((s.sched.stash.entries.filter (fun e => e.lp == lp)).map (fun e => (e.page, e.pages)))

/-- The backward tasks that still read pages of a new entry (R135). -/
def State.readersOf (s : State) (x : StepRun) (e : StashEntry) : List Nat :=
  (s.sched.stash.freed.filter (fun f =>
    f.1.lp == e.lp && f.1.page < e.page + e.pages && e.page < f.1.page + f.1.pages && !x.isDone f.2)).map Prod.snd

/-- The follower that fits nowhere switches the stash to pair mode (R132, R133). -/
def State.pairSwitch (s : State) (x : StepRun) (t : Task) : State :=
  let r := Reg.pipeStashStatus
  let s := ((s.setF r Fld.pipeStashStatusMode 1).setF r Fld.pipeStashStatusSwitchMb t.mb).setF r Fld.pipeStashStatusSwitchBlock t.block
  let s := s.bumpF .pipeStashSwitches Fld.pipeStashSwitchesCount 1
  s.modStash (fun h => { h with journal := h.journal ++ [(⟨x.ring, x.idx, x.cookie⟩, 2 ^ 63 + t.mb % 2 ^ 31 * 2 ^ 32 + t.block)] })

/-- What the release of a forward task decides (R129 to R132): the stash argument and the tasks that hold its start.
DEDUCED, DESIGN CHOICE: log entries 49, 126. -/
def State.stashForward (s : State) (c : StashCfg) (x : StepRun) (t : Task) : State × Nat × List Nat :=
  match c.kind t.block with
  | .none => (s, 0, [])
  | .anchor =>
    let old := x.indexOf ⟨t.mb - c.live, t.block, true⟩
    (s, c.anchorAddr t.mb t.block, if c.live ≤ t.mb ∧ !x.isDone old then [old] else [])
  | .follower =>
    if s.rf .pipeStashStatus Fld.pipeStashStatusMode = 1 then (s, 0, [])
    else
      let n := c.pages t.block
      let place (lp : Bool) (page : Nat) : State × Nat × List Nat :=
        let e : StashEntry := ⟨t.mb, t.block, lp, page, n⟩
        (s.modStash (fun h => { h with entries := h.entries ++ [e] }), c.addr lp page, s.readersOf x e)
      match firstFit (s.stashParts c false) c.hbmPages n with
      | some page => place false page
      | none =>
        match firstFit (s.stashParts c true) c.lpPages n with
        | some page =>
          let (s, a, h) := place true page
          (s.bumpF .pipeStashSpills Fld.pipeStashSpillsCount 1, a, h)
        | none => (s.pairSwitch x t, 0, [])

/-- What the release of a backward task decides (R129, R136); `i` is its release index. DEDUCED: log entry 49. -/
def State.stashBackward (s : State) (c : StashCfg) (t : Task) (i : Nat) : State × Nat :=
  match c.kind t.block with
  | .none => (s, 0)
  | .anchor => (s, c.anchorAddr t.mb t.block)
  | .follower =>
    match popFirst (fun (e : StashEntry) => e.mb == t.mb && e.block == t.block) s.sched.stash.entries with
    | some (e, rest) => (s.modStash (fun h => { h with entries := rest, freed := h.freed ++ [(e, i)] }), c.addr e.lp e.page)
    | none => (s, c.anchorAddr t.mb (t.block - 1) + 1)

/-- The stash argument of a task at its release, and its holds (R129, R136). -/
def State.stashRelease (s : State) (x : StepRun) (t : Task) : State × Nat × List Nat :=
  let c := s.stashCfg
  if !c.enable then (s, 0, [])
  else if t.bwd then
    let (s, a) := s.stashBackward c t x.tasks.length
    (s, a, [])
  else s.stashForward c x t

/-- A step begins in normal mode with an empty stash, under the configuration that waited (R134). DESIGN CHOICE: log entry 126. -/
def State.stashBoundary (s : State) : State :=
  (s.applyStash.setF .pipeStashStatus Fld.pipeStashStatusMode 0).modStash (fun h => { h with entries := [], freed := [] })

/-- The oldest switch entry whose ring's journal has room is written to that journal, the ring's that posted its step (R133, R219).
DEDUCED: log entry 53. -/
def State.stashJournal (s : State) : State :=
  match popFirst (fun e : DescRef × Nat => s.journalRoom e.1.ring != 0) s.sched.stash.journal with
  | some ((d, units), rest) =>
    let s := s.writeJournal d.ring d.cookie units s.now stOk 0x10 true false d.idx
    let s := s.bumpF (.ringStats d.ring) Fld.ringStatsCompleted 1
    (s.modDesc d.ring d.idx (fun e => { e with stashDone := true })).modStash (fun h => { h with journal := rest })
  | none => s

/-- STASH_JOURNAL_ENTRY (R133). -/
def execStashJournalEntry (s : State) : Out := clocked 4 s (fun s => s.stashJournal)

end Sys2Proof.Machine
end

