-- ==== Sys2Proof/Machine/Contacts.lean ====
section
/-! DEFINITION. The contact grid as boundary scan sees it: which contacts have a cell, and the order of the cells (R424 to R428, R444). -/

namespace Sys2Proof.Machine

/-- What the boundary cell of a contact does: an output, an input, both, or the observe-only cell of a reference clock input (R444). -/
inductive CellKind where
  | output | input | both | observe
  deriving DecidableEq, Repr

/-- The cell at a column offset of a fabric port's rows (R426): one for each pair, at its P contact; the TX rows lie below the RX rows. -/
def fabricCell (o y : Nat) : Option CellKind :=
  if o % 3 = 1 ∧ o ≤ 10 then some (if (y - 12) % 4 < 2 then .output else .input) else none

/-- The cell at a column offset of an LPDDR5X channel's rows (R427): VSS and VDDQ_LP have none. DESIGN CHOICE: log entry 129. -/
def lpddrCell (o y : Nat) : Option CellKind :=
  match (y - 12) % 4 with
  | 1 => if o = 5 ∨ o = 8 then none else some (if o ≤ 2 then .both else .output)
  | 2 => if o = 6 ∨ 11 ≤ o then none else some (if 9 ≤ o then .both else .output)
  | _ => if o = 5 ∨ 11 ≤ o then none else some .both

/-- The cell of a contact of the PCI Express units (R426): lanes at their P contacts, the reference clocks, and RP_PERST_N. -/
def pcieCell (x y : Nat) : Option CellKind :=
  match y with
  | 2 => some .output
  | 6 => some .input
  | 9 =>
    if (x - 35) % 16 = 0 then some (if x = 35 then .observe else .output)
    else if (x - 35) % 16 = 2 ∧ x ≠ 37 then some .output
    else none
  | _ => none

/-- The cell of a low-speed contact (R428): TAP and reserved contacts have none. -/
def lowSpeedCell (x y : Nat) : Option CellKind :=
  if y = 148 ∧ x % 2 = 0 then (if x ≤ 102 then some .both else if x ≤ 108 then some .output else none)
  else if y = 144 ∧ x % 2 = 0 ∧ x ≤ 54 then some .output
  else if y = 146 then
    (if x = 40 ∨ x = 42 ∨ x = 44 ∨ x = 64 then some .input
     else if x = 60 ∨ x = 68 then some .output
     else if x = 70 then some .both
     else if x = 74 then some .observe
     else none)
  else none

/-- The boundary cell of the contact of a column and a row, if it has one (R425, R444). -/
def scanCell (x y : Nat) : Option CellKind :=
  if 12 ≤ y ∧ y ≤ 139 then
    if 1 ≤ x ∧ x ≤ 14 then fabricCell x y
    else if 15 ≤ x ∧ x ≤ 26 then lpddrCell (x - 14) y
    else if 125 ≤ x ∧ x ≤ 136 then lpddrCell (137 - x) y
    else if 137 ≤ x ∧ x ≤ 150 then fabricCell (151 - x) y
    else none
  else if y ≤ 9 then (if 35 ≤ x ∧ x ≤ 114 then pcieCell x y else none)
  else if 40 ≤ x ∧ x ≤ 115 then lowSpeedCell x y
  else none

/-- The contacts that have a boundary cell, by ascending X and then by ascending Y; the first is nearest TDO (R444). -/
def boundaryCells : List (Nat × Nat) :=
  (List.range 150).flatMap (fun x => (List.range 150).filterMap (fun y =>
    if (scanCell (x + 1) (y + 1)).isSome then some (x + 1, y + 1) else none))

/-- Cells of the boundary register (R444): 1,024 of the fabric, 160 of PCI Express lanes, 9 of its clocks and resets, 2,368 of LPDDR5X and 51
of the low-speed signals. -/
def boundaryLength : Nat := 1024 + 160 + 9 + 2368 + 51

/-- The place of a contact's cell in the boundary register. -/
def cellIndex (x y : Nat) : Nat := boundaryCells.findIdx (fun c => c == (x, y))

/-- The instruction that an 8-bit opcode selects; every other opcode acts as BYPASS (R444). -/
def tapInstr : Nat → TapInstr
  | 0x00 => .extest
  | 0x01 => .samplePreload
  | 0x02 => .idcode
  | 0x03 => .highz
  | 0x04 => .clamp
  | 0x05 => .extestPulse
  | 0x06 => .extestTrain
  | 0x10 => .devreset
  | 0x11 => .frzSel
  | 0x12 => .frzRead
  | 0x13 => .frzLen
  | _ => .bypass

end Sys2Proof.Machine
end

