-- ==== Sys2Proof/Machine/RedOps.lean ====
section
/-! DEFINITION. What the commands of a gradient reduction share: packets and credits (R142, R154, R155), fragments and sums (R151 to
R153), trailers (R159, R160), the governor (R115 to R117), and the ends of a bucket (R161, R162, R166). -/

namespace Sys2Proof.Machine

/-! ## Jobs and buckets -/

/-- Job `j`. -/
def State.job (s : State) (j : Nat) : Job := kget Job.reset s.jobs j
/-- Store job `j`. -/
def State.setJob (s : State) (j : Nat) (x : Job) : State := { s with jobs := nset Job.reset s.jobs j x }

/-- The open bucket of a sequence. -/
def State.bucket? (s : State) (j seq : Nat) : Option Bucket := (s.job j).buckets.find? (fun b => b.seq == seq)

/-- Change the open bucket of a sequence. -/
def State.modBucket (s : State) (j seq : Nat) (f : Bucket → Bucket) : State :=
  let x := s.job j
  s.setJob j { x with buckets := modifyFirst (fun b => b.seq == seq) f x.buckets }

/-- The bucket runs: it has neither ended nor finished. -/
def Bucket.live (b : Bucket) : Bool := b.ended.isNone && b.handing.isNone

/-- The bucket's engine as a requester in a record (R394). DEDUCED: log entry 90. -/
def Bucket.who (b : Bucket) (j : Nat) : Who := ⟨Kind.reduction, j, 1, some ⟨b.ring, b.idx, b.cookie⟩⟩

/-- The owner of what a bucket reads and writes: its descriptor, which completes after the writes (R161, R217). -/
def Bucket.owner (b : Bucket) : Owner := .desc b.ring b.idx

/-- Job `j` is broken (R167). -/
def State.jobBroken (s : State) (j : Nat) : Bool := s.rf (.redJobStatus j) Fld.redJobStatusBroken == 1

/-- The sum slot of a sequence (R145, R147): one of `open` equal parts of the sum area. DEDUCED: log entry 38. -/
def Binding.slot (b : Binding) (seq : Nat) : Nat := b.sumBase + seq % b.openMax * (b.sumSize / b.openMax)

/-! ## Fragments (R153) -/

/-- The elements of a fragment before the bucket's end cuts it. -/
def Binding.fragSize (b : Binding) (n : Nat) : Nat := 56 * (((n + b.p - 1) / b.p + 55) / 56)
/-- The first element of fragment `f`. DEDUCED: log entry 38. -/
def Binding.fragLo (b : Binding) (n f : Nat) : Nat := f * b.fragSize n
/-- The elements of fragment `f`. -/
def Binding.fragLen (b : Binding) (n f : Nat) : Nat := min ((f + 1) * b.fragSize n) n - f * b.fragSize n
/-- The packets of fragment `f`. -/
def Binding.fragPackets (b : Binding) (n f : Nat) : Nat := (b.fragLen n f + 55) / 56
/-- The fragment that this device checks (R153). -/
def Binding.checkFrag (b : Binding) : Nat := (b.rank + b.p - 1) % b.p

/-- Lanes by packets: offset and up to 56 lanes. -/
def laneChunks : Nat → Nat → List Int → List (Nat × List Int)
  | 0, _, _ => []
  | n + 1, off, l => if l.isEmpty then [] else (off, l.take 56) :: laneChunks n (off + 56) (l.drop 56)

/-- Lanes as bytes. -/
def laneBytes (l : List Int) : List Byte := l.flatMap (fun x => leBytes 4 (x % 2 ^ 32).toNat)

/-- INT32 values of bytes. -/
def laneValues : Nat → List Byte → List Int
  | 0, _ => []
  | n + 1, l => sgn 32 (leNat (l.take 4)) :: laneValues n (l.drop 4)

/-! ## Packets (R154) -/

/-! The kinds of R154. -/
namespace RK
abbrev scale := 1
abbrev scaleResult := 2
abbrev contrib := 3
abbrev check := 4
abbrev result := 5
abbrev trailer := 6
abbrev total := 7
abbrev credit := 8
abbrev abort := 9
end RK

/-- A header field of a reduction packet. -/
def Pkt.redField (k : Pkt) (i n : Nat) : Nat := leNat ((k.payload.drop i).take n)
/-- job. -/
def Pkt.redJob (k : Pkt) : Nat := k.redField 0 1
/-- kind. -/
def Pkt.redKind (k : Pkt) : Nat := k.redField 1 1 % 16
/-- path 1, the check path. -/
def Pkt.redPath (k : Pkt) : Bool := (k.redField 1 1).testBit 4
/-- src_rank. -/
def Pkt.redSrc (k : Pkt) : Nat := k.redField 2 2 % 4096
/-- frag. -/
def Pkt.redFrag (k : Pkt) : Nat := k.redField 4 2 % 4096
/-- lanes. -/
def Pkt.redLanes (k : Pkt) : Nat := min 56 (k.redField 6 1)
/-- epoch. -/
def Pkt.redEpoch (k : Pkt) : Nat := k.redField 7 1
/-- sequence. -/
def Pkt.redSeq (k : Pkt) : Nat := k.redField 8 4
/-- step. -/
def Pkt.redStep (k : Pkt) : Nat := k.redField 12 4
/-- bucket_index. -/
def Pkt.redIndex (k : Pkt) : Nat := k.redField 16 2
/-- offset. -/
def Pkt.redOffset (k : Pkt) : Nat := k.redField 20 4
/-- credits returned. -/
def Pkt.redCredits (k : Pkt) : Nat := k.redField 24 4
/-- The 224 B after the header. -/
def Pkt.redBody (k : Pkt) : List Byte := k.payload.drop 32
/-- The lanes of a CONTRIB, CHECK or RESULT packet. -/
def Pkt.redValues (k : Pkt) : List Int := laneValues k.redLanes k.redBody

/-- A reduction packet (R154). -/
def State.redPkt (s : State) (dst j kind : Nat) (path : Bool) (src frag lanes epoch seq step index offset credits : Nat)
    (body : List Byte) : Pkt :=
  { vc := VC.red, hop := 0, typ := PT.red, dst := dst, src := s.devId, path := path, gen := 0, tag := 0, off := 0
    payload := leBytes 1 j ++ leBytes 1 (kind + if path then 16 else 0) ++ leBytes 2 src ++ leBytes 2 frag ++ leBytes 1 lanes
      ++ leBytes 1 epoch ++ leBytes 4 seq ++ leBytes 4 step ++ leBytes 2 index ++ leBytes 2 0 ++ leBytes 4 offset
      ++ leBytes 4 credits ++ leBytes 4 0 ++ body ++ List.replicate (224 - body.length) 0 }

/-- A packet of a bucket to a rank. -/
def State.bucketPkt (s : State) (g : Binding) (j : Nat) (b : Bucket) (rank kind : Nat) (path : Bool) (frag lanes offset : Nat)
    (body : List Byte) : Pkt :=
  s.redPkt (g.members.getD rank 0) j kind path g.rank frag lanes g.epoch b.seq b.op.step b.op.index offset 0 body

/-- The payload of SCALE and SCALE_RESULT: E, n and flags. -/
def scaleBody (e : Int) (n flags : Nat) : List Byte := leBytes 4 (e % 2 ^ 32).toNat ++ leBytes 8 n ++ leBytes 1 flags

/-! ## Credits (R142) -/

/-- The key of a member and path in the table of used credits. -/
def redKey (rank : Nat) (path : Bool) : Nat := 2 * rank + (if path then 1 else 0)

/-- Send one waiting packet if the sender holds a credit for it, else keep it. A packet that is discarded as unroutable takes none.
DEDUCED: log entry 35. -/
def State.trySend (s : State) (j window : Nat) (e : Nat × Pkt) : State :=
  let x := s.job j
  let key := redKey e.1 e.2.path
  if kget 0 x.used key < window then
    match s.sendPkt Who.noOne e.2 with
    | (s, true) =>
      let x := s.job j
      s.setJob j { x with used := nset 0 x.used key (kget 0 x.used key + 1) }
    | (s, false) => s
  else s.setJob j { x with outQ := x.outQ ++ [e] }

/-- Send what the credits of a job allow, in order per member and path. DEDUCED: log entry 35. -/
def State.pumpJob (s : State) (j : Nat) : State :=
  let x := s.job j
  match x.binding with
  | some g => x.outQ.foldl (fun s e => s.trySend j g.window e) (s.setJob j { x with outQ := [] })
  | none => s

/-- Queue packets to members and send what can be sent. -/
def State.sendRed (s : State) (j : Nat) (l : List (Nat × Pkt)) : State :=
  let x := s.job j
  (s.setJob j { x with outQ := x.outQ ++ l }).pumpJob j

/-- Return the credit of a packet to its sender (R142); a CREDIT packet takes none. DEDUCED: log entry 35. -/
def State.creditBack (s : State) (k : Pkt) : State :=
  if k.redKind = RK.credit then s
  else
    let rank := ((s.job k.redJob).binding.map (fun g => g.rank)).getD 0
    (s.sendPkt Who.noOne (s.redPkt k.src k.redJob RK.credit k.redPath rank 0 0 k.redEpoch 0 0 0 0 1 [])).1

/-- Discard a packet of an unbound or broken job or of another epoch (R142). DEDUCED: log entry 36. -/
def State.discardRed (s : State) (k : Pkt) : State := (s.bumpF .redDiscarded Fld.redDiscardedCount 1).creditBack k

/-! ## Memory -/

/-- A read that ends at once: bytes, or nothing where it is refused or meets an uncorrectable error.
DESIGN CHOICE: log entry 112. -/
def State.readNow (s : State) (w : Who) (o : Owner) (a n : Nat) : State × Option (List Byte) :=
  match s.readRange w o a n with
  | (s, .bytes l) => (s, some l)
  | (s, _) => (s, none)

/-- The sums from element `lo` of a slot on. -/
def State.readSums (s : State) (j : Nat) (b : Bucket) (base lo n : Nat) : State × Option (List Int) :=
  match s.readNow (b.who j) b.owner (base + 4 * lo) (4 * n) with
  | (s, some l) => (s, some (laneValues n l))
  | (s, none) => (s, none)

/-- Write sums from element `lo` of a slot on. -/
def State.writeSums (s : State) (j : Nat) (b : Bucket) (base lo : Nat) (l : List Int) : State × Bool :=
  s.writeRange (b.who j) b.owner VC.req (base + 4 * lo) (laneBytes l)

/-- A reduction port reads sums, adds lanes as INT32, and writes the sums back (R156). -/
def State.addLanes (s : State) (j : Nat) (b : Bucket) (base lo : Nat) (l : List Int) : State × Bool :=
  match s.readSums j b base lo l.length with
  | (s, some old) => s.writeSums j b base lo (List.zipWith (· + ·) old l)
  | (s, none) => (s, false)

/-! ## Slot data and conversion (R144, R149, R151) -/

/-- What a read of the slot data gives. -/
inductive SlotData where
  | vals (l : List Num)
  | fail
  | wait
  deriving DecidableEq, Repr

/-- Elements of `w` bytes. -/
def elemsOf (w : Nat) : Nat → List Byte → List Nat
  | 0, _ => []
  | n + 1, l => leNat (l.take w) :: elemsOf w n (l.drop w)

/-- The bytes of a segment's data: its elements, and the scales of an MX segment. -/
def Segment.size (g : Segment) : Nat := g.count * (elemBits g.fmt / 8) + (if isMx g.fmt then g.count / 32 else 0)

/-- The values of a segment from its bytes (R96, R97). -/
def Segment.values (g : Segment) (l : List Byte) : List Num :=
  let e := (elemsOf (elemBits g.fmt / 8) g.count l).map (decodeElem g.fmt)
  if isMx g.fmt then
    let sc := (l.drop g.count).map (fun b => b.toNat)
    e.zipIdx.map (fun x => mxValue (sc.getD (x.2 / 32) 0) x.1)
  else e

/-- Read the values of a bucket. -/
def State.readSlots (s : State) (j : Nat) (b : Bucket) : State × SlotData :=
  b.op.segments.foldl (fun acc g =>
    match acc.2 with
    | .vals v =>
      match acc.1.readRange (b.who j) b.owner (b.op.buffer + g.offset) g.size with
      | (s, .bytes l) => (s, .vals (v ++ g.values l))
      | (s, .fail) => (s, .fail)
      | (s, .wait) => (s, .wait)
    | _ => acc) (s, .vals [])

/-- The exponent word of a bucket that holds no non-zero finite element (R149). -/
def noExp : Int := -(2 ^ 31)

/-- The exponent word and the non-finite count of a bucket (R149). -/
def scanValues (l : List Num) : Int × Nat :=
  (l.foldl (fun e v => match v with | .fin _ m x => if m = 0 then e else Max.max e (floorLog2 m x) | _ => e) noExp,
   l.countP (fun v => !v.isFin))

/-- ceil(log2(P)) (R150). -/
def ceilLog2 (p : Nat) : Nat := if p ≤ 1 then 0 else Nat.log2 (p - 1) + 1

/-- k (R151); 0 for an empty bucket. -/
def redScale (p : Nat) (e : Int) : Int := if e = noExp then 0 else 30 - (ceilLog2 p : Int) - e

/-- The INT32 value of an element, and whether it was flushed to zero (R151). -/
def toInt (p : Nat) (e : Int) (v : Num) : Int × Bool :=
  match v with
  | .fin neg m x =>
    let r := roundAt 0 0 neg m (x + redScale p e) 0
    let hi := 2 ^ (31 - ceilLog2 p) - 1
    let q : Int := if neg then -(min r hi : Nat) else (min r hi : Nat)
    (q, q == 0 && m != 0)
  | _ => (0, false)

/-- The FP32 value of S × 2^−k, rounded to nearest even (R161, R172). -/
def sumFp32 (v k : Int) : Nat := fp32.result 0 (Num.ofInt false v (-k))

/-! ## Trailers (R159, R160) -/

/-- Trailer packets of a bucket: 1 at least. -/
def trailerCount (layers : Nat) : Nat := max 1 ((layers + 4) / 5)

/-- The payload of a trailer packet. -/
def Trailer.bytes (t : Trailer) : List Byte :=
  leBytes 8 t.nonfinite ++ leBytes 8 t.flushed ++ leBytes 2 t.recs.length ++ leBytes 6 0
    ++ t.recs.flatMap (fun r => leBytes 4 r.1.layer ++ leBytes 4 r.1.tensor ++ leBytes 8 r.2.elements ++ leBytes 8 r.2.zeros
      ++ leBytes 8 r.2.saturations ++ leBytes 8 r.2.nonfinite)

/-- Read a trailer payload. -/
def trailerOf (l : List Byte) : Trailer :=
  let f (i n : Nat) : Nat := leNat ((l.drop i).take n)
  { nonfinite := f 0 8, flushed := f 8 8
    recs := (List.range (min 5 (f 16 2))).map (fun u =>
      let o := 24 + 40 * u
      (⟨f o 4, f (o + 4) 4⟩, ⟨f (o + 8) 8, f (o + 16) 8, f (o + 24) 8, f (o + 32) 8⟩)) }

/-- Field by field addition, saturating. DEDUCED: log entry 42. -/
def Totals.add (a b : Totals) : Totals :=
  ⟨satAdd 64 a.elements b.elements, satAdd 64 a.zeros b.zeros, satAdd 64 a.saturations b.saturations,
   satAdd 64 a.nonfinite b.nonfinite⟩

/-- The sum of two trailer packets of one index; the records are those of the first. -/
def Trailer.add (a b : Trailer) : Trailer :=
  { nonfinite := satAdd 64 a.nonfinite b.nonfinite, flushed := satAdd 64 a.flushed b.flushed
    recs := a.recs.zipIdx.map (fun r => (r.1.1, ((b.recs[r.2]?).map (fun x => Totals.add r.1.2 x.2)).getD r.1.2)) }

/-- The trailer packets of this participant. -/
def Bucket.ownTrailers (b : Bucket) : List Trailer :=
  let recs := b.op.layers.zip b.health
  (List.range (trailerCount b.op.layers.length)).map (fun t =>
    { nonfinite := if t = 0 then (b.scan.map Prod.snd).getD 0 else 0, flushed := if t = 0 then b.flushed else 0
      recs := (recs.drop (5 * t)).take 5 })

/-- The trailer packets of one path, by rank and index. -/
def Bucket.trailersOn (b : Bucket) (path : Bool) : List (Nat × Nat × Trailer) :=
  (b.trailers.filter (fun x => x.1 == path)).map Prod.snd

/-- Every trailer packet of a path has come. -/
def Bucket.trailersFull (b : Bucket) (p : Nat) (path : Bool) : Bool :=
  (b.trailersOn path).length == p * trailerCount b.op.layers.length

/-- The totals of a path: packet `t` of rank 0 first, then the others added in ascending rank. -/
def Bucket.sumTrailers (b : Bucket) (p : Nat) (path : Bool) : List (Nat × Trailer) :=
  let l := b.trailersOn path
  (List.range (trailerCount b.op.layers.length)).map (fun t =>
    let of (r : Nat) : Option Trailer := (l.find? (fun x => x.1 == r && x.2.1 == t)).map (fun x => x.2.2)
    (t, (List.range' 1 (p - 1)).foldl (fun a r => match of r with | some x => a.add x | none => a)
      ((of 0).getD ⟨0, 0, []⟩)))

/-! ## The governor (R115 to R117) -/

/-- The format codes of the ladder. -/
def govFormat (level : Nat) : Nat := [3, 4, 10, 1].getD level 1

/-- The thresholds of R116. -/
structure GovThresh where
  upZero : Nat
  upSat : Nat
  downZero : Nat
  downSat : Nat
  hold : Nat
  deriving DecidableEq, Repr

/-- The thresholds in force. -/
def State.govThresh (s : State) : GovThresh :=
  let f (x : Fld) : Nat := s.af .redGovThresh x
  ⟨f Fld.redGovThreshUpZero, f Fld.redGovThreshUpSat, f Fld.redGovThreshDownZero, f Fld.redGovThreshDownSat,
   f Fld.redGovThreshHold⟩

/-- An updated governor record (R116): its first 16 bytes, and the index and bytes of the entry written. -/
def govUpdate (th : GovThresh) (rec : List Byte) (t : Totals) (step : Nat) : List Byte × Nat × List Byte :=
  let b (i : Nat) : Nat := (rec.getD i 0).toNat
  let head := b 4 % 16
  let entry := leBytes 8 t.elements ++ leBytes 8 t.zeros ++ leBytes 8 t.saturations ++ leBytes 8 t.nonfinite
  let valid := min (min (b 3) 16 + 1) 16
  let at_ (h : Nat) : List Byte := if h = head then entry else (rec.drop (64 + 32 * h)).take 32
  let es := (List.range valid).map (fun i => at_ ((head + 16 - i) % 16))
  let f (i : Nat) (e : List Byte) : Nat := leNat ((e.drop (8 * i)).take 8)
  let se := (es.map (f 0)).sum
  let sz := (es.map (f 1)).sum
  let sb := (es.map (fun e => f 2 e + f 3 e)).sum
  let floor := min (b 5) 3
  let ceiling := max floor (min (b 6) 3)
  let level := b 1
  let held := b 2
  let up := 0 < se && (se < sz * 2 ^ th.upZero || se < sb * 2 ^ th.upSat)
  let down := 0 < se && sz * 2 ^ th.downZero ≤ se && sb * 2 ^ th.downSat ≤ se && th.hold ≤ held
  let (level, held) :=
    if up && level < ceiling then (level + 1, 0)
    else if down && floor < level then (level - 1, 0)
    else (level, min (held + 1) 255)
  let level := min (max level floor) ceiling
  (leBytes 1 (govFormat level) ++ leBytes 1 level ++ leBytes 1 held ++ leBytes 1 valid ++ leBytes 1 ((head + 1) % 16)
     ++ (rec.drop 5).take 3 ++ leBytes 8 step, head, entry)

/-- The governor takes the totals of a layer (R116, R117); false where its record cannot be read or written.
DESIGN CHOICE: log entry 111. -/
def State.govern (s : State) (w : Who) (o : Owner) (layer : Nat) (t : Totals) (step : Nat) : State × Bool :=
  if s.af .redGovCtrl Fld.redGovCtrlEnable = 0 then (s, true)
  else if min (s.af .redGovCtrl Fld.redGovCtrlLayers) 4096 ≤ layer then
    (s.bumpF .redGovStatus Fld.redGovStatusOutOfRange 1, true)
  else
    let a := s.af .redGovBase Fld.redGovBaseBase * 1024 + 1024 * layer
    match s.readNow w o a 576 with
    | (s, none) => (s, false)
    | (s, some rec) =>
      let (hd, h, entry) := govUpdate s.govThresh rec t step
      match s.writeRange w o VC.req a hd with
      | (s, false) => (s, false)
      | (s, true) =>
        match s.writeRange w o VC.req (a + 64 + 32 * h) entry with
        | (s, ok) => (if ok then s.bumpF .redGovStatus Fld.redGovStatusUpdates 1 else s, ok)

/-! ## The ends of a bucket (R161, R162, R166) -/

/-- The bucket summary (R161), and whether it was written. The manual states no E and k of a bucket whose scale round has not ended, and
no totals of one whose totals have not come: these fields are free. DEDUCED: log entry 42. -/
def State.writeSummary (s : State) (j : Nat) (g : Binding) (b : Bucket) (status : Nat) : State × Bool :=
  let (s, e, k) : State × Nat × Nat := match b.agreed with
    | some (e, _) => (s, (e % 2 ^ 32).toNat, (redScale g.p e % 2 ^ 32).toNat)
    | none => let (s, e) := s.free 32; let (s, k) := s.free 32; (s, e, k)
  let (s, nf, fl) : State × Nat × Nat := match b.totals.find? (fun x => x.1 == 0) with
    | some x => (s, x.2.nonfinite, x.2.flushed)
    | none => let (s, a) := s.free 64; let (s, c) := s.free 64; (s, a, c)
  let checked := match b.agreed with | some (_, true) => 1 | _ => 0
  s.writeRange (b.who j) b.owner VC.req b.op.summary
    (leBytes 4 e ++ leBytes 4 k ++ leBytes 8 nf ++ leBytes 8 fl ++ leBytes 2 g.p ++ leBytes 1 checked ++ leBytes 1 status
      ++ leBytes 4 b.seq ++ leBytes 4 b.op.step ++ leBytes 2 b.op.index ++ List.replicate 26 0)

/-- The bucket of mode 2 that has ended unfinished is shown to the state engine as invalid, in its turn (R162, R166). -/
def State.invalidNotice (s : State) (j : Nat) (b : Bucket) : State :=
  if b.op.mode ≠ 2 then s
  else
    let h : Handoff :=
      { job := j, seq := b.seq, step := b.op.step, bucket := b.op.index, k := 0, n := 0, slot := 0, totals := []
        desc := ⟨b.ring, b.idx, b.cookie⟩, pos := 0, invalid := true, held := s.engine.waiting.isSome }
    { s with engine := { s.engine with handoffs := s.engine.handoffs ++ [h] } }

/-- A bucket leaves the job: its descriptor ends, with ABORTED_FAULT where another device has refused a write of it (R306).
DEDUCED: log entry 41. -/
def State.removeBucket (s : State) (j : Nat) (b : Bucket) (status units : Nat) : State :=
  let x := s.job j
  let rest := x.buckets.filter (fun y => y.seq != b.seq)
  let s := (s.setJob j { x with buckets := rest }).setF (.redJobStatus j) Fld.redJobStatusOpen rest.length
  let s := s.dropFetched b.owner
  let bad := match s.desc? b.ring b.idx with | some d => d.failAt.isSome | none => false
  s.endDesc b.ring b.idx (if bad then stAborted else status) (if bad then 0 else units)

/-- Buckets that have ended complete in ascending sequence (R162). -/
def State.settleJob (s : State) (j : Nat) (g : Binding) : Nat → State
  | 0 => s
  | n + 1 =>
    match (s.job j).buckets with
    | b :: _ =>
      match b.ended with
      | some st => (((s.writeSummary j g b st).1.invalidNotice j b).removeBucket j b st 0).settleJob j g n
      | none => s
    | [] => s

/-- A packet of an ended bucket that is still sent: ABORT, and the SCALE_RESULT that tells the others (R150, R166). -/
def Pkt.lasts (k : Pkt) : Bool := k.redKind == RK.abort || k.redKind == RK.scaleResult

/-- A bucket that does not finish ends with a status and, of some causes, a record (R166): the credits it holds go back, and what it
has not sent is dropped but for what tells the other members of the end. -/
def State.endBucket (s : State) (j seq status : Nat) (cls : Option Nat) : State :=
  match s.bucket? j seq, (s.job j).binding with
  | some b, some g =>
    if !b.live then s
    else
      let s := match cls with
        | some c => s.report { mkRec c 1 Kind.reduction j with desc := some ⟨b.ring, b.idx, b.cookie⟩ }
        | none => s
      let (waits, others) := (s.job j).atPort.partition (fun h => h.pkt.redSeq == seq)
      let s := (b.held ++ waits).foldl (fun s h => s.creditBack h.pkt) s
      let s := s.modBucket j seq (fun b => { b with ended := some status, held := [], toConvert := [], toCheck := [] })
      let x := s.job j
      let s := s.setJob j { x with outQ := x.outQ.filter (fun e => e.2.redSeq != seq || e.2.lasts), atPort := others }
      s.settleJob j g (s.job j).buckets.length
  | _, _ => s

/-- Send ABORT with a reason to every other member, as credits allow (R142). -/
def State.sendAbort (s : State) (j : Nat) (g : Binding) (b : Bucket) (reason : Nat) : State :=
  s.sendRed j (((List.range g.p).filter (· != g.rank)).map (fun r =>
    (r, s.bucketPkt g j b r RK.abort false 0 0 0 (leBytes 1 reason))))

/-- The status and record class of an ABORT's reason (R166); a reason that R166 does not list counts as reason 1.
DESIGN CHOICE: log entry 123. -/
def abortEnd (reason : Nat) : Nat × Option Nat :=
  if reason = 2 then (stMismatch, none) else if reason = 3 then (stAborted, none) else (stAborted, some Cls.redConfig)

/-- This participant aborts a bucket: ABORT to every member, and its own end. -/
def State.redAbort (s : State) (j seq reason : Nat) : State :=
  match s.bucket? j seq, (s.job j).binding with
  | some b, some g =>
    if !b.live then s else (s.sendAbort j g b reason).endBucket j seq (abortEnd reason).1 (abortEnd reason).2
  | _, _ => s

/-- A differing lane or total (R165): the record, the count, and ABORT with reason 2. DEDUCED: log entry 40. -/
def State.redMismatch (s : State) (j seq frag off : Nat) : State :=
  match s.bucket? j seq with
  | some b =>
    ((s.bumpF .redMismatch Fld.redMismatchCount 1).report
      { mkRec Cls.redCheck 1 Kind.reduction j with
        desc := some ⟨b.ring, b.idx, b.cookie⟩, detail0 := BitVec.ofNat 64 (j + seq * 2 ^ 32)
        detail1 := BitVec.ofNat 48 (frag + off * 2 ^ 16) }).redAbort j seq 2
  | none => s

/-- A finished bucket completes, and so do ended ones behind it (R161, R162). -/
def State.completeBucket (s : State) (j seq : Nat) (status : Nat) : State :=
  match s.bucket? j seq, (s.job j).binding with
  | some b, some g =>
    let s := s.removeBucket j b status b.op.n
    s.settleJob j g (s.job j).buckets.length
  | _, _ => s

end Sys2Proof.Machine
end

