-- ==== Sys2Proof/Machine/Red.lean ====
section
/-! DEFINITION. The commands of gradient reduction: binding (R140 to R142), the course of a bucket (R146 to R166), and the governor's
commit (R11). -/

namespace Sys2Proof.Machine

/-! ## Binding (R140 to R142) -/

/-- The set bits of a byte string, ascending. -/
def bitList (l : List Byte) : List Nat := (List.range (8 * l.length)).filter (fun t => (l.getD (t / 8) 0).getLsbD (t % 8))

/-- The binding that a job block states, from its 256 B and its member bytes. -/
def bindingOf (l m : List Byte) : Binding :=
  let f (i n : Nat) : Nat := leNat ((l.drop i).take n)
  { p := f 0 2, rank := f 2 2, window := f 4 1, openMax := f 5 1, sampleShift := if f 6 1 < 32 then f 6 1 else 255, epoch := f 7 1
    timeout := if f 8 4 = 0 then 100000 else f 8 4, earlyBase := f 16 8, earlySize := f 24 8, sumBase := f 32 8, sumSize := f 40 8
    redTiles := (bitList ((l.drop 48).take 48)), healthTiles := bitList ((l.drop 96).take 48)
    members := (elemsOf 2 (f 0 2) m).map (fun x => x % 4096) }

/-- A region of a job block is 4 KiB aligned and lies in a window (R141, R473). -/
def State.jobRegion (s : State) (base size : Nat) : Bool := base % 4096 == 0 && size % 4096 == 0 && s.inWindow base size

/-- The first bind error of a job block that could be read, 0 if it passes (R141). DEDUCED: log entry 39. -/
def State.bindError (s : State) (g : Binding) : Nat :=
  if g.p = 0 ∨ 4096 < g.p ∨ g.p ≤ g.rank then 1
  else if !s.idValid || g.members.getD g.rank 0 != s.devId || !g.members.Nodup then 2
  else if g.window = 0 ∨ g.openMax = 0 ∨ 4 < g.openMax then 3
  else if g.earlySize < 2 * (g.p - 1) * g.window * 256 then 4
  else if !s.jobRegion g.earlyBase g.earlySize || !s.jobRegion g.sumBase g.sumSize then 5
  else if g.redTiles.isEmpty then 6
  else 0

/-- Read a job block: the binding, or nothing where a read is refused or meets an uncorrectable error (R141).
DEDUCED: log entry 39. -/
def State.readJobBlock (s : State) (j a : Nat) : State × Option Binding :=
  let w : Who := ⟨Kind.reduction, j, 0, none⟩
  match s.readNow w (.job j) a 256 with
  | (s, none) => (s, none)
  | (s, some l) =>
    let p := leNat (l.take 2)
    if p = 0 ∨ 4096 < p then (s, some (bindingOf l []))
    else match s.readNow w (.job j) (a + 256) (2 * p) with
      | (s, some m) => (s, some (bindingOf l m))
      | (s, none) => (s, none)

/-- Show the outcome of a commit (R141). -/
def State.setBindError (s : State) (j code : Nat) : State := s.setF (.redJobStatus j) Fld.redJobStatusBindError code

/-- A passing bind (R141, R142): next sequence 0, broken cleared, full credits, an empty early store. -/
def State.bindJob (s : State) (j : Nat) (g : Binding) : State :=
  let r := Reg.redJobStatus j
  let s := (((s.commitReg (.redJobCfg j)).rset r 0).setF r Fld.redJobStatusBound 1).setF r Fld.redJobStatusEpoch g.epoch
  (s.rset (.redJobEarly j) 0).setJob j { Job.reset with binding := some g }

/-- A passing commit with valid = 0 (R141): the job is unbound, and bind_error, the next sequence and broken are 0. -/
def State.unbindJob (s : State) (j : Nat) : State :=
  let r := Reg.redJobStatus j
  (((s.commitReg (.redJobCfg j)).rset r 0).setF (.redJobEarly j) Fld.redJobEarlyStored 0).setJob j Job.reset

/-- A write of RED.JOB_COMMIT (R141). DEDUCED: log entry 39. -/
def State.jobCommit (s : State) (j : Nat) : State :=
  if !(s.job j).buckets.isEmpty then s.setBindError j 7
  else if s.rf (.redJobCfg j) Fld.redJobCfgValid = 0 then s.unbindJob j
  else
    match s.readJobBlock j (s.rf (.redJobCfg j) Fld.redJobCfgBlock * 64) with
    | (s, none) => s.setBindError j 8
    | (s, some g) =>
      let e := s.bindError g
      if e ≠ 0 then s.setBindError j e else s.bindJob j g

/-- JOB_COMMIT (R141). -/
def execJobCommit (j : JobId) (s : State) : Out := clocked 4 s (fun s => s.jobCommit j)

/-- RED.GOV_COMMIT with commit = 1 (R11). -/
def State.govCommit (s : State) : State := ((s.commitReg .redGovBase).commitReg .redGovCtrl).commitReg .redGovThresh

/-- GOV_COMMIT applies the staged governor fields together (R11). -/
def execGovCommit (s : State) : Out := clocked 4 s (fun s => s.govCommit)

/-! ## Progress of a bucket (R148, R164) -/

/-- Contributions that a fragment receives (R151, R156): a packet of each participant, none where every element is zero. -/
def Binding.expected (g : Binding) (b : Bucket) (f : Nat) : Nat :=
  match b.agreed with
  | some (e, _) => if e = noExp then 0 else g.p * g.fragPackets b.op.n f
  | none => 0

/-- The address of a bucket's check sums (R164): its sum slot, or with P = 1 the check area behind the sums.
DEDUCED: log entry 38. -/
def Binding.checkBase (g : Binding) (b : Bucket) : Nat := g.slot b.seq + (if g.p = 1 then 4 * b.op.n else 0)

/-- The owner's fragment holds every contribution (R156). -/
def Binding.summed (g : Binding) (b : Bucket) : Bool := g.expected b g.rank ≤ b.added

/-- The checker sends its sums to the owner as CHECK packets once it holds every contribution (R164). -/
def State.stepCheck (s : State) (j : Nat) (g : Binding) (b : Bucket) : State :=
  let f := g.checkFrag
  if b.sentCheck || b.checkAdded < g.expected b f then s
  else
    let s := s.modBucket j b.seq (fun b => { b with sentCheck := true })
    if g.p = 1 then s
    else
      match s.readSums j b (g.checkBase b) (g.fragLo b.op.n f) (g.fragLen b.op.n f) with
      | (s, none) => s.redAbort j b.seq 3
      | (s, some l) =>
        s.sendRed j ((laneChunks l.length 0 l).map (fun c =>
          (f, s.bucketPkt g j b f RK.check true f c.2.length c.1 (laneBytes c.2))))

/-- The first lane in which two lists of sums differ. -/
def firstDiff (a b : List Int) : Option Nat := (List.range a.length).find? (fun i => a.getD i 0 != b.getD i 0)

/-- The tile whose port handles packet `q` of a fragment (R156). -/
def Binding.portOf (g : Binding) (q : Nat) : Nat := g.redTiles.getD (q % max 1 g.redTiles.length) 384

/-- The tiles whose ports handle the packets of a bucket of `n` elements (R156, R157): fragment 0 has the most.
DEDUCED: log entry 42. -/
def Binding.ports (g : Binding) (n : Nat) : List Nat := g.redTiles.take (g.fragPackets n 0)

/-- A reduction tile of a job is in reset, so its port holds its packets (R158, R378). -/
def State.tileInReset (s : State) (t : Nat) : Bool := s.rf (.rstUnit t) Fld.rstUnitState == 2

/-- An uncorrectable word of a port's buffers ends its bucket (R158, R166): its record names the tile; R397 has no code for that store.
DESIGN CHOICE: log entry 113. -/
def State.portError (s : State) (j : Nat) (g : Binding) (b : Bucket) (k : Pkt) : State :=
  let (s, store) := s.free 3
  let t := g.portOf (k.redOffset / 56)
  ((s.sramUe t (sramRec t (b.who j) store 0 0 0 0 ((s.tile t).pc.toNat % 65536))).creditBack k).redAbort j b.seq 3

/-- The owner compares one CHECK packet with its own sums and returns its credit (R164). DESIGN CHOICE: log entry 113. -/
def State.compareOne (s : State) (j : Nat) (g : Binding) (seq : Nat) (h : HeldRed) : State :=
  let k := h.pkt
  match s.bucket? j seq with
  | none => s.creditBack k
  | some b =>
    if !b.live then s.creditBack k
    else if h.ue then s.portError j g b k
    else
      let l := k.redValues
      match s.readSums j b (g.slot seq) (g.fragLo b.op.n g.rank + k.redOffset) l.length with
      | (s, none) => (s.creditBack k).redAbort j seq 3
      | (s, some own) =>
        let s := s.creditBack k
        match firstDiff l own with
        | some i => (s.bumpF .redChecked Fld.redCheckedCount 1).redMismatch j seq g.rank (k.redOffset + i)
        | none => s.modBucket j seq (fun b => { b with compared := b.compared + 1 })

/-- Rank 0 of a job of one participant compares its two areas lane by lane (R164). -/
def State.compareAlone (s : State) (j : Nat) (g : Binding) (b : Bucket) : State :=
  match s.readSums j b (g.slot b.seq) 0 b.op.n with
  | (s, none) => s.redAbort j b.seq 3
  | (s, some own) =>
    match s.readSums j b (g.checkBase b) 0 b.op.n with
    | (s, none) => s.redAbort j b.seq 3
    | (s, some chk) =>
      match firstDiff own chk with
      | some i => (s.bumpF .redChecked Fld.redCheckedCount 1).redMismatch j b.seq 0 i
      | none => s.modBucket j b.seq (fun b => { b with compared := g.fragPackets b.op.n 0 })

/-- The owner compares what has come once its own sums are whole (R164). -/
def State.stepCompare (s : State) (j : Nat) (g : Binding) (b : Bucket) : State :=
  if !g.summed b then s
  else if g.p = 1 then (if b.sentCheck && b.compared < g.fragPackets b.op.n 0 then s.compareAlone j g b else s)
  else
    let s := s.modBucket j b.seq (fun b => { b with held := [] })
    b.held.foldl (fun s e => s.compareOne j g b.seq e) s

/-- The owner sends its sums to every participant, in a checked bucket after the comparison of every CHECK packet (R161, R164). -/
def State.stepResult (s : State) (j : Nat) (g : Binding) (b : Bucket) (checked : Bool) : State :=
  let k := g.fragPackets b.op.n g.rank
  if b.sentResult || !g.summed b || (checked && b.compared < k) then s
  else
    match s.readSums j b (g.slot b.seq) (g.fragLo b.op.n g.rank) (g.fragLen b.op.n g.rank) with
    | (s, none) => s.redAbort j b.seq 3
    | (s, some l) =>
      let s := if checked && 0 < k then s.bumpF .redChecked Fld.redCheckedCount 1 else s
      let s := s.modBucket j b.seq (fun b => { b with sentResult := true, results := b.results + k })
      s.sendRed j (((List.range g.p).filter (· != g.rank)).flatMap (fun r => (laneChunks l.length 0 l).map (fun c =>
        (r, s.bucketPkt g j b r RK.result false g.rank c.2.length c.1 (laneBytes c.2)))))

/-- Rank 1 mod P sends rank 0 a check copy of the totals (R164). -/
def State.stepCopy (s : State) (j : Nat) (g : Binding) (b : Bucket) (checked : Bool) : State :=
  if b.sentCopy || !checked || g.rank != 1 % g.p || !b.trailersFull g.p true then s
  else
    let l := b.sumTrailers g.p true
    let s := s.modBucket j b.seq (fun b => { b with sentCopy := true, copies := if g.p = 1 then l else b.copies })
    if g.p = 1 then s
    else s.sendRed j (l.map (fun t => (0, s.bucketPkt g j b 0 RK.total true t.1 0 0 t.2.bytes)))

/-- Rank 0 compares the totals with the check copy in a checked bucket, and sends them to every participant (R160, R164).
DEDUCED: log entry 40. -/
def State.stepTotal (s : State) (j : Nat) (g : Binding) (b : Bucket) (checked : Bool) : State :=
  let n := trailerCount b.op.layers.length
  if b.sentTotal || g.rank != 0 || !b.trailersFull g.p false || (checked && b.copies.length < n) then s
  else
    let l := b.sumTrailers g.p false
    let same (t : Nat × Trailer) : Bool := match b.copies.find? (fun c => c.1 == t.1) with
      | some c => c.2.bytes == t.2.bytes
      | none => false
    if checked && !l.all same then
      let (s, x) := s.free 16
      let (s, y) := s.free 32
      s.redMismatch j b.seq x y
    else
      let s := s.modBucket j b.seq (fun b => { b with sentTotal := true, totals := l })
      s.sendRed j (((List.range g.p).filter (· != g.rank)).flatMap (fun r => l.map (fun t =>
        (r, s.bucketPkt g j b r RK.total false t.1 0 0 t.2.bytes))))

/-- A step on a bucket that runs and has its scale result. -/
def State.onBucket (s : State) (j seq : Nat) (f : Binding → Bucket → Bool → State → State) : State :=
  match s.bucket? j seq, (s.job j).binding with
  | some b, some g =>
    match b.agreed with
    | some (_, checked) => if b.live then f g b checked s else s
    | none => s
  | _, _ => s

/-- What a bucket can do now, in the order of its phases. -/
def State.redAdvance (s : State) (j seq : Nat) : State :=
  let s := s.onBucket j seq (fun g b c s => if c then s.stepCheck j g b else s)
  let s := s.onBucket j seq (fun g b c s => if c then s.stepCompare j g b else s)
  let s := s.onBucket j seq (fun g b c s => s.stepResult j g b c)
  let s := s.onBucket j seq (fun g b c s => s.stepCopy j g b c)
  s.onBucket j seq (fun g b c s => s.stepTotal j g b c)

/-! ## Conversion and contribution (R151, R153, R159, R164) -/

/-- A port adds a converted packet of this participant to the fragment that the device owns, or to the one that it checks (R156). -/
def State.localAdd (s : State) (j : Nat) (g : Binding) (b : Bucket) (check : Bool) (f q : Nat) (l : List Int) : State × Bool :=
  let (s, ok) := s.addLanes j b (if check then g.checkBase b else g.slot b.seq) (g.fragLo b.op.n f + 56 * q) l
  (s.modBucket j b.seq (fun b =>
    if check then { b with checkAdded := b.checkAdded + 1 } else { b with added := b.added + 1 }), ok)

/-- A port converts packet `p.2` of fragment `p.1` of this participant (R151, R157): added locally where this device owns or checks the
fragment, and sent to the others. The check area of a job of one participant has the port of the next tile (R156).
DEDUCED: log entry 35. -/
def State.contribPart (s : State) (j : Nat) (g : Binding) (b : Bucket) (e : Int) (checked : Bool) (v : List Num) (p : Nat × Nat) :
    State × Bool :=
  let f := p.1
  let q := p.2
  let l := ((v.drop (g.fragLo b.op.n f + 56 * q)).take (min 56 (g.fragLen b.op.n f - 56 * q))).map (toInt g.p e)
  let part := l.map Prod.fst
  let s := s.modBucket j b.seq (fun b => { b with flushed := b.flushed + l.countP (fun x => x.2) })
  let send (r : Nat) (path : Bool) (s : State) : State :=
    s.sendRed j [(r, s.bucketPkt g j b r RK.contrib path f part.length (56 * q) (laneBytes part))]
  let (s, ok) := if f = g.rank then s.localAdd j g b false f q part else (send f false s, true)
  if !ok || !checked then (s, ok)
  else if f ≠ g.checkFrag then (send ((f + 1) % g.p) true s, true)
  else if g.p = 1 then (s.modBucket j b.seq (fun b => { b with toCheck := b.toCheck ++ [(q, part)] }), true)
  else s.localAdd j g b true f q part

/-- Send the trailer to rank 0, and in a checked bucket to rank 1 mod P (R159). -/
def State.sendTrailers (s : State) (j seq : Nat) (g : Binding) (checked : Bool) : State :=
  match s.bucket? j seq with
  | none => s
  | some b =>
    let l := b.ownTrailers.zipIdx
    let one (path : Bool) (r : Nat) (s : State) : State :=
      if r = g.rank then
        s.modBucket j seq (fun b => { b with trailers := b.trailers ++ l.map (fun t => (path, g.rank, t.2, t.1)) })
      else s.sendRed j (l.map (fun t => (r, s.bucketPkt g j b r RK.trailer path t.2 0 0 t.1.bytes)))
    let s := one false 0 s
    if checked then one true (1 % g.p) s else s

/-- The packets of a bucket's fragments, by fragment and index (R153). -/
def Binding.packets (g : Binding) (n : Nat) : List (Nat × Nat) :=
  (List.range g.p).flatMap (fun f => (List.range (g.fragPackets n f)).map (fun q => (f, q)))

/-- Apply `f` to each entry of a list until one fails. -/
def foldOk {α : Type} (f : State → α → State × Bool) (l : List α) (acc : State × Bool) : State × Bool :=
  l.foldl (fun acc x => if acc.2 then f acc.1 x else acc) acc

/-- The ports that are not in reset convert what waits for them and add what is ready for the check area (R151, R156 to R158).
DEDUCED: log entry 42. -/
def State.portsRun (s : State) (j : Nat) (g : Binding) (b : Bucket) (e : Int) (checked : Bool) : State :=
  let ready := b.toConvert.filter (fun p => !s.tileInReset (g.portOf p.2))
  let waits := b.toConvert.filter (fun p => s.tileInReset (g.portOf p.2))
  match if ready.isEmpty then (s, SlotData.vals []) else s.readSlots j b with
  | (s, .vals v) =>
    let s := s.modBucket j b.seq (fun b => { b with toConvert := waits })
    let (s, ok) := foldOk (fun s p => s.contribPart j g b e checked v p) ready (s, true)
    let checks := ((s.bucket? j b.seq).map (fun b => b.toCheck)).getD []
    let s := s.modBucket j b.seq (fun b => { b with toCheck := checks.filter (fun c => s.tileInReset (g.portOf (c.1 + 1))) })
    let (s, ok) := foldOk (fun s c => s.localAdd j g b true 0 c.1 c.2)
      (checks.filter (fun c => !s.tileInReset (g.portOf (c.1 + 1)))) (s, ok)
    if !ok then s.redAbort j b.seq 3
    else (if waits.isEmpty && !ready.isEmpty then s.sendTrailers j b.seq g checked else s).redAdvance j b.seq
  | (s, _) => s.redAbort j b.seq 3

/-- A participant has E and checked: its ports convert its bucket and contribute (R148, R151, R153). -/
def State.contribute (s : State) (j seq : Nat) (e : Int) (checked : Bool) : State :=
  match s.bucket? j seq, (s.job j).binding with
  | some b, some g =>
    let todo := if e = noExp then [] else g.packets b.op.n
    let s := s.modBucket j seq (fun b => { b with agreed := some (e, checked), toConvert := todo })
    if e = noExp then (s.sendTrailers j seq g checked).redAdvance j seq
    else s.portsRun j g { b with toConvert := todo } e checked
  | _, _ => s

/-! ## The scale round (R149, R150) -/

/-- Rank 0 has every SCALE word: it decides and sends SCALE_RESULT to all (R150). -/
def State.scaleRound (s : State) (j seq : Nat) : State :=
  match s.bucket? j seq, (s.job j).binding with
  | some b, some g =>
    if b.scales.length < g.p || b.agreed.isSome || !b.live then s
    else
      let others := (List.range g.p).filter (· != g.rank)
      let send (e : Int) (fl : Nat) (s : State) : State :=
        s.sendRed j (others.map (fun r => (r, s.bucketPkt g j b r RK.scaleResult false 0 0 0 (scaleBody e b.op.n fl))))
      if b.scales.any (fun x => !x.same) then (send noExp 4 s).endBucket j seq stAborted (some Cls.redConfig)
      else
        let e := b.scales.foldl (fun e x => Max.max e x.e) noExp
        let checked := (g.sampleShift < 32 && seq % 2 ^ g.sampleShift == 0) || b.scales.any (fun x => x.force)
        (send e (if checked then 2 else 0) s).contribute j seq e checked
  | _, _ => s

/-- Keep a SCALE word. -/
def State.addScale (s : State) (j seq : Nat) (x : ScaleWord) : State :=
  (s.modBucket j seq (fun b => if b.scales.any (fun y => y.rank == x.rank) then b else { b with scales := b.scales ++ [x] })).scaleRound
    j seq

/-- The scan ends (R149): the participant sends its exponent word to rank 0. The scan runs on the ports of the reduction tiles.
DEDUCED: log entry 42. -/
def State.scanComplete (s : State) (j seq : Nat) : State :=
  match s.bucket? j seq, (s.job j).binding with
  | some b, some g =>
    if b.scan.isSome || !b.live || (g.ports b.op.n).any s.tileInReset then s
    else
      match s.readSlots j b with
      | (s, .wait) => s
      | (s, .fail) => s.redAbort j seq 3
      | (s, .vals v) =>
        let r := scanValues v
        let s := s.modBucket j seq (fun b => { b with scan := some r })
        if g.rank = 0 then s.addScale j seq ⟨0, r.1, true, b.op.force⟩
        else s.sendRed j [(0, s.bucketPkt g j b 0 RK.scale false 0 0 0 (scaleBody r.1 b.op.n (if b.op.force then 1 else 0)))]
  | _, _ => s

/-- BUCKET_SCAN_COMPLETE (R149). -/
def execBucketScanComplete (j : JobId) (seq : W32) (s : State) : Out := clocked 4 s (fun s => s.scanComplete j seq.toNat)

/-! ## Received packets (R155, R156, R160, R161, R164) -/

/-- A port adds the lanes of a CONTRIB packet and returns its credit (R142, R156, R164). -/
def State.onContrib (s : State) (j : Nat) (g : Binding) (b : Bucket) (k : Pkt) : State :=
  let path := k.redPath
  let f := if path then g.checkFrag else g.rank
  let base := if path then g.checkBase b else g.slot b.seq
  let (s, ok) := s.addLanes j b base (g.fragLo b.op.n f + k.redOffset) k.redValues
  let s := s.creditBack k
  if ok then
    (s.modBucket j b.seq (fun b => if path then { b with checkAdded := b.checkAdded + 1 } else { b with added := b.added + 1 })).redAdvance
      j b.seq
  else s.redAbort j b.seq 3

/-- A packet with lanes is for the port of a tile in reset (R156, R158, R378). -/
def State.portHolds (s : State) (g : Binding) (k : Pkt) : Bool :=
  (k.redKind == RK.contrib || k.redKind == RK.check || k.redKind == RK.result) && s.tileInReset (g.portOf (k.redOffset / 56))

/-- A packet of an open bucket, by its kind; one with lanes whose port's tile is in reset waits there.
DESIGN CHOICE: log entry 123. -/
def State.redHandle (s : State) (j : Nat) (g : Binding) (b : Bucket) (p : Nat) (k : Pkt) : State :=
  let seq := b.seq
  let e := sgn 32 (leNat (k.redBody.take 4))
  let n := leNat ((k.redBody.drop 4).take 8)
  let fl := leNat ((k.redBody.drop 12).take 1)
  let tagged := k.redStep == b.op.step && k.redIndex == b.op.index
  if k.redKind = RK.abort then
    let r := abortEnd (leNat (k.redBody.take 1))
    (s.creditBack k).endBucket j seq r.1 r.2
  else if k.redKind = RK.scale then
    (s.creditBack k).addScale j seq ⟨k.redSrc, e, tagged && n == b.op.n, fl.testBit 0⟩
  else if !tagged then (s.creditBack k).redAbort j seq 1
  else if k.redKind = RK.scaleResult then
    let s := s.creditBack k
    if fl.testBit 2 then s.endBucket j seq stAborted (some Cls.redConfig)
    else if b.agreed.isSome then s else s.contribute j seq e (fl.testBit 1)
  else if s.portHolds g k then
    let x := s.job j
    s.setJob j { x with atPort := x.atPort ++ [⟨p, k, false⟩] }
  else if k.redKind = RK.contrib then s.onContrib j g b k
  else if k.redKind = RK.check then (s.modBucket j seq (fun b => { b with held := b.held ++ [⟨p, k, false⟩] })).redAdvance j seq
  else if k.redKind = RK.result then
    let (s, ok) := s.writeSums j b (g.slot seq) (g.fragLo b.op.n k.redFrag + k.redOffset) k.redValues
    let s := s.creditBack k
    if ok then s.modBucket j seq (fun b => { b with results := b.results + 1 }) else s.redAbort j seq 3
  else if k.redKind = RK.trailer then
    ((s.creditBack k).modBucket j seq (fun b =>
      { b with trailers := b.trailers ++ [(k.redPath, k.redSrc, k.redFrag, trailerOf k.redBody)] })).redAdvance j seq
  else if k.redKind = RK.total then
    ((s.creditBack k).modBucket j seq (fun b =>
      if k.redPath then { b with copies := b.copies ++ [(k.redFrag, trailerOf k.redBody)] }
      else { b with totals := b.totals ++ [(k.redFrag, trailerOf k.redBody)] })).redAdvance j seq
  else s

/-- Take the first reduction packet of a kind. -/
def State.takeRed (s : State) (kind : Nat) : Option (Nat × Pkt × State) :=
  match popFirst (fun e : Nat × Pkt => e.2.typ == PT.red && e.2.redKind == kind) s.fab.inq with
  | some ((p, k), rest) => some (p, k, (({ s with fab := { s.fab with inq := rest } } : State).freeSlots p k).idleFlit p false)
  | none => none

/-- The sequence of a packet belongs to a bucket that has ended already. DEDUCED: log entry 36. -/
def State.seqPast (s : State) (j seq : Nat) : Bool :=
  (s.rf (.redJobStatus j) Fld.redJobStatusNextSequence + 2 ^ 32 - 1 - seq) % 2 ^ 32 < 2 ^ 31

/-- Store a packet of a bucket that is not open yet (R155). DEDUCED: log entry 37. -/
def State.storeEarly (s : State) (j p : Nat) (k : Pkt) : State :=
  let x := s.job j
  let s := (s.setJob j { x with early := x.early ++ [(p, k)] }).bumpF .redEarly Fld.redEarlyCount 1
  let r := Reg.redJobEarly j
  let n := x.early.length + 1
  (s.setF r Fld.redJobEarlyStored n).setF r Fld.redJobEarlyHighWater (max n (s.rf r Fld.redJobEarlyHighWater))

/-- Credits come back to a sender (R142). DEDUCED: log entry 36. -/
def State.onCredit (s : State) (j : Nat) (g : Binding) (k : Pkt) : State :=
  match (List.range g.p).find? (fun r => g.members.getD r 4096 == k.src) with
  | some r =>
    let x := s.job j
    let key := redKey r k.redPath
    (s.setJob j { x with used := nset 0 x.used key (kget 0 x.used key - k.redCredits) }).pumpJob j
  | none => s

/-- A reduction packet of a kind arrives (R142, R155): discarded, a credit, stored early, or handled. DEDUCED: log entry 36. -/
def redReceive (kind : Nat) (s : State) : State :=
  match s.takeRed kind with
  | none => s
  | some (p, k, s) =>
    let j := k.redJob
    match (s.job j).binding with
    | none => s.discardRed k
    | some g =>
      if s.jobBroken j || k.redEpoch != g.epoch then s.discardRed k
      else if kind = RK.credit then s.onCredit j g k
      else match s.bucket? j k.redSeq with
        | some b => if b.live then s.redHandle j g b p k else s.creditBack k
        | none => if s.seqPast j k.redSeq then s.creditBack k else s.storeEarly j p k

/-- SCALE (R150). -/
def execScale (s : State) : Out := clocked 7 s (redReceive RK.scale)
/-- SCALE_RESULT (R150). -/
def execScaleResult (s : State) : Out := clocked 7 s (redReceive RK.scaleResult)
/-- CONTRIB (R156). -/
def execContrib (s : State) : Out := clocked 7 s (redReceive RK.contrib)
/-- CHECK (R164). -/
def execCheck (s : State) : Out := clocked 7 s (redReceive RK.check)
/-- RESULT (R161). -/
def execResult (s : State) : Out := clocked 7 s (redReceive RK.result)
/-- TRAILER (R160). -/
def execTrailer (s : State) : Out := clocked 7 s (redReceive RK.trailer)
/-- TOTAL (R160). -/
def execTotal (s : State) : Out := clocked 7 s (redReceive RK.total)
/-- CREDIT (R142). -/
def execCredit (s : State) : Out := clocked 7 s (redReceive RK.credit)
/-- ABORT (R166). -/
def execAbort (s : State) : Out := clocked 7 s (redReceive RK.abort)

/-! ## Opening a bucket (R143 to R148) -/

/-- The segments of a segment table, or the byte of its first failing field (R144, R145). -/
def segmentsOf (n : Nat) : Nat → Nat → Nat → List Byte → List Segment → Except Nat (List Segment)
  | 0, e, pos, _, acc => if pos = n then .ok acc else .error (16 * (e - 1) + 4)
  | m + 1, e, pos, l, acc =>
    let f (i w : Nat) : Nat := leNat ((l.drop i).take w)
    let g : Segment := ⟨f 0 4, f 4 4, f 8 4, f 12 1⟩
    let listed := [0, 1, 2, 3, 4, 10, 11].contains g.fmt
    if g.first ≠ pos then .error (16 * e)
    else if n < pos + g.count ∨ (isMx g.fmt ∧ listed ∧ g.count % 32 ≠ 0) then .error (16 * e + 4)
    else if !listed then .error (16 * e + 12)
    else segmentsOf n m (e + 1) (pos + g.count) (l.drop 16) (acc ++ [g])

/-- The layer records of a layer record table. -/
def layersOf : Nat → List Byte → List LayerRec
  | 0, _ => []
  | n + 1, l => ⟨leNat (l.take 4), leNat ((l.drop 4).take 4)⟩ :: layersOf n (l.drop 16)

/-- A REDUCE operation as its checks leave it: its operation, or why it does not start. -/
inductive ReduceCheck where
  | ok (op : ReduceOp)
  | no (c : OpCheck)
  deriving DecidableEq, Repr

/-- The count of a REDUCE breaks a limit of R145. -/
def Binding.tooLong (g : Binding) (n : Nat) (force : Bool) : Bool :=
  2 ^ 28 < n || g.sumSize < 4 * n * g.openMax
    || (g.p == 1 && (g.sampleShift < 32 || force) && 0 < n && g.sumSize < 8 * n * g.openMax)

/-- The checks of a REDUCE descriptor's operation block and tables (R143 to R145); `slot` is the descriptor's own address.
DEDUCED: log entry 18. -/
def State.checkReduce (s : State) (r : Nat) (d : Desc) (g : Binding) (l : List Byte) (slot : Nat) : State × ReduceCheck :=
  let f (i n : Nat) : Nat := leNat ((l.drop i).take n)
  let n := d.count
  let force := (f 33 1).testBit 0
  if g.tooLong n force then (s, .no (.reject 0 48 (slot + 48) 0))
  else if f 22 2 = 0 then (s, .no (.reject 1 22 (d.opBlock + 22) 0))
  else if 2 < f 32 1 then (s, .no (.reject 1 32 (d.opBlock + 32) 0))
  else if 1024 < f 34 2 then (s, .no (.reject 1 34 (d.opBlock + 34) 0))
  else
    match s.readRange (descWho r d) (.desc r d.idx) (f 8 8) (16 * f 22 2) with
    | (s, .wait) => (s, .no .wait)
    | (s, .fail) => (s, .no .fail)
    | (s, .bytes tab) =>
      match segmentsOf n (f 22 2) 0 0 tab [] with
      | .error b => (s, .no (.reject 2 8 (f 8 8 + b) b))
      | .ok segs =>
        match s.readRange (descWho r d) (.desc r d.idx) (f 40 8) (16 * f 34 2) with
        | (s, .wait) => (s, .no .wait)
        | (s, .fail) => (s, .no .fail)
        | (s, .bytes lay) =>
          (s, .ok { n := n, buffer := f 0 8, segments := segs, layers := layersOf (f 34 2) lay, step := f 16 4, index := f 20 2
                    result := f 24 8, mode := f 32 1, force := force, summary := f 48 8 })

/-- The packets that wait at the ports of a job's tiles are served, oldest first, but for those whose tile is still in reset (R158, R378).
DESIGN CHOICE: log entry 113. -/
def State.portServe (s : State) (j : Nat) (g : Binding) : State :=
  let x := s.job j
  x.atPort.foldl (fun s h =>
    match s.bucket? j h.pkt.redSeq with
    | some b =>
      if !b.live then s.creditBack h.pkt
      else if s.portHolds g h.pkt then (let x := s.job j; s.setJob j { x with atPort := x.atPort ++ [h] })
      else if h.ue then s.portError j g b h.pkt
      else s.redHandle j g b h.port h.pkt
    | none => s.creditBack h.pkt) (s.setJob j { x with atPort := [] })

/-- The release of a tile: the ports of every job go on (R378). -/
def State.portsResume (s : State) : State :=
  (s.jobs.map Prod.fst).foldl (fun s j =>
    match (s.job j).binding with
    | some g =>
      ((s.job j).buckets.map (fun b => b.seq)).foldl (fun s seq =>
        s.onBucket j seq (fun g b c s =>
          match b.agreed with
          | some (e, _) => if b.toConvert.isEmpty && b.toCheck.isEmpty then s else s.portsRun j g b e c
          | none => s)) (s.portServe j g)
    | none => s) s

/-- Health counters of the job's health tiles under a tensor ID, read and cleared (R160). -/
def State.takeHealth (s : State) (g : Binding) (tensor : Nat) : State × Totals :=
  let sets := g.healthTiles.flatMap (fun t => ((List.range 16).filter (fun k =>
    s.rf (.tileHealthTag t k) Fld.tileHealthTagValid == 1 && s.rf (.tileHealthTag t k) Fld.tileHealthTagTensorId == tensor)).map
      (fun k => (t, k)))
  let c (t k i : Nat) : Nat := (s.rget (.tileHealthCnt t k i)).toNat
  let sum (i : Nat) : Nat := sets.foldl (fun a x => satAdd 64 a (c x.1 x.2 i)) 0
  (sets.foldl (fun s x => (List.range 4).foldl (fun s i => s.rset (.tileHealthCnt x.1 x.2 i) 0) s) s, ⟨sum 0, sum 1, sum 2, sum 3⟩)

/-- Health totals of the layer records, in order. -/
def State.takeHealths (s : State) (g : Binding) (l : List LayerRec) : State × List Totals :=
  l.foldl (fun acc x => let (s, t) := acc.1.takeHealth g x.tensor; (s, acc.2 ++ [t])) (s, [])

/-- A REDUCE may open its bucket (R146): fewer than `open` buckets are open, and its sum slot is free.
DESIGN CHOICE: log entry 123. -/
def State.reduceReady (s : State) (j n : Nat) : Bool :=
  match (s.job j).binding with
  | some g =>
    let seq := s.rf (.redJobStatus j) Fld.redJobStatusNextSequence
    let bs := (s.job j).buckets
    s.jobBroken j || (bs.length < g.openMax && (n == 0 || bs.all (fun b => b.seq % g.openMax != seq % g.openMax)))
  | none => true

/-- Take the next sequence number of a job. -/
def State.nextSeq (s : State) (j : Nat) : State :=
  s.setF (.redJobStatus j) Fld.redJobStatusNextSequence (s.rf (.redJobStatus j) Fld.redJobStatusNextSequence + 1)

/-- The stored packets of a sequence are handled, before any that arrives later (R155). DEDUCED: log entry 37. -/
def State.takeEarly (s : State) (j : Nat) (g : Binding) (seq : Nat) : State :=
  let x := s.job j
  let mine := x.early.filter (fun e => e.2.redSeq == seq)
  let rest := x.early.filter (fun e => e.2.redSeq != seq)
  let s := (s.setJob j { x with early := rest }).setF (.redJobEarly j) Fld.redJobEarlyStored rest.length
  mine.foldl (fun s e =>
    match s.bucket? j seq with
    | some b => if b.live then s.redHandle j g b e.1 e.2 else s.creditBack e.2
    | none => s.creditBack e.2) s

/-- BUCKET_OPEN (R146, R148): the descriptor takes the next sequence and its sum slot; the owned and the checked fragment, and the
check area of a job of one participant, are zeroed; health counters are read; early packets are handled. -/
def State.openBucket (s : State) (r : Nat) (d : Desc) (g : Binding) (op : ReduceOp) : State :=
  let j := d.job
  let seq := s.rf (.redJobStatus j) Fld.redJobStatusNextSequence
  let (s, health) := (s.nextSeq j).takeHealths g op.layers
  let b : Bucket :=
    { seq := seq, ring := r, idx := d.idx, cookie := d.cookie, op := op, health := health, scan := none, scales := [], agreed := none
      flushed := 0, toConvert := [], toCheck := [], added := 0, checkAdded := 0, held := [], compared := 0, sentCheck := false, sentResult := false
      sentCopy := false, sentTotal := false, trailers := [], copies := [], totals := [], results := 0, ended := none, handing := none }
  let x := s.job j
  let s := (s.setJob j { x with buckets := x.buckets ++ [b] }).setF (.redJobStatus j) Fld.redJobStatusOpen (x.buckets.length + 1)
  let zero (base f : Nat) (acc : State × Bool) : State × Bool :=
    if acc.2 then acc.1.writeSums j b base (g.fragLo op.n f) (List.replicate (g.fragLen op.n f) 0) else acc
  let area := g.p == 1 && (g.sampleShift < 32 || op.force)
  let (s, ok) := zero (g.slot seq) g.rank (s, true)
  let (s, ok) := if g.p = 1 then (if area then zero (g.checkBase b) 0 (s, ok) else (s, ok)) else zero (g.slot seq) g.checkFrag (s, ok)
  if ok then s.takeEarly j g seq else s.redAbort j seq 3

/-- The start of a REDUCE on a broken job, or with n = 0 (R147, R167); a bound job that is not broken otherwise opens a bucket. -/
def State.startReduce (s : State) (r : Nat) (d : Desc) (op : Option ReduceOp) : State :=
  let j := d.job
  let s := s.startDesc r d.idx
  if s.jobBroken j then s.endDesc r d.idx stAborted 0
  else
    match (s.job j).binding, op with
    | some g, some op => s.openBucket r d g op
    | _, _ => (s.nextSeq j).endDesc r d.idx stEmpty 0

/-! ## Finish (R161, R162) -/

/-- Results and totals of a bucket are whole (R161). -/
def Binding.complete (g : Binding) (b : Bucket) : Bool :=
  b.agreed.isSome && b.totals.length == trailerCount b.op.layers.length
    && ((List.range g.p).map (fun f => g.fragPackets b.op.n f)).sum ≤ b.results

/-- Write the result of modes 0 and 1 (R161). DEDUCED: log entry 41. -/
def State.writeResult (s : State) (j : Nat) (b : Bucket) (k : Int) (sums : List Int) : State × Bool :=
  match b.op.mode with
  | 0 => s.writeRange (b.who j) b.owner VC.req b.op.result (laneBytes sums)
  | 1 => s.writeRange (b.who j) b.owner VC.req b.op.result (sums.flatMap (fun x => leBytes 4 (sumFp32 x k)))
  | _ => (s, true)

/-- The governor takes the totals of every layer record (R116, R117); false where a record could not be updated. -/
def State.governAll (s : State) (j : Nat) (b : Bucket) : State × Bool :=
  let recs := (List.range (trailerCount b.op.layers.length)).flatMap (fun t =>
    ((b.totals.find? (fun x => x.1 == t)).map (fun x => x.2.recs)).getD [])
  recs.foldl (fun acc x =>
    let (s, ok) := acc.1.govern (b.who j) b.owner x.1.layer x.2 b.op.step
    (s, acc.2 && ok)) (s, true)

/-- The lowest open bucket finishes (R161): result or hand-off, governor, summary, and its descriptor completes.
DEDUCED: log entry 41. -/
def State.finishBucket (s : State) (j : Nat) (g : Binding) (b : Bucket) (e : Int) : State :=
  let k := redScale g.p e
  match s.readSums j b (g.slot b.seq) 0 b.op.n with
  | (s, none) => s.redAbort j b.seq 3
  | (s, some sums) =>
    match s.writeResult j b k sums with
    | (s, false) => s.endBucket j b.seq stAborted none
    | (s, true) =>
      let (s, gov) := s.governAll j b
      let nf := ((b.totals.find? (fun x => x.1 == 0)).map (fun x => x.2.nonfinite)).getD 0
      let status := if !gov then stPartial else if nf ≠ 0 then stNonfinite else stOk
      match s.writeSummary j g b status with
      | (s, false) => s.endBucket j b.seq stAborted none
      | (s, true) =>
        let s := s.bumpF .redBuckets Fld.redBucketsCount 1
        let s := if nf ≠ 0 then s.bumpF .redNonfinite Fld.redNonfiniteCount 1 else s
        if b.op.mode = 2 then
          let h : Handoff :=
            { job := j, seq := b.seq, step := b.op.step, bucket := b.op.index, k := k, n := b.op.n, slot := g.slot b.seq
              totals := b.totals, desc := ⟨b.ring, b.idx, b.cookie⟩, pos := 0, invalid := false, held := s.engine.waiting.isSome }
          let s := s.modBucket j b.seq (fun b => { b with handing := some status })
          { s with engine := { s.engine with handoffs := s.engine.handoffs ++ [h] } }
        else s.completeBucket j b.seq status

/-- The lowest open bucket of a job finishes if it holds every result and total (R161, R162). -/
def State.tryFinish (s : State) (j : Nat) : State :=
  match (s.job j).buckets, (s.job j).binding with
  | b :: _, some g =>
    match b.agreed with
    | some (e, _) => if b.live && g.complete b then s.finishBucket j g b e else s
    | none => s
  | _, _ => s

/-- BUCKET_FINISH (R161). -/
def execBucketFinish (j : JobId) (s : State) : Out := clocked 4 s (fun s => s.tryFinish j)

/-- No packet of a bucket has been processed within the job's timeout (R166, R167). -/
def State.bucketTimeout (s : State) (j seq : Nat) : State :=
  match s.bucket? j seq with
  | some b =>
    if b.live then
      (s.setF (.redJobStatus j) Fld.redJobStatusBroken 1).endBucket j seq stTimeout (some Cls.redTimeout)
    else s
  | none => s

/-- BUCKET_TIMEOUT (R166). -/
def execBucketTimeout (j : JobId) (seq : W32) (s : State) : Out := clocked 4 s (fun s => s.bucketTimeout j seq.toNat)

end Sys2Proof.Machine
end

