-- ==== Sys2Proof/Machine/Sched.lean ====
section
/-! DEFINITION. The pipeline scheduler (R192 to R205): configuration, the STEP descriptor, the release order, and the release, start and
end of tasks. -/

namespace Sys2Proof.Machine

/-! ## Configuration (R192, R193) -/

/-- The tiles of a group, ascending, under register values. -/
def groupTiles (get : Reg → W64) (g : Nat) : List Nat :=
  (List.range 384).filter (fun t => (get (.pipeGroup g (t / 64))).getLsbD (t % 64))

/-- A field of a block's entry under register values. -/
def blockField (get : Reg → W64) (b : Nat) (f : Fld) : Nat := fieldOf (get (.pipeBlock b)) f

/-- The valid blocks under register values, ascending. -/
def validBlocks (get : Reg → W64) : List Nat :=
  (List.range 256).filter (fun b => blockField get b Fld.pipeBlockValid == 1)

/-- The error code of a scheduler commit, 0 if it passes (R193). DESIGN CHOICE: log entry 110. -/
def pipeCommitError (get : Reg → W64) : Nat :=
  let bs := validBlocks get
  if (List.range 384).any (fun t => 1 < (List.range 32).countP (fun g => (get (.pipeGroup g (t / 64))).getLsbD (t % 64))) then 1
  else if bs.any (fun b => (groupTiles get (blockField get b Fld.pipeBlockGroup)).isEmpty) then 2
  else if bs != List.range bs.length || bs.isEmpty then 3
  else 0

/-- The registers of the scheduler's staged fields. -/
def pipeStaged : List Reg :=
  [.pipeCfg, .pipeLenLimit, .pipeLenWeight]
    ++ (List.range 32).flatMap (fun g => (List.range 6).map (fun w => Reg.pipeGroup g w)) ++ (List.range 256).map Reg.pipeBlock

/-- Change the scheduler. -/
def State.modSched (s : State) (f : Sched → Sched) : State := { s with sched := f s.sched }

/-- A write of PIPE.COMMIT (R193): a passed commit waits until no step is in progress. DEDUCED: log entry 50. -/
def State.pipeCommit (s : State) : State :=
  let e := pipeCommitError s.rget
  let s := s.setF .pipeStatus Fld.pipeStatusCommitError e
  if e ≠ 0 then s
  else
    (s.setF .pipeStatus Fld.pipeStatusPending 1).modSched (fun x => { x with
      waiting := some (pipeStaged.map (fun r => (r, s.rget r))) })

/-- PIPE_COMMIT (R193). -/
def execPipeCommit (s : State) : Out := clocked 4 s (fun s => s.pipeCommit)

/-- A passed commit takes effect when no STEP descriptor is in progress (R193). DEDUCED: log entry 50. -/
def State.pipeCommitEffect (s : State) : State :=
  match s.sched.waiting with
  | some l =>
    if s.sched.run.isSome then s
    else
      (l.foldl (fun s v => s.aset v.1 v.2) (s.setF .pipeStatus Fld.pipeStatusPending 0)).modSched (fun x => { x with waiting := none })
  | none => s

/-- PIPE_COMMIT_EFFECT (R193). -/
def execPipeCommitEffect (s : State) : Out := clocked 4 s (fun s => s.pipeCommitEffect)

/-- The blocks of the stage, B (R192). -/
def State.stageBlocks (s : State) : Nat := (validBlocks s.aget).length
/-- The group of block `b`. -/
def State.groupOf (s : State) (b : Nat) : Nat := blockField s.aget b Fld.pipeBlockGroup
/-- The tiles of group `g` in force. -/
def State.tilesOf (s : State) (g : Nat) : List Nat := groupTiles s.aget g
/-- Released, unstarted tasks that a group may hold (PIPE.CFG.queue). -/
def State.queueDepth (s : State) : Nat := min 4 (max 1 (s.af .pipeCfg Fld.pipeCfgQueue))

/-! ## Length classes and release order (R197, R198) -/

/-- The length class of a token count (R197). -/
def State.lengthClass (s : State) (tokens : Nat) : Nat :=
  let l (f : Fld) : Nat := s.af .pipeLenLimit f
  if tokens ≤ l Fld.pipeLenLimitLimit0 then 0
  else if tokens ≤ l Fld.pipeLenLimitLimit1 then 1
  else if tokens ≤ l Fld.pipeLenLimitLimit2 then 2 else 3

/-- The weight of a class; 0 acts as 1 (R197). -/
def State.classWeight (s : State) (c : Nat) : Nat := max 1 (bitsOf (s.aget .pipeLenWeight).toNat (4 * c) 4)

/-- A micro-batch of its table entry (R194). DEDUCED: log entry 49. -/
def State.microBatch (s : State) (l : List Byte) : MicroBatch :=
  let tokens := leNat (l.take 4)
  let c := s.lengthClass tokens
  ⟨tokens, BitVec.ofNat 64 (leNat ((l.drop 8).take 8)), c, s.classWeight c⟩

/-- The stage order (R198): micro-batch and direction, true for backward; `u` is the window, none if unbounded. `f`, `b` and `load` are
those of the rule, and `n` bounds the entries. -/
def stageOrder (w : Nat → Nat) (m : Nat) (u : Option Nat) : Nat → Nat → Nat → Nat → List (Nat × Bool)
  | 0, _, _, _ => []
  | n + 1, f, b, load =>
    let fits := match u with | none => true | some x => load + w f ≤ x
    if b < m then
      if f < m && (f == b || fits) then (f, false) :: stageOrder w m u n (f + 1) b (load + w f)
      else (b, true) :: stageOrder w m u n f (b + 1) (load - w b)
    else []

/-- The release order (R198): each entry expands into the tasks of its blocks. -/
def releaseOrder (blocks : Nat) (l : List (Nat × Bool)) : List Task :=
  l.flatMap (fun e => (List.range blocks).map (fun b => ⟨e.1, if e.2 then blocks - 1 - b else b, e.2⟩))

/-- A forward that the order places before the backward of the micro-batch `live` before it breaks the live limit (R198). -/
def breaksLive (live : Nat) : List (Nat × Bool) → Nat → Bool
  | [], _ => false
  | (i, true) :: l, _ => breaksLive live l (i + 1)
  | (i, false) :: l, b => (live ≤ i && b ≤ i - live) || breaksLive live l b

/-! ## The STEP descriptor (R194 to R196) -/

/-- What the checks of a STEP leave: the step, or why it does not start. -/
inductive StepCheck where
  | ok (x : StepRun)
  | no (c : OpCheck)
  deriving DecidableEq, Repr

/-- An out-peg of an operation block (R194). -/
def outPegOf (used : Bool) (v : Nat) : Option OutPeg := if used then some ⟨bitsOf v 16 12, bitsOf v 0 16⟩ else none

/-- The schedule of a step: FLUSH or ALTERNATE (R198). -/
def State.isFlush (s : State) (schedule depth : Nat) : Bool :=
  schedule == 2 || (schedule == 0 && s.af .pipeCfg Fld.pipeCfgAltMax < depth)

/-- The checks of a STEP's operation block and table, and its release order (R194, R195, R198); `slot` is the descriptor's own
address. DEDUCED: log entry 18. -/
def State.checkStep (s : State) (r : Nat) (d : Desc) (l : List Byte) (slot : Nat) : State × StepCheck :=
  let f (i n : Nat) : Nat := leNat ((l.drop i).take n)
  let m := d.count
  let rej (b : Nat) : State × StepCheck := (s, .no (.reject 1 b (d.opBlock + b) 0))
  let pegs := f 17 1
  if 65535 < m then (s, .no (.reject 0 48 (slot + 48) 0))
  else if f 14 2 ≤ f 12 2 then rej 12
  else if 2 < f 16 1 then rej 16
  else if 16 ≤ pegs then rej 17
  else if f 40 8 % 16 ≠ 0 || !s.inWindow (f 40 8) (16 * m) then rej 40
  else
    match s.readRange (descWho r d) (.desc r d.idx) (f 40 8) (16 * m) with
    | (s, .wait) => (s, .no .wait)
    | (s, .fail) => (s, .no .fail)
    | (s, .bytes tab) =>
      let mbs := (List.range m).map (fun i => s.microBatch ((tab.drop (16 * i)).take 16))
      let u := if s.isFlush (f 16 1) (f 14 2) then none else some (f 14 2 - f 12 2)
      let order := stageOrder (fun i => ((mbs[i]?).map (fun x => x.weight)).getD 1) m u (2 * m) 0 0 0
      let c := s.nextStashCfg
      if c.enable && breaksLive c.live order 0 then (s, .no (.reject 3 0 0 0))
      else
        (s, .ok {
          ring := r, idx := d.idx, cookie := d.cookie, step := BitVec.ofNat 64 (f 0 8), firstMb := f 8 4, stage := f 12 2
          blocks := s.stageBlocks
          fwdIn := if pegs.testBit 0 then some (f 20 2) else none, bwdIn := if pegs.testBit 1 then some (f 22 2) else none
          fwdOut := outPegOf (pegs.testBit 2) (f 24 4), bwdOut := outPegOf (pegs.testBit 3) (f 28 4), pegBase := f 32 8
          stepArg := BitVec.ofNat 64 (f 48 8), mbs := mbs, order := releaseOrder s.stageBlocks order, tasks := []
          pegSeen := false, pegFault := false, aborting := false })

/-- The scheduler takes a STEP: none is in progress, and no passed commit waits (R193, R196). DEDUCED: log entry 52. -/
def State.schedFree (s : State) : Bool := s.sched.run.isNone && s.sched.waiting.isNone

/-- Replace the step in progress. -/
def State.setRun (s : State) (x : StepRun) : State := s.modSched (fun y => { y with run := some x })

/-- The step in progress ends (R203, R204). DESIGN CHOICE: log entry 126. -/
def State.endStep (s : State) (x : StepRun) (status units : Nat) : State :=
  let s := (s.modSched (fun y => { y with run := none })).setF .pipeStatus Fld.pipeStatusBusy 0
  let s := s.modStash (fun h => { h with entries := [], freed := [] })
  let s := s.modDesc x.ring x.idx (fun d => { d with stashDone := !s.switchWaits x.ring x.idx || d.stashDone })
  s.endDesc x.ring x.idx status units

/-- The step completes when every task has (R203), or, winding down, when every started task has ended (R204). -/
def State.settleStep (s : State) : State :=
  match s.sched.run with
  | none => s
  | some x =>
    if x.aborting then
      if x.tasks.any (fun t => t.phase == .started) then s
      else s.endStep x stAborted (x.tasks.takeWhile (fun t => t.phase == .done)).length
    else if x.tasks.length = x.order.length ∧ x.tasks.all (fun t => t.phase == .done) then s.endStep x stOk x.order.length
    else s

/-- A checked STEP starts (R195, R196). -/
def State.startStep (s : State) (r : Nat) (d : Desc) (x : StepRun) (flush : Bool) : State :=
  let s := (s.startDesc r d.idx).setRun x
  let s := (s.setF .pipeStatus Fld.pipeStatusBusy 1).setB .pipeStatus Fld.pipeStatusFlush flush
  ((s.rset .pipeStep x.step).rset .pipeProgress 0).settleStep

/-! ## Release (R199) -/

/-- A record of the scheduler (R397). DEDUCED: log entry 51. -/
def StepRun.record (x : StepRun) (cls : Nat) : FaultRec :=
  { mkRec cls 1 Kind.scheduler 0 with desc := some ⟨x.ring, x.idx, x.cookie⟩ }

/-- The step winds down after the fault of a task (R204). -/
def State.windDown (s : State) (x : StepRun) (i : Nat) : State :=
  let s := if x.aborting then s else s.setF .pipeStatus Fld.pipeStatusFaultTask i
  (s.setRun { x with aborting := true }).settleStep

/-- The group holds fewer released, unstarted tasks than its queue (R199). -/
def State.queueRoom (s : State) (x : StepRun) (g : Nat) : Bool :=
  x.tasks.countP (fun t => t.phase == .released && s.groupOf t.task.block == g) < s.queueDepth

/-- What the peg wait of a task says (R199, R223). -/
inductive PegState where
  | open_ | held | faulted
  deriving DecidableEq, Repr

/-- The peg wait of the next task. -/
def State.pegState (s : State) (x : StepRun) (t : Task) : PegState :=
  match x.waitOf t with
  | none => .open_
  | some (p, n) =>
    if x.pegFault || (!x.pegSeen && pegFaulted (s.peg p)) then .faulted
    else if x.pegSeen || n ≤ (s.peg p).toNat % 2 ^ 63 then .open_ else .held

/-- Count a micro-batch of weight above 1 at its release (R205). -/
def State.countLong (s : State) (x : StepRun) (t : Task) : State :=
  let w := ((x.mbs[t.mb]?).map (fun m => m.weight)).getD 1
  if t.bwd || t.block ≠ 0 || w ≤ 1 then s
  else (s.bumpF .pipeLong Fld.pipeLongLongMb 1).bumpF .pipeLong Fld.pipeLongExtraSlots (2 * (w - 1))

/-- Release a task: the stash decides, and it takes its place in the release order (R129, R199). -/
def State.doRelease (s : State) (x : StepRun) (t : Task) : State :=
  let s := if x.tasks.isEmpty then s.stashBoundary else s
  let (s, arg, holds) := s.stashRelease x t
  let s := (s.countLong x t).setF .pipeProgress Fld.pipeProgressReleased (x.tasks.length + 1)
  s.setRun { x with
    tasks := x.tasks ++ [⟨t, .released, BitVec.ofNat 64 arg, holds⟩], pegSeen := false, pegFault := false }

/-- The hold of R128: the first forward task of a micro-batch waits until every backward task of the micro-batch `live` before it has been
released. -/
def State.stashHolds (s : State) (x : StepRun) (t : Task) : Bool :=
  let c := s.stashCfg
  c.enable && !t.bwd && t.block == 0 && c.live ≤ t.mb
    && !(List.range x.blocks).all (fun b => x.tasks.any (fun y => y.task == ⟨t.mb - c.live, b, true⟩))

/-- The release order and the queue of the group let the next task go (R199). -/
def State.mayRelease (s : State) (x : StepRun) (t : Task) : Bool :=
  !x.aborting && s.pegState x t == .open_ && !s.stashHolds x t && s.queueRoom x (s.groupOf t.block)

/-- The scheduler releases the next task if it may (R199); a peg wait that finds the fault bit ends the step (R223). -/
def State.releaseTask (s : State) : State :=
  match s.sched.run with
  | none => s
  | some x =>
    match x.next with
    | none => s
    | some t =>
      if x.aborting then s
      else match s.pegState x t with
        | .held => s
        | .faulted =>
          let p := ((x.waitOf t).map Prod.fst).getD 0
          (s.report { x.record Cls.pegFault with addr := BitVec.ofNat 64 (0xF00012000000 + 64 * p) }).windDown x x.tasks.length
        | .open_ => if s.mayRelease x t then s.doRelease x t else s

/-- STASH_COMMIT_EFFECT: a passed commit that waits takes effect at the step boundary, which is the release of the first task of a STEP
(R127, R134): when that task may be released, and never within a step or between two. DESIGN CHOICE: log entry 126. -/
def State.stashCommitEffect (s : State) : State :=
  match s.sched.run with
  | none => s
  | some x =>
    match x.next with
    | none => s
    | some t => if x.tasks.isEmpty && s.mayRelease x t then s.applyStash else s

/-- STASH_COMMIT_EFFECT (R134). -/
def execStashCommitEffect (s : State) : Out := clocked 4 s (fun s => s.stashCommitEffect)

/-- TASK_RELEASE (R199). -/
def execTaskRelease (s : State) : Out := clocked 4 s (fun s => s.releaseTask)

/-! ## Start (R200, R201) -/

/-- A task of the order has completed. -/
def StepRun.taskDone (x : StepRun) (t : Task) : Bool := x.isDone (x.indexOf t)

/-- The tasks that must have completed before a task starts (R200). -/
def StepRun.predecessor (x : StepRun) (t : Task) : Option Task :=
  if t.bwd then
    some (if t.block + 1 = x.blocks then { t with bwd := false } else { t with block := t.block + 1 })
  else if t.block = 0 then none else some { t with block := t.block - 1 }

/-- Put a released task in a phase. -/
def StepRun.setTask (x : StepRun) (i : Nat) (p : TaskPhase) : StepRun :=
  { x with tasks := x.tasks.modify i (fun t => { t with phase := p }) }

/-- The first task of a group in a phase, with its release index. -/
def State.firstTask (s : State) (x : StepRun) (g : Nat) (p : TaskPhase) : Option (Nat × ReleasedTask) :=
  (x.tasks.zipIdx.find? (fun t => t.1.phase == p && s.groupOf t.1.task.block == g)).map (fun t => (t.2, t.1))

/-- A released task may start (R135, R200): its group runs no other task. -/
def State.mayStart (s : State) (x : StepRun) (t : ReleasedTask) (tiles : List Nat) : Bool :=
  (s.firstTask x (s.groupOf t.task.block) .started).isNone
    && tiles.all (fun n => (s.tile n).seq == .idle && !s.startHeld n)
    && (match x.predecessor t.task with | some p => x.taskDone p | none => true)
    && t.holds.all x.isDone

/-- The arguments of a task on the tile of rank `rank` (R201). -/
def StepRun.args (x : StepRun) (t : ReleasedTask) (rank members : Nat) : NMap W64 :=
  let m := (x.mbs[t.task.mb]?).getD ⟨0, 0, 0, 1⟩
  let n (v : Nat) : W64 := BitVec.ofNat 64 v
  let s4 := t.task.block % 256 + (if t.task.bwd then 256 else 0) + x.stage % 2 ^ 16 * 2 ^ 16 + rank * 2 ^ 32 + members * 2 ^ 48
  let l : List (Nat × W64) :=
    [(1, x.step), (2, n ((x.firstMb + t.task.mb) % 2 ^ 32)), (3, n (m.tokens + m.cls * 2 ^ 32)), (4, n s4), (5, n t.task.mb),
     (6, m.arg), (7, x.stepArg), (8, t.stashArg)]
  l.foldl (fun a e => nset 0 a e.1 e.2) []

/-- The next task of a group starts if it may: the sequencer of every tile of the group starts at the block's entry (R200, R201). -/
def State.startTask (s : State) (g : Nat) : State :=
  match s.sched.run with
  | none => s
  | some x =>
    match s.firstTask x g .released with
    | none => s
    | some (i, t) =>
      let tiles := s.tilesOf g
      if x.aborting || !s.mayStart x t tiles then s
      else
        let pc := blockField s.aget t.task.block (if t.task.bwd then Fld.pipeBlockBwdEntry else Fld.pipeBlockFwdEntry)
        let s := tiles.zipIdx.foldl (fun s e =>
          (s.startAt e.1 pc (x.args t e.2 tiles.length)).modTile e.1 (fun y => { y with ended := false })) s
        s.setRun (x.setTask i .started)

/-- TASK_START (R200). -/
def execTaskStart (g : GroupId) (s : State) : Out := clocked 4 s (fun s => s.startTask g)

/-! ## The end of a task (R200, R202 to R204) -/

/-- Add 1 to an out-peg on its device (R202). -/
def State.outPeg (s : State) (o : Option OutPeg) : State :=
  match o with
  | none => s
  | some o =>
    if s.idValid && o.device == s.devId then s.pegSignal o.peg 1
    else (s.request ⟨Kind.scheduler, 0, 1, none⟩ .sched VC.sig PT.pegadd o.device (Reg.addr (.pegAdd o.peg))
      (leBytes 8 1 ++ List.replicate 8 0) true 8).1

/-- Every tile of a group has executed END since the scheduler started it (R200). -/
def State.groupEnded (s : State) (g : Nat) : Bool := (s.tilesOf g).all (fun n => (s.tile n).ended)

/-- The running task of a group completes (R200, R202). -/
def State.completeTask (s : State) (g : Nat) : State :=
  match s.sched.run with
  | none => s
  | some x =>
    match s.firstTask x g .started with
    | none => s
    | some (i, t) =>
      if !s.groupEnded g then s
      else
        let s := s.setRun (x.setTask i .done)
        let s := s.modStash (fun h => { h with freed := h.freed.filter (fun f => f.2 != i) })
        let s := (s.bumpF .pipeProgress Fld.pipeProgressCompleted 1).bumpF .pipeTasks Fld.pipeTasksCount 1
        let s := if t.task.bwd then (if t.task.block = 0 then s.outPeg x.bwdOut else s)
          else if t.task.block + 1 = x.blocks then s.outPeg x.fwdOut else s
        s.settleStep

/-- TASK_COMPLETE (R200). -/
def execTaskComplete (g : GroupId) (s : State) : Out := clocked 4 s (fun s => s.completeTask g)

/-- The running task of a group ends in fault (R204). DEDUCED: log entry 51. -/
def State.failTask (s : State) (g : Nat) : State :=
  match s.sched.run with
  | none => s
  | some x =>
    match s.firstTask x g .started with
    | none => s
    | some (i, t) =>
      (s.report { x.record Cls.pipeTask with
        detail0 := BitVec.ofNat 64 i, detail1 := BitVec.ofNat 48 (t.task.block + t.task.mb * 256) }).windDown (x.setTask i .failed) i

/-- A tile is lost to a reset: a task in progress on it ends in fault (R377, R378). An IDLE tile has executed the END of its task, and has none in
progress (R200). -/
def State.failTaskOn (s : State) (n : Nat) : State :=
  if (s.tile n).seq = .idle then s
  else match (List.range 32).find? (fun g => (s.tilesOf g).contains n) with
  | some g => s.failTask g
  | none => s

/-- TASK_FAULT: a tile of the group of a running task has entered FAULTED (R204). -/
def execTaskFault (g : GroupId) (s : State) : Out :=
  clocked 4 s (fun s => if (s.tilesOf g).any (fun n => (s.tile n).seq == .faulted) then s.failTask g else s)

end Sys2Proof.Machine
end

