-- ==== Sys2Proof/Machine/Reset.lean ====
section
/-! DEFINITION. Clock monitors, reset causes, the release of the domains, the watchdog, and the reset of one unit (R237, R359 to R379,
R451). -/

namespace Sys2Proof.Machine

/-! ## Device resets (R364 to R366) -/

/-- The code that a reset cause records: of the causes of one BCLK the lowest (R366). DESIGN CHOICE: log entry 1. -/
def State.causeCode (s : State) (cause : Nat) : Nat :=
  if s.sys.causeNew then min cause (s.rf .rstLastCause Fld.rstLastCauseCause) else cause

/-- A device reset: everything returns to the state after power-on but the cause latch, the fuses, the DRAM's hard repairs and the TAP,
which works in every phase (R364, R402, R436, R443). DEDUCED: log entries 86, 92. -/
def State.deviceReset (s : State) (cause : Nat) : State :=
  let x := State.reset
  let x := { x with
    pending := s.pending, readData := s.readData, freeCtr := s.freeCtr + (if s.sys.fuseOp.isSome then 1 else 0)
    sys := { x.sys with fuses := s.fusesLeft, hardRepairs := s.sys.hardRepairs, tap := s.sys.tap, causeNew := true, porHolds := cause == 1 || s.sys.porHolds } }
  x.setF .rstLastCause Fld.rstLastCauseCause (s.causeCode cause)

/-- PIN_RESET: RESET_N, or PERST_N while perst_scope is 1, is held low for 1 µs (R364, R365). DEDUCED: log entry 92. -/
def execPinReset (perst : Bool) (s : State) : Out :=
  always s (fun s =>
    if perst && s.af .pcieEpCfg Fld.pcieEpCfgPerstScope == 0 then s else s.deviceReset 3)

/-- A write of RST.SW_RESET: any value but the key is ignored (R364). -/
def State.softwareReset (s : State) (key : W32) : State := if key = 0x53575253 then s.deviceReset 5 else s

/-- SOFTWARE_RESET: a write of RST.SW_RESET; any value but the key is ignored. -/
def execSoftwareReset (key : W32) (s : State) : Out :=
  always s (fun s => s.softwareReset key)

/-- A rail falls below its threshold: a reset once the POR cause has ended (R451). It has ended when D0 is released; before, no rule shows a
rail's rise, and a free value says whether every rail had been up for 100 µs. DEDUCED: log entry 92. -/
def State.brownout (s : State) : State :=
  if s.sys.porHolds then
    let (s, b) := s.free 1
    if b = 1 then ({ s with sys := { s.sys with porHolds := false } } : State).deviceReset 2 else s
  else s.deviceReset 2

/-- BROWNOUT (R451). DEDUCED: log entry 92. -/
def execBrownout (s : State) : Out := always s (fun s => s.brownout)

/-- VDD_AON_FALL: the always-on rail falls, everything is reset, and its rise records POR (R451). DEDUCED: log entry 92. -/
def execVddAonFall (s : State) : Out :=
  always s (fun s =>
    let x := s.deviceReset 1
    { x with sys := { x.sys with tap := Tap.reset } })

/-- The first domain that needs the monitored clock, and whether the monitor runs in a freeze (R362, R363, R367).
DEDUCED: log entry 93. -/
def monitorScope : ClockMonitor → Nat × Bool
  | .reference => (0, true)
  | .rootPll => (1, true)
  | .bclk => (2, true)
  | .mclk => (3, false)
  | .memoryPhy => (3, false)
  | .sclk => (4, false)
  | .cclk => (5, false)
  | .aclk => (6, false)

/-- CLOCK_FAIL: a monitor that judges its clock finds a fault (R362, R363). DEDUCED: log entry 93. -/
def execClockFail (m : ClockMonitor) (s : State) : Out :=
  always s (fun s =>
    if s.released (monitorScope m).1 && (!s.frozen || (monitorScope m).2) then s.deviceReset 7 else s)

/-- The domain whose release comes next; 9 after D8. -/
def State.nextDomain (s : State) : Nat := ((List.range 9).find? (fun n => !s.released n)).getD 9

/-- RELEASE_CLOCK_TIMEOUT: the clocks of the domain that comes next have not become stable within 2 ms (R368). -/
def execReleaseClockTimeout (s : State) : Out :=
  always s (fun s =>
    let n := s.nextDomain
    if 1 ≤ n ∧ n ≤ 8 ∧ (n ≠ 3 ∨ s.sys.applied) ∧ (n ≤ 1 ∨ !s.frozen) then s.deviceReset 7 else s)

/-- BASECAMP_LOCKUP: the basecamp controller retires nothing for 1 s (R371); a freeze stops the detector (R372). -/
def execBasecampLockup (s : State) : Out := clocked 0 s (fun s => if s.released 0 then s.deviceReset 8 else s)

/-- MESH_DEADLOCK: no mesh message sinks for 10 ms while one waits (R372). DEDUCED: log entry 93. -/
def execMeshDeadlock (s : State) : Out := clocked 4 s (fun s => if s.released 4 then s.deviceReset 8 else s)

/-! ## The watchdog (R373) -/

/-- The watchdog is enabled. -/
def State.wdtOn (s : State) : Bool := s.rf .rstWdtCtrl Fld.rstWdtCtrlEnable == 1

/-- Milliseconds without a kick: 0 acts as 1, above 60,000 as 60,000. -/
def State.wdtLimit (s : State) : Nat := max 1 (min 60000 (s.rf .rstWdtCtrl Fld.rstWdtCtrlLimit))

/-- Restart the watchdog's count. -/
def State.wdtRestart (s : State) : State := { s with sys := { s.sys with wdtCount := 0 } }

/-- A write of RST.WDT_CTRL (R373). -/
def State.wdtWrite (s : State) (enable : Bool) (limit : Nat) : State :=
  if s.wdtOn then s
  else ((s.setB .rstWdtCtrl Fld.rstWdtCtrlEnable enable).setF .rstWdtCtrl Fld.rstWdtCtrlLimit limit).wdtRestart

/-- WDT_ENABLE (R373). -/
def execWdtEnable (enable : Bool) (limit : W32) (s : State) : Out := always s (fun s => s.wdtWrite enable limit.toNat)

/-- A write of RST.WDT_KICK (R373): only the key restarts the count. -/
def State.wdtKick (s : State) (key : W32) : State := if key = 0x4B49434B then s.wdtRestart else s

/-- WDT_KICK (R373): only the key restarts the count. -/
def execWdtKick (key : W32) (s : State) : Out := always s (fun s => s.wdtKick key)

/-- With the next BCLK edge, of 175,000 in a millisecond, no kick has arrived within the limit (R373).
DESIGN CHOICE: log entry 1. -/
def State.wdtDue (s : State) : Bool := s.wdtOn && 175000 * s.wdtLimit ≤ s.sys.wdtCount + 1

/-- WATCHDOG: no kick has arrived within the limit (R373). DESIGN CHOICE: log entry 1. -/
def execWatchdog (s : State) : Out := always s (fun s => if s.wdtDue then s.deviceReset 4 else s)

/-! ## Release of the domains (R237, R238, R368 to R370) -/

/-- Return D3 to D8 to reset (R348): their registers and state; what D0 to D2 hold stays. -/
def State.resetUpper (s : State) : State :=
  let low (l : List (Reg × W64)) : List (Reg × W64) := l.filter (fun e => e.1.addr < 0xF00001000000)
  let x := State.reset
  let s := { x with
    pending := s.pending, csr := low s.csr, act := low s.act, image := low s.image, stn := s.stn, aclk := s.aclk, aclk6 := s.aclk6, frozen := s.frozen
    flt := s.flt, sys := { s.sys with applied := false, lpReset := true }, readData := s.readData, freeCtr := s.freeCtr }
  (s.setF .rstDomains Fld.rstDomainsReleased (s.rf .rstDomains Fld.rstDomainsReleased % 8)).setF .rstDomains Fld.rstDomainsWaiting 3

/-- Training and zeroing end (R237, R238): a stack that fails makes the load fail with code 9; a channel that fails disables the tier. -/
def State.trainingEnds (s : State) (hbmFail : Bool) (lpFail : Option (Fin 64)) : State :=
  if !s.released 3 || s.released 4 || s.rf (.hbmcStatus 0) Fld.hbmcStatusTrained == 1 then s
  else if hbmFail then s.resetUpper.loadFail 9
  else s.hbmTrained.lpTrained (lpFail.map (fun c => c.val))

/-- MEMORY_TRAINING_COMPLETE (R237). -/
def execMemoryTrainingComplete (hbmFail : Bool) (lpFail : Option (Fin 64)) (s : State) : Out :=
  clocked 3 s (fun s => s.trainingEnds hbmFail lpFail)

/-- The TAP holds an instruction that drives or isolates the pins (R445). -/
def TapInstr.tests : TapInstr → Bool
  | .extest | .highz | .clamp | .extestPulse | .extestTrain => true
  | _ => false

/-- The further condition of a domain's release (R368, R445), and clocks that a freeze stops; a freeze holds the pins too, whose phase S the
release of D2 would end, and no image is loaded in it (R436, R441). DEDUCED: log entry 98. -/
def State.releaseReady (s : State) (n : Nat) : Bool :=
  match n with
  | 0 => !(s.sys.tap.ir.tests && s.rf .rstLastCause Fld.rstLastCauseCause == 3)
  | 1 => true
  | 2 => !s.frozen
  | 3 => s.sys.applied && !s.frozen
  | 4 => s.rf (.hbmcStatus 0) Fld.hbmcStatusTrained == 1 && !s.frozen
  | n => n ≤ 8 && !s.frozen

/-- What the release of a domain begins (R297, R299, R344, R359, R369, R410, R429, R432). DEDUCED: log entry 93. -/
def State.releaseEffect (s : State) (n : Nat) (gl : W32) : State :=
  match n with
  | 0 =>
    let s := { s with stn := 0, sys := { s.sys with porHolds := false } }
    ((s.rset .bootStraps (gl.setWidth 64)).setF .clkStatus Fld.clkStatusRefSel (bitsOf gl.toNat 11 1)).setF .clkStatus
      Fld.clkStatusRefOk 1
  | 2 =>
    let s := (s.setF .clkStatus Fld.clkStatusRootLock 1).setF .clkStatus Fld.clkStatusInRange 31
    if s.bootMode = 2 then s else s.glLoad
  | 3 => ({ s with sys := { s.sys with lpReset := false } } : State).setF .clkStatus Fld.clkStatusMemPhyLock 1
  | 6 => { s with aclk6 := s.aclk }
  | 7 =>
    let s := s.setF .fabId Fld.fabIdEligible (bitsOf (s.rget .bootStraps).toNat 10 1)
    ((List.range 64).foldl (fun s p => if s.portEnabled p then s.setPortState p 1 else s) s).startElection
  | 8 => (s.setF .clkStatus Fld.clkStatusPcieLock 1).loadEnd
  | _ => s

/-- The next domain is released (R368). -/
def State.releaseNext (s : State) (gl : W32) : State :=
  let n := s.nextDomain
  if 9 ≤ n || !s.releaseReady n then s
  else
    let s := { s with sys := { s.sys with causeNew := false } }
    let s := s.setF .rstDomains Fld.rstDomainsReleased (s.rf .rstDomains Fld.rstDomainsReleased + 2 ^ n)
    (s.setF .rstDomains Fld.rstDomainsWaiting (if n = 8 then 15 else n + 1)).releaseEffect n gl

/-- DOMAIN_RELEASE (R368); `gl` is what the straps show at a D0 release (R431). -/
def execDomainRelease (gl : W32) (s : State) : Out := always s (fun s => s.releaseNext gl)

/-! ## Resetting one unit (R375 to R379) -/

/-- A resettable unit. -/
inductive UnitOf where
  | tile (n : Nat) | core (c : Nat) | port (p : Nat) | endpoint | rootPort (p : Nat)
  deriving DecidableEq, Repr

/-- The unit of an index. -/
def unitOf (u : Nat) : UnitOf :=
  if u < 384 then .tile u else if u < 480 then .core (u - 384) else if u < 544 then .port (u - 480)
  else if u = 544 then .endpoint else .rootPort (u - 545)

/-- The domain of a unit (R367). -/
def UnitOf.domain : UnitOf → Nat
  | .core _ => 5 | .tile _ => 6 | .port _ => 7 | .endpoint => 8 | .rootPort _ => 8

/-- The kind and index of a unit as a record names it (R394). -/
def UnitOf.record : UnitOf → Nat × Nat
  | .tile n => (Kind.tile, n) | .core c => (Kind.core, c) | .port p => (Kind.port, p) | .endpoint => (Kind.endpoint, 0)
  | .rootPort p => (Kind.rootPort, p)

/-- The registers of a unit (R376). -/
def UnitOf.owns (u : UnitOf) (r : Reg) : Bool :=
  match u with
  | .tile n => 0xF00020000000 + n * 0x100000 ≤ r.addr && r.addr < 0xF00020000000 + (n + 1) * 0x100000
  | .core _ => false
  | .port p => match r with
    | .fabPortCfg q | .fabPortCommit q | .fabPortStatus q | .fabPortPeer q | .fabPortFec q | .fabPortLink q | .fabPortEvents q
    | .fabPortFlits q => p == q
    | _ => false
  | .endpoint => 0xF00040000000 ≤ r.addr && r.addr < 0xF00040020000
  | .rootPort p => 0xF00040020000 + p * 0x10000 ≤ r.addr && r.addr < 0xF00040030000 + p * 0x10000

/-- The registers of a unit take their reset values, image fields those of the last load (R376). -/
def State.resetRegs (s : State) (u : UnitOf) : State :=
  let s := { s with csr := s.csr.filter (fun e => !u.owns e.1), act := s.act.filter (fun e => !u.owns e.1) }
  (s.image.filter (fun e => u.owns e.1)).foldl (fun s e => (s.rset e.1 e.2).aset e.1 e.2) s

/-- RST.UNIT[u].state. -/
def State.unitState (s : State) (u : Nat) : Nat := s.rf (.rstUnit u) Fld.rstUnitState

/-- A reduction packet is for the port of tile `n`: of an open bucket of its job's binding; any other goes to no port (R142, R155). -/
def State.portPacket (s : State) (n : Nat) (k : Pkt) : Bool :=
  k.typ == PT.red && (match (s.job k.redJob).binding with
    | some g =>
      (k.redKind == RK.contrib || k.redKind == RK.check || k.redKind == RK.result) && g.portOf (k.redOffset / 56) == n
        && k.redEpoch == g.epoch && !s.jobBroken k.redJob
        && (match s.bucket? k.redJob k.redSeq with | some b => b.live | none => false)
    | none => false)

/-- The packets that the reduction port of tile `n` holds: arrived, or waiting for a comparison (R158, R375). -/
def State.portPackets (s : State) (n : Nat) : List Pkt :=
  (s.fab.inq.map Prod.snd ++ s.jobs.flatMap (fun e => (e.2.atPort ++ e.2.buckets.flatMap (fun b => b.held)).map (fun h => h.pkt))).filter
    (s.portPacket n)

/-- A unit is idle (R375). -/
def State.unitIdle (s : State) (u : UnitOf) : Bool :=
  match u with
  | .tile n =>
    let t := s.tile n
    t.seq != .run && !t.launched && (List.range 8).all (fun a => !t.xferBusy a) && !s.tileAcks n
      && (s.portPackets n).isEmpty
  | .core c =>
    (s.core c).stopped && (s.core c).lines.isEmpty && (s.core c).misses.isEmpty
      && !s.mesh.any (fun m => match m with | .wbDirty x _ _ | .wbClean x _ => x == c | _ => false)
  | .port p => (s.port p).retry.isEmpty && (s.port p).outQ.isEmpty
  | .endpoint =>
    let host (e : RpRead) : Bool := match e.reply with | .host _ => true | _ => false
    s.io.reads.isEmpty && s.io.flushes.isEmpty && !s.io.rpReads.any host && !s.io.rpWaiting.any (fun e => host e.1)
  | .rootPort p => !s.io.rpReads.any (fun e => e.port == p) && !s.io.rpWaiting.any (fun e => e.1.port == p)

/-- Step 1 of a unit's reset (R375): a tile takes a HALT and a core stops, with its record if it ran (R313), unless a freeze has stopped its clock
(R404); other units take no new work by their state. DEDUCED: log entry 96. -/
def State.unitQuiesce (s : State) (u : UnitOf) : State :=
  if s.frozen then s else
  match u with
  | .tile n => s.seqHalt n
  | .core c => if s.coreRuns c then s.coreStop c else s.setCore c (s.core c).stop
  | _ => s

/-- RESET written to RST.UNIT[u].cmd (R375, R379). DEDUCED: log entry 96. -/
def State.unitReset (s : State) (u : Nat) : State :=
  let x := unitOf u
  if !s.released x.domain || s.unitState u == 1 || s.unitState u == 2 then s.setF (.rstUnit u) Fld.rstUnitError 1
  else (s.unitQuiesce x).setF (.rstUnit u) Fld.rstUnitState 1

/-- UNIT_RESET_COMMAND (R375). -/
def execUnitResetCommand (u : UnitId) (s : State) : Out := always s (fun s => s.unitReset u)

/-- The buckets whose packets wait at the port of a tile end by an error of the port (R377). -/
def State.abortPortBuckets (s : State) (n : Nat) : State :=
  let ks := (s.portPackets n).map (fun k => (k.redJob, k.redSeq))
  ks.foldl (fun s k => s.redAbort k.1 k.2 3) s

/-- A tile's own state after a reset of it (R47, R376). DEDUCED: log entry 11. -/
def State.clearTile (s : State) (n : Nat) : State :=
  let s := s.setTile n { Tile.reset with since := s.aclk }
  { s with fab := { s.fab with
      openReqs := s.fab.openReqs.filter (fun r => r.owner.tile? != some n)
      regReqs := s.fab.regReqs.filter (fun r => r.owner.tile? != some n)
      fetched := s.fab.fetched.filter (fun f => f.1.tile? != some n)
      failed := s.fab.failed.filter (fun f => f.1.tile? != some n) } }

/-- A core's own state after a reset of it; the lines that it still owned are written as uncorrectable, and so are those whose dirty
data it had received, and a CORE_UE record holds the address of each (R312, R377). A grant that it had received is acknowledged, so that its home goes on. -/
def State.clearCore (s : State) (c : Nat) : State :=
  let owned := ((s.core c).lines.filter (fun e => e.2.st != .shared)).map Prod.fst
    ++ ((s.core c).misses.filter (fun m => m.dirty)).map (fun m => m.line)
  let s := ((s.core c).misses.filter (fun m => m.grant.isSome)).foldl (fun s m => s.mesh! (.compAck c m.line)) s
  let s := owned.foldl (fun s la =>
    let h := s.homeOf la
    ((s.spoilLine la).setHome h { s.home h with dir := (s.home h).dir.filter (fun d => d.line != la) }).report
      { mkRec Cls.coreUe 0 Kind.core c with addr := BitVec.ofNat 64 la }) s
  s.setCore c HostCore.reset

/-- Step 3 begins (R375, R377, R378): what a forced reset loses, and the unit's state and registers. DEDUCED: log entry 95. -/
def State.unitAssert (s : State) (u : Nat) (forced : Bool) : State :=
  let x := unitOf u
  let s := match x with
    | .tile n =>
      let s := s.failTaskOn n
      (if forced then s.abortPortBuckets n else s).clearTile n
    | .core c => s.clearCore c
    | .port p =>
      if forced then s.portDown p
      else
        let up := s.portUp p
        let s := s.setPortState p 0
        let s := if up && s.idValid then s.reportLinks else s
        s.setPort p Port.reset
    | .endpoint => if forced || s.rf .pcieEpStatus Fld.pcieEpStatusLinkUp == 1 then s.linkLoss .hotReset else s.configReset
    | .rootPort p =>
      let s := (s.io.rpReads.filter (fun (e : RpRead) => e.port == p)).foldl (fun (s : State) (e : RpRead) => s.rpFails p e.addr e.size e.reply) s
      let s := (s.io.rpWaiting.filter (fun (e : RpRead × Tlp) => e.1.port == p)).foldl (fun (s : State) (e : RpRead × Tlp) => s.rpFails p e.1.addr e.1.size e.1.reply) s
      let s := { s with io := { s.io with
        rpReads := s.io.rpReads.filter (fun (e : RpRead) => e.port != p), rpWaiting := s.io.rpWaiting.filter (fun (e : RpRead × Tlp) => e.1.port != p)
        aer := nset 0 s.io.aer (p + 1) 0 } }
      (if forced && !s.rpUp p then s.report (mkRec Cls.rpLinkDown 0 Kind.rootPort p) else s.rpLinkDown p).setPerst p true
  ((s.resetRegs x).setF (.rstUnit u) Fld.rstUnitState 2).setB (.rstUnit u) Fld.rstUnitForced forced

/-- UNIT_IDLE: a unit asked to become idle is idle (R375). -/
def execUnitIdle (u : UnitId) (s : State) : Out :=
  clocked 0 s (fun s => if s.unitState u = 1 ∧ s.unitIdle (unitOf u) then s.unitAssert u false else s)

/-- UNIT_RESET_TIMEOUT: it has not become idle within RST.UNIT_TIMEOUT (R375). -/
def execUnitResetTimeout (u : UnitId) (s : State) : Out :=
  clocked 0 s (fun s => if s.unitState u = 1 ∧ !s.unitIdle (unitOf u) then s.unitAssert u true else s)

/-- The reset is released (R375, R376): a host core stays held; an enabled port trains; the reduction port of a tile serves what waits
(R378). DEDUCED: log entry 94. -/
def State.unitHoldEnd (s : State) (u : Nat) : State :=
  if s.unitState u ≠ 2 then s
  else
    let x := unitOf u
    let s := s.setF (.rstUnit u) Fld.rstUnitState (match x with | .core _ => 3 | _ => 0)
    let s := s.bumpF (.rstUnit u) Fld.rstUnitResets 1
    let s := match x with
      | .port p => if s.portEnabled p then s.setPortState p 1 else s
      | .tile _ => s.portsResume
      | _ => s
    s.report { mkRec Cls.unitReset 2 x.record.1 x.record.2 with forced := s.rf (.rstUnit u) Fld.rstUnitForced == 1 }

/-- UNIT_RESET_HOLD_END (R376). -/
def execUnitResetHoldEnd (u : UnitId) (s : State) : Out := clocked 0 s (fun s => s.unitHoldEnd u)

/-- RELEASE written to RST.UNIT[u].cmd (R370, R375, R379): a held host core starts at RST.CORE_VECTOR, unless a freeze has stopped its
clock (R404). DEDUCED: log entry 96. -/
def State.unitRelease (s : State) (u : Nat) : State :=
  match unitOf u with
  | .core c =>
    if s.released 5 && s.unitState u == 3 then
      let s := s.setF (.rstUnit u) Fld.rstUnitState 0
      if s.frozen then s else s.setCore c { HostCore.reset with pc := s.rget .rstCoreVector }
    else s.setF (.rstUnit u) Fld.rstUnitError 1
  | _ => s.setF (.rstUnit u) Fld.rstUnitError 1

/-- UNIT_RELEASE (R375). -/
def execUnitRelease (u : UnitId) (s : State) : Out := always s (fun s => s.unitRelease u)

end Sys2Proof.Machine
end

