-- ==== Sys2Proof/Machine/Time.lean ====
section
/-! DEFINITION. The station clock, telemetry and alerts, PTP frames, the run-phase pins, the trace port, and the TAP (R410 to R421, R438 to
R446). -/

namespace Sys2Proof.Machine

/-! ## The station clock (R410 to R416) -/

/-- TIME.STATUS.state: 0 FREE, 1 ACQUIRE, 2 LOCKED, 3 HOLDOVER. -/
def State.clockState (s : State) : Nat := s.rf .timeStatus Fld.timeStatusState

/-- Set the remaining slew, in units of 2^-40 ns. -/
def State.setSlew (s : State) (x : Int) : State := { s with sys := { s.sys with slew := x } }

/-- GL[1] rises, if PPS output is on, in run phase (R417). -/
def State.ppsRise (s : State) : State :=
  if s.runPhase && !s.frozen && s.af .timeCfg Fld.timeCfgPpsOutEn == 1 then { s with sys := { s.sys with pps := some s.now.toNat } } else s

/-- Whole multiples of 10^9 ns that station time has reached. -/
def State.second (s : State) : Nat := s.stn / (10 ^ 9 * 2 ^ 40)

/-- A write to TIME.SET (R415): a forward step, or a refusal. It discards the slew that remains, but not one committed in the same BCLK, whose
commit applies after it; a step over a whole second raises GL[1] (R417). DEDUCED: log entry 103. -/
def State.timeSet (s : State) (t : W64) : State :=
  if s.now ≤ t then
    let x : State := ({ s with stn := t.toNat * 2 ^ 40 } : State)
    let x := if s.sys.slewNew then x else x.setSlew 0
    if s.second < x.second then x.ppsRise else x
  else s.setF .timeStatus Fld.timeStatusSetError 1

/-- TIME_SET (R415). -/
def execTimeSet (t : W64) (s : State) : Out := always s (fun s => s.timeSet t)

/-- The error code of a TIME commit (R414); every value of state_req is defined. DEDUCED, DESIGN CHOICE: log entries 89, 110. -/
def State.timeCommitError (s : State) : Nat :=
  if 549755813 < (sgn 32 (s.rf .timeAdj Fld.timeAdjRate)).natAbs then 1
  else if s.repitchState = 2 then 2
  else 0

/-- TIME.COMMIT with commit = 1 (R414, R416): while GL[11:0] are in load phase the state stays HOLDOVER.
DEDUCED: log entries 97, 103. -/
def State.timeCommit (s : State) : State :=
  let e := s.timeCommitError
  let s := s.setF .timeStatus Fld.timeStatusCommitError e
  if e ≠ 0 then s
  else
    let s := (s.commitReg .timeAdj).commitReg .timeCfg
    let s := s.setSlew (sgn 32 (s.rf .timeAdj Fld.timeAdjSlew) * 2 ^ 40)
    let s : State := { s with sys := { s.sys with slewNew := true, sinceCommit := 0 } }
    match s.rf .timeCfg Fld.timeCfgStateReq with
    | 0 => s
    | 3 => s.holdover
    | n => if s.loadPhase then s else s.setF .timeStatus Fld.timeStatusState n

/-- TIME_COMMIT (R414). -/
def execTimeCommit (s : State) : Out := always s (fun s => s.timeCommit)

/-- TIME.CFG.holdover_s seconds in BCLK cycles; 0 acts as 1 (R416). DESIGN CHOICE: log entry 1. -/
def State.holdoverLimit (s : State) : Nat := 175000000 * max 1 (s.af .timeCfg Fld.timeCfgHoldoverS)

/-- With the next BCLK edge no commit has passed for holdover_s seconds, and the clock is LOCKED (R416).
DESIGN CHOICE: log entry 1. -/
def State.holdoverDue (s : State) : Bool := s.clockState == 2 && s.holdoverLimit ≤ s.sys.sinceCommit + 1

/-- The clock enters HOLDOVER once its last commit is too old (R416). -/
def State.holdoverEnd (s : State) : State := if s.holdoverDue then s.holdover else s

/-- HOLDOVER_TIMEOUT: no commit for holdover_s seconds while LOCKED (R416). DESIGN CHOICE: log entry 1. -/
def execHoldoverTimeout (s : State) : Out := always s (fun s => s.holdoverEnd)

/-- One edge's time before its correction, in units of 2^-40 ns (R410): 10 ns before the release of D2, 40/7 ns after it. -/
def State.stepBase (s : State) : Nat := if s.released 2 then 40 * 2 ^ 40 / 7 else 10 * 2 ^ 40

/-- The slew that one edge consumes: 100 parts per million of the edge's time (R410). DESIGN CHOICE: log entry 1. -/
def State.slewStep (s : State) : Nat := s.stepBase / 10000

/-- SLEW_COMPLETE: the next edge consumes what remains of the slew (R410). DEDUCED: log entry 97. -/
def State.slewEnd (s : State) : State := if s.sys.slew.natAbs ≤ s.slewStep then s.setSlew 0 else s

/-- SLEW_COMPLETE (R410). -/
def execSlewComplete (s : State) : Out := always s (fun s => s.slewEnd)

/-- What one edge of the D0 clock adds to the station counter, truncated to 2^-40 ns (R410). DESIGN CHOICE: log entry 1. -/
def State.stepTime (s : State) : Nat :=
  let rate := sgn 32 (s.aget .timeAdj).toNat
  let slew : Int := if s.sys.slew = 0 then 0 else if 0 < s.sys.slew then 100 else -100
  let den : Int := 7 * 2 ^ 40 * 1000000
  let num : Int := (if s.released 2 then 40 * 2 ^ 40 else 70 * 2 ^ 40) * (2 ^ 40 * 1000000 + rate * 1000000 + slew * 2 ^ 40)
  (num / den).toNat

/-- One edge of the D0 clock: station time and slew advance (R410). DESIGN CHOICE: log entry 1. -/
def State.stepClock (s : State) : State :=
  let k : Int := s.slewStep
  let left := if s.sys.slew.natAbs ≤ s.slewStep then 0 else if 0 < s.sys.slew then s.sys.slew - k else s.sys.slew + k
  ({ s with stn := s.stn + s.stepTime } : State).setSlew left

/-! ## Alerts and telemetry (R418 to R420) -/

/-- A sensor reads at or above warn (R419). -/
def State.tooHot (s : State) : Bool :=
  (List.range 56).any (fun i => ((s.rf .timeThermal Fld.timeThermalWarn * 16 : Nat) : Int) ≤ sgn 16 (s.rf (.timeTemp i) Fld.timeTempTemp))

/-- Package power exceeds power_alert (R419). -/
def State.tooMuch (s : State) : Bool :=
  s.rf .timeThermal Fld.timeThermalPowerAlert * 10 < s.rf .timePower Fld.timePowerPackage

/-- LOCKED and |TIME.OFFSET| exceeds alert_offset (R420). -/
def State.offTime (s : State) : Bool :=
  s.clockState == 2 && s.af .timeCfg Fld.timeCfgAlertOffset < (sgn 64 (s.rget .timeOffset).toNat).natAbs

/-- Conditions that hold set their bits of TIME.ALERT (R419, R420). DESIGN CHOICE, DEDUCED: log entries 1, 97. -/
def State.alerts (s : State) : State :=
  let s := if s.offTime then s.setF .timeAlert Fld.timeAlertOffset 1 else s
  let s := if s.tooHot then s.setF .timeAlert Fld.timeAlertTemp 1 else s
  if s.tooMuch then s.setF .timeAlert Fld.timeAlertPower 1 else s

/-- A sensor's value (R418): the latest, and the highest since the last read. -/
def State.setTemp (s : State) (i : Nat) (t : W16) : State :=
  let r := Reg.timeTemp i
  let s := s.setF r Fld.timeTempTemp t.toNat
  if sgn 16 (s.rf r Fld.timeTempPeak) < sgn 16 t.toNat then s.setF r Fld.timeTempPeak t.toNat else s

/-- HBMC.STATUS of a stack follows its sensor (R418, R458): whole degrees, and doubled refresh above 85 °C.
DEDUCED: log entry 90. -/
def State.stackTemp (s : State) (i : Nat) (t : W16) : State :=
  let deg := sgn 16 t.toNat / 16
  (s.setF (.hbmcStatus i) Fld.hbmcStatusTemp deg.toNat).setB (.hbmcStatus i) Fld.hbmcStatusHotRefresh (85 * 16 < sgn 16 t.toNat)

/-- TELEMETRY_SAMPLE (R418): 56 sensors, power and energy, and the alerts that they raise; in a freeze the stacks' own registers stop.
A sensor that the list does not reach keeps its value. DESIGN CHOICE, DEDUCED: log entries 4, 90. -/
def State.telemetry (s : State) (temps : List W16) (power energy : W64) : State :=
  let at_ (s : State) (i : Nat) : W16 := temps.getD i (BitVec.ofNat 16 (s.rf (.timeTemp i) Fld.timeTempTemp))
  let s := (List.range 56).foldl (fun s i => s.setTemp i (at_ s i)) s
  let s := if s.frozen then s else (List.range 16).foldl (fun s i => s.stackTemp i (at_ s (40 + i))) s
  ((s.rset .timePower power).rset .timeEnergy energy).alerts

/-- TELEMETRY_SAMPLE. -/
def execTelemetrySample (temps : List W16) (power energy : W64) (s : State) : Out :=
  always s (fun s => s.telemetry temps power energy)

/-- TELEMETRY: an op 20 request is answered by op 21 (R422). -/
def execTelemetry (src : Ether) (seq : W16) (s : State) : Out :=
  onFrame src s (fun s =>
    if s.firmwareRuns then s.unlessSending src.src 21 seq.toNat (fun s =>
      s.answerFrame src.src 21 0 seq.toNat 0
        (leBytes 8 s.now.toNat ++ leBytes 8 (s.rget .timePower).toNat ++ leBytes 8 (s.rget .timeEnergy).toNat
          ++ (List.range 56).flatMap (fun i => leBytes 2 (s.rf (.timeTemp i) Fld.timeTempTemp)) ++ leBytes 1 s.clockState
          ++ List.replicate 7 0))
    else s)

/-- The port accepts a frame by its destination, its first six bytes: its own address, broadcast, or a PTP multicast address (R421).
DESIGN CHOICE: log entry 120. -/
def State.acceptsPtp (s : State) (bytes : List Byte) : Bool :=
  let dst := BitVec.ofNat 48 (leNat (bytes.take 6).reverse)
  6 ≤ bytes.length && (dst == s.mac || groupAddresses.contains dst)

/-- PTP_FRAME: the MAC stamps a received PTP frame with station time (R421). DESIGN CHOICE: log entry 4. -/
def execPtpFrame (bytes : List Byte) (s : State) : Out :=
  always s (fun s => if s.acceptsPtp bytes then { s with sys := { s.sys with ptp := (s.now, bytes) :: s.sys.ptp } } else s)

/-! ## Run-phase pins (R417, R438, R440) -/

/-- PPS_IN_EDGE: a rising edge on GL[0] (R417): accepted in run phase, with pps_in_en, 0.5 s or more after the last accepted one.
DEDUCED: log entry 97. -/
def execPpsInEdge (s : State) : Out :=
  always s (fun s =>
    if s.runPhase && s.af .timeCfg Fld.timeCfgPpsInEn == 1
        && (!s.sys.ppsSeen || (s.rget .timePpsIn).toNat + 500000000 ≤ s.now.toNat) then
      ({ s with sys := { s.sys with ppsSeen := true } } : State).rset .timePpsIn s.now
    else s)

/-- Station time is within one BCLK of a whole second: the last edge crossed one, or the next one does (R417).
DESIGN CHOICE: log entry 1. -/
def State.ppsNear (s : State) : Bool :=
  s.second < s.stepClock.second || (0 < s.second && s.stn % (10 ^ 9 * 2 ^ 40) < s.stepTime)

/-- PPS_OUT: station time crosses a whole second and GL[1] rises (R417); in a freeze it holds its level (R436).
DESIGN CHOICE: log entry 1. -/
def execPpsOut (s : State) : Out :=
  clocked 0 s (fun s => if s.ppsNear then s.ppsRise else s)

/-- GL[1] falls 100 ms after it rose (R417). DESIGN CHOICE: log entry 1. -/
def State.ppsFall (s : State) : State :=
  match s.sys.pps with
  | some t => if t + 100000000 ≤ s.now.toNat ∨ !s.runPhase then { s with sys := { s.sys with pps := none } } else s
  | none => s

/-- SIDEBAND_FALLING_EDGE: a falling edge of SBI0 or SBI1 in run phase sets its latch (R438). -/
def execSidebandFallingEdge (i : Fin 2) (s : State) : Out :=
  always s (fun s =>
    if s.runPhase then s.setF .bootSideband (if i = 0 then Fld.bootSidebandSbi0Fell else Fld.bootSidebandSbi1Fell) 1 else s)

/-- TIME_MARK: a time mark is queued on the trace port (R440). DESIGN CHOICE: log entry 1. -/
def execTimeMark (s : State) : Out :=
  always s (fun s => if s.traceOn Fld.bootTraceMarks then s.traceFrame 2 (leBytes 8 s.now.toNat) else s)

/-- One cycle of the trace port (R440): the next byte of a frame, or the idle byte. DESIGN CHOICE, DEDUCED: log entries 1, 97. -/
def State.traceShift (s : State) : State :=
  if !s.runPhase || s.rf .bootTrace Fld.bootTraceEnable != 1 then { s with sys := { s.sys with trd := 0 } }
  else match s.sys.traceQ with
    | [] => { s with sys := { s.sys with trd := 0 } }
    | [] :: rest => { s with sys := { s.sys with trd := 0, traceQ := rest } }
    | [b] :: rest => { s with sys := { s.sys with trd := b, traceQ := rest } }
    | (b :: l) :: rest => { s with sys := { s.sys with trd := b, traceQ := l :: rest } }

/-- What TRD[7:0] carry; nothing drives them outside run phase (R355, R435). -/
def State.traceOut (s : State) : Option Byte := if s.runPhase then some s.sys.trd else none

/-! ## The TAP (R443 to R446) -/

/-- What Capture-IR loads (R443). -/
def State.captureIr (s : State) : Byte :=
  BitVec.ofNat 8 (1 + (if s.sys.tap.refused then 4 else 0) + (if s.frozen then 8 else 0))

/-- Load an instruction into the TAP, with what its data register captures. -/
def State.tapLoad (s : State) (ir : TapInstr) (captured : W64) : State :=
  { s with sys := { s.sys with tap := { s.sys.tap with ir := ir, refused := false, captured := captured } } }

/-- A pin test instruction is accepted only while RESET_N is held low; otherwise BYPASS is loaded and the refusal noted (R445).
DEDUCED: log entry 97. -/
def State.tapTest (s : State) (ir : TapInstr) (resetLow : Bool) : State :=
  if resetLow && !s.released 0 then s.tapLoad ir 0
  else
    let s := s.tapLoad .bypass 0
    { s with sys := { s.sys with tap := { s.sys.tap with refused := true } } }

/-- TAP_RESET: TRST_N resets the TAP and selects IDCODE (R443). -/
def execTapReset (s : State) : Out :=
  always s (fun s => { s with sys := { s.sys with tap := { Tap.reset with cells := s.sys.tap.cells } } })
/-- EXTEST (R444, R445). -/
def execExtest (resetLow : Bool) (s : State) : Out := always s (fun s => s.tapTest (tapInstr 0x00) resetLow)
/-- HIGHZ (R445). -/
def execHighz (resetLow : Bool) (s : State) : Out := always s (fun s => s.tapTest (tapInstr 0x03) resetLow)
/-- CLAMP (R445). -/
def execClamp (resetLow : Bool) (s : State) : Out := always s (fun s => s.tapTest (tapInstr 0x04) resetLow)
/-- EXTEST_PULSE (R444, R445). -/
def execExtestPulse (resetLow : Bool) (s : State) : Out := always s (fun s => s.tapTest (tapInstr 0x05) resetLow)
/-- EXTEST_TRAIN (R444, R445). -/
def execExtestTrain (resetLow : Bool) (s : State) : Out := always s (fun s => s.tapTest (tapInstr 0x06) resetLow)
/-- The boundary register with what is shifted in, from the cell nearest TDO on (R444). DESIGN CHOICE: log entry 129. -/
def shiftedCells (cells : List Bool) : List Bool := cells.take boundaryLength ++ List.replicate (boundaryLength - cells.length) false

/-- SAMPLE_PRELOAD: the boundary register takes what is shifted in (R444). DESIGN CHOICE: log entry 129. -/
def execSamplePreload (cells : List Bool) (s : State) : Out :=
  always s (fun s =>
    let s := s.tapLoad (tapInstr 0x01) 0
    { s with sys := { s.sys with tap := { s.sys.tap with cells := shiftedCells cells } } })
/-- IDCODE: 0x0296_B4A7 with the stepping code in bits [31:28] (R444). -/
def execIdcode (s : State) : Out :=
  always s (fun s => s.tapLoad (tapInstr 0x02) (BitVec.ofNat 64 (0x0296B4A7 + bitsOf s.sys.fuses.part.toNat 40 4 * 2 ^ 28)))
/-- BYPASS (R444). -/
def execBypass (s : State) : Out := always s (fun s => s.tapLoad (tapInstr 0xFF) 0)
/-- DEVRESET raises a DEBUG reset in Update-IR (R364, R444). -/
def execDevreset (s : State) : Out := always s (fun s => (s.tapLoad (tapInstr 0x10) 0).deviceReset 6)

/-- The TAP may read the chains (R446). -/
def State.tapReads (s : State) : Bool := s.frozen && s.rf .frzCfg Fld.frzCfgJtagRead == 1

/-- FRZ_SEL (R446). -/
def execFrzSel (chain : W16) (word : W32) (s : State) : Out :=
  always s (fun s =>
    let s := s.tapLoad (tapInstr 0x11) 0
    if s.tapReads then
      (s.setF .frzChainSel Fld.frzChainSelChain chain.toNat).setF .frzChainSel Fld.frzChainSelWord word.toNat
    else s)
/-- FRZ_READ (R446): the selected word, after which the index advances. -/
def execFrzRead (s : State) : Out :=
  always s (fun s => if s.tapReads then let t := s.chainRead; t.tapLoad (tapInstr 0x12) t.readData else s.tapLoad (tapInstr 0x12) 0)
/-- FRZ_LEN (R446). -/
def execFrzLen (s : State) : Out :=
  always s (fun s =>
    s.tapLoad (tapInstr 0x13) (if s.tapReads then BitVec.ofNat 64 (s.chainLen (s.rf .frzChainSel Fld.frzChainSelChain)) else 0))

/-! ## CHAIN_READ (R407, R422) -/

/-- Ops 33 and 34 are accepted: from the peer, while write_en is 1 (R422). -/
def State.mgmtMay (s : State) (src : BitVec 48) : Bool := src == s.peer && s.rf .timeMgmtCfg Fld.timeMgmtCfgWriteEn == 1

/-- Up to `n` words of the selected chain, each read advancing the index (R407). -/
def State.chainWords (s : State) : Nat → List Byte → State × List Byte
  | 0, l => (s, l)
  | n + 1, l =>
    if s.rf .frzChainSel Fld.frzChainSelWord < s.chainLen (s.rf .frzChainSel Fld.frzChainSelChain) then
      let s := s.chainRead
      s.chainWords n (l ++ leBytes 8 s.readData.toNat)
    else (s, l)

/-- CHAIN_READ (R422): up to 124 words of a chain from a word on. -/
def execChainRead (src : Ether) (seq : W16) (chain : W16) (first : W32) (s : State) : Out :=
  onFrame src s (fun s =>
    if !s.firmwareRuns then s
    else s.unlessSending src.src 34 seq.toNat (fun s =>
    if !s.mgmtMay src.src then s.answerFrame src.src 34 1 seq.toNat 0 []
    else
      let s := (s.setF .frzChainSel Fld.frzChainSelChain chain.toNat).setF .frzChainSel Fld.frzChainSelWord first.toNat
      let (s, l) := s.chainWords 124 []
      s.answerFrame src.src 34 0 seq.toNat 0 (leBytes 2 chain.toNat ++ leBytes 2 0 ++ leBytes 4 first.toNat ++ l)))

end Sys2Proof.Machine
end

