-- ==== Sys2Proof/Machine/RegRead.lean ====
section
/-! DEFINITION. Reading a register (R4, R6, R7, R9): what each register shows, the fields that a read clears, and the reads that start
an action. -/

namespace Sys2Proof.Machine

/-! ## Registers that show the state of a unit -/

/-- A value of fields. -/
def pack (l : List (Fld × Nat)) : W64 := l.foldl (fun v e => withField v e.1 e.2) 0

/-- One for true. -/
def bit (b : Bool) : Nat := if b then 1 else 0

/-- Bits of a number, one for each array that satisfies `p`. -/
def arrayBits (p : Nat → Bool) : Nat := ((List.range 4).map (fun m => if p m then 2 ^ m else 0)).sum

/-- The code of a sequencer state. -/
def SeqState.code : SeqState → Nat
  | .idle => 0 | .run => 1 | .halted => 2 | .faulted => 3

/-- MA `m` runs a pass: one runs, or waits for its check points. DEDUCED: log entry 33. -/
def Tile.passRuns (t : Tile) (m : Nat) : Bool := (t.array m).run.isSome || !(t.array m).finishing.isEmpty

/-- The buffer of MA `m` drains. -/
def Tile.drains (t : Tile) (m : Nat) : Bool := (t.array m).drains.any (fun d => d.started)

/-- TILE.STATUS. DEDUCED: log entry 33. -/
def Tile.statusView (t : Tile) : W64 :=
  pack [(Fld.tileStatusState, t.seq.code), (Fld.tileStatusArrayBusy, arrayBits t.passRuns),
    (Fld.tileStatusDrainBusy, arrayBits t.drains)]

/-- SEQ.STATUS. -/
def Tile.seqView (t : Tile) : W64 :=
  pack [(Fld.seqStatusPc, t.pc.toNat), (Fld.seqStatusWaitReason, t.wait.toNat), (Fld.seqStatusHaltCause, t.cause.toNat)]

/-- MA.STATUS. -/
def Tile.maView (t : Tile) (m : Nat) : W64 :=
  pack [(Fld.maStatusBusy, bit (t.passRuns m)), (Fld.maStatusAccSet, bit (t.array m).lastSet),
    (Fld.maStatusDraining, bit (t.drains m))]

/-- AGEN.STATUS. -/
def Tile.agenView (t : Tile) (a : Nat) : W64 :=
  let x := t.agen a
  pack [(Fld.agenStatusRunning, bit x.run.isSome), (Fld.agenStatusQueued, bit x.queued.isSome),
    (Fld.agenStatusStaged, x.staged.length), (Fld.agenStatusSlice, x.slice)]

/-- A descriptor waits on peg `p` for a value that the peg has not shown it. -/
def State.stillWaits (s : State) (p : Nat) (x : Ring) (d : Desc) : Bool :=
  x.waitsOn p d && !d.pegSeen && !d.pegFault && !pegCond d.waitCond (s.peg p) (BitVec.ofNat 64 d.waitValue)

/-- PEG.WAITERS. DEDUCED: log entry 54. -/
def State.waitersView (s : State) (p : Nat) : W64 :=
  pack [(Fld.pegWaitersDescriptors, (s.rings.map (fun e => (e.2.descs.filter (fun d => s.stillWaits p e.2 d)).length)).sum),
    (Fld.pegWaitersTiles, (s.tiles.filter (fun e => match e.2.pwait with | some x => x.peg == p && !x.seen | none => false)).length)]

/-- PIPE.TRACKER (R212). -/
def State.trackerView (s : State) : W64 :=
  pack [(Fld.pipeTrackerInUse, (s.rings.map (fun e => e.2.descs.length)).sum),
    (Fld.pipeTrackerArmedCredit, (s.activeRings.map (fun r =>
      if s.ringState r = 1 ∨ s.ringState r = 2 then s.af (.ringCfg r) Fld.ringCfgCredit else 0)).sum)]

/-- PIPE.STASH_USED (R130, R131). -/
def State.stashUsedView (s : State) : W64 :=
  let c := s.stashCfg
  let pages (lp : Bool) : Nat := ((s.sched.stash.entries.filter (fun e => e.lp == lp)).map (fun e => e.pages)).sum
  pack [(Fld.pipeStashUsedHbmPages, (if c.enable then c.layout.hbm else 0) + pages false),
    (Fld.pipeStashUsedLpPages, (if c.enable then c.layout.lp else 0) + pages true)]

/-- HOME.STATUS: a home walks for a flip until it has no entry and no transaction in the run (R265). DEDUCED: log entry 90. -/
def State.homeView (s : State) (h : Nat) : W64 :=
  let x := s.home h
  let walks := match s.flip with
    | some f => f.device && (x.dir.any (fun e => s.flips e.line) || x.txns.any (fun t => s.flips t.line))
    | none => false
  pack [(Fld.homeStatusFlipWalk, bit walks), (Fld.homeStatusOpen, x.txns.length), (Fld.homeStatusRetryWaiting, x.retry.length)]

/-- DIR.OCCUPANCY (R270). -/
def State.occupancyView (s : State) (h : Nat) : W64 :=
  let x := s.home h
  pack [(Fld.dirOccupancyValid, x.dir.length), (Fld.dirOccupancyPinned, (x.dir.filter x.pinned).length)]

/-- HOME.BIAS_MAP (R261): pages at or beyond a window's usable size read 0. -/
def State.biasView (s : State) (w : Nat) : W64 :=
  (s.bias.filter (fun p => p / 64 == w && s.usable (p * 2 ^ 21))).foldl (fun v p => v ||| BitVec.ofNat 64 (2 ^ (p % 64))) 0

/-- The level of a guyline pin: as the device drives it, or as the board does (R438, R439). DEDUCED: log entry 98. -/
def State.pinIn (s : State) (pin : Nat) (driven : Level) : Bool := driven.getD (Config.pinLevel pin s.stn)

/-- BOOT.GPIO (R439). -/
def State.gpioView (s : State) : W64 :=
  withField (s.rget .bootGpio) Fld.bootGpioIn
    (((List.range 16).map (fun i => if s.pinIn (16 + i) (s.gpio i) then 2 ^ i else 0)).sum)

/-- BOOT.SIDEBAND (R438): SBI0 on GL[6], SBI1 on GL[7]. -/
def State.sidebandView (s : State) : W64 :=
  withField (withField (s.rget .bootSideband) Fld.bootSidebandSbi0 (bit (s.pinIn 6 none))) Fld.bootSidebandSbi1
    (bit (s.pinIn 7 none))

/-- RST.WDT_STATUS (R373): a millisecond is 175,000 BCLK. -/
def State.wdtView (s : State) : W64 :=
  pack [(Fld.rstWdtStatusRemaining, if s.wdtOn then s.wdtLimit - s.sys.wdtCount / 175000 else 0)]

/-- FRZ.CHAIN_SEL.chain. -/
def State.chainSel (s : State) : Nat := s.rf .frzChainSel Fld.frzChainSelChain

/-- What a register holds for a reader, before WO and reserved bits are taken away. DEDUCED: log entry 103. -/
def State.regView (s : State) (r : Reg) : W64 :=
  match r with
  | .tileStatus n => (s.tile n).statusView
  | .seqStatus n => (s.tile n).seqView
  | .maStatus n m => (s.tile n).maView m
  | .agenSetup n a w => s.setupWord n a w
  | .agenStatus n a => (s.tile n).agenView a
  | .vecSrKey n | .vecSrIndex n | .vecSreg n _ | .vecPreg n _ _ | .vecVregData n _ => s.vecView n r
  | .pegWaiters p => s.waitersView p
  | .pipeTracker => s.trackerView
  | .pipeStashUsed => s.stashUsedView
  | .ringStatus n => withField (s.rget r) Fld.ringStatusAdmitted (s.ring n).descs.length
  | .ringHead _ | .fabRoutePrimary _ | .fabRouteAlternative _ => s.aget r
  | .homeStatus h => s.homeView h
  | .dirOccupancy h => s.occupancyView h
  | .homeBiasMap w => s.biasView w
  | .fabStatus => withField (s.rget r) Fld.fabStatusPortsUp ((List.range 64).filter s.portUp).length
  | .awnStatus => pack [(Fld.awnStatusActive, s.af .awnBase Fld.awnBaseBase)]
  | .fltStatus => withField (s.rget r) Fld.fltStatusEarly s.flt.early.length
  | .rstWdtStatus => s.wdtView
  | .timeNow => s.now
  | .timeStatus => withField (s.rget r) Fld.timeStatusSlewLeft (s.sys.slew.natAbs / 2 ^ 40)
  | .bootGpio => s.gpioView
  | .bootSideband => s.sidebandView
  | .frzChainLen => BitVec.ofNat 64 (s.chainLen s.chainSel)
  | .frzChainData => s.chainWord s.chainSel (s.rf .frzChainSel Fld.frzChainSelWord)
  | _ => s.rget r

/-- The value that a read of a whole register returns (R4, R7). -/
def State.regValue (s : State) (r : Reg) : W64 := s.regView r &&& r.readMask

/-! ## Accesses (R6, R9, R44, R251) -/

/-- The bits of a register that an aligned access of 4 or 8 bytes covers (R6). -/
def halfMask (addr size : Nat) : W64 :=
  if size = 8 then 0xFFFFFFFFFFFFFFFF#64 else if addr % 8 = 0 then 0xFFFFFFFF#64 else 0xFFFFFFFF00000000#64

/-- What an access of 4 or 8 bytes reads of a register's value. -/
def partOf (v : W64) (addr size : Nat) : W64 :=
  if size = 8 then v else if addr % 8 = 0 then v &&& 0xFFFFFFFF#64 else v >>> 32

/-- A read clears the RC fields of the half that it reads (R7, R9). DEDUCED: log entry 14. -/
def State.readClear (s : State) (r : Reg) (addr size : Nat) : State :=
  s.rset r (s.rget r &&& ~~~(r.rcMask &&& halfMask addr size))

/-- The tile and offset of a local offset of program memory (R44). -/
def progAt (addr : Nat) : Option (Nat × Nat) :=
  if 0xF00020000000 ≤ addr ∧ addr < 0xF00038000000 then
    let n := (addr - 0xF00020000000) / 0x100000
    let o := (addr - 0xF00020000000) % 0x100000
    if 0x10000 ≤ o ∧ o < 0x20000 then some (n, o - 0x10000) else none
  else none

/-- The blocks of domains D0 and D2, whose clock a freeze leaves running (R367, R404). DEDUCED: log entry 60. -/
def inD0 (addr : Nat) : Bool := 0xF00000000000 ≤ addr && addr < 0xF00001000000

/-- The domain of a local offset (R333, R367). DEDUCED: log entry 100. -/
def domainAt (addr : Nat) : Nat :=
  match regionOf addr with
  | .aperture _ _ => 6
  | .registers =>
    if addr < 0xF00001000000 then 0
    else if addr < 0xF00001280000 then (if addr % 0x10000 < 0x8000 then 3 else 4)
    else if addr < 0xF00002000000 then 4
    else if addr < 0xF00003000000 then 3
    else if addr < 0xF00004000000 then 7
    else if addr < 0xF00020000000 then 4
    else if addr < 0xF00040000000 then 6
    else 8
  | _ => 4

/-- An access to a register is performed: its clock runs and its domain is up, and so does the agent; a host core that has stopped or is
held makes none (R313, R369, R370, R404, R405). DEDUCED: log entries 16, 60, 100. -/
def State.reachable (s : State) (agent : Agent) (addr : Nat) : Bool :=
  s.agentActs agent && s.up (max (Agent.domain agent) (domainAt addr)) && (!s.frozen || (agent == .basecamp && inD0 addr))

/-- What a read gives its requester: a value, nothing because it met an uncorrectable error (R34, R241), or a value that comes later
(R326). -/
inductive ReadGot where
  | value (v : W64)
  | lost
  | later
  deriving DecidableEq, Repr

/-- A read of program memory (R34): an uncorrectable word returns nothing. -/
def State.progRead (s : State) (w : Who) (n off size : Nat) : State × ReadGot :=
  match s.ueIn (progBase n + off) size with
  | u :: _ => (s.sramUe n (s.sramUeRec n w u), .lost)
  | [] =>
    (s.sramCorrected n (s.ceIn (progBase n + off) size),
     .value (BitVec.ofNat 64 (leNat (s.bytesAt (progBase n + off) size))))

/-- A read of register `r` by an access of 4 or 8 bytes: the state after it, and what it gives. A read of
PCIE.RP_CFG_DATA starts a configuration read, which gives its value when it ends; a read of FRZ.CHAIN_DATA advances the chain
(R326, R407); a read of VEC.VREG_DATA or VEC.PREG checks its words (R34, R384). DEDUCED: log entry 90. -/
def State.readAction (s : State) (w : Who) (r : Reg) (addr size : Nat) (reply : Reply) : State × ReadGot :=
  match r with
  | .pcieRpCfgData p => if addr % 8 = 0 then (s.cfgRead p reply, .later) else (s, .value 0)
  | .frzChainData =>
    let v := s.regValue r
    (s.chainRead, .value (partOf v addr size))
  | .vecVregData n i =>
    match s.laneErrors w n (s.rf (.vecVregSel n) Fld.vecVregSelReg) (accessLanes i addr size) with
    | (s, true) => (s, .value (partOf (s.regValue r) addr size))
    | (s, false) => (s, .lost)
  | .vecPreg n k i =>
    match s.laneErrors w n (64 + k) (if k = 0 then [] else accessLanes i addr size) with
    | (s, true) => (s, .value (partOf (s.regValue r) addr size))
    | (s, false) => (s, .lost)
  | _ => (s.readClear r addr size, .value (partOf (s.regValue r) addr size))

/-- What a local offset names for a register access (R44, R251, R332). -/
inductive RegPlace where
  | prog (tile offset : Nat)
  | reg (r : Reg)
  | reserved
  | absent
  | other
  deriving DecidableEq, Repr

/-- Decode a local offset for a register access. DEDUCED: log entry 17. -/
def regPlace (addr : Nat) : RegPlace :=
  match regionOf addr with
  | .registers =>
    if inRpWindow addr then .other
    else match progAt addr with
      | some (n, o) => .prog n o
      | none => match Reg.ofAddr (addr / 8 * 8) with
        | some r => .reg r
        | none => .reserved
  | .absent => .absent
  | _ => .other

/-- A read of `size` bytes at local offset `addr` by a requester (R6, R7, R44, R251). An offset of memory, of an aperture or of a root-port
window is no register, and nothing is read. -/
def State.readReg (s : State) (w : Who) (addr size : Nat) (reply : Reply) : State × ReadGot :=
  match regPlace addr with
  | .other => (s, .value 0)
  | .absent => (s.undecoded w addr, .value 0)
  | p =>
    if irregularSize addr size then (s.report (csrRec w addr), .value 0)
    else match p with
      | .prog n o => s.progRead w n o size
      | .reg r => s.readAction w r addr size reply
      | _ => (s.report (csrRec w addr), .value 0)

/-- A read returned no data (R392): a core takes an access-fault exception, another device gets ERR code 3, the external host gets
completion status CA, a unit's work ends at the failed read, and the value that any other requester sees is open.
DEDUCED: log entry 61. -/
def State.lostRead (s : State) (w : Who) (addr : Nat) (reply : Reply) : State :=
  let any (s : State) : State := let (s, v) := s.free 64; s.replyRead reply (BitVec.ofNat 64 v)
  match reply with
  | .agent => if w.kind = Kind.core then s.accessFault w.unitIx addr else any s
  | .fabric k => s.respondErr k 3
  | .host _ => s.abortCpl 0
  | .lost => s
  | .mgmt _ _ _ => any s
  | .unit o a _ => s.keepFailed o a

/-- A register read whose value goes to `reply`. DEDUCED: log entry 61. -/
def State.readTo (s : State) (w : Who) (addr size : Nat) (reply : Reply) : State :=
  match s.readReg w addr size reply with
  | (s, .value v) => s.replyRead reply v
  | (s, .lost) => s.lostRead w addr reply
  | (s, .later) => s

/-- REGISTER_READ_CLEAR: an agent reads a register (R7 to R9); a core takes an access-fault exception for an AMO or LR, and for an offset that
R251 refuses (R309, R310). DEDUCED: log entries 16, 17. -/
def execRegisterReadClear (agent : Agent) (addr : BitVec 48) (access : SizedAccess (BitVec 4)) (s : State) : Out :=
  .next (if !s.reachable agent addr.toNat then s
    else match coreAtomic agent access.atomic with
      | some c => s.accessFault c addr.toNat
      | none => (s.readTo (Agent.who agent) addr.toNat access.size.toNat .agent).coreAbsent agent addr.toNat)

end Sys2Proof.Machine
end

