-- ==== Sys2Proof/Machine/TisVector.lean ====
section
/-! DEFINITION. The vector arithmetic, conversion and predicate instructions of TIS (R63, R64, R67 to R70, R74). -/

namespace Sys2Proof.Machine

/-- All five element types. -/
def allTypes : List Nat := [0, 1, 2, 3, 4]

/-- Floating-point addition in a format. -/
def fpAdd (f : FloatFmt) (rm a b : Nat) : Nat := f.result rm (Num.add rm (f.decode a) (f.decode b))
/-- Floating-point multiplication in a format. -/
def fpMul (f : FloatFmt) (rm a b : Nat) : Nat := f.result rm (Num.mul (f.decode a) (f.decode b))
/-- Fused multiply-add in a format, rounded once. -/
def fpFma (f : FloatFmt) (rm a b c : Nat) : Nat :=
  f.result rm (Num.add rm (Num.mul (f.decode a) (f.decode b)) (f.decode c))

/-- The sign bit of a format's pattern. -/
def FloatFmt.signMask (f : FloatFmt) : Nat := 2 ^ (f.width - 1)

/-- The order of two integer elements: signed for INT32, unsigned for U32. -/
def intKey (t a : Nat) : Int := if t = 3 then sgn 32 a else (a : Int)

/-- VADD (R63). -/
def execVadd (n : TileId) (s : State) : Out :=
  clocked 6 s (tisStep n 0x60 (lane3 n allTypes (fun f rm a b _ => fpAdd f rm a b) (intOp (· + ·)) src2))
/-- VSUB (R63). -/
def execVsub (n : TileId) (s : State) : Out :=
  clocked 6 s (tisStep n 0x61 (lane3 n allTypes
    (fun f rm a b _ => f.result rm (Num.add rm (f.decode a) (f.decode b).neg)) (intOp (· - ·)) src2))
/-- VMUL (R63). -/
def execVmul (n : TileId) (s : State) : Out :=
  clocked 6 s (tisStep n 0x62 (lane3 n allTypes (fun f rm a b _ => fpMul f rm a b) (intOp (· * ·)) src2))
/-- VFMA, rounded once (R63). -/
def execVfma (n : TileId) (s : State) : Out :=
  clocked 6 s (tisStep n 0x63 (lane3 n allTypes (fun f rm a b c => fpFma f rm a b c) (fun _ a b c => (a * b + c) % 2 ^ 32) src3))
/-- VMAX (R63, R64). -/
def execVmax (n : TileId) (s : State) : Out :=
  clocked 6 s (tisStep n 0x64 (lane3 n allTypes (fun f _ a b _ => f.result 0 (Num.max (f.decode a) (f.decode b)))
    (fun t a b _ => if intKey t a < intKey t b then b else a) src2))
/-- VMIN (R63, R64). -/
def execVmin (n : TileId) (s : State) : Out :=
  clocked 6 s (tisStep n 0x65 (lane3 n allTypes (fun f _ a b _ => f.result 0 (Num.min (f.decode a) (f.decode b)))
    (fun t a b _ => if intKey t b < intKey t a then b else a) src2))
/-- VABS changes only the sign bit; of −2^31 it is −2^31 (R64). -/
def execVabs (n : TileId) (s : State) : Out :=
  clocked 6 s (tisStep n 0x66 (lane3 n [0, 1, 2, 3] (fun f _ a _ _ => a % f.signMask)
    (intOp (fun a _ => if a < 2 ^ 31 then a else -a)) src1))
/-- VNEG changes only the sign bit; of −2^31 it is −2^31 (R64). -/
def execVneg (n : TileId) (s : State) : Out :=
  clocked 6 s (tisStep n 0x67 (lane3 n [0, 1, 2, 3] (fun f _ a _ _ => (a + f.signMask) % (2 * f.signMask)) (intOp (fun a _ => -a))
    src1))

/-- A correctly rounded FP32 function of one operand (R64). -/
def unary (g : Num → Num) (n : Nat) : W64 → State → State :=
  lane3 n [0] (fun f rm a _ _ => f.result rm (g (f.decode a))) (fun _ a _ _ => a) src1

/-- VRCP (R64). -/
def execVrcp (n : TileId) (s : State) : Out := clocked 6 s (tisStep n 0x68 (unary Num.rcp n))
/-- VRSQRT (R64). -/
def execVrsqrt (n : TileId) (s : State) : Out := clocked 6 s (tisStep n 0x69 (unary Num.rsqrt n))
/-- VEXP2 (R64). -/
def execVexp2 (n : TileId) (s : State) : Out := clocked 6 s (tisStep n 0x6A (unary Num.exp2 n))
/-- VLOG2 (R64). -/
def execVlog2 (n : TileId) (s : State) : Out := clocked 6 s (tisStep n 0x6B (unary Num.log2 n))

/-- An operation on U32 lanes only. -/
def u32Op (f : Nat → Nat → Nat) (n : Nat) : W64 → State → State :=
  lane3 n [4] (fun _ _ a _ _ => a) (fun _ a b _ => f a b) src2

/-- VAND (R63). -/
def execVand (n : TileId) (s : State) : Out := clocked 6 s (tisStep n 0x6C (u32Op (fun a b => a &&& b) n))
/-- VOR (R63). -/
def execVor (n : TileId) (s : State) : Out := clocked 6 s (tisStep n 0x6D (u32Op (fun a b => a ||| b) n))
/-- VXOR (R63). -/
def execVxor (n : TileId) (s : State) : Out := clocked 6 s (tisStep n 0x6E (u32Op (fun a b => a ^^^ b) n))
/-- VSHL: the amount is b[i] mod 32 (R63). -/
def execVshl (n : TileId) (s : State) : Out :=
  clocked 6 s (tisStep n 0x6F (u32Op (fun a b => a * 2 ^ (b % 32) % 2 ^ 32) n))
/-- VSHR (R63). -/
def execVshr (n : TileId) (s : State) : Out := clocked 6 s (tisStep n 0x70 (u32Op (fun a b => a / 2 ^ (b % 32)) n))
/-- VSRA: filled with bit 31 (R63). -/
def execVsra (n : TileId) (s : State) : Out :=
  clocked 6 s (tisStep n 0x71 (u32Op (fun a b => ((sgn 32 a / (2 ^ (b % 32) : Int)) % (2 ^ 32 : Int)).toNat) n))

/-- sat_s32 ("Timing tables and pseudocode"). -/
def satS32 (v : Int) : Int := Max.max (-(2 ^ 31 : Int)) (Min.min (2 ^ 31 - 1) v)

/-- VADDS (R63). -/
def execVadds (n : TileId) (s : State) : Out :=
  clocked 6 s (tisStep n 0x72 (lane3 n [3] (fun _ _ a _ _ => a)
    (fun _ a b _ => (satS32 (sgn 32 a + sgn 32 b) % (2 ^ 32 : Int)).toNat) src2))

/-- A comparison of VCMP (R63, R64): NaN is unordered, and only ≠ and unordered are then true. -/
def compareFp (cond : Nat) (a b : Num) : Bool :=
  match a, b with
  | .nan, _ => cond == 1 || cond == 6
  | _, .nan => cond == 1 || cond == 6
  | _, _ =>
    let e := Num.eq a b
    let l := Num.lt a b && !e
    match cond with | 0 => e | 1 => !e | 2 => l | 3 => l || e | 4 => !l && !e | 5 => !l | _ => false

/-- A comparison of integers. -/
def compareInt (cond : Nat) (a b : Int) : Bool :=
  match cond with | 0 => a == b | 1 => a != b | 2 => a < b | 3 => a ≤ b | 4 => b < a | 5 => b ≤ a | _ => false

/-- A predicate from its bits. -/
def ofBits256 (f : Nat → Bool) : BitVec 256 :=
  BitVec.ofNat 256 (packElems 1 ((List.range 256).map (fun i => if f i then 1 else 0)))

/-- Whether all bits of 32-bit word `i` of a guard are 1, and whether any is. -/
def guardWord (g : BitVec 256) (i : Nat) : Bool × Bool :=
  let x := elemAt 32 i g.toNat
  (x == 2 ^ 32 - 1, x != 0)

/-- Write p[d] under the guard (R52) and retire; the guard is read, and a word of p[d] that keeps some of its bits is read first (R384).
DEDUCED: log entry 24. -/
def State.writePred (s : State) (n : Nat) (w : W64) (new : BitVec 256) : State :=
  s.readVecs n (guardIx w) (fun s =>
    let d := vD w % 16
    let g := (s.tile n).preg (vG w)
    s.readWords32 n (fun x => predIx d == [x / 256] && !vZ w && (guardWord g (x % 256)).2 && !(guardWord g (x % 256)).1) (fun s =>
      (s.modTile n (fun t =>
        let old := if vZ w then 0 else t.preg d
        t.setP d ((new &&& g) ||| (old &&& ~~~g)) (fun i => vZ w || (guardWord g i).2))).retire n))

/-- VCMP writes bit i of p[d] (R63). -/
def vcmpOp (n : Nat) (w : W64) (s : State) : State :=
  let cond := vX w % 8
  if !typeOk [0, 3, 4] w ∨ cond = 7 then s.malformed n
  else s.readVecs n (src2 w) (fun s =>
    let t := s.tile n
    let a := (t.vreg (vA w)).toNat
    let b := (t.vreg (vB w)).toNat
    let bit (i : Nat) : Bool :=
      let x := elemAt 32 i a
      let y := elemAt 32 i b
      if vT w = 0 then compareFp cond (fp32.decode x) (fp32.decode y) else compareInt cond (intKey (vT w) x) (intKey (vT w) y)
    s.writePred n w (ofBits256 bit))

/-- VCMP (R63). -/
def execVcmp (n : TileId) (s : State) : Out := clocked 6 s (tisStep n 0x73 (vcmpOp n))

/-- VSEL selects by p[g]; z is ignored (R52, R63). -/
def vselOp (n : Nat) (w : W64) (s : State) : State :=
  if !typeOk allTypes w then s.malformed n
  else s.readVecs n (src2 w ++ guardIx w) (fun s =>
    (s.modTile n (fun t => t.setV (vD w)
      (ofLanes (guarded (t.preg (vG w)) false (laneList (t.vreg (vB w))) (laneList (t.vreg (vA w))))))).retire n)

/-- VSEL (R63). -/
def execVsel (n : TileId) (s : State) : Out := clocked 6 s (tisStep n 0x74 (vselOp n))

/-- VBCAST places s[a] in every lane, or its low half in every 16-bit element (R63). -/
def vbcastOp (n : Nat) (w : W64) (s : State) : State :=
  if !typeOk allTypes w then s.malformed n
  else
    let x := ((s.tile n).sreg (vA w % 32)).toNat
    let lane := if typeBits (vT w) = 16 then x % 2 ^ 16 * (2 ^ 16 + 1) else x % 2 ^ 32
    s.writeLanes n w (List.replicate 256 lane)

/-- VBCAST (R63). -/
def execVbcast (n : TileId) (s : State) : Out := clocked 6 s (tisStep n 0x75 (vbcastOp n))

/-- VIOTA writes s[a] + i (R63). -/
def viotaOp (n : Nat) (w : W64) (s : State) : State :=
  if !typeOk [3, 4] w then s.malformed n
  else
    let x := ((s.tile n).sreg (vA w % 32)).toNat
    s.writeLanes n w ((List.range 256).map (fun i => (x + i) % 2 ^ 32))

/-- VIOTA (R63). -/
def execViota (n : TileId) (s : State) : Out := clocked 6 s (tisStep n 0x76 (viotaOp n))

/-- VMOV copies bit for bit (R63). -/
def execVmov (n : TileId) (s : State) : Out :=
  clocked 6 s (tisStep n 0x77 (lane3 n allTypes (fun _ _ a _ _ => a) (fun _ a _ _ => a) src1))

/-! ## Conversion (R67 to R70) -/

/-- The highest part of a format in a register (R67). -/
def maxPart (c : Nat) : Nat := match elemBits c with | 32 => 0 | 16 => 1 | 8 => 3 | _ => 7

/-- VCVT is malformed (R67, R75): t, a format code, the rounding mode, or a part out of range. -/
def vcvtBad (w : W64) : Bool :=
  let sf := bitsOf (vImm w) 0 4
  let df := bitsOf (vImm w) 4 4
  vT w != 0 || sf == 15 || df == 15 || 5 ≤ vRm w || maxPart sf < bitsOf (vImm w) 8 3 || maxPart df < bitsOf (vImm w) 11 3

/-- The 256 exact source values of a VCVT (R67, R68, R103). -/
def vcvtSource (w : W64) (src : BitVec 8192) (sb : W64) : List Num :=
  let sf := bitsOf (vImm w) 0 4
  let df := bitsOf (vImm w) 4 4
  let qs := bitsOf (vImm w) 8 3
  (List.range 256).map (fun j =>
    let v := decodeElem sf (elemAt (elemBits sf) (256 * qs + j) src.toNat)
    if isMx sf then mxValue (elemAt 8 (j / 32) sb.toNat) v
    else if isMx df then v
    else v.scale (sgn 16 sb.toNat))

/-- The scale codes of the eight blocks of 32 values (R104). -/
def blockScales (c : Nat) (vs : List Num) : List Nat :=
  (List.range 8).map (fun k => mxScale c ((vs.drop (32 * k)).take 32))

/-- The elements of lane `i` of the destination of a VCVT that it writes, among those of the lane: all of them, and any of them.
DEDUCED: log entry 24. -/
def vcvtLane (w : W64) (g : BitVec 256) (i : Nat) : Bool × Bool :=
  let eb := elemBits (bitsOf (vImm w) 4 4)
  let qd := bitsOf (vImm w) 11 3
  let on (j : Nat) : Bool := 256 * qd ≤ j && j < 256 * qd + 256 && (vZ w || g.getLsbD (j - 256 * qd))
  let js := List.range' (32 * i / eb) (32 / eb)
  (js.all on, js.any on)

/-- VCVT converts 256 elements (R67 to R70). A lane of the destination that keeps some of its elements is read first (R34). -/
def vcvtOp (n : Nat) (w : W64) (s : State) : State :=
  if vcvtBad w then s.malformed n
  else s.readVecs n (vA w :: guardIx w) (fun s =>
   let lane := vcvtLane w ((s.tile n).preg (vG w))
   s.readWords32 n (fun x => x / 256 == vD w && (lane (x % 256)).2 && !(lane (x % 256)).1) (fun s =>
    let t := s.tile n
    let df := bitsOf (vImm w) 4 4
    let qd := bitsOf (vImm w) 11 3
    let rm := vRm w
    let vs := vcvtSource w (t.vreg (vA w)) (t.sreg (vB w % 32))
    let scales := if isMx df then blockScales df vs else []
    let conv := vs.zipIdx.map (fun x =>
      let r := if rm = 4 then srWord t.srKey n (t.srIndex.toNat + x.2) else 0
      let v := if isMx df then x.1.scale (mxFactor (scales.getD (x.2 / 32) 0x7F)) else x.1
      convert df rm r ((vImm w).testBit 15) v)
    let g := t.preg (vG w)
    let eb := elemBits df
    let old := (t.vreg (vD w)).toNat
    let elems := (List.range (8192 / eb)).map (fun i =>
      if 256 * qd ≤ i ∧ i < 256 * qd + 256 then
        (if g.getLsbD (i - 256 * qd) then (conv.getD (i - 256 * qd) (0, .none)).1 else if vZ w then 0 else elemAt eb i old)
      else elemAt eb i old)
    let events := (conv.zipIdx.filter (fun x => g.getLsbD x.2)).map (fun x => x.1.2)
    let s := if (vImm w).testBit 14 then s.health n ((t.sreg (vC w % 32)).toNat % 2 ^ 32) events else s
    (s.modTile n (fun t =>
      let t := t.setV (vD w) (BitVec.ofNat 8192 (packElems eb elems)) (fun i => (lane i).2)
      let t := if isMx df then t.setS (vB w % 32) (BitVec.ofNat 64 (packElems 8 scales)) else t
      if rm = 4 then { t with srIndex := t.srIndex + 256 } else t)).retire n))

/-- VCVT (R67). -/
def execVcvt (n : TileId) (s : State) : Out := clocked 6 s (tisStep n 0xA0 (vcvtOp n))

/-! ## Predicates (R74) -/

/-- A predicate instruction of one source, or of two. -/
def predOp (n : Nat) (two : Bool) (f : BitVec 256 → BitVec 256 → BitVec 256) (w : W64) (s : State) : State :=
  s.readVecs n (predIx (vA w) ++ (if two then predIx (vB w) else [])) (fun s =>
    s.writePred n w (f ((s.tile n).preg (vA w % 16)) ((s.tile n).preg (vB w % 16))))

/-- PAND (R74). -/
def execPand (n : TileId) (s : State) : Out := clocked 6 s (tisStep n 0xC0 (predOp n true (fun a b => a &&& b)))
/-- POR (R74). -/
def execPor (n : TileId) (s : State) : Out := clocked 6 s (tisStep n 0xC1 (predOp n true (fun a b => a ||| b)))
/-- PXOR (R74). -/
def execPxor (n : TileId) (s : State) : Out := clocked 6 s (tisStep n 0xC2 (predOp n true (fun a b => a ^^^ b)))
/-- PNOT (R74). -/
def execPnot (n : TileId) (s : State) : Out := clocked 6 s (tisStep n 0xC3 (predOp n false (fun a _ => ~~~a)))

/-- PLT sets bit i if i < s[a] (R74). -/
def execPlt (n : TileId) (s : State) : Out :=
  clocked 6 s (tisStep n 0xC4 (fun w s =>
    s.writePred n w (ofBits256 (fun i => i < ((s.tile n).sreg (vA w % 32)).toNat))))

/-- PNZ sets bit i if lane i is not zero (R74). -/
def execPnz (n : TileId) (s : State) : Out :=
  clocked 6 s (tisStep n 0xC5 (fun w s => s.readVecs n [vA w] (fun s =>
    s.writePred n w (ofBits256 (fun i => elemAt 32 i ((s.tile n).vreg (vA w)).toNat != 0)))))

end Sys2Proof.Machine
end

