-- ==== Sys2Proof/Machine/ShardOps.lean ====
section
/-! DEFINITION. What the state engine's commands share: shard descriptors and headers (R168 to R170), the update rules (R178, R179),
working copies (R182), digests (R186), and changed blocks (R188). -/

namespace Sys2Proof.Machine

/-! ## Descriptors (R168, R169) -/

/-- A working copy of a descriptor. -/
def workCopyOf (l : List Byte) (i : Nat) : WorkCopy :=
  let f (i n : Nat) : Nat := leNat ((l.drop i).take n)
  ⟨f i 8, f (i + 8) 8, f (i + 16) 1, f (i + 17) 1 == 1⟩

/-- A shard descriptor of its 128 B. -/
def shardDescOf (l : List Byte) : ShardDesc :=
  let f (i n : Nat) : Nat := leNat ((l.drop i).take n)
  { tensor := f 0 4, rule := f 4 1, gate := (f 5 1).testBit 0, tier := (f 5 1).testBit 1, digest := (f 5 1).testBit 2
    nesterov := (f 5 1).testBit 3, count := f 8 4, cols := f 12 4, row0 := f 16 4, col0 := f 20 4, master := f 24 8
    moment1 := f 32 8, moment2 := f 40 8, staging := f 48 8, freeze := f 56 8, header := f 64 8, ruleBlock := f 72 8
    wc0 := workCopyOf l 80, wc1 := workCopyOf l 104 }

/-- The rows of a shard. -/
def ShardDesc.rows (d : ShardDesc) : Nat := d.count / max 1 d.cols
/-- The first moment is present (R169). -/
def ShardDesc.has1 (d : ShardDesc) : Bool := (1 ≤ d.rule && d.rule ≤ 4) || (5 ≤ d.rule && d.moment1 != 0)
/-- The second moment is present (R169). -/
def ShardDesc.has2 (d : ShardDesc) : Bool := d.rule == 2 || d.rule == 3 || d.rule == 5 || (d.rule == 6 && d.moment2 != 0)
/-- Words of the first moment. -/
def ShardDesc.words1 (d : ShardDesc) : Nat := if d.has1 then d.count else 0
/-- Words of the second moment: R row and C column statistics for rule 5. -/
def ShardDesc.words2 (d : ShardDesc) : Nat := if !d.has2 then 0 else if d.rule = 5 then d.rows + d.cols else d.count
/-- A size in whole 64 B. -/
def round64 (n : Nat) : Nat := (n + 63) / 64 * 64
/-- The size of the shard's pool slot (R184). -/
def ShardDesc.slotSize (d : ShardDesc) : Nat := round64 (4 * d.count) + round64 (4 * d.words1) + round64 (4 * d.words2)
/-- The blocks of 4,096 elements (R188). -/
def ShardDesc.blocks (d : ShardDesc) : Nat := (d.count + 4095) / 4096
/-- The bytes of the changed-block bitmap. -/
def ShardDesc.mapBytes (d : ShardDesc) : Nat := (d.blocks + 7) / 8

/-- The state engine as a requester. -/
def engineWho : Who := ⟨Kind.state, 0, 1, none⟩

/-- A read of the state engine. -/
def State.engRead (s : State) (a n : Nat) : State × Option (List Byte) := s.readNow engineWho .engine a n
/-- A write of the state engine. -/
def State.engWrite (s : State) (a : Nat) (l : List Byte) : State := (s.writeRange engineWho .engine VC.req a l).1

/-- The newest bytes of a range, wherever a core holds them (R256). -/
def State.currentRange (s : State) (a n : Nat) : List Byte := (pieces a n).flatMap (fun p => s.current p.1 p.2)

/-- An active shard of the commit in force. -/
def State.shard? (s : State) (x : Nat) : Option ShardDesc := (s.engine.shards.find? (fun e => e.1 == x)).map Prod.snd

/-! ## Headers (R170) -/

/-- A shard header. -/
structure Header where
  lastStep : Option Nat
  t : Nat
  b1t : Nat
  b2t : Nat
  stagedStep : Nat
  staged : Nat
  state : Nat
  digest : Nat
  digestStep : Nat
  deriving DecidableEq, Repr

/-- No step: all ones. -/
def noStep : Nat := 2 ^ 64 - 1

/-- A header of its 64 B. -/
def headerOf (l : List Byte) : Header :=
  let f (i n : Nat) : Nat := leNat ((l.drop i).take n)
  { lastStep := if f 0 8 = noStep then none else some (f 0 8), t := f 8 4, b1t := f 12 4, b2t := f 16 4, stagedStep := f 24 8
    staged := f 32 4, state := f 36 1, digest := f 40 8, digestStep := f 48 8 }

/-- The 64 B of a header. -/
def Header.bytes (h : Header) : List Byte :=
  leBytes 8 (h.lastStep.getD noStep) ++ leBytes 4 h.t ++ leBytes 4 h.b1t ++ leBytes 4 h.b2t ++ leBytes 4 0 ++ leBytes 8 h.stagedStep
    ++ leBytes 4 h.staged ++ leBytes 4 h.state ++ leBytes 8 h.digest ++ leBytes 8 h.digestStep ++ leBytes 8 0

/-- Read a shard's header. -/
def State.readHeader (s : State) (d : ShardDesc) : State × Option Header :=
  match s.engRead d.header 64 with
  | (s, some l) => (s, some (headerOf l))
  | (s, none) => (s, none)

/-- Write a shard's header. -/
def State.writeHeader (s : State) (d : ShardDesc) (h : Header) : State := s.engWrite d.header h.bytes

/-- Step `m` is later than last_step (R170). -/
def Header.later (h : Header) (m : Nat) : Bool := match h.lastStep with | none => true | some l => l < m

/-- The shard is ready (R175). -/
def Header.ready (h : Header) (d : ShardDesc) : Bool := h.staged == d.count

/-! ## FP32 arithmetic of the pipes (R178) -/

/-- fl(a + b). -/
def flAdd (a b : Nat) : Nat := fpAdd fp32 0 a b
/-- fl(a − b). -/
def flSub (a b : Nat) : Nat := fp32.result 0 (Num.add 0 (fp32.decode a) (fp32.decode b).neg)
/-- fl(a × b). -/
def flMul (a b : Nat) : Nat := fpMul fp32 0 a b
/-- fl(a / b). -/
def flDiv (a b : Nat) : Nat := fp32.result 0 (Num.div (fp32.decode a) (fp32.decode b))
/-- fl(a / n) for a whole number n. -/
def flDivN (a n : Nat) : Nat := fp32.result 0 (Num.div (fp32.decode a) (.fin false n 0))
/-- fl(sqrt(a)). -/
def flSqrt (a : Nat) : Nat := fp32.result 0 (Num.sqrt (fp32.decode a))
/-- 1.0. -/
def one32 : Nat := 0x3F800000
/-- The value is not ±0. -/
def nonzero32 (a : Nat) : Bool := !(fp32.decode a).isZero

/-- The parameters of a rule block, with the powers of β1 and β2 that this update uses. -/
structure RuleParams where
  eta : Nat
  b1 : Nat
  b2 : Nat
  eps : Nat
  lam : Nat
  gscale : Nat
  b1t : Nat
  b2t : Nat
  deriving DecidableEq, Repr

/-- The parameters of a rule block and a header. -/
def ruleParams (blk : Line) (h : Header) : RuleParams :=
  let f (i : Nat) : Nat := bitsOf blk.toNat (8 * i) 32
  ⟨f 0, f 4, f 8, f 12, f 16, f 20, flMul h.b1t (f 4), flMul h.b2t (f 8)⟩

/-- An element of a shard: master, moments and staged gradient. -/
structure Elem where
  w : Nat
  m : Nat
  v : Nat
  g : Nat
  deriving DecidableEq, Repr

/-- SGD with momentum (R178, rule 1). DEDUCED: log entry 45. -/
def rule1 (p : RuleParams) (nesterov : Bool) (x : Elem) : Elem :=
  let g := flMul p.gscale x.g
  let g := if nonzero32 p.lam then flAdd g (flMul p.lam x.w) else g
  let m := flAdd (flMul p.b1 x.m) g
  let d := if nesterov then flAdd g (flMul p.b1 m) else m
  { x with w := flSub x.w (flMul p.eta d), m := m }

/-- Adam and AdamW (R178, rules 2 and 3). DEDUCED: log entry 45. -/
def rule23 (p : RuleParams) (decoupled : Bool) (x : Elem) : Elem :=
  let g := flMul p.gscale x.g
  let g := if decoupled then g else flAdd g (flMul p.lam x.w)
  let m := flAdd (flMul p.b1 x.m) (flMul (flSub one32 p.b1) g)
  let v := flAdd (flMul p.b2 x.v) (flMul (flSub one32 p.b2) (flMul g g))
  let mh := flDiv m (flSub one32 p.b1t)
  let vh := flDiv v (flSub one32 p.b2t)
  let u := flDiv mh (flAdd (flSqrt vh) p.eps)
  let d := if decoupled then flAdd u (flMul p.lam x.w) else u
  { x with w := flSub x.w (flMul p.eta d), m := m, v := v }

/-- The sign of rule 4: +1, −1, or 0 for ±0 and NaN. -/
def signOf32 (c : Nat) : Nat :=
  match fp32.decode c with
  | .nan => 0
  | .inf n => if n then 0xBF800000 else one32
  | .fin n m _ => if m = 0 then 0 else if n then 0xBF800000 else one32

/-- Lion (R178, rule 4). DEDUCED: log entry 45. -/
def rule4 (p : RuleParams) (x : Elem) : Elem :=
  let g := flMul p.gscale x.g
  let c := flAdd (flMul p.b1 x.m) (flMul (flSub one32 p.b1) g)
  { x with
    w := flSub x.w (flMul p.eta (flAdd (signOf32 c) (flMul p.lam x.w)))
    m := flAdd (flMul p.b2 x.m) (flMul (flSub one32 p.b2) g) }

/-- The elementwise rules. -/
def elemRule (d : ShardDesc) (p : RuleParams) (x : Elem) : Elem :=
  match d.rule with
  | 1 => rule1 p d.nesterov x
  | 2 => rule23 p false x
  | 3 => rule23 p true x
  | _ => rule4 p x

/-- A sum in ascending index, one rounding per addition, from the first term (R179). DEDUCED: log entry 45. -/
def sum32 : List Nat → Nat
  | [] => 0
  | a :: l => l.foldl flAdd a

/-- The columns of a list of rows. -/
def columns (cols : Nat) (rows : List (List Nat)) : List (List Nat) :=
  (List.range cols).map (fun j => rows.map (fun r => r.getD j 0))

/-- A list cut into rows. -/
def rowsOf {α : Type} (cols : Nat) : Nat → List α → List (List α)
  | 0, _ => []
  | n + 1, l => l.take cols :: rowsOf cols n (l.drop cols)

/-- What an update leaves: master, first and second moment words. -/
structure ShardWords where
  w : List Nat
  m : List Nat
  v : List Nat
  deriving DecidableEq, Repr

/-- Factored second moment (R179, rule 5). DEDUCED: log entry 45. -/
def rule5 (d : ShardDesc) (p : RuleParams) (x : ShardWords) (g : List Nat) (frozen : Nat → Bool) : ShardWords :=
  let g := g.map (flMul p.gscale)
  let q := g.map (fun a => flAdd (flMul a a) p.eps)
  let qr := rowsOf d.cols d.rows q
  let stat (old sum n : Nat) : Nat := flAdd (flMul p.b2 old) (flMul (flSub one32 p.b2) (flDivN sum n))
  let r := List.zipWith (fun old row => stat old (sum32 row) d.cols) (x.v.take d.rows) qr
  let c := List.zipWith (fun old col => stat old (sum32 col) d.rows) (x.v.drop d.rows) (columns d.cols qr)
  let rbar := flDivN (sum32 r) d.rows
  let u := g.zipIdx.map (fun a =>
    flDiv a.1 (flSqrt (flDiv (flMul (r.getD (a.2 / max 1 d.cols) 0) (c.getD (a.2 % max 1 d.cols) 0)) rbar)))
  let m := if d.has1 then List.zipWith (fun old a => flAdd (flMul p.b1 old) (flMul (flSub one32 p.b1) a)) x.m u else []
  let dir := if d.has1 then m else u
  let w := List.zipWith (fun w a => flSub w (flMul p.eta (flAdd a (flMul p.lam w)))) x.w dir
  let keep (new old : List Nat) : List Nat := new.zipIdx.map (fun a => if frozen a.2 then old.getD a.2 0 else a.1)
  ⟨keep w x.w, keep m x.m, r ++ c⟩

/-- The words of a shard after an update (R178, R179, R183). DEDUCED: log entry 45. -/
def updateWords (d : ShardDesc) (p : RuleParams) (x : ShardWords) (g : List Nat) (frozen : Nat → Bool) : ShardWords :=
  if d.rule = 5 then rule5 d p x g frozen
  else
    let new := g.zipIdx.map (fun a =>
      let e : Elem := ⟨x.w.getD a.2 0, x.m.getD a.2 0, x.v.getD a.2 0, a.1⟩
      if frozen a.2 then e else elemRule d p e)
    ⟨new.map (fun e => e.w), if d.has1 then new.map (fun e => e.m) else [], if d.has2 then new.map (fun e => e.v) else []⟩

/-- The bytes of FP32 words. -/
def wordBytes (l : List Nat) : List Byte := l.flatMap (leBytes 4)

/-! ## Working copies (R182) -/

/-- The elements of a working copy as writes: offset from wc or from wc_scales, and bytes. -/
inductive CopyWrite where
  | elem (off : Nat) (l : List Byte)
  | scale (off : Nat) (l : List Byte)
  deriving DecidableEq, Repr

/-- A BF16 element: nearest even, a value beyond the BF16 maximum becomes ±max, a NaN canonical. DEDUCED: log entry 46. -/
def bf16Copy (w : Nat) : Nat :=
  match fp32.decode w with
  | .inf n => bf16.signBit n + bf16.maxBits
  | v => (convert 1 0 0 true v).1

/-- The elements of the MX blocks of a working copy: blocks along columns hold up to 32 rows of a column, along rows up to 32 columns
of a row. Each with the offset of its scale. -/
def mxBlocks (rows cols : Nat) (byRow : Bool) : List (Nat × List Nat) :=
  if byRow then
    (List.range rows).flatMap (fun r => (List.range ((cols + 31) / 32)).map (fun p =>
      (p * rows + r, (List.range' (32 * p) (min 32 (cols - 32 * p))).map (fun c => r * cols + c))))
  else
    (List.range cols).flatMap (fun c => (List.range ((rows + 31) / 32)).map (fun p =>
      (p * cols + c, (List.range' (32 * p) (min 32 (rows - 32 * p))).map (fun r => r * cols + c))))

/-- The writes that derive a working copy from a master (R181, R182); elements and blocks that are wholly skipped are not written. -/
def copyWrites (d : ShardDesc) (k : WorkCopy) (w : List Nat) (skip : Nat → Bool) : List CopyWrite :=
  if k.fmt = 1 then
    w.zipIdx.filterMap (fun x => if skip x.2 then none else some (.elem (2 * x.2) (leBytes 2 (bf16Copy x.1))))
  else if k.fmt = 10 ∨ k.fmt = 11 then
    (mxBlocks d.rows d.cols k.byRow).flatMap (fun b =>
      if b.2.all skip then []
      else
        let vs := b.2.map (fun i => fp32.decode (w.getD i 0))
        let code := mxScale k.fmt vs
        .scale b.1 (leBytes 1 code) :: List.zipWith (fun i v =>
          .elem i (leBytes 1 (convert k.fmt 0 0 true (v.scale (mxFactor code))).1)) b.2 vs)
  else []

/-- Write a working copy. -/
def State.writeCopy (s : State) (d : ShardDesc) (k : WorkCopy) (w : List Nat) (skip : Nat → Bool) : State :=
  (copyWrites d k w skip).foldl (fun s x =>
    match x with
    | .elem o l => s.engWrite (k.elems + o) l
    | .scale o l => s.engWrite (k.scales + o) l) s

/-! ## Digests and changed blocks (R186, R188) -/

/-- The digest of a shard's words. -/
def digestOf (x : ShardWords) : Nat :=
  ((x.w ++ x.m ++ x.v).zipIdx.map (fun a => a.1 * (2 * a.2 + 1))).sum % 2 ^ 64

/-- The indices at which two lists differ. -/
def diffs (a b : List Nat) : List Nat := (List.range a.length).filter (fun i => a.getD i 0 != b.getD i 0)

/-- The blocks that hold an element of row `i` or, beyond the rows, of a column (R188, rule 5). -/
def statBlocks (d : ShardDesc) (i : Nat) : List Nat :=
  if i < d.rows then List.range' (i * d.cols / 4096) (((i + 1) * d.cols - 1) / 4096 - i * d.cols / 4096 + 1)
  else (List.range d.rows).map (fun r => (r * d.cols + (i - d.rows)) / 4096)

/-- The blocks that an update changed. -/
def changedBlocks (d : ShardDesc) (old new : ShardWords) : List Nat :=
  (diffs old.w new.w).map (· / 4096) ++ (diffs old.m new.m).map (· / 4096)
    ++ (if d.rule = 5 then (diffs old.v new.v).flatMap (statBlocks d) else (diffs old.v new.v).map (· / 4096))

/-- A bitmap with bits set. -/
def setBits (l : List Byte) (bs : List Nat) : List Byte :=
  l.zipIdx.map (fun x => bs.foldl (fun (b : Byte) i => if i / 8 = x.2 then b ||| BitVec.ofNat 8 (2 ^ (i % 8)) else b) x.1)

/-- A bitmap with a bit cleared. -/
def clearBit (l : List Byte) (i : Nat) : List Byte :=
  l.zipIdx.map (fun x => if i / 8 = x.2 then x.1 &&& ~~~(BitVec.ofNat 8 (2 ^ (i % 8))) else x.1)

/-! ## Where the words lie (R184) -/

/-- The pool slot of a shard that holds its state. -/
def State.poolCopy (s : State) (x : Nat) : Option PoolSlot := s.engine.slots.find? (fun p => p.shard == x && p.copied)

/-- The addresses of master and moments of a shard at home. -/
def ShardDesc.home (d : ShardDesc) : Nat × Nat × Nat := (d.master, d.moment1, d.moment2)

/-- The addresses of master and moments within a pool slot. -/
def ShardDesc.inPool (d : ShardDesc) (base : Nat) : Nat × Nat × Nat :=
  (base, base + round64 (4 * d.count), base + round64 (4 * d.count) + round64 (4 * d.words1))

/-- The address of the state pool in force. -/
def State.poolBase (s : State) : Nat := s.af .statePoolBase Fld.statePoolBaseBase * 4096
/-- The size of the state pool in force. -/
def State.poolSize (s : State) : Nat := s.af .statePoolSize Fld.statePoolSizeSize * 4096

/-- Where an update works: in the pool for a tier 1 shard (R184). -/
def State.workPlace (s : State) (x : Nat) (d : ShardDesc) : Nat × Nat × Nat :=
  match s.poolCopy x with
  | some p => if d.tier then d.inPool (s.poolBase + p.offset) else d.home
  | none => d.home

/-- Read master and moments. -/
def State.readWords (s : State) (d : ShardDesc) (at_ : Nat × Nat × Nat) : State × Option ShardWords :=
  match s.engRead at_.1 (4 * d.count) with
  | (s, none) => (s, none)
  | (s, some w) =>
    match s.engRead at_.2.1 (4 * d.words1) with
    | (s, none) => (s, none)
    | (s, some m) =>
      match s.engRead at_.2.2 (4 * d.words2) with
      | (s, none) => (s, none)
      | (s, some v) => (s, some ⟨elemsOf 4 d.count w, elemsOf 4 d.words1 m, elemsOf 4 d.words2 v⟩)

/-- Write master and moments. -/
def State.writeWords (s : State) (at_ : Nat × Nat × Nat) (x : ShardWords) : State :=
  ((s.engWrite at_.1 (wordBytes x.w)).engWrite at_.2.1 (wordBytes x.m)).engWrite at_.2.2 (wordBytes x.v)

/-- Read the freeze bitmap: none of address 0 freezes nothing (R168, R183). -/
def State.readFreeze (s : State) (d : ShardDesc) : State × Option (List Byte) :=
  if d.freeze = 0 then (s, some []) else s.engRead d.freeze ((d.count + 7) / 8)

/-- Element `e` is frozen. -/
def frozenBy (l : List Byte) (e : Nat) : Bool := (l.getD (e / 8) 0).getLsbD (e % 8)

/-! ## Words beside frozen elements (R183) -/

/-- The maximal runs of indices from `i` on, `n` of them, that `p` picks: first index and length. -/
def runsFrom (p : Nat → Bool) : Nat → Nat → List (Nat × Nat)
  | 0, _ => []
  | n + 1, i =>
    if p i then
      match runsFrom p n (i + 1) with
      | (j, k) :: l => if j = i + 1 then (i, k + 1) :: l else (i, 1) :: (j, k) :: l
      | [] => [(i, 1)]
    else runsFrom p n (i + 1)

/-- Read the words of `n` that `p` picks, and no other; the others give 0. -/
def State.readSome (s : State) (a n : Nat) (p : Nat → Bool) : State × Option (List Nat) :=
  let (s, r) := (runsFrom p n 0).foldl (fun (acc : State × Option (List Nat)) r =>
    match acc.2 with
    | none => acc
    | some l =>
      match acc.1.engRead (a + 4 * r.1) (4 * r.2) with
      | (s, some b) => (s, some (l ++ List.replicate (r.1 - l.length) 0 ++ elemsOf 4 r.2 b))
      | (s, none) => (s, none)) (s, some [])
  (s, r.map (fun l => l ++ List.replicate (n - l.length) 0))

/-- Write the words that `p` picks, and no other. -/
def State.writeSome (s : State) (a : Nat) (l : List Nat) (p : Nat → Bool) : State :=
  (runsFrom p l.length 0).foldl (fun s r => s.engWrite (a + 4 * r.1) (wordBytes ((l.drop r.1).take r.2))) s

/-- The elements of the MX blocks of a shard's working copies that mix frozen and trained elements (R182).
DEDUCED: log entry 115. -/
def ShardDesc.mixed (d : ShardDesc) (fz : List Byte) : List Nat :=
  [d.wc0, d.wc1].flatMap (fun k =>
    if k.fmt = 10 ∨ k.fmt = 11 then
      ((mxBlocks d.rows d.cols k.byRow).filter (fun b => b.2.any (fun e => !frozenBy fz e))).flatMap Prod.snd
    else [])

/-- Read what an update needs: the words of elements that are not frozen, the statistics of rule 5, every word for a digest (R186), and
the masters of a mixed block for its scale (R182). DEDUCED: log entry 115. -/
def State.readNeeded (s : State) (d : ShardDesc) (at_ : Nat × Nat × Nat) (fz : List Byte) : State × Option ShardWords :=
  let mixed := if fz.isEmpty then [] else d.mixed fz
  let pick (e : Nat) : Bool := d.digest || !frozenBy fz e
  match s.readSome at_.1 d.count (fun e => pick e || mixed.contains e) with
  | (s, none) => (s, none)
  | (s, some w) =>
    match s.readSome at_.2.1 d.words1 pick with
    | (s, none) => (s, none)
    | (s, some m) =>
      match s.readSome at_.2.2 d.words2 (fun e => d.rule == 5 || pick e) with
      | (s, none) => (s, none)
      | (s, some v) => (s, some ⟨w, m, v⟩)

/-- Write the words of an update: those of elements that are not frozen, and the statistics of rule 5. DEDUCED: log entry 115. -/
def State.writeNeeded (s : State) (d : ShardDesc) (at_ : Nat × Nat × Nat) (x : ShardWords) (fz : List Byte) : State :=
  let pick (e : Nat) : Bool := !frozenBy fz e
  ((s.writeSome at_.1 x.w pick).writeSome at_.2.1 x.m pick).writeSome at_.2.2 x.v (fun e => d.rule == 5 || pick e)

/-! ## The pool (R184, R185) -/

/-- Replace the pool slots, and show the pool in use. -/
def State.setSlots (s : State) (l : List PoolSlot) : State :=
  ({ s with engine := { s.engine with slots := l } } : State).setF .stateStatus Fld.stateStatusPoolUsed
    ((l.map (fun p => p.size)).sum / 64)

/-- Free a shard's slot and take it out of the state-miss queue. -/
def State.leavePool (s : State) (x : Nat) : State :=
  let s := s.setSlots (s.engine.slots.filter (fun p => p.shard != x))
  { s with engine := { s.engine with missQueue := s.engine.missQueue.filter (· != x), opened := s.engine.opened.filter (· != x) } }

/-- The runs that a shard misses of steps up to `step` matter no more (R176). -/
def State.forgive (s : State) (x step : Nat) : State :=
  { s with engine := { s.engine with invalid := s.engine.invalid.filter (fun e => e.1 != x || step < e.2.1) } }

/-- A running APPLY of the ring takes the writes of shard `x`'s outcome as acknowledged: they are writes that it waits for (R176). -/
def Ring.ackApply (x : Nat) (now : W64) (r : Ring) : Ring :=
  { r with descs := r.descs.map (fun d =>
      if d.phase == .running && d.op == 0x30 && d.blk 0 4 ≤ x && x < d.blk 0 4 + d.count then { d with ackTime := some now } else d) }

/-- The writes of shard `x`'s outcome have been acknowledged, for every APPLY that waits for them (R176, R218). -/
def State.ackApply (s : State) (x : Nat) : State :=
  s.activeRings.foldl (fun s r => s.setRing r ((s.ring r).ackApply x s.now)) s

end Sys2Proof.Machine
end

