-- ==== Sys2Proof/Machine/Shard.lean ====
section
/-! DEFINITION. The commands of the state engine: commit, staging, updates, the state pool, and the operations APPLY, CHECKPOINT,
DIGEST_CHECK and REDERIVE (R168 to R191). -/

namespace Sys2Proof.Machine

/-! ## Commit (R168 to R170, R193) -/

/-- The registers of the state engine's staged fields. -/
def stateStaged : List Reg :=
  [.stateCtrl, .stateShardBase, .statePoolBase, .statePoolSize] ++ (List.range 256).map Reg.stateMap

/-- An address of a descriptor is 64 B aligned and its region lies where it must (R168). -/
def regionOk (inside : Nat → Nat → Bool) (a n : Nat) : Bool := a % 64 == 0 && inside a n

/-- The window of a shard's master, moments and header (R168). -/
def State.tierWindow (s : State) (d : ShardDesc) : Nat → Nat → Bool := if d.tier then s.inLp else s.inHbm

/-- A working copy lies in the HBM window (R168). -/
def State.copyOk (s : State) (d : ShardDesc) (k : WorkCopy) : Bool :=
  k.fmt == 0 ||
    (if k.fmt = 1 then regionOk s.inHbm k.elems (2 * d.count)
     else regionOk s.inHbm k.elems d.count
      && regionOk s.inHbm k.scales (if k.byRow then (d.cols + 31) / 32 * d.rows else (d.rows + 31) / 32 * d.cols))

/-- The addresses of a descriptor are as R168 requires (commit error 1). DEDUCED: log entry 43. -/
def State.placesOk (s : State) (d : ShardDesc) : Bool :=
  regionOk (s.tierWindow d) d.master (4 * d.count)
    && (d.words1 == 0 || regionOk (s.tierWindow d) d.moment1 (4 * d.words1))
    && (d.words2 == 0 || regionOk (s.tierWindow d) d.moment2 (4 * d.words2))
    && regionOk s.inHbm d.staging (4 * d.count)
    && (d.freeze == 0 || regionOk s.inWindow d.freeze ((d.count + 7) / 8))
    && regionOk (s.tierWindow d) d.header (64 + d.mapBytes)
    && regionOk s.inWindow d.ruleBlock (if d.rule = 6 then 84 else 64)
    && s.copyOk d d.wc0 && s.copyOk d d.wc1

/-- The fields of a descriptor are in range (commit error 3). DEDUCED: log entry 43. -/
def ShardDesc.fieldsOk (d : ShardDesc) : Bool :=
  let fmt (f : Nat) : Bool := f == 0 || f == 1 || f == 10 || f == 11
  d.rule ≤ 6 && fmt d.wc0.fmt && fmt d.wc1.fmt && 1 ≤ d.count && d.count ≤ 2 ^ 28 && 1 ≤ d.cols && d.cols ≤ d.count
    && d.count % d.cols == 0
    && (if 1 ≤ d.rule ∧ d.rule ≤ 4 then d.moment1 != 0 else true)
    && (if d.rule = 2 ∨ d.rule = 3 ∨ d.rule = 5 then d.moment2 != 0 else true)

/-- Read the descriptors of a shard table: the active ones, or nothing where a read is refused or meets an uncorrectable error.
DEDUCED: log entry 43. -/
def State.readTable (s : State) (base : Nat) : Nat → Nat → NMap ShardDesc → State × Option (NMap ShardDesc)
  | 0, _, acc => (s, some acc)
  | n + 1, x, acc =>
    match s.engRead (base + 128 * x) 128 with
    | (s, none) => (s, none)
    | (s, some l) =>
      let d := shardDescOf l
      s.readTable base n (x + 1) (if d.rule = 0 then acc else acc ++ [(x, d)])

/-- Every header can be read and holds a listed state (R170). DEDUCED: log entry 43. -/
def State.headersOk (s : State) (l : NMap ShardDesc) : State × Bool :=
  l.foldl (fun acc e =>
    match acc.1.readHeader e.2 with
    | (s, some h) => (s, acc.2 && h.state ≤ 4)
    | (s, none) => (s, false)) (s, true)

/-- The error code of a commit, 0 if it passes. DEDUCED: log entry 43. -/
def State.stateCommitError (s : State) (l : NMap ShardDesc) : State × Nat :=
  let pool := s.rf .statePoolSize Fld.statePoolSizeSize * 4096
  let tier1 := l.filter (fun e => e.2.tier)
  if pool = 0 ∧ !tier1.isEmpty then (s, 4)
  else if !s.inHbm (s.rf .statePoolBase Fld.statePoolBaseBase * 4096) pool || l.any (fun e => e.2.fieldsOk && !s.placesOk e.2) then
    (s, 1)
  else if tier1.any (fun e => pool < e.2.slotSize) then (s, 2)
  else if l.any (fun e => !e.2.fieldsOk) then (s, 3)
  else
    let (s, ok) := s.headersOk l
    (s, if ok then 0 else 3)

/-- A write of STATE.COMMIT (R11): a passed commit waits to take effect. DEDUCED: log entries 43, 48. -/
def State.stateCommit (s : State) : State :=
  let n := min (s.rf .stateCtrl Fld.stateCtrlShards) 1048576
  let (s, tab) := s.readTable (s.rf .stateShardBase Fld.stateShardBaseBase * 128) n 0 []
  let (s, code) : State × Nat := match tab with
    | some l => s.stateCommitError l
    | none => (s, 1)
  let s := s.setF .stateStatus Fld.stateStatusCommitError code
  match tab with
  | some l =>
    if code ≠ 0 then s
    else
      let s := s.setF .stateStatus Fld.stateStatusPending 1
      { s with engine := { s.engine with waiting := some (stateStaged.map (fun r => (r, s.rget r)), l) } }
  | none => s

/-- STATE_COMMIT. -/
def execStateCommit (s : State) : Out := clocked 4 s (fun s => s.stateCommit)

/-- A shard is staging, ready or updating. -/
def State.shardBusy (s : State) (x : Nat) (d : ShardDesc) : Bool :=
  !s.engine.errored.contains x
    && ((headerOf (s.current d.header 64)).staged != 0 || s.engine.updates.any (fun u => u.shard == x))

/-- A passed commit takes effect at the first moment at which no shard is staging, ready or updating. -/
def State.stateCommitEffect (s : State) : State :=
  match s.engine.waiting with
  | some (vals, l) =>
    if s.engine.shards.any (fun e => s.shardBusy e.1 e.2) then s
    else
      let s := vals.foldl (fun s v => s.aset v.1 v.2) (s.setF .stateStatus Fld.stateStatusPending 0)
      let s := s.setSlots []
      { s with engine := { s.engine with
          shards := l
          errored := (l.filter (fun e => (headerOf (s.current e.2.header 64)).state == 4)).map Prod.fst
          lost := [], handoffs := s.engine.handoffs.map (fun h => { h with held := false })
          updates := [], missQueue := [], opened := [], invalid := [], waiting := none } }
  | none => s

/-- STATE_COMMIT_EFFECT. -/
def execStateCommitEffect (s : State) : Out := clocked 4 s (fun s => s.stateCommitEffect)

/-- The engine accepts hand-offs and operations: it is enabled, and no passed commit waits. DEDUCED: log entry 48. -/
def State.engineOpen (s : State) : Bool := s.af .stateCtrl Fld.stateCtrlEnable == 1 && s.engine.waiting.isNone

/-! ## A shard in error (R173, R174, R393) -/

/-- The running APPLY descriptors of a ring that name a shard at a step. -/
def Ring.applying (x : Ring) (shard step : Nat) : List Desc :=
  x.descs.filter (fun d => d.phase == .running && d.op == 0x30 && d.blk 8 8 == step && d.blk 0 4 ≤ shard
    && shard < d.blk 0 4 + d.count)

/-- A shard has finished its outcome for a step. -/
def State.outcomeDone (s : State) (x step : Nat) : Bool :=
  s.engine.errored.contains x ||
    (match s.shard? x with
     | some d => !(headerOf (s.current d.header 64)).later step
     | none => false)

/-- The shards of an APPLY whose outcome has ended and matches its decision; one in state 4 does not (R176). -/
def State.applyUnits (s : State) (d : Desc) : Nat :=
  (List.range d.pos).countP (fun i =>
    let x := d.blk 0 4 + i
    !d.missed.contains x && !s.engine.errored.contains x && s.outcomeDone x (d.blk 8 8))

/-- An error has ended a shard's outcome for a step: the APPLY descriptors of that step that name it complete with ABORTED_FAULT, those
that run and those that start later (R393). DESIGN CHOICE: log entry 125. -/
def State.abortApply (s : State) (shard step : Nat) : State :=
  let s := { s with engine := { s.engine with lost := s.engine.lost ++ [(shard, step)] } }
  (s.rings.map Prod.fst).foldl (fun s r =>
    ((s.ring r).applying shard step).foldl (fun s d => s.endDesc r d.idx stAborted (s.applyUnits d)) s) s

/-- The steps of the running APPLY descriptors that name a shard whose outcome is open. DESIGN CHOICE: log entry 125. -/
def State.applySteps (s : State) (x : Nat) : List Nat :=
  ((s.rings.flatMap (fun e => e.2.descs.filter (fun d => d.phase == .running && d.op == 0x30 && d.blk 0 4 ≤ x && x < d.blk 0 4 + d.count))).map
    (fun d => d.blk 8 8)).dedup.filter (fun st => !s.outcomeDone x st)

/-- A shard enters state 4 (R173, R174): it takes no further run and starts no update; its update, if any, stops. `drop` discards the
staged gradient of the step. -/
def State.shardState4 (s : State) (x : Nat) (d : ShardDesc) (drop : Bool) : State :=
  let s := s.engWrite (d.header + 36) (leBytes 1 4)
  let s := if drop then s.engWrite (d.header + 32) (leBytes 4 0) else s
  let s := s.leavePool x
  { s with engine := { s.engine with
    errored := setIns x s.engine.errored, updates := s.engine.updates.filter (fun u => u.shard != x) } }

/-- An uncorrectable error puts a shard in state 4, and the APPLY descriptors of the step that it staged or updated complete with
ABORTED_FAULT (R393): the step of its update, or `step`; where neither is known, its header being lost, those that wait for the shard.
DESIGN CHOICE: log entry 125. -/
def State.shardError (s : State) (x : Nat) (d : ShardDesc) (step : Option Nat := none) : State :=
  let us := (s.engine.updates.filter (fun u => u.shard == x)).map (fun u => u.step)
  let steps := if us.isEmpty then (match step with | some st => [st] | none => s.applySteps x) else us
  steps.foldl (fun s st => s.abortApply x st) (s.shardState4 x d false)

/-! ## Starting an update (R175, R177, R180) -/

/-- The update of a ready shard starts: its rule block is read once, and rule 6 hands over to a program. -/
def State.startUpdate (s : State) (x : Nat) (d : ShardDesc) (h : Header) : State :=
  match s.engRead d.ruleBlock 64 with
  | (s, none) => s.shardError x d (some h.stagedStep)
  | (s, some l) =>
    let s := s.writeHeader d { h with state := 3 }
    let u : Update := { shard := x, step := h.stagedStep, block := toLine l, target := none, returned := false, old := [] }
    if d.rule = 6 then
      let s := ((s.engWrite (d.ruleBlock + 64) (leBytes 4 x)).engWrite (d.ruleBlock + 72) (leBytes 8 h.stagedStep)).engWrite
        (d.ruleBlock + 80) (leBytes 4 h.t)
      let p := s.workPlace x d
      let old := s.currentRange p.1 (4 * d.count) ++ s.currentRange p.2.1 (4 * d.words1) ++ s.currentRange p.2.2 (4 * d.words2)
      let hand := bitsOf u.block.toNat (8 * 24) 16
      let back := bitsOf u.block.toNat (8 * 26) 16
      let target := ((s.peg hand).toNat % 2 ^ 63 + 1) % 2 ^ 63
      let s := { s with engine := { s.engine with updates := s.engine.updates ++ [{ u with target := some target, old := old }] } }
      let s := s.pegSignal hand 1
      let us := s.engine.updates.map (fun (v : Update) => if v.shard = x then v.seePeg back (s.peg back) else v)
      { s with engine := { s.engine with updates := us } }
    else { s with engine := { s.engine with updates := s.engine.updates ++ [u] } }

/-- A CHECKPOINT that has not written the records of a shard holds its updates of steps after the cut (R189). -/
def State.cutHolds (s : State) (x step : Nat) : Bool :=
  s.rings.any (fun e => e.2.descs.any (fun d => d.phase == .running && d.op == 0x31 && d.blk 0 4 + d.pos ≤ x
    && x < d.blk 0 4 + d.count && d.blk 8 8 < step))

/-- The program of a rule block works on another shard (R180). DESIGN CHOICE: log entry 114. -/
def State.blockBusy (s : State) (d : ShardDesc) : Bool :=
  d.rule == 6 && s.engine.updates.any (fun u =>
    match s.shard? u.shard with | some k => k.rule == 6 && k.ruleBlock == d.ruleBlock | none => false)

/-- A shard is ready, its gate is open and its state is at hand (R175, R184), and no program of its rule block works on another one
(R180). -/
def State.updateDue (s : State) (x : Nat) (d : ShardDesc) (h : Header) : Bool :=
  !s.engine.errored.contains x && !s.engine.updates.any (fun u => u.shard == x) && h.ready d
    && (!d.gate || s.engine.opened.contains x) && (!d.tier || (s.poolCopy x).isSome) && !s.blockBusy d

/-- A shard whose update is due starts it, unless a CHECKPOINT holds it (R175, R180, R184, R189). -/
def State.tryUpdate (s : State) (x : Nat) : State :=
  match s.shard? x with
  | none => s
  | some d =>
    if s.engine.errored.contains x || s.engine.updates.any (fun u => u.shard == x) then s
    else
      match s.readHeader d with
      | (s, none) => s.shardError x d
      | (s, some h) => if s.updateDue x d h && !s.cutHolds x h.stagedStep then s.startUpdate x d h else s

/-- The updates of the named shards that a CHECKPOINT held start (R189). -/
def State.resumeUpdates (s : State) (first n : Nat) : State :=
  ((s.engine.shards.map Prod.fst).filter (fun x => first ≤ x && x < first + n)).foldl State.tryUpdate s

/-- The next shard of a rule block of rule 6 goes to its program, in ascending ID (R180). DESIGN CHOICE: log entry 114. -/
def State.nextOfBlock (s : State) (d : ShardDesc) : State :=
  if d.rule ≠ 6 then s
  else ((s.engine.shards.filter (fun e => e.2.rule == 6 && e.2.ruleBlock == d.ruleBlock)).map Prod.fst).foldl State.tryUpdate s

/-! ## Staging (R171 to R174) -/

/-- A record of a run that is not staged (R173): the job as its unit index, the bucket's descriptor, and the address of the shard's
descriptor. -/
def State.runRec (s : State) (cls sev : Nat) (h : Handoff) (x : Nat) : FaultRec :=
  { mkRec cls sev Kind.state h.job with
    desc := some h.desc, addr := BitVec.ofNat 64 (s.af .stateShardBase Fld.stateShardBaseBase * 128 + 128 * x) }

/-- A STATE_MAP error: counted and recorded; the shard, if it is active, enters state 4. DEDUCED: log entry 44. -/
def State.mapError (s : State) (h : Handoff) (x : Nat) (drop : Bool) : State :=
  let s := (s.bumpF .stateErrors Fld.stateErrorsMap 1).report (s.runRec Cls.stateMap 1 h x)
  match s.shard? x with
  | some d => (s.shardState4 x d drop).nextOfBlock d
  | none => s

/-- The staged values of a run (R172). -/
def stagedWords (k : Int) (sums : List Int) : List Nat := sums.map (fun v => sumFp32 v k)

/-- Stage a run of a shard that may take it: values, header, and what readiness starts (R172, R175, R184); false where its sums cannot be
read (R392). DESIGN CHOICE: log entry 124. -/
def State.stageInto (s : State) (h : Handoff) (x : Nat) (d : ShardDesc) (hd : Header) (first count elem : Nat) : State × Bool :=
  let who : Who := { engineWho with desc := some h.desc }
  match s.readNow who .engine (h.slot + 4 * first) (4 * count) with
  | (s, none) => (s.shardError x d (some h.step), false)
  | (s, some l) =>
    match s.writeRange who .engine VC.req (d.staging + 4 * elem) (wordBytes (stagedWords h.k (laneValues count l))) with
    | (s, false) => (s.shardError x d (some h.step), true)
    | (s, true) =>
      let entering := hd.staged == 0 && d.tier && !s.engine.missQueue.contains x && !s.engine.slots.any (fun p => p.shard == x)
      let s := if entering then { s with engine := { s.engine with missQueue := s.engine.missQueue ++ [x] } } else s
      let s := { s with engine := { s.engine with invalid := s.engine.invalid.filter (· != (x, h.step, h.bucket)) } }
      let hd := { hd with staged := hd.staged + count, stagedStep := h.step }
      let s := s.writeHeader d { hd with state := if hd.ready d && d.gate then 2 else 1 }
      (if hd.ready d then s.tryUpdate x else s, true)

/-- What becomes of a run: it is done with, its hand-off waits, or its sums cannot be read. -/
inductive RunEnd where
  | done | wait | lost
  deriving DecidableEq, Repr

/-- Stage one run, or wait (R173, R174). DEDUCED: log entry 44. -/
def State.stageRun (s : State) (h : Handoff) (run : List Byte) : State × RunEnd :=
  let f (i : Nat) : Nat := leNat ((run.drop i).take 4)
  let first := f 0
  let count := f 4
  let x := f 8
  let elem := f 12
  if min (s.af .stateCtrl Fld.stateCtrlShards) 1048576 ≤ x then (s.mapError h x false, .done)
  else
    match s.shard? x with
    | none => (s.bumpF .stateErrors Fld.stateErrorsMap 1, .done)
    | some d =>
      if h.n < first + count || d.count < elem + count then (s.mapError h x false, .done)
      else if s.engine.errored.contains x then (s, .done)
      else
        match s.readHeader d with
        | (s, none) => (s.shardError x d (some h.step), .done)
        | (s, some hd) =>
          if !hd.later h.step then
            ((s.bumpF .stateErrors Fld.stateErrorsStale 1).report (s.runRec Cls.stateStale 0 h x), .done)
          else if hd.staged ≠ 0 ∧ hd.stagedStep ≠ h.step then (s, .wait)
          else if d.count < hd.staged + count then (s.mapError h x true, .done)
          else if hd.state = 3 then (s, .wait)
          else match s.stageInto h x d hd first count elem with
            | (s, true) => (s, .done)
            | (s, false) => (s, .lost)

/-- Remember how far the hand-off of a bucket has come. -/
def State.setHandoffPos (s : State) (h : Handoff) (pos : Nat) : State :=
  let hs := modifyFirst (fun (y : Handoff) => y.job == h.job && y.seq == h.seq) (fun y => { y with pos := pos }) s.engine.handoffs
  { s with engine := { s.engine with handoffs := hs } }

/-- The hand-off is accepted: the bucket of the reduction completes (R161, R172). -/
def State.acceptHandoff (s : State) (h : Handoff) : State :=
  let s := { s with engine := { s.engine with handoffs := s.engine.handoffs.filter (fun y => !(y.job == h.job && y.seq == h.seq)) } }
  match (s.bucket? h.job h.seq).bind (fun b => b.handing) with
  | some status => s.completeBucket h.job h.seq status
  | none => s

/-- An uncorrectable error in what a hand-off reads, the bucket map, its run list or the sum slot, ends the bucket as R166 states, so that
no completion of it reads as success (R386, R392). DESIGN CHOICE: log entry 124. -/
def State.loseHandoff (s : State) (h : Handoff) : State :=
  let s := { s with engine := { s.engine with handoffs := s.engine.handoffs.filter (fun y => !(y.job == h.job && y.seq == h.seq)) } }
  (s.modBucket h.job h.seq (fun b => { b with handing := none })).redAbort h.job h.seq 3

/-- Stage the runs of a hand-off from its position on, in run order. DESIGN CHOICE: log entry 124. -/
def State.stageRuns (s : State) (h : Handoff) (list : Nat) : Nat → Nat → State
  | 0, _ => s.acceptHandoff h
  | n + 1, i =>
    match s.engRead (list + 16 * i) 16 with
    | (s, none) => s.loseHandoff h
    | (s, some run) =>
      match s.stageRun h run with
      | (s, .done) => s.stageRuns h list n (i + 1)
      | (s, .wait) => s.setHandoffPos h i
      | (s, .lost) => s.loseHandoff h

/-- A notice of an invalid bucket stages nothing (R172); the shards of its runs miss it until it is posted again (R167, R176).
DEDUCED: log entry 48. -/
def State.missRuns (s : State) (h : Handoff) (map : Nat) : State :=
  match s.engRead (map + 16 * h.bucket) 16 with
  | (s, none) => s
  | (s, some e) =>
    (List.range (leNat ((e.drop 8).take 4))).foldl (fun s i =>
      match s.engRead (leNat (e.take 8) + 16 * i) 16 with
      | (s, none) => s
      | (s, some run) =>
        { s with engine := { s.engine with invalid := s.engine.invalid ++ [(leNat ((run.drop 8).take 4), h.step, h.bucket)] } }) s

/-- The oldest hand-off of a job is accepted or waits (R171 to R174), or a notice of an invalid bucket is taken (R166). One that has arrived
while a passed commit waits is taken up after its effect ("State registers"). DEDUCED, DESIGN CHOICE: log entries 48, 124. -/
def State.handoff (s : State) (j : Nat) : State :=
  match s.engine.handoffs.find? (fun h => h.job == j) with
  | none => s
  | some h =>
    let refuse (s : State) : State := (s.bumpF .stateErrors Fld.stateErrorsMap 1).acceptHandoff h
    let map := s.af (.stateMap j) Fld.stateMapBase * 16
    if h.held && s.engine.waiting.isSome then s
    else if h.invalid then (if s.af .stateCtrl Fld.stateCtrlEnable = 0 || map = 0 then s else s.missRuns h map).acceptHandoff h
    else if s.af .stateCtrl Fld.stateCtrlEnable = 0 || map = 0 then refuse s
    else
      match s.engRead (map + 16 * h.bucket) 16 with
      | (s, none) => s.loseHandoff h
      | (s, some e) => s.stageRuns h (leNat (e.take 8)) (leNat ((e.drop 8).take 4) - h.pos) h.pos

/-- STATE_HANDOFF (R172). -/
def execStateHandoff (j : JobId) (s : State) : Out := clocked 4 s (fun s => s.handoff j)

/-! ## The end of an update (R178 to R188) -/

/-- Words of a byte string as master and moments. -/
def ShardDesc.wordsOf (d : ShardDesc) (l : List Byte) : ShardWords :=
  ⟨elemsOf 4 d.count l, elemsOf 4 d.words1 (l.drop (4 * d.count)), elemsOf 4 d.words2 (l.drop (4 * d.count + 4 * d.words1))⟩

/-- Words that an update does not need give 0, as `State.readNeeded` gives them. -/
def ShardWords.onlyNeeded (x : ShardWords) (d : ShardDesc) (fz : List Byte) : ShardWords :=
  let mixed := if fz.isEmpty then [] else d.mixed fz
  let pick (e : Nat) : Bool := d.digest || !frozenBy fz e
  let keep (p : Nat → Bool) (l : List Nat) : List Nat := l.zipIdx.map (fun a => if p a.2 then a.1 else 0)
  ⟨keep (fun e => pick e || mixed.contains e) x.w, keep pick x.m, keep (fun e => d.rule == 5 || pick e) x.v⟩

/-- What an update reads: freeze bitmap, words, staged gradient, changed-block bitmap. -/
def State.readUpdate (s : State) (x : Nat) (d : ShardDesc) : State × Option (ShardWords × List Nat × List Byte × List Byte) :=
  match s.readFreeze d with
  | (s, none) => (s, none)
  | (s, some fz) =>
    match s.readNeeded d (s.workPlace x d) fz with
    | (s, none) => (s, none)
    | (s, some w) =>
      match s.engRead d.staging (4 * d.count) with
      | (s, none) => (s, none)
      | (s, some g) =>
        match s.engRead (d.header + 64) d.mapBytes with
        | (s, none) => (s, none)
        | (s, some bm) => (s, some (w, elemsOf 4 d.count g, fz, bm))

/-- Every write of an update: words, working copies, changed blocks, header and digest; the slot is freed (R181, R184, R186, R188). -/
def State.writeUpdate (s : State) (x : Nat) (d : ShardDesc) (u : Update) (h : Header) (old new : ShardWords) (fz bm : List Byte) :
    State :=
  let p := ruleParams u.block h
  let s := if d.rule = 6 then s else s.writeNeeded d (s.workPlace x d) new fz
  let s := (s.writeCopy d d.wc0 new.w (frozenBy fz)).writeCopy d d.wc1 new.w (frozenBy fz)
  let s := s.engWrite (d.header + 64) (setBits bm (changedBlocks d old new))
  let s := if d.tier then s.writeNeeded d d.home new fz else s
  let h := { h with lastStep := some u.step, t := (h.t + 1) % 2 ^ 32, b1t := p.b1t, b2t := p.b2t, staged := 0, state := 0 }
  let h := if d.digest then { h with digest := digestOf new, digestStep := u.step } else h
  let s := (((s.writeHeader d h).leavePool x).forgive x u.step).ackApply x
  let s := s.bumpF .stateUpdates Fld.stateUpdatesUpdates 1
  ({ s with engine := { s.engine with updates := s.engine.updates.filter (fun v => v.shard != x) } } : State).nextOfBlock d

/-- The update of a shard ends (R181); one of rule 6 ends once its return peg has reached its target (R180). An uncorrectable error
stops it before any write (R393). -/
def State.endUpdate (s : State) (x : Nat) : State :=
  match s.engine.updates.find? (fun u => u.shard == x), s.shard? x with
  | some u, some d =>
    if u.target.isSome && !u.returned then s
    else
      match s.readHeader d with
      | (s, none) => (s.shardError x d).nextOfBlock d
      | (s, some h) =>
        match s.readUpdate x d with
        | (s, none) => (s.shardError x d).nextOfBlock d
        | (s, some (w, g, fz, bm)) =>
          let old := if d.rule = 6 then (d.wordsOf u.old).onlyNeeded d fz else w
          let new := if d.rule = 6 then w else updateWords d (ruleParams u.block h) w g (frozenBy fz)
          s.writeUpdate x d u h old new fz bm
  | _, _ => s

/-- SHARD_UPDATE_COMPLETE (R181). -/
def execShardUpdateComplete (x : ShardId) (s : State) : Out := clocked 4 s (fun s => s.endUpdate x)

/-! ## The pool (R184, R185) -/

/-- The state-miss queue grants its first shard a slot if one fits. -/
def State.grantSlot (s : State) : State :=
  match s.engine.missQueue with
  | [] => s
  | x :: rest =>
    match s.shard? x with
    | none => { s with engine := { s.engine with missQueue := rest } }
    | some d =>
      match firstFit (s.engine.slots.map (fun p => (p.offset, p.size))) s.poolSize d.slotSize with
      | none => s
      | some o =>
        ({ s with engine := { s.engine with missQueue := rest } } : State).setSlots (s.engine.slots ++ [⟨x, o, d.slotSize, false⟩])

/-- POOL_SLOT_GRANT (R184). -/
def execPoolSlotGrant (s : State) : Out := clocked 4 s (fun s => s.grantSlot)

/-- A tier 1 shard's state is in the pool (R184). -/
def State.copiedUp (s : State) (x : Nat) : State :=
  match s.engine.slots.find? (fun p => p.shard == x && !p.copied), s.shard? x with
  | some p, some d =>
    match s.readWords d d.home with
    | (s, none) => s.shardError x d (some (headerOf (s.current d.header 64)).stagedStep)
    | (s, some w) =>
      let s := s.writeWords (d.inPool (s.poolBase + p.offset)) w
      let s := s.setSlots (s.engine.slots.map (fun q => if q.shard = x then { q with copied := true } else q))
      (s.bumpF .stateMisses Fld.stateMissesCount 1).tryUpdate x
  | _, _ => s

/-- STATE_COPY_UP_COMPLETE (R184). -/
def execStateCopyUpComplete (x : ShardId) (s : State) : Out := clocked 4 s (fun s => s.copiedUp x)

/-! ## Operation blocks -/

/-- The check of an operation block of the state engine: reserved bytes and values are rejected. DEDUCED: log entry 18. -/
def checkStateOp (d : Desc) (l : List Byte) : OpCheck :=
  let rej (b : Nat) : OpCheck := .reject 1 b (d.opBlock + b) 0
  let none0 (rs : List (Nat × Nat)) : Option Nat := rs.findSome? (fun r => firstNonzero l r.1 r.2)
  let at_ (o : Option Nat) : OpCheck := match o with | some b => rej b | none => .ok
  match d.op with
  | 0x30 =>
    (match none0 [(4, 4)] with
     | some b => rej b
     | none => if 1 < (l.getD 16 0).toNat then rej 16 else at_ (none0 [(17, 47)]))
  | 0x31 =>
    (match none0 [(4, 4)] with
     | some b => rej b
     | none => if 15 < (l.getD 32 0).toNat then rej 32 else at_ (none0 [(33, 31)]))
  | 0x32 => at_ (none0 [(6, 2), (24, 40)])
  | _ => at_ (none0 [(4, 60)])

/-! ## APPLY (R175, R176) -/

/-- A skip of a step (R175). -/
def State.skipShard (s : State) (x : Nat) (d : ShardDesc) (h : Header) (step : Nat) : State :=
  let s := s.writeHeader d { h with lastStep := some step, staged := 0, state := 0 }
  (((s.leavePool x).forgive x step).ackApply x).bumpF .stateUpdates Fld.stateUpdatesSkips 1

/-- What APPLY finds at a shard: it waits, or it has acted, and whether the outcome matches the decision. -/
inductive ApplyStep where
  | wait | unread
  | acted (matches_ : Bool)
  deriving DecidableEq, Repr

/-- APPLY at one shard (R176): a skip clears a step of an invalid bucket without it; an error that has ended the shard's outcome for the
step ends the APPLY (R393). DEDUCED, DESIGN CHOICE: log entries 48, 125. -/
def State.applyShard (s : State) (x step : Nat) (skip : Bool) : State × ApplyStep :=
  match s.shard? x with
  | none => (s, .wait)
  | some d =>
    if s.engine.errored.contains x then (s, if s.engine.lost.contains (x, step) then .unread else .acted false)
    else
      match s.readHeader d with
      | (s, none) => (s.shardError x d (some step), .unread)
      | (s, some h) =>
        if !h.later step then (s, .acted (!(skip && !d.gate)))
        else if h.ready d && h.stagedStep == step then
          if h.state = 3 || !d.gate || s.engine.opened.contains x then (s, .acted (!skip))
          else if skip then (s.skipShard x d h step, .acted true)
          else (({ s with engine := { s.engine with opened := setIns x s.engine.opened } } : State).tryUpdate x, .acted true)
        else if skip && d.gate && s.engine.invalid.any (fun e => e.1 == x && e.2.1 == step) && (h.staged == 0 || h.stagedStep == step) then
          (s.skipShard x d h step, .acted true)
        else (s, .wait)

/-- APPLY goes on while its next shard has reached the step, and completes when every outcome is done. -/
def State.runApply (s : State) (r : Nat) (idx : W32) : Nat → State
  | 0 => s
  | n + 1 =>
    match s.desc? r idx with
    | none => s
    | some d =>
      let first := d.blk 0 4
      let step := d.blk 8 8
      if d.phase != .running then s
      else if d.pos < d.count then
        match s.applyShard (first + d.pos) step (d.blk 16 1 == 1) with
        | (s, .wait) => s
        | (s, .unread) => s.endDesc r idx stAborted (s.applyUnits d)
        | (s, .acted m) =>
          (s.modDesc r idx (fun d =>
            if d.phase == .running then { d with pos := d.pos + 1, missed := if m then d.missed else d.missed ++ [first + d.pos] } else d)).runApply
            r idx n
      else if (List.range d.count).all (fun i => s.outcomeDone (first + i) step) then
        let units := s.applyUnits d
        s.endDesc r idx (if units = d.count then stOk else stPartial) units
      else s

/-! ## CHECKPOINT (R189, R190) -/

/-- Pad to a multiple of 64 B. -/
def pad64 (l : List Byte) : List Byte := l ++ List.replicate (round64 l.length - l.length) 0

/-- A checkpoint record (R189). DEDUCED: log entry 47. -/
def ckptRecord (x : Nat) (d : ShardDesc) (h : Header) (kind row col block : Nat) (words : List Nat) : List Byte :=
  let data := wordBytes words
  leBytes 2 kind ++ leBytes 2 1 ++ leBytes 4 x ++ leBytes 4 d.tensor ++ leBytes 4 words.length ++ leBytes 8 (h.lastStep.getD noStep)
    ++ leBytes 4 row ++ leBytes 4 col ++ leBytes 4 block ++ leBytes 4 d.cols ++ leBytes 4 (crc32 data).toNat ++ List.replicate 20 0
    ++ pad64 data

/-- The records of one block of a shard, by kind. DEDUCED: log entry 47. -/
def ckptBlock (x : Nat) (d : ShardDesc) (h : Header) (w : ShardWords) (contents b : Nat) (changed : Bool) : List (List Byte) :=
  let e := 4096 * b
  let elem (kind : Nat) (l : List Nat) : List (List Byte) :=
    if changed && contents.testBit kind && e < l.length then
      [ckptRecord x d h kind (d.row0 + e / d.cols) (d.col0 + e % d.cols) b ((l.drop e).take 4096)] else []
  let stat (kind row col : Nat) (l : List Nat) : List (List Byte) :=
    if d.rule = 5 && contents.testBit 3 && e < l.length then [ckptRecord x d h kind row col b ((l.drop e).take 4096)] else []
  elem 1 w.w ++ elem 2 w.m ++ (if d.rule = 5 then [] else elem 3 w.v) ++ stat 4 e d.col0 (w.v.take d.rows)
    ++ stat 5 d.row0 e (w.v.drop d.rows)

/-- What writing records does: how far the stream is, how many records, and whether it goes on, has run out of room, or failed. -/
structure CkptRun where
  s : State
  used : Nat
  records : Nat
  stop : Option Nat

/-- Append one record (R190): a record that does not fit ends the operation with PARTIAL. -/
def CkptRun.put (c : CkptRun) (r : Nat) (d : Desc) (rec : List Byte) : CkptRun :=
  if c.stop.isSome then c
  else if d.blk 24 8 < c.used + rec.length then { c with stop := some stPartial }
  else
    match c.s.writeRange (descWho r d) (.desc r d.idx) VC.bulk (d.blk 16 8 + c.used) rec with
    | (s, false) => { c with s := s, stop := some stAborted }
    | (s, true) => { c with s := s, used := c.used + rec.length, records := c.records + 1 }

/-- One block of a shard: its records, then its changed bit is cleared. -/
def CkptRun.block (c : CkptRun) (r : Nat) (d : Desc) (x : Nat) (k : ShardDesc) (h : Header) (w : ShardWords) (bm : List Byte)
    (b : Nat) : CkptRun :=
  let changed := frozenBy bm b || (d.blk 32 1).testBit 0
  let c := (ckptBlock x k h w (d.blk 32 1) b changed).foldl (fun (c : CkptRun) l => c.put r d l) c
  if c.stop.isSome || !frozenBy bm b || k.blocks ≤ b then c
  else
    match c.s.engRead (k.header + 64 + b / 8) 1 with
    | (s, some old) => { c with s := s.engWrite (k.header + 64 + b / 8) (clearBit old (b % 8)) }
    | (s, none) => { c with s := s, stop := some stAborted }

/-- The blocks that may hold records: of elements and, for rule 5, of statistics. DEDUCED: log entry 47. -/
def ShardDesc.ckptBlocks (d : ShardDesc) : Nat := max d.blocks ((max d.rows d.cols + 4095) / 4096)

/-- CHECKPOINT goes on while its next shard has nothing left to update up to the cut (R189). -/
def State.runCheckpoint (s : State) (r : Nat) (idx : W32) : Nat → State
  | 0 => s
  | n + 1 =>
    match s.desc? r idx with
    | none => s
    | some d =>
      let x := d.blk 0 4 + d.pos
      if d.phase != .running then s
      else if d.count ≤ d.pos then s.endDesc r idx stOk d.units
      else
        match s.shard? x with
        | none => (s.modDesc r idx (fun d => { d with pos := d.pos + 1 })).runCheckpoint r idx n
        | some k =>
          match s.readHeader k with
          | (s, none) => (s.endDesc r idx stAborted d.units).resumeUpdates (d.blk 0 4) d.count
          | (s, some h) =>
            if h.ready k && h.stagedStep ≤ d.blk 8 8 && !s.engine.errored.contains x then s
            else
              match s.readWords k k.home with
              | (s, none) => (s.endDesc r idx stAborted d.units).resumeUpdates (d.blk 0 4) d.count
              | (s, some w) =>
                match s.engRead (k.header + 64) k.mapBytes with
                | (s, none) => (s.endDesc r idx stAborted d.units).resumeUpdates (d.blk 0 4) d.count
                | (s, some bm) =>
                  let c := (List.range k.ckptBlocks).foldl (fun (c : CkptRun) b => c.block r d x k h w bm b)
                    ⟨s, d.issued, d.units, none⟩
                  match c.stop with
                  | some st => (c.s.endDesc r idx st c.records).resumeUpdates (d.blk 0 4) d.count
                  | none =>
                    ((c.s.modDesc r idx (fun d => { d with pos := d.pos + 1, issued := c.used, units := c.records })).tryUpdate
                      x).runCheckpoint r idx n

/-! ## DIGEST_CHECK (R187) -/

/-- DIGEST_CHECK goes on while the peer's headers have come. -/
def State.runDigestCheck (s : State) (r : Nat) (idx : W32) : Nat → State
  | 0 => s
  | n + 1 =>
    match s.desc? r idx with
    | none => s
    | some d =>
      let x := d.blk 0 4 + d.pos
      let next (s : State) : State := s.modDesc r idx (fun d => { d with pos := d.pos + 1 })
      if d.phase != .running then s
      else if d.count ≤ d.pos then
        s.endDesc r idx (if d.issued ≠ 0 then stMismatch else if d.units < d.count then stPartial else stOk) d.units
      else
        match s.shard? x with
        | none => (next s).runDigestCheck r idx n
        | some k =>
          match s.readRange (descWho r d) (.desc r idx) k.header 64 with
          | (s, .bytes l) =>
            (match s.readRange (descWho r d) (.desc r idx) (2 ^ 60 + d.blk 4 2 % 4096 * 2 ^ 48 + k.header % 2 ^ 48) 64 with
             | (s, .wait) => s
             | (s, .fail) => s.endDesc r idx stAborted d.units
             | (s, .bytes m) =>
               let s := s.dropFetched (.desc r idx)
               let a := headerOf l
               let b := headerOf m
               let step := d.blk 8 8
               if a.digestStep ≠ step ∨ b.digestStep ≠ step then (next s).runDigestCheck r idx n
               else
                 let s := s.modDesc r idx (fun d => { d with units := d.units + 1 })
                 if a.digest = b.digest then (next s).runDigestCheck r idx n
                 else
                   let (s, ok) := s.writeRange (descWho r d) (.desc r idx) VC.req (d.blk 16 8 + 4 * d.issued) (leBytes 4 x)
                   let s := (s.bumpF .stateDigestMismatch Fld.stateDigestMismatchCount 1).report
                     { mkRec Cls.stateDigest 0 Kind.state 0 with
                       desc := some (descRef r d), addr := BitVec.ofNat 64 k.header }
                   let s := s.modDesc r idx (fun d => { d with issued := d.issued + 1 })
                   if ok then (next s).runDigestCheck r idx n else s.endDesc r idx stAborted d.units)
          | (s, .fail) => s.endDesc r idx stAborted d.units
          | (s, .wait) => s

/-! ## REDERIVE (R191) -/

/-- REDERIVE goes on while its next shard is idle. -/
def State.runRederive (s : State) (r : Nat) (idx : W32) : Nat → State
  | 0 => s
  | n + 1 =>
    match s.desc? r idx with
    | none => s
    | some d =>
      let x := d.blk 0 4 + d.pos
      let next (s : State) : State := s.modDesc r idx (fun d => { d with pos := d.pos + 1, units := d.units + 1 })
      if d.phase != .running then s
      else if d.count ≤ d.pos then s.endDesc r idx stOk d.units
      else
        match s.shard? x with
        | none => (next s).runRederive r idx n
        | some k =>
          match s.readHeader k with
          | (s, none) => s.endDesc r idx stAborted d.units
          | (s, some h) =>
            if h.staged ≠ 0 || h.state ≠ 0 || s.engine.updates.any (fun u => u.shard == x) then s
            else
              match s.readWords k k.home with
              | (s, none) => s.endDesc r idx stAborted d.units
              | (s, some w) =>
                let s := (s.writeCopy k k.wc0 w.w (fun _ => false)).writeCopy k k.wc1 w.w (fun _ => false)
                let s := if k.digest then
                    s.writeHeader k { h with digest := digestOf w, digestStep := h.lastStep.getD noStep } else s
                (next s).runRederive r idx n

/-- A started operation of the state engine goes on as far as it can. DEDUCED: log entry 48. -/
def State.runStateOp (s : State) (r : Nat) (idx : W32) : State :=
  match s.desc? r idx with
  | none => s
  | some d =>
    match d.op with
    | 0x30 => s.runApply r idx (d.count + 1)
    | 0x31 => s.runCheckpoint r idx (d.count + 1)
    | 0x32 => s.runDigestCheck r idx (d.count + 1)
    | 0x33 => s.runRederive r idx (d.count + 1)
    | _ => s

end Sys2Proof.Machine
end

