-- ==== Sys2Proof/Machine/RegWrite.lean ====
section
/-! DEFINITION. Writing a register (R4, R6, R7, R9, R11): which agents may, which bits take the value, and the action that a write of some
registers starts. -/

namespace Sys2Proof.Machine

/-- The bits that an access of 4 or 8 bytes carries, in their places of the register; the bits of a half that is not written are
zero (R6). DEDUCED: log entry 15. -/
def placed (addr size : Nat) (data : W64) : W64 :=
  if size = 8 then data else if addr % 8 = 0 then data &&& 0xFFFFFFFF#64 else data <<< 32

/-- The value of RW and W1C fields after a write of the bits `m` with `v` (R4, R7). -/
def plainValue (r : Reg) (old m v : W64) : W64 :=
  let w := r.rwMask &&& m
  (old &&& ~~~w ||| v &&& w) &&& ~~~(v &&& r.w1cMask &&& m)

/-- A write that starts nothing: RW fields take their values, W1C bits are cleared (R7). DEDUCED: log entry 14. -/
def State.plainWrite (s : State) (r : Reg) (addr size : Nat) (data : W64) : State :=
  s.rset r (plainValue r (s.rget r) (halfMask addr size) (placed addr size data))

/-- A block that only the basecamp controller writes: CLK and RST, FUSE and BOOT, TIME, and FRZ (R358, R383, R409, R423). -/
def basecampOnly (addr : Nat) : Bool :=
  (0xF00000000000 ≤ addr && addr < 0xF00000030000) || (0xF00000038000 ≤ addr && addr < 0xF00000040000)

/-- A commit bit written as 1. -/
def commits (v : W64) (s : State) (f : State → State) : State := if v.getLsbD 0 then f s else s

/-- A write of SEQ.CTRL. -/
def State.seqCmd (s : State) (n cmd : Nat) : State :=
  match cmd with
  | 1 => s.seqStart n
  | 2 => s.seqHalt n
  | 3 => s.seqResume n
  | _ => s

/-- A write of RING.CTRL. -/
def State.ringCmd (s : State) (r cmd : Nat) : State :=
  match cmd with
  | 1 => s.ringStop r
  | 2 => s.ringDisable r
  | _ => s

/-- A write of RST.UNIT[u]: its W1C bit, then its command. -/
def State.unitCmd (s : State) (u addr size : Nat) (data : W64) : State :=
  let s := s.plainWrite (.rstUnit u) addr size data
  match fieldOf (placed addr size data) Fld.rstUnitCmd with
  | 1 => s.unitReset u
  | 2 => s.unitRelease u
  | _ => s

/-- The fuse command that a value of FUSE.PROG_CMD gives (R343). -/
def State.fuseCmd (s : State) (v : W64) : State :=
  let unlock := BitVec.ofNat 32 (fieldOf v Fld.fuseProgCmdUnlock)
  let slot := fieldOf v Fld.fuseProgCmdSlot
  match fieldOf v Fld.fuseProgCmdOp with
  | 1 => s.fuseRollback unlock (fieldOf v Fld.fuseProgCmdTarget)
  | 2 => s.fuseSlot unlock slot
  | 3 => s.fuseRevoke unlock slot
  | _ => s

/-- The flash as a VERIFY started by a register write finds it: nothing says what it holds. DEDUCED: log entry 88. -/
def State.verifyFlash (s : State) : State := ({ s with freeCtr := s.freeCtr + 1 } : State).verify (Config.flash s.freeCtr)

/-- A write of BOOT.REPITCH_CTRL (R354, R356). -/
def State.repitchCmd (s : State) (cmd : Nat) : State :=
  match cmd with
  | 1 => s.repitchEnter
  | 2 => if s.frozen then s else s.verifyFlash
  | 3 => if s.frozen then s else if s.repitchState = 2 then s.repitchLeave else s.repitchError 2
  | _ => s

/-- A write of BOOT.XSPI_CMD: a command of R336, or any other opcode discarded with error 2. -/
def State.xspiCmd (s : State) (v : W64) : State :=
  let f (x : Fld) : Nat := fieldOf v x
  let op := f Fld.bootXspiCmdOpcode
  if s.frozen then s
  else if op = s.xspiReadOp ∨ op = 0x06 ∨ op = 0x05 ∨ op = 0x12 ∨ op = 0xDC then
    s.xspiIssue op (f Fld.bootXspiCmdAddrEn == 1) (f Fld.bootXspiCmdWrite == 1) (f Fld.bootXspiCmdLength) (f Fld.bootXspiCmdAddress)
  else s.repitchError 2

/-- A write of the bits that an access covers, to a register: the action of the register's own row, or a plain write. A command whose
field lies in the half that is not written is not given. DEDUCED: log entry 15. -/
def State.writeAction (s : State) (w : Who) (r : Reg) (addr size : Nat) (data : W64) : State :=
  let v := placed addr size data
  let low := size = 8 ∨ addr % 8 = 0
  let x := mergeHalf (s.regView r) addr size data
  match r with
  | .seqCtrl n => s.seqCmd n (fieldOf v Fld.seqCtrlCmd)
  | .vecSrKey n | .vecSrIndex n | .vecSreg n _ | .vecPreg n _ _ | .vecVregData n _ => s.vecWrite w n r addr size data
  | .agenSetup n a k => s.agenWrite w n a k addr size data
  | .redGovCommit => commits v s State.govCommit
  | .redJobCommit j => commits v s (fun s => s.jobCommit j)
  | .pipeStashCommit => commits v s State.stashCommit
  | .stateCommit => commits v s State.stateCommit
  | .pipeCommit => commits v s State.pipeCommit
  | .pipeAdmitCommit => commits v s State.admitCommit
  | .ringCommit n => commits v s (fun s => s.ringCommit n (v.getLsbD 1))
  | .ringCtrl n => s.ringCmd n (fieldOf v Fld.ringCtrlCmd)
  | .ringDoorbell n => if low then s.doorbell n (v.setWidth 32) else s
  | .pegValue p => s.pegApply p (.value x)
  | .pegAdd p => s.pegApply p (.add (v.setWidth 63) (v.getLsbD 63))
  | .hbmcCommit i => commits v s (fun s => s.hbmcCommit i)
  | .homeBiasCommit => commits v s State.biasCommit
  | .fabPortCommit p => commits v s (fun s => s.portCommit p)
  | .fabCommit => commits v s State.fabCommit
  | .fabDiscCtrl => commits v s State.discReassign
  | .fabRouteCommit => commits v s State.routeCommit
  | .pcieEpCommit => commits v s State.epCommit
  | .pcieRpCommit p => commits v s (fun s => s.rpCommit p)
  | .pcieRpCfgData p => if low then s.cfgWrite p (v.setWidth 32) else s
  | .pcieMsixTable _ _ => (s.plainWrite r addr size data).flushPba
  | .awnCommit => commits v s State.awnCommit
  | .dplCommit => commits v s State.commitRegions
  | .fuseProgCmd => s.fuseCmd v
  | .bootRepitchCtrl => s.repitchCmd (fieldOf v Fld.bootRepitchCtrlCmd)
  | .bootXspiCmd => if low then s.xspiCmd v else s
  | .rstSwReset => if low then s.softwareReset (v.setWidth 32) else s
  | .rstWdtCtrl => s.wdtWrite (fieldOf x Fld.rstWdtCtrlEnable == 1) (fieldOf x Fld.rstWdtCtrlLimit)
  | .rstWdtKick => if low then s.wdtKick (v.setWidth 32) else s
  | .rstUnit u => s.unitCmd u addr size data
  | .fltCommit => commits v s State.fltCommit
  | .fltStatus =>
    let s := if v.getLsbD 0 then s.setF .fltStatus Fld.fltStatusOverflow 0 else s
    if v.getLsbD 1 then s.clearPin else s
  | .frzCtrl => if low ∧ v.setWidth 32 = 0x46525A45#32 then s.freeze 2 0 else s
  | .timeSet => s.timeSet v
  | .timeCommit => commits v s State.timeCommit
  | _ => s.plainWrite r addr size data

/-- A write of `size` bytes at local offset `addr` in a register region by a requester, the basecamp controller or another (R6, R7, R36, R44, R251, R358, R383, R409, R423). An
offset of memory, of an aperture or of a root-port window is no register, and nothing is written. -/
def State.regWrite (s : State) (w : Who) (basecamp : Bool) (addr size : Nat) (data : W64) : State :=
  match regPlace addr with
  | .other => s
  | .absent => s.undecoded w addr
  | p =>
    if irregularSize addr size then s.report (csrRec w addr)
    else match p with
      | .prog n o => s.progWrite w n o size data
      | .reg r => if basecampOnly addr && !basecamp then s.report (csrRec w addr) else s.writeAction w r addr size data
      | _ => s.report (csrRec w addr)

/-- A write of a register by an agent (R7). DEDUCED: log entry 15. -/
def State.csrWrite (s : State) (agent : Agent) (addr size : Nat) (data : W64) : State :=
  s.regWrite (Agent.who agent) (agent == .basecamp) addr size data

/-- A unit's register access is performed (R6, R7): the read value goes to the unit's work, and a write takes effect. A unit writes no
block that only the basecamp controller writes (R358). DEDUCED: log entry 27. -/
def State.unitAccess (s : State) (q : RegReq) : State :=
  match q.data with
  | none => s.readTo q.who q.addr q.size (.unit q.owner q.addr q.size)
  | some v => (s.regWrite q.who false q.addr q.size v).acked q.owner

/-- The register accesses that the units have made are performed, oldest first. DEDUCED: log entry 27. -/
def State.unitAccesses (s : State) : State :=
  s.fab.regReqs.foldl State.unitAccess { s with fab := { s.fab with regReqs := [] } }

/-- REGISTER_WRITE: an agent writes a register (R7); a core takes an access-fault exception for an AMO or SC, and for an offset that R251
refuses (R309, R310). DEDUCED: log entries 16, 17. -/
def execRegisterWrite (agent : Agent) (addr : BitVec 48) (access : SizedAccess (BitVec 4)) (data : W64) (s : State) : Out :=
  .next (if !s.reachable agent addr.toNat then s
    else match coreAtomic agent access.atomic with
      | some c => s.accessFault c addr.toNat
      | none => (s.csrWrite agent addr.toNat access.size.toNat data).coreAbsent agent addr.toNat)

/-- VEC_REGISTER_WRITE (R44, R77): a write of a register at an offset of the VEC block of a tile. -/
def execVecRegisterWrite (agent : Agent) (n : TileId) (offset : BitVec 13) (size : Nat) (data : W64) (s : State) : Out :=
  agentDo 6 agent s (fun s => s.csrWrite agent (0xF0002000E000 + n.val * 0x100000 + offset.toNat) size data)

end Sys2Proof.Machine
end

