-- ==== Sys2Proof/Machine/Mgmt.lean ====
section
/-! DEFINITION. Register accesses that the basecamp firmware makes for frames of the management port (R422). -/

namespace Sys2Proof.Machine

/-- The basecamp controller as a requester. -/
def basecampWho : Who := Agent.who .basecamp

/-- A local offset of a memory window or an aperture. -/
def inMemory (addr : Nat) : Bool := match regionOf addr with | .hbm | .lp | .aperture _ _ => true | _ => false

/-- The basecamp controller reads 8 bytes at a local offset for a REG_READ frame: a register, a memory window or an aperture.
DEDUCED: log entry 60. -/
def State.frameRead (s : State) (src : BitVec 48) (seq off : Nat) : State :=
  let reply : Reply := .mgmt src seq off
  if 2 ^ 48 ≤ off then (s.undecoded basecampWho off).replyRead reply 0
  else if inMemory off then
    match s.ioReadRange basecampWho off 8 with
    | (s, some l) => s.replyRead reply (BitVec.ofNat 64 (leNat l))
    | (s, none) => s.lostRead basecampWho off reply
  else s.readTo basecampWho off 8 reply

/-- The basecamp controller writes 8 bytes at a local offset for a REG_WRITE frame. DEDUCED: log entry 60. -/
def State.frameWrite (s : State) (off : Nat) (v : W64) : State :=
  if 2 ^ 48 ≤ off then s.undecoded basecampWho off
  else if inMemory off then s.ioWriteRange basecampWho off (leBytes 8 v.toNat)
  else s.csrWrite .basecamp off 8 v

/-- REG_READ (R422): answered by the value that the basecamp controller reads. DEDUCED: log entry 60. -/
def execRegRead (src : Ether) (seq : W16) (offset : W64) (s : State) : Out :=
  onFrame src s (fun s =>
    if s.firmwareRuns then s.unlessSending src.src 32 seq.toNat (fun s =>
      if s.reachable .basecamp offset.toNat then s.frameRead src.src seq.toNat offset.toNat else s)
    else s)

/-- REG_WRITE (R422): from the peer while write_en is 1, performed by the basecamp controller and then answered, unless it has reset the
device; from any other sender answered with status 1. DEDUCED: log entry 60. -/
def execRegWrite (src : Ether) (seq : W16) (offset value : W64) (s : State) : Out :=
  onFrame src s (fun s =>
    if !s.firmwareRuns then s
    else s.unlessSending src.src 33 seq.toNat (fun s =>
    if !s.mgmtMay src.src then s.answerFrame src.src 33 1 seq.toNat 0 []
    else if s.reachable .basecamp offset.toNat then
      let s := s.frameWrite offset.toNat value
      if s.firmwareRuns then s.answerFrame src.src 33 0 seq.toNat 0 [] else s
    else s))

end Sys2Proof.Machine
end

