-- ==== Sys2Proof/Machine/PcieIn.lean ====
section
/-! DEFINITION. Requests of the external host: the CSR BAR and the awning window (R315 to R318). -/

namespace Sys2Proof.Machine

/-- The endpoint as a requester. -/
def hostWho : Who := ⟨Kind.endpoint, 0, 0, none⟩

/-- An access of a BAR is refused: counted (R315, R318, R332). -/
def State.countRefused (s : State) : State := s.bumpF .pcieEpEvents Fld.pcieEpEventsRefused 1

/-- The PCIE_DECODE record of a refused access (R315, R318), counted; an access that R251 refuses counts at the homes too.
DEDUCED: log entry 58. -/
def State.pcieRefuse (s : State) (addr : Nat) : State :=
  let s := if isAbsent addr then s.bumpF .homeAddrFaults Fld.homeAddrFaultsCount 1 else s
  s.countRefused.report (whoRec Cls.pcieDecode hostWho addr)

/-- R231 or R251 refuses a part of an awning access. DEDUCED: log entry 58. -/
def State.awnRefused (s : State) (a n : Nat) : Bool :=
  (pieces a n).any (fun x => match regionOf x.1 with
    | .hbm | .lp => !s.usable x.1
    | .aperture _ _ => false
    | _ => true)

/-- Count an awning access that R231 or R251 refuses (R318, R332). -/
def State.awnCount (s : State) (a n : Nat) : State := if s.awnRefused a n then s.countRefused else s

/-- A completion of zeros. -/
def State.zeroCpl (s : State) (a n : Nat) : State := s.complete? 0 a (some (List.replicate n 0))

/-- The local offset of an access through the CSR BAR (R315). -/
def csrBar (o : Nat) : Nat := 0xF00000000000 + o

/-- A CSR BAR access that reaches a root-port window or that R251 refuses (R315). DEDUCED: log entry 58. -/
def csrRefused (addr : Nat) : Bool :=
  inRpWindow addr || (match regionOf addr with | .registers => false | _ => true)

/-- The local offset of an access through the awning window, by the base in force (R317). -/
def State.awningAddr (s : State) (o : Nat) : Nat := s.af .awnBase Fld.awnBaseBase * 2 ^ 28 + o

/-- A local offset falls in a register region. DEDUCED: log entry 58. -/
def inRegisters (addr : Nat) : Bool := match regionOf addr with | .registers => true | _ => false

/-- A posted write takes effect (R316): later requests are performed after it, as commands are. DEDUCED: log entry 58. -/
def State.hostWrite (s : State) (bar : BarAddr) (data : List Byte) : State :=
  match bar with
  | .csr o =>
    let a := csrBar o.toNat
    if csrRefused a then s.pcieRefuse a else s.csrWrite .host a data.length (BitVec.ofNat 64 (leNat data))
  | .awning o =>
    let a := s.awningAddr o.toNat
    if inRegisters a then s.pcieRefuse a else (s.awnCount a data.length).ioWriteRange hostWho a data

/-- A read of the external host is completed (R316, R318). DEDUCED: log entry 58. -/
def State.hostRead (s : State) (bar : BarAddr) (len : Nat) : State :=
  match bar with
  | .csr o =>
    let a := csrBar o.toNat
    if csrRefused a then (s.pcieRefuse a).zeroCpl a len else s.readTo hostWho a len (.host len)
  | .awning o =>
    let a := s.awningAddr o.toNat
    if inRegisters a then (s.pcieRefuse a).zeroCpl a len
    else
      let (s, r) := (s.awnCount a len).ioReadRange hostWho a len
      s.complete? 0 a r

/-- The endpoint receives a TLP of a live link: one that arrives while a reset of the endpoint asks it to become idle is refused (R375), and
a poisoned one is discarded (R316); a read then completes with UR. In D3hot the function takes no memory request (R314).
DEDUCED, PRESUMED: log entries 59, 80. -/
def State.hostTlp (s : State) (addr : Nat) (read poisoned : Bool) (f : State → State) : State :=
  let ur (s : State) : State := if read then s.unsupported 0 else s
  if s.rf .pcieEpStatus Fld.pcieEpStatusLinkUp ≠ 1 then s
  else if s.rf (.rstUnit 544) Fld.rstUnitState ≠ 0 ∨ s.io.d3hot then ur s
  else if poisoned then ur (s.poisoned 0 Kind.endpoint 0 addr)
  else f s

/-- The offset of an access in its BAR. -/
def barOffset : BarAddr → Nat
  | .csr o => o.toNat
  | .awning o => o.toNat

/-- The local offset that an access names. -/
def State.barAddr (s : State) : BarAddr → Nat
  | .csr o => csrBar o.toNat
  | .awning o => s.awningAddr o.toNat

/-- TLP_POSTED_WRITE (R316). DESIGN CHOICE: log entry 4. -/
def execTlpPostedWrite (bar : BarAddr) (data : List Byte) (poisoned : Bool) (s : State) : Out :=
  clocked 8 s (fun s => s.hostTlp (s.barAddr bar) false poisoned (fun s => s.hostWrite bar data))

/-- TLP_READ (R316). DESIGN CHOICE: log entry 4. -/
def execTlpRead (bar : BarAddr) (len : BitVec 13) (poisoned : Bool) (s : State) : Out :=
  clocked 8 s (fun s => s.hostTlp (s.barAddr bar) true poisoned (fun s => s.hostRead bar len.toNat))

end Sys2Proof.Machine
end

