-- ==== Sys2Proof/Machine/Remote.lean ====
section
/-! DEFINITION. Register accesses from other devices, and requests that end by an ERR or by their timeout (R304 to R306). -/

namespace Sys2Proof.Machine

/-! ## At the destination (R304, R305) -/

/-- What becomes of an inbound register access. -/
inductive InboundReg where
  | open | denied | refused
  deriving DecidableEq, Repr

/-- Decode the offset of an inbound register access (R251, R304): a register region that FAB.INBOUND opens, or none.
DEDUCED: log entry 57. -/
def State.inboundReg (s : State) (off : Nat) : InboundReg :=
  match regionOf off with
  | .absent => .refused
  | .registers => if !inRpWindow off && s.inboundOpen Fld.fabInboundRegisters then .open else .denied
  | _ => .denied

/-- A destination performs an 8 B register access of a packet, or answers ERR (R304, R306). DEDUCED: log entry 57. -/
def State.fabReg (s : State) (k : Pkt) (f : State → State) : State :=
  match s.inboundReg k.off with
  | .open => f s
  | .denied => s.deny k 2
  | .refused => (s.undecoded (inboundWho k) k.off).respondErr k 1

/-- RDREG (R304). -/
def execRdreg (s : State) : Out :=
  clocked 7 s (fun s => match s.takePkt PT.rdreg with
    | some (k, s) => s.fabReg k (fun s => s.readTo (inboundWho k) k.off 8 (.fabric k))
    | none => s)

/-- WRREG (R305): the answer goes out after the register has taken the write. -/
def execWrreg (s : State) : Out :=
  clocked 7 s (fun s => match s.takePkt PT.wrreg with
    | some (k, s) => s.fabReg k (fun s =>
        (s.csrWrite (.fabric k.src) k.off 8 (BitVec.ofNat 64 (leNat (k.payload.take 8)))).respond k PT.wrack [])
    | none => s)

/-! ## At the originator (R306) -/

/-- The class at the originator of an ERR code (R306). DEDUCED: log entry 56. -/
def errClass (code : Nat) : Nat :=
  match code with
  | 1 => Cls.addrDecode
  | 2 | 4 => Cls.fabDenied
  | 3 => Cls.memUe
  | _ => Cls.fabMalformed

/-- The updates that a CHECKPOINT held go on after its end (R189). -/
def State.resumeCut (s : State) (d : Desc) : State := if d.op = 0x31 then s.resumeUpdates (d.blk 0 4) d.count else s

/-- A refused write of a descriptor ends it with ABORTED_FAULT (R229, R306, R321); a REDUCE ends when its bucket does, with units_done 0
(R166). Its units end at the first byte refused. DEDUCED: log entries 41, 55. -/
def State.descWriteFail (s : State) (r : Nat) (idx : W32) (pos : Nat) : State :=
  match s.desc? r idx with
  | none => s
  | some d =>
    let bytes := d.isCopy || d.op == 0x40
    let s := if bytes then s.modDesc r idx (fun e => { e with failAt := some (match e.failAt with | some x => min x pos | none => pos) })
      else s
    match d.phase with
    | .running => if d.op = 0x20 then s.modDesc r idx (fun e => { e with failAt := some 0 }) else (s.endDesc r idx stAborted (if d.isCopy then d.issued else if d.op = 0x40 then s.ioUnits r d else d.units)).resumeCut d
    | .ended => s.endDesc r idx stAborted (if d.op = 0x20 then 0 else d.units)
    | _ => s

/-- The work of a request that gets no answer ends as R251 ends a refused access, with the record that is still to be written. A read stays
failed until the work that asked for it meets it. -/
def State.endReq (s : State) (q : OpenReq) (rec_ : Option FaultRec) : State :=
  let note (s : State) : State := match rec_ with | some r => s.report r | none => s
  let s := if q.write then s else s.keepFailed q.owner (globalAddr q.dev q.off)
  match q.owner with
  | .agen n _ | .drain n _ => s.faultTile n rec_
  | .desc r idx => if q.write then (note s).descWriteFail r idx q.pos else note s
  | o => (note s).mirrorAfter o

/-- A request ends without its answer (R306), with a record that names its requester. DEDUCED: log entries 55, 56. -/
def State.failReq (s : State) (q : OpenReq) (cls : Nat) : State := s.endReq q (some (whoRec cls q.who (globalAddr q.dev q.off)))

/-- ERR: a request is not performed, and ends at its originator (R306). -/
def execErr (s : State) : Out :=
  clocked 7 s (fun s => match s.takePkt PT.err with
    | some (k, s) =>
      match s.answered k with
      | some (q, s) => s.failReq q (errClass (k.payload.headD 0).toNat)
      | none => s.bumpF .fabDrops Fld.fabDropsLate 1
    | none => s)

/-- TAKEOVER_ACK: the packets of port `q` that do not lie wholly in flits up to `seq` are routed again in their order, ahead of newer
packets (R285). A request of this device that no port reaches any more ends at once (R294). -/
def execTakeoverAck (p q : PortId) (seq : BitVec 12) (s : State) : Out :=
  clocked 7 s (fun s =>
    let s := s.consume p PT.takeoverAck
    let x := s.port q
    match x.takeover with
    | none => s
    | some t =>
      let at_ := x.retry.findIdx? (fun f : SentFlit => f.seq == seq.toNat)
      let doneSeqs := match at_ with | some i => (x.retry.take (i + 1)).map (fun f : SentFlit => f.seq) | none => []
      let left := (x.sent.filter (fun k : SentPkt => !doneSeqs.contains k.last)).map (fun k : SentPkt => k.pkt)
      let s := s.setPort q { x with takeover := none, sent := [], outQ := [], retry := [] }
      (s.reroute t (left ++ x.outQ)).2.foldl (fun s q => s.endReq q none) (s.reroute t (left ++ x.outQ)).1)

/-- A request gets no response within FAB.CFG.req_timeout (R306). -/
def State.reqTimeout (s : State) (tag gen : Nat) : State :=
  match popFirst (fun r : OpenReq => r.tag == tag && r.gen == gen) s.fab.openReqs with
  | some (q, rest) => ({ s with fab := { s.fab with openReqs := rest } } : State).failReq q Cls.fabTimeout
  | none => s

/-- REQUEST_TIMEOUT (R306). -/
def execRequestTimeout (tag : BitVec 16) (gen : BitVec 8) (s : State) : Out :=
  clocked 7 s (fun s => s.reqTimeout tag.toNat gen.toNat)

end Sys2Proof.Machine
end

