-- ==== Sys2Proof/Machine/RingStart.lean ====
section
/-! DEFINITION. The start of a descriptor: its header, its wait condition, its operation block, its engine (R213 to R216, R223, R322), and
the rows of the operations. -/

namespace Sys2Proof.Machine

/-! ## The header (R213, R214) -/

/-- An op of the table (R213, R319). -/
def opListed (op : Nat) : Bool :=
  op == 0x00 || op == 0x01 || op == 0x02 || op == 0x10 || op == 0x20 || (0x30 ≤ op && op ≤ 0x33) || (0x40 ≤ op && op ≤ 0x42)

/-- The op takes a descriptor of a version (R213). -/
def verAllowed (op ver : Nat) : Bool := ver == 2 || (ver == 1 && op ≤ 0x02)

/-- The bytes of a header that break R214, in ascending order; `bound` says whether its job is bound. -/
def Desc.faultBytes (d : Desc) (bound : Bool) : List Nat :=
  let b (i lo n : Nat) : Bool := d.bits i lo n != 0
  let bad : Nat → Bool
    | 0 => !opListed d.op
    | 1 => !verAllowed d.op d.ver || b 1 7 1
    | 2 => b 2 2 6
    | 4 => d.op == 0x20 && !bound
    | 10 => 2 < d.waitCond
    | 23 => b 23 7 1
    | 39 => b 39 7 1
    | i => (i == 3 || (5 ≤ i && i ≤ 7) || (11 ≤ i && i ≤ 15) || (26 ≤ i && i ≤ 31)) && b i 0 8
  (List.range 40).filter bad

/-- The first byte of a header that breaks R214. -/
def Desc.firstFault (d : Desc) (bound : Bool) : Option Nat := (d.faultBytes bound).head?

/-- The job of a descriptor is bound (R141). -/
def State.jobBound (s : State) (d : Desc) : Bool := (s.job d.job).binding.isSome

/-! ## The operation block (R214) -/

/-- The op has an operation block. -/
def Desc.hasBlock (d : Desc) : Bool := d.op != 0 && d.count != 0

/-- The check of a block that its operation makes before its engine takes it; those of REDUCE and STEP are made at the start, with their
tables (R145, R193, R195). -/
def State.checkBlock (s : State) (r : Nat) (d : Desc) (l : List Byte) : OpCheck :=
  let slot := s.slotAddr r d.idx.toNat
  if d.op = 0x01 then s.checkCopy d l
  else if d.op = 0x02 then checkFill d l slot
  else if 0x30 ≤ d.op ∧ d.op ≤ 0x33 then checkStateOp d l
  else if 0x40 ≤ d.op then checkIo d l
  else .ok

/-- What an outcome of a check does to a descriptor that does not start. DEDUCED: log entry 54. -/
def State.noStart (s : State) (r : Nat) (d : Desc) (c : OpCheck) : State :=
  match c with
  | .reject loc byte addr tab => (s.dropFetched (.desc r d.idx)).rejectDesc r d loc byte addr tab
  | .fail => (s.dropFetched (.desc r d.idx)).endDesc r d.idx stAborted 0
  | _ => s

/-! ## The engines (R215) -/

/-- Start a REDUCE (R145 to R147, R167): its block is checked before its engine takes it (R214). DEDUCED: log entry 54. -/
def State.beginReduce (s : State) (r : Nat) (d : Desc) : State :=
  match (s.job d.job).binding with
  | none => s.rejectDesc r d 0 4 (s.slotAddr r d.idx.toNat + 4) 0
  | some g =>
    let ready := s.reduceReady d.job d.count
    if d.count = 0 || s.jobBroken d.job then (if ready then s.startReduce r d none else s)
    else
      match s.checkReduce r d g (lineBytes d.block) (s.slotAddr r d.idx.toNat) with
      | (s, .ok op) => if ready then (s.dropFetched (.desc r d.idx)).startReduce r d (some op) else s
      | (s, .no c) => s.noStart r d c

/-- Start a STEP (R193 to R196). DEDUCED: log entry 52. -/
def State.beginStep (s : State) (r : Nat) (d : Desc) : State :=
  let l := lineBytes d.block
  match s.checkStep r d l (s.slotAddr r d.idx.toNat) with
  | (s, .ok x) =>
    (s.dropFetched (.desc r d.idx)).startStep r d x (s.isFlush (leNat ((l.drop 16).take 1)) (leNat ((l.drop 14).take 2)))
  | (s, .no c) => s.noStart r d c

/-- The engine of an operation, but for REDUCE and an I/O operation, accepts a start (R193, R215). -/
def State.accepts (s : State) (op : Nat) : Bool :=
  if op = 0x10 then s.schedFree else if 0x30 ≤ op ∧ op < 0x40 then s.engineOpen else true

/-- Start an operation whose block has been checked, if its engine accepts it (R215); a count of zero completes at the start (R216). -/
def State.beginOp (s : State) (r : Nat) (d : Desc) : State :=
  if d.op = 0x20 then s.beginReduce r d
  else if d.op = 0 then (s.startDesc r d.idx).endDesc r d.idx stOk 0
  else if !s.accepts d.op then s
  else if d.count = 0 then (s.startDesc r d.idx).endDesc r d.idx stEmpty 0
  else if d.op = 0x10 then s.beginStep r d
  else if 0x40 ≤ d.op then (if s.hostUp then s.startDesc r d.idx else s.endDesc r d.idx stLinkLost 0)
  else if 0x30 ≤ d.op then (s.startDesc r d.idx).runStateOp r d.idx
  else s.startDesc r d.idx

/-! ## The start (R215) -/

/-- A descriptor whose wait condition holds reads its operation block once, and then starts if its engine accepts it.
DEDUCED: log entry 54. -/
def State.openBlock (s : State) (r : Nat) (d : Desc) : State :=
  if d.blockOk || !d.hasBlock then s.beginOp r d
  else
    match s.readOpBlock r d with
    | (s, .wait) => s
    | (s, .fail) => s.noStart r d .fail
    | (s, .bytes l) =>
      match s.checkBlock r d l with
      | .ok =>
        let s := (s.dropFetched (.desc r d.idx)).modDesc r d.idx (fun e => { e with block := toLine l, blockOk := true })
        s.beginOp r { d with block := toLine l, blockOk := true }
      | c => s.noStart r d c

/-- A descriptor with a good header waits on its peg, and goes on when the condition has been seen to hold; a fault bit seen first ends it
(R222, R223). DEDUCED: log entry 54. -/
def State.openWait (s : State) (r : Nat) (d : Desc) : State :=
  if d.waitCond = 0 || d.pegSeen then s.openBlock r d
  else
    let v := s.peg d.waitPeg
    if d.pegFault || pegFaulted v then s.endDesc r d.idx stAborted 0
    else if pegCond d.waitCond v (BitVec.ofNat 64 d.waitValue) then
      let s := s.modDesc r d.idx (fun e => { e with pegSeen := true })
      s.openBlock r { d with pegSeen := true }
    else s

/-- An admitted descriptor whose turn it is goes on towards its start as far as it can (R215): header, wait condition, operation block,
engine. DEDUCED: log entry 54. -/
def State.openDesc (s : State) (r : Nat) (d : Desc) : State :=
  if d.headerOk then s.openWait r d
  else
    match d.firstFault (s.jobBound d) with
    | some b => s.rejectDesc r d 0 b (s.slotAddr r d.idx.toNat + b) 0
    | none =>
      let s := s.modDesc r d.idx (fun e => { e with headerOk := true })
      s.openWait r { d with headerOk := true }

/-- Descriptor `idx` of ring `r` starts, if `p` picks it and its turn has come (R215). -/
def State.startIf (s : State) (r : Nat) (idx : W32) (p : Desc → Bool) : State :=
  match s.desc? r idx with
  | some d => if d.phase == .admitted && (s.ring r).inOrder d && p d then s.openDesc r d else s
  | none => s

/-- DESCRIPTOR_START (R215). -/
def execDescriptorStart (r : RingId) (idx : W32) (s : State) : Out := clocked 4 s (fun s => s.startIf r idx (fun _ => true))

/-- A descriptor of an op starts. -/
def startOp (op : Nat) (r : Nat) (idx : W32) (s : State) : State := s.startIf r idx (fun d => d.op == op)

/-- FENCE starts and completes (R216). -/
def execFence (r : RingId) (idx : W32) (s : State) : Out := clocked 4 s (startOp 0x00 r idx)
/-- REDUCE opens its bucket at its start (R146). -/
def execReduce (r : RingId) (idx : W32) (s : State) : Out := clocked 4 s (startOp 0x20 r idx)
/-- STEP starts (R195). -/
def execStep (r : RingId) (idx : W32) (s : State) : Out := clocked 4 s (startOp 0x10 r idx)

/-- An operation of the state engine starts, or goes on if it has started. -/
def stateOp (op r : Nat) (idx : W32) (s : State) : State :=
  match s.desc? r idx with
  | some d =>
    if d.op ≠ op then s else if d.phase == .running then s.runStateOp r idx else startOp op r idx s
  | none => s

/-- APPLY (R176). -/
def execApply (r : RingId) (idx : W32) (s : State) : Out := clocked 4 s (stateOp 0x30 r idx)
/-- CHECKPOINT (R189). -/
def execCheckpoint (r : RingId) (idx : W32) (s : State) : Out := clocked 4 s (stateOp 0x31 r idx)
/-- DIGEST_CHECK (R187). -/
def execDigestCheck (r : RingId) (idx : W32) (s : State) : Out := clocked 4 s (stateOp 0x32 r idx)
/-- REDERIVE (R191). -/
def execRederive (r : RingId) (idx : W32) (s : State) : Out := clocked 4 s (stateOp 0x33 r idx)

/-- An I/O operation starts, or issues its next requests: one of up to `n` bytes, or up to `n` vectors (R319). -/
def hostOp (op r : Nat) (idx : W32) (n : Nat) (s : State) : State :=
  match s.desc? r idx with
  | some d => if d.op ≠ op then s else if d.phase == .running then s.ioPieces r idx op n else startOp op r idx s
  | none => s

/-- HOST_READ (R321). -/
def execHostRead (r : RingId) (idx : W32) (n : Nat) (s : State) : Out := clocked 4 s (hostOp 0x40 r idx n)
/-- HOST_WRITE (R320). -/
def execHostWrite (r : RingId) (idx : W32) (n : Nat) (s : State) : Out := clocked 4 s (hostOp 0x41 r idx n)
/-- HOST_MSIX (R319, R320). -/
def execHostMsix (r : RingId) (idx : W32) (n : Nat) (s : State) : Out := clocked 4 s (hostOp 0x42 r idx n)

end Sys2Proof.Machine
end

