-- ==== Sys2Proof/Machine/TisScalar.lean ====
section
/-! DEFINITION. The scalar instructions of TIS (R54). -/

namespace Sys2Proof.Machine

/-- An instruction that writes s[d] from s[a] and s[b]. -/
def scalarOp (n : Nat) (f : W64 → W64 → W64) (w : W64) (s : State) : State :=
  (s.modTile n (fun t => t.setS (fD w) (f (t.sreg (fA w)) (t.sreg (fB w))))).retire n

/-- A truth value as a scalar. -/
def ofBool64 (b : Bool) : W64 := if b then 1 else 0

/-- NOP does nothing (R54). -/
def execNop (n : TileId) (s : State) : Out := clocked 6 s (tisStep n 0x00 (fun _ s => s.retire n))

/-- ADD (R54). -/
def execAdd (n : TileId) (s : State) : Out := clocked 6 s (tisStep n 0x20 (scalarOp n (fun a b => a + b)))
/-- SUB (R54). -/
def execSub (n : TileId) (s : State) : Out := clocked 6 s (tisStep n 0x21 (scalarOp n (fun a b => a - b)))
/-- MUL (R54). -/
def execMul (n : TileId) (s : State) : Out := clocked 6 s (tisStep n 0x22 (scalarOp n (fun a b => a * b)))
/-- AND (R54). -/
def execAndS (n : TileId) (s : State) : Out := clocked 6 s (tisStep n 0x23 (scalarOp n (fun a b => a &&& b)))
/-- OR (R54). -/
def execOrS (n : TileId) (s : State) : Out := clocked 6 s (tisStep n 0x24 (scalarOp n (fun a b => a ||| b)))
/-- XOR (R54). -/
def execXorS (n : TileId) (s : State) : Out := clocked 6 s (tisStep n 0x25 (scalarOp n (fun a b => a ^^^ b)))
/-- SHL: the amount is s[b] mod 64 (R54). -/
def execShl (n : TileId) (s : State) : Out := clocked 6 s (tisStep n 0x26 (scalarOp n (fun a b => a <<< (b.toNat % 64))))
/-- SHR: the amount is s[b] mod 64 (R54). -/
def execShr (n : TileId) (s : State) : Out := clocked 6 s (tisStep n 0x27 (scalarOp n (fun a b => a >>> (b.toNat % 64))))
/-- SRA: filled with bit 63 (R54). -/
def execSra (n : TileId) (s : State) : Out :=
  clocked 6 s (tisStep n 0x28 (scalarOp n (fun a b => a.sshiftRight (b.toNat % 64))))
/-- SLT (R54). -/
def execSlt (n : TileId) (s : State) : Out := clocked 6 s (tisStep n 0x29 (scalarOp n (fun a b => ofBool64 (a.slt b))))
/-- SLTU (R54). -/
def execSltu (n : TileId) (s : State) : Out := clocked 6 s (tisStep n 0x2A (scalarOp n (fun a b => ofBool64 (a.ult b))))
/-- ADDI (R54). -/
def execAddi (n : TileId) (s : State) : Out :=
  clocked 6 s (tisStep n 0x2B (fun w => scalarOp n (fun a _ => a + fImm w) w))
/-- LI (R54). -/
def execLi (n : TileId) (s : State) : Out :=
  clocked 6 s (tisStep n 0x2C (fun w => scalarOp n (fun _ _ => fImm w) w))

/-- LIH writes bits [63:32] and keeps bits [31:0] of s[d] (R54). -/
def lihOp (n : Nat) (w : W64) (s : State) : State :=
  (s.modTile n (fun t => t.setS (fD w) (w.extractLsb' 32 32 ++ (t.sreg (fD w)).extractLsb' 0 32))).retire n

/-- LIH (R54). -/
def execLih (n : TileId) (s : State) : Out := clocked 6 s (tisStep n 0x2D (lihOp n))

/-- The aperture offset that LD and ST address: s[a] + imm, bits [2:0] ignored (R54, R72). -/
def ldAddr (t : Tile) (w : W64) : Nat := (t.sreg (fA w) + fImm w).toNat % 2 ^ 23 / 8 * 8

/-- LD reads 64 bits of tile SRAM (R54, R72); an uncorrectable word puts the tile in FAULTED (R392). -/
def ldOp (n : Nat) (w : W64) (s : State) : State :=
  match s.sramRead (Who.tile n) n (ldAddr (s.tile n) w) 8 with
  | (s, some l) => (s.modTile n (fun t => t.setS (fD w) (BitVec.ofNat 64 (leNat l)))).retire n
  | (s, none) => s.faultTile n none

/-- LD (R54). -/
def execLd (n : TileId) (s : State) : Out := clocked 6 s (tisStep n 0x2E (ldOp n))

/-- ST stores s[b] to tile SRAM (R54, R72). -/
def stOp (n : Nat) (w : W64) (s : State) : State :=
  let t := s.tile n
  match s.sramWrite (Who.tile n) n (ldAddr t w) (leBytes 8 (t.sreg (fB w)).toNat) with
  | (s, true) => s.retire n
  | (s, false) => s.faultTile n none

/-- ST (R54). -/
def execSt (n : TileId) (s : State) : Out := clocked 6 s (tisStep n 0x2F (stOp n))

/-- RDSYS reads the logical tile ID, the ACLK cycles since the tile's last reset, or station time (R54); another selector is
malformed (R75). -/
def rdsysOp (n : Nat) (w : W64) (s : State) : State :=
  let put (v : W64) : State := (s.modTile n (fun t => t.setS (fD w) v)).retire n
  match (fImm w).toNat with
  | 0 => put (BitVec.ofNat 64 n)
  | 1 => put (BitVec.ofNat 64 (s.aclk - max (s.tile n).since s.aclk6))
  | 2 => put s.now
  | _ => s.malformed n

/-- RDSYS (R54). DEDUCED: log entry 11. -/
def execRdsys (n : TileId) (s : State) : Out := clocked 6 s (tisStep n 0x30 (rdsysOp n))

/-- The number of 1 bits of a bit vector. -/
def popcount {w : Nat} (x : BitVec w) : Nat := (List.range w).foldl (fun c i => if x.getLsbD i then c + 1 else c) 0

/-- PCNT counts the 1 bits of p[a] (R54). -/
def pcntOp (n : Nat) (w : W64) (s : State) : State :=
  s.readVecs n (predIx (fA w)) (fun s =>
    (s.modTile n (fun t => t.setS (fD w) (BitVec.ofNat 64 (popcount (t.preg (fA w % 16)))))).retire n)

/-- PCNT (R54). -/
def execPcnt (n : TileId) (s : State) : Out := clocked 6 s (tisStep n 0x31 (pcntOp n))

/-- SRKEY sets the stochastic-rounding key and zeroes its index (R54). -/
def srkeyOp (n : Nat) (w : W64) (s : State) : State :=
  (s.modTile n (fun t => { t with
    srKey := (t.sreg (fB w)).extractLsb' 0 32 ++ (t.sreg (fA w)).extractLsb' 0 32, srIndex := 0 })).retire n

/-- SRKEY (R54). -/
def execSrkey (n : TileId) (s : State) : Out := clocked 6 s (tisStep n 0x0E (srkeyOp n))

end Sys2Proof.Machine
end

