-- ==== Sys2Proof/Machine/Dispatch.lean ====
section
/-! DEFINITION. The effect of each command on everything but the queue: one arm per row of the table. -/

namespace Sys2Proof.Machine

/-- The effect of a command. DESIGN CHOICE: log entry 2. -/
def exec (i : Instr) (s : State) : Host.Outcome State Fault Refusal :=
  match i with
  | .registerWrite agent addr access data => Sys2Proof.Machine.execRegisterWrite agent addr access data s
  | .registerReadClear agent addr access => Sys2Proof.Machine.execRegisterReadClear agent addr access s
  | .seqStart n => Sys2Proof.Machine.execSeqStart n s
  | .seqHalt n => Sys2Proof.Machine.execSeqHalt n s
  | .seqResume n => Sys2Proof.Machine.execSeqResume n s
  | .programMemoryWrite agent n offset size data => Sys2Proof.Machine.execProgramMemoryWrite agent n offset size data s
  | .vecRegisterWrite agent n offset size data => Sys2Proof.Machine.execVecRegisterWrite agent n offset size data s
  | .agenSetupWrite agent n a w data => Sys2Proof.Machine.execAgenSetupWrite agent n a w data s
  | .apertureAccess agent n offset access write => Sys2Proof.Machine.execApertureAccess agent n offset access write s
  | .correctedWordWriteBack n => Sys2Proof.Machine.execCorrectedWordWriteBack n s
  | .sequencerWatchdog n => Sys2Proof.Machine.execSequencerWatchdog n s
  | .fetchPastProgramEnd n => Sys2Proof.Machine.execFetchPastProgramEnd n s
  | .nop n => Sys2Proof.Machine.execNop n s
  | .halt n => Sys2Proof.Machine.execHalt n s
  | .endProgram n => Sys2Proof.Machine.execEndProgram n s
  | .br n => Sys2Proof.Machine.execBr n s
  | .beq n => Sys2Proof.Machine.execBeq n s
  | .bne n => Sys2Proof.Machine.execBne n s
  | .blt n => Sys2Proof.Machine.execBlt n s
  | .bltu n => Sys2Proof.Machine.execBltu n s
  | .bnzd n => Sys2Proof.Machine.execBnzd n s
  | .bpany n => Sys2Proof.Machine.execBpany n s
  | .bpnone n => Sys2Proof.Machine.execBpnone n s
  | .wait n => Sys2Proof.Machine.execWait n s
  | .pwait n => Sys2Proof.Machine.execPwait n s
  | .psig n => Sys2Proof.Machine.execPsig n s
  | .srkey n => Sys2Proof.Machine.execSrkey n s
  | .add n => Sys2Proof.Machine.execAdd n s
  | .sub n => Sys2Proof.Machine.execSub n s
  | .mul n => Sys2Proof.Machine.execMul n s
  | .andS n => Sys2Proof.Machine.execAndS n s
  | .orS n => Sys2Proof.Machine.execOrS n s
  | .xorS n => Sys2Proof.Machine.execXorS n s
  | .shl n => Sys2Proof.Machine.execShl n s
  | .shr n => Sys2Proof.Machine.execShr n s
  | .sra n => Sys2Proof.Machine.execSra n s
  | .slt n => Sys2Proof.Machine.execSlt n s
  | .sltu n => Sys2Proof.Machine.execSltu n s
  | .addi n => Sys2Proof.Machine.execAddi n s
  | .li n => Sys2Proof.Machine.execLi n s
  | .lih n => Sys2Proof.Machine.execLih n s
  | .ld n => Sys2Proof.Machine.execLd n s
  | .st n => Sys2Proof.Machine.execSt n s
  | .rdsys n => Sys2Proof.Machine.execRdsys n s
  | .pcnt n => Sys2Proof.Machine.execPcnt n s
  | .launch n => Sys2Proof.Machine.execLaunch n s
  | .drain n => Sys2Proof.Machine.execDrain n s
  | .agld n => Sys2Proof.Machine.execAgld n s
  | .xfer n => Sys2Proof.Machine.execXfer n s
  | .vadd n => Sys2Proof.Machine.execVadd n s
  | .vsub n => Sys2Proof.Machine.execVsub n s
  | .vmul n => Sys2Proof.Machine.execVmul n s
  | .vfma n => Sys2Proof.Machine.execVfma n s
  | .vmax n => Sys2Proof.Machine.execVmax n s
  | .vmin n => Sys2Proof.Machine.execVmin n s
  | .vabs n => Sys2Proof.Machine.execVabs n s
  | .vneg n => Sys2Proof.Machine.execVneg n s
  | .vrcp n => Sys2Proof.Machine.execVrcp n s
  | .vrsqrt n => Sys2Proof.Machine.execVrsqrt n s
  | .vexp2 n => Sys2Proof.Machine.execVexp2 n s
  | .vlog2 n => Sys2Proof.Machine.execVlog2 n s
  | .vand n => Sys2Proof.Machine.execVand n s
  | .vor n => Sys2Proof.Machine.execVor n s
  | .vxor n => Sys2Proof.Machine.execVxor n s
  | .vshl n => Sys2Proof.Machine.execVshl n s
  | .vshr n => Sys2Proof.Machine.execVshr n s
  | .vsra n => Sys2Proof.Machine.execVsra n s
  | .vadds n => Sys2Proof.Machine.execVadds n s
  | .vcmp n => Sys2Proof.Machine.execVcmp n s
  | .vsel n => Sys2Proof.Machine.execVsel n s
  | .vbcast n => Sys2Proof.Machine.execVbcast n s
  | .viota n => Sys2Proof.Machine.execViota n s
  | .vmov n => Sys2Proof.Machine.execVmov n s
  | .vperm n => Sys2Proof.Machine.execVperm n s
  | .vxswz n => Sys2Proof.Machine.execVxswz n s
  | .vrot n => Sys2Proof.Machine.execVrot n s
  | .vslide n => Sys2Proof.Machine.execVslide n s
  | .vext n => Sys2Proof.Machine.execVext n s
  | .vins n => Sys2Proof.Machine.execVins n s
  | .vcomp n => Sys2Proof.Machine.execVcomp n s
  | .vexpn n => Sys2Proof.Machine.execVexpn n s
  | .vphx n => Sys2Proof.Machine.execVphx n s
  | .vcvt n => Sys2Proof.Machine.execVcvt n s
  | .vld n => Sys2Proof.Machine.execVld n s
  | .vst n => Sys2Proof.Machine.execVst n s
  | .vldl n => Sys2Proof.Machine.execVldl n s
  | .vstl n => Sys2Proof.Machine.execVstl n s
  | .vldc n => Sys2Proof.Machine.execVldc n s
  | .vstc n => Sys2Proof.Machine.execVstc n s
  | .vracc n => Sys2Proof.Machine.execVracc n s
  | .vwacc n => Sys2Proof.Machine.execVwacc n s
  | .pand n => Sys2Proof.Machine.execPand n s
  | .por n => Sys2Proof.Machine.execPor n s
  | .pxor n => Sys2Proof.Machine.execPxor n s
  | .pnot n => Sys2Proof.Machine.execPnot n s
  | .plt n => Sys2Proof.Machine.execPlt n s
  | .pnz n => Sys2Proof.Machine.execPnz n s
  | .queuedPassStart n m => Sys2Proof.Machine.execQueuedPassStart n m s
  | .handOff n m => Sys2Proof.Machine.execHandOff n m s
  | .checkPoint n m => Sys2Proof.Machine.execCheckPoint n m s
  | .passComplete n m => Sys2Proof.Machine.execPassComplete n m s
  | .drainStart n m => Sys2Proof.Machine.execDrainStart n m s
  | .drainComplete n m => Sys2Proof.Machine.execDrainComplete n m s
  | .xferComplete n a => Sys2Proof.Machine.execXferComplete n a s
  | .govCommit => Sys2Proof.Machine.execGovCommit s
  | .stashCommit => Sys2Proof.Machine.execStashCommit s
  | .stashCommitEffect => Sys2Proof.Machine.execStashCommitEffect s
  | .stashJournalEntry => Sys2Proof.Machine.execStashJournalEntry s
  | .jobCommit j => Sys2Proof.Machine.execJobCommit j s
  | .scale => Sys2Proof.Machine.execScale s
  | .scaleResult => Sys2Proof.Machine.execScaleResult s
  | .contrib => Sys2Proof.Machine.execContrib s
  | .check => Sys2Proof.Machine.execCheck s
  | .result => Sys2Proof.Machine.execResult s
  | .trailer => Sys2Proof.Machine.execTrailer s
  | .total => Sys2Proof.Machine.execTotal s
  | .credit => Sys2Proof.Machine.execCredit s
  | .abort => Sys2Proof.Machine.execAbort s
  | .bucketScanComplete j seq => Sys2Proof.Machine.execBucketScanComplete j seq s
  | .bucketFinish j => Sys2Proof.Machine.execBucketFinish j s
  | .bucketTimeout j seq => Sys2Proof.Machine.execBucketTimeout j seq s
  | .stateCommit => Sys2Proof.Machine.execStateCommit s
  | .stateCommitEffect => Sys2Proof.Machine.execStateCommitEffect s
  | .stateHandoff j => Sys2Proof.Machine.execStateHandoff j s
  | .shardUpdateComplete x => Sys2Proof.Machine.execShardUpdateComplete x s
  | .poolSlotGrant => Sys2Proof.Machine.execPoolSlotGrant s
  | .stateCopyUpComplete x => Sys2Proof.Machine.execStateCopyUpComplete x s
  | .apply r idx => Sys2Proof.Machine.execApply r idx s
  | .checkpoint r idx => Sys2Proof.Machine.execCheckpoint r idx s
  | .digestCheck r idx => Sys2Proof.Machine.execDigestCheck r idx s
  | .rederive r idx => Sys2Proof.Machine.execRederive r idx s
  | .pipeCommit => Sys2Proof.Machine.execPipeCommit s
  | .pipeCommitEffect => Sys2Proof.Machine.execPipeCommitEffect s
  | .step r idx => Sys2Proof.Machine.execStep r idx s
  | .taskRelease => Sys2Proof.Machine.execTaskRelease s
  | .taskStart g => Sys2Proof.Machine.execTaskStart g s
  | .taskComplete g => Sys2Proof.Machine.execTaskComplete g s
  | .taskFault g => Sys2Proof.Machine.execTaskFault g s
  | .ringCommit r arm => Sys2Proof.Machine.execRingCommit r arm s
  | .doorbell r tail => Sys2Proof.Machine.execDoorbell r tail s
  | .admitCommit => Sys2Proof.Machine.execAdmitCommit s
  | .descriptorAdmission => Sys2Proof.Machine.execDescriptorAdmission s
  | .descriptorStart r idx => Sys2Proof.Machine.execDescriptorStart r idx s
  | .fence r idx => Sys2Proof.Machine.execFence r idx s
  | .copy r idx lines => Sys2Proof.Machine.execCopy r idx lines s
  | .fill r idx lines => Sys2Proof.Machine.execFill r idx lines s
  | .descriptorCompletion r idx => Sys2Proof.Machine.execDescriptorCompletion r idx s
  | .journalRoom r => Sys2Proof.Machine.execJournalRoom r s
  | .completionSignal r idx => Sys2Proof.Machine.execCompletionSignal r idx s
  | .ringStopCommand r => Sys2Proof.Machine.execRingStopCommand r s
  | .ringDisable r => Sys2Proof.Machine.execRingDisable r s
  | .ringAge r => Sys2Proof.Machine.execRingAge r s
  | .pegAdd p data => Sys2Proof.Machine.execPegAdd p data s
  | .pegValueWrite p data => Sys2Proof.Machine.execPegValueWrite p data s
  | .pegUpdate p add fault => Sys2Proof.Machine.execPegUpdate p add fault s
  | .hbmcCommit ix => Sys2Proof.Machine.execHbmcCommit ix s
  | .memoryTrainingComplete hbmFail lpFail => Sys2Proof.Machine.execMemoryTrainingComplete hbmFail lpFail s
  | .lpBackgroundZeroingDone q => Sys2Proof.Machine.execLpBackgroundZeroingDone q s
  | .correctedLineWriteBack h => Sys2Proof.Machine.execCorrectedLineWriteBack h s
  | .patrolScrubRead h ecs => Sys2Proof.Machine.execPatrolScrubRead h ecs s
  | .rowRepair h => Sys2Proof.Machine.execRowRepair h s
  | .rdShared c addr retires => Sys2Proof.Machine.execRdShared c addr retires s
  | .rdOwn c addr retires => Sys2Proof.Machine.execRdOwn c addr retires s
  | .upgrade c addr retires => Sys2Proof.Machine.execUpgrade c addr retires s
  | .rdNa agent addr => Sys2Proof.Machine.execRdNa agent addr s
  | .wrNa agent addr data => Sys2Proof.Machine.execWrNa agent addr data s
  | .wrPart agent addr mask data => Sys2Proof.Machine.execWrPart agent addr mask data s
  | .snpShared c evicting => Sys2Proof.Machine.execSnpShared c evicting s
  | .snpInv c evicting => Sys2Proof.Machine.execSnpInv c evicting s
  | .snpCur c evicting => Sys2Proof.Machine.execSnpCur c evicting s
  | .cmpS c => Sys2Proof.Machine.execCmpS c s
  | .cmpE c mask data => Sys2Proof.Machine.execCmpE c mask data s
  | .cmpM c mask data => Sys2Proof.Machine.execCmpM c mask data s
  | .compAck c => Sys2Proof.Machine.execCompAck c s
  | .snpAck c => Sys2Proof.Machine.execSnpAck c s
  | .wrAck => Sys2Proof.Machine.execWrAck s
  | .wbAck c => Sys2Proof.Machine.execWbAck c s
  | .deny c => Sys2Proof.Machine.execDeny c s
  | .data agent => Sys2Proof.Machine.execData agent s
  | .fwdData c => Sys2Proof.Machine.execFwdData c s
  | .snpData c => Sys2Proof.Machine.execSnpData c s
  | .wbDirty c addr => Sys2Proof.Machine.execWbDirty c addr s
  | .wbClean c addr => Sys2Proof.Machine.execWbClean c addr s
  | .holdExpiry addr => Sys2Proof.Machine.execHoldExpiry addr s
  | .retryGrant h => Sys2Proof.Machine.execRetryGrant h s
  | .biasCommit => Sys2Proof.Machine.execBiasCommit s
  | .biasFlipComplete => Sys2Proof.Machine.execBiasFlipComplete s
  | .dataFlit p flit corrected bad => Sys2Proof.Machine.execDataFlit p flit corrected bad s
  | .idleFlit p flit corrected bad => Sys2Proof.Machine.execIdleFlit p flit corrected bad s
  | .ackTimeout p => Sys2Proof.Machine.execAckTimeout p s
  | .retrainTimeout p => Sys2Proof.Machine.execRetrainTimeout p s
  | .portTrainingAttempt p => Sys2Proof.Machine.execPortTrainingAttempt p s
  | .hello p flit corrected bad => Sys2Proof.Machine.execHello p flit corrected bad s
  | .helloTimer p => Sys2Proof.Machine.execHelloTimer p s
  | .rd => Sys2Proof.Machine.execRd s
  | .wr => Sys2Proof.Machine.execWr s
  | .wrp => Sys2Proof.Machine.execWrp s
  | .pegadd => Sys2Proof.Machine.execPegadd s
  | .rdreg => Sys2Proof.Machine.execRdreg s
  | .wrreg => Sys2Proof.Machine.execWrreg s
  | .rddata => Sys2Proof.Machine.execRddata s
  | .wrack => Sys2Proof.Machine.execWrack s
  | .err => Sys2Proof.Machine.execErr s
  | .requestTimeout tag gen => Sys2Proof.Machine.execRequestTimeout tag gen s
  | .takeoverReq p q => Sys2Proof.Machine.execTakeoverReq p q s
  | .takeoverAck p q seq => Sys2Proof.Machine.execTakeoverAck p q seq s
  | .register p serial eligible slot heldId links => Sys2Proof.Machine.execRegister p serial eligible slot heldId links s
  | .assign p route id epoch => Sys2Proof.Machine.execAssign p route id epoch s
  | .route p route part entries => Sys2Proof.Machine.execRoute p route part entries s
  | .ready p serial => Sys2Proof.Machine.execReady p serial s
  | .reassign p => Sys2Proof.Machine.execReassign p s
  | .rootDeclare => Sys2Proof.Machine.execRootDeclare s
  | .noRootTimeout => Sys2Proof.Machine.execNoRootTimeout s
  | .candidateStable => Sys2Proof.Machine.execCandidateStable s
  | .registrationSettle => Sys2Proof.Machine.execRegistrationSettle s
  | .tableRedistribution => Sys2Proof.Machine.execTableRedistribution s
  | .fabPortCommit p => Sys2Proof.Machine.execFabPortCommit p s
  | .fabCommit => Sys2Proof.Machine.execFabCommit s
  | .routeCommit => Sys2Proof.Machine.execRouteCommit s
  | .discReassign => Sys2Proof.Machine.execDiscReassign s
  | .coreResidueMismatch c again => Sys2Proof.Machine.execCoreResidueMismatch c again s
  | .coreCacheUe c addr error => Sys2Proof.Machine.execCoreCacheUe c addr error s
  | .coreHang c => Sys2Proof.Machine.execCoreHang c s
  | .tlpPostedWrite bar data poisoned => Sys2Proof.Machine.execTlpPostedWrite bar data poisoned s
  | .tlpRead bar len poisoned => Sys2Proof.Machine.execTlpRead bar len poisoned s
  | .awnCommit => Sys2Proof.Machine.execAwnCommit s
  | .epCommit => Sys2Proof.Machine.execEpCommit s
  | .rpCommit p => Sys2Proof.Machine.execRpCommit p s
  | .hostRead r idx n => Sys2Proof.Machine.execHostRead r idx n s
  | .hostWrite r idx n => Sys2Proof.Machine.execHostWrite r idx n s
  | .hostMsix r idx n => Sys2Proof.Machine.execHostMsix r idx n s
  | .flushReadCompletion tag => Sys2Proof.Machine.execFlushReadCompletion tag s
  | .readCompletion tag st data poisoned => Sys2Proof.Machine.execReadCompletion tag st data poisoned s
  | .completionTimeout tag => Sys2Proof.Machine.execCompletionTimeout tag s
  | .hostLinkLoss e => Sys2Proof.Machine.execHostLinkLoss e s
  | .rpWindowLoad c p offset access => Sys2Proof.Machine.execRpWindowLoad c p offset access s
  | .rpWindowStore c p offset access data => Sys2Proof.Machine.execRpWindowStore c p offset access data s
  | .rpCfgRead agent p o size => Sys2Proof.Machine.execRpCfgRead agent p o size s
  | .rpCfgWrite agent p o size data => Sys2Proof.Machine.execRpCfgWrite agent p o size data s
  | .rpLinkDown p pll => Sys2Proof.Machine.execRpLinkDown p pll s
  | .rpInboundRequest p addr len write poisoned => Sys2Proof.Machine.execRpInboundRequest p addr len write poisoned s
  | .dplCommit => Sys2Proof.Machine.execDplCommit s
  | .dplEpochAdvance => Sys2Proof.Machine.execDplEpochAdvance s
  | .configurationLoad reads => Sys2Proof.Machine.execConfigurationLoad reads s
  | .fuseAdvanceRollback unlock target => Sys2Proof.Machine.execFuseAdvanceRollback unlock target s
  | .fuseProgramSlot unlock slot => Sys2Proof.Machine.execFuseProgramSlot unlock slot s
  | .fuseRevokeSlot unlock slot => Sys2Proof.Machine.execFuseRevokeSlot unlock slot s
  | .fuseProgComplete failed => Sys2Proof.Machine.execFuseProgComplete failed s
  | .announceTimer => Sys2Proof.Machine.execAnnounceTimer s
  | .announceFrame src seq => Sys2Proof.Machine.execAnnounceFrame src seq s
  | .dataFrame src seq offset data => Sys2Proof.Machine.execDataFrame src seq offset data s
  | .loadFrame src seq offset reads => Sys2Proof.Machine.execLoadFrame src seq offset reads s
  | .attest src seq nonce => Sys2Proof.Machine.execAttest src seq nonce s
  | .cert src seq => Sys2Proof.Machine.execCert src seq s
  | .telemetry src seq => Sys2Proof.Machine.execTelemetry src seq s
  | .regRead src seq offset => Sys2Proof.Machine.execRegRead src seq offset s
  | .regWrite src seq offset value => Sys2Proof.Machine.execRegWrite src seq offset value s
  | .chainRead src seq chain first => Sys2Proof.Machine.execChainRead src seq chain first s
  | .enter => Sys2Proof.Machine.execEnter s
  | .repitchFieldIdle => Sys2Proof.Machine.execRepitchFieldIdle s
  | .repitchIdleTimeout => Sys2Proof.Machine.execRepitchIdleTimeout s
  | .verify reads => Sys2Proof.Machine.execVerify reads s
  | .leave => Sys2Proof.Machine.execLeave s
  | .repitchTimeLimit => Sys2Proof.Machine.execRepitchTimeLimit s
  | .xspiRead addrEn write length address => Sys2Proof.Machine.execXspiRead addrEn write length address s
  | .xspiWriteEnable addrEn write length address => Sys2Proof.Machine.execXspiWriteEnable addrEn write length address s
  | .xspiReadStatus addrEn write length address => Sys2Proof.Machine.execXspiReadStatus addrEn write length address s
  | .xspiPageProgram addrEn write length address => Sys2Proof.Machine.execXspiPageProgram addrEn write length address s
  | .xspiSectorErase addrEn write length address => Sys2Proof.Machine.execXspiSectorErase addrEn write length address s
  | .xspiCommandComplete data => Sys2Proof.Machine.execXspiCommandComplete data s
  | .brownout => Sys2Proof.Machine.execBrownout s
  | .pinReset perst => Sys2Proof.Machine.execPinReset perst s
  | .softwareReset key => Sys2Proof.Machine.execSoftwareReset key s
  | .clockFail m => Sys2Proof.Machine.execClockFail m s
  | .releaseClockTimeout => Sys2Proof.Machine.execReleaseClockTimeout s
  | .basecampLockup => Sys2Proof.Machine.execBasecampLockup s
  | .meshDeadlock => Sys2Proof.Machine.execMeshDeadlock s
  | .watchdog => Sys2Proof.Machine.execWatchdog s
  | .wdtEnable enable limit => Sys2Proof.Machine.execWdtEnable enable limit s
  | .wdtKick key => Sys2Proof.Machine.execWdtKick key s
  | .domainRelease gl => Sys2Proof.Machine.execDomainRelease gl s
  | .unitResetCommand u => Sys2Proof.Machine.execUnitResetCommand u s
  | .unitIdle u => Sys2Proof.Machine.execUnitIdle u s
  | .unitResetTimeout u => Sys2Proof.Machine.execUnitResetTimeout u s
  | .unitResetHoldEnd u => Sys2Proof.Machine.execUnitResetHoldEnd u s
  | .unitRelease u => Sys2Proof.Machine.execUnitRelease u s
  | .faultRecord => Sys2Proof.Machine.execFaultRecord s
  | .fltCommit => Sys2Proof.Machine.execFltCommit s
  | .faultPinClear => Sys2Proof.Machine.execFaultPinClear s
  | .freeze => Sys2Proof.Machine.execFreeze s
  | .freezeKey => Sys2Proof.Machine.execFreezeKey s
  | .chainDataRead => Sys2Proof.Machine.execChainDataRead s
  | .timeSet t => Sys2Proof.Machine.execTimeSet t s
  | .timeCommit => Sys2Proof.Machine.execTimeCommit s
  | .slewComplete => Sys2Proof.Machine.execSlewComplete s
  | .holdoverTimeout => Sys2Proof.Machine.execHoldoverTimeout s
  | .ppsInEdge => Sys2Proof.Machine.execPpsInEdge s
  | .ppsOut => Sys2Proof.Machine.execPpsOut s
  | .telemetrySample temps power energy => Sys2Proof.Machine.execTelemetrySample temps power energy s
  | .sidebandFallingEdge ix => Sys2Proof.Machine.execSidebandFallingEdge ix s
  | .timeMark => Sys2Proof.Machine.execTimeMark s
  | .tapReset => Sys2Proof.Machine.execTapReset s
  | .extest resetLow => Sys2Proof.Machine.execExtest resetLow s
  | .samplePreload cells => Sys2Proof.Machine.execSamplePreload cells s
  | .idcode => Sys2Proof.Machine.execIdcode s
  | .highz resetLow => Sys2Proof.Machine.execHighz resetLow s
  | .clamp resetLow => Sys2Proof.Machine.execClamp resetLow s
  | .extestPulse resetLow => Sys2Proof.Machine.execExtestPulse resetLow s
  | .extestTrain resetLow => Sys2Proof.Machine.execExtestTrain resetLow s
  | .devreset => Sys2Proof.Machine.execDevreset s
  | .frzSel chain word => Sys2Proof.Machine.execFrzSel chain word s
  | .frzRead => Sys2Proof.Machine.execFrzRead s
  | .frzLen => Sys2Proof.Machine.execFrzLen s
  | .bypass => Sys2Proof.Machine.execBypass s
  | .vddAonFall => Sys2Proof.Machine.execVddAonFall s
  | .reduce r idx => Sys2Proof.Machine.execReduce r idx s
  | .lanesTrained p => Sys2Proof.Machine.execLanesTrained p s
  | .pcsLossOfLock p pll => Sys2Proof.Machine.execPcsLossOfLock p pll s
  | .nakRepeat p => Sys2Proof.Machine.execNakRepeat p s
  | .ptpFrame bytes => Sys2Proof.Machine.execPtpFrame bytes s
  | .linkUp p rate width => Sys2Proof.Machine.execLinkUp p rate width s
  | .pcieConfigurationRequest q => Sys2Proof.Machine.execPcieConfigurationRequest q s
  | .rpReadCompletion p tag st data => Sys2Proof.Machine.execRpReadCompletion p tag st data s
  | .rpAccessTimeout p tag => Sys2Proof.Machine.execRpAccessTimeout p tag s
  | .rpPerstDeassert p => Sys2Proof.Machine.execRpPerstDeassert p s
  | .rowRepairComplete h => Sys2Proof.Machine.execRowRepairComplete h s

end Sys2Proof.Machine
end

