-- ==== Sys2Proof/Machine/Pins.lean ====
section
/-! DEFINITION. The levels that the device drives on its contacts: the guyline pins in each phase, the other low-speed outputs, and boundary
scan (R429 to R436, R442, R444, R445). -/

namespace Sys2Proof.Machine

/-- The level of one line of the trace data (R440). -/
def State.trdPin (s : State) (k : Nat) : Level := s.traceOut.map (fun b => b.getLsbD k)

/-- What the device drives on GL[i] in its present phase (R430): the xSPI pins in load phase, which a freeze holds, GL[2] among them (R406,
R436); the run functions in run phase; nothing in phase S. DEDUCED: log entry 98. -/
def State.glPin (s : State) (i : Nat) : Level :=
  if i < 12 ∧ s.loadPhase then s.outLevel (20 + i)
  else match i with
    | 1 => s.ppsOut
    | 2 => s.faultN
    | 3 => s.alertN
    | 4 => s.sbo0
    | 5 => s.sbo1
    | 8 => s.trdPin 1
    | 9 => s.trdPin 0
    | 10 => s.trdPin 2
    | 11 => s.trdPin 3
    | i => if 12 ≤ i ∧ i < 16 then s.trdPin (i - 8) else if 16 ≤ i ∧ i < 32 then s.gpio (i - 16) else none

/-- XSPI_EN_N (R429, R433). -/
def State.xspiEnN (s : State) : Level := s.outLevel 32
/-- GLRUN_N (R429, R433). -/
def State.glrunN (s : State) : Level := s.outLevel 33
/-- TRCLK (R429, R440). -/
def State.trclk (s : State) : Level := s.outLevel 34

/-- The management link runs at a fixed 1 Gb/s full duplex, by strap GL[20]; else SGMII auto-negotiates (R430). -/
def State.mgmtFixed (s : State) : Bool := bitsOf (s.rget .bootStraps).toNat 20 1 == 1

/-- MG_MDC and MG_MDIO, 0 and 1: what the firmware drives on them while it runs, no rule says; MDIO it may leave to the PHY (R429).
DESIGN CHOICE: log entry 128. -/
def State.mgPin (s : State) (i : Nat) : Level :=
  if s.firmwareRuns && (i == 0 || Config.pinLevel 42 s.now.toNat) then some (Config.pinLevel (40 + i) s.now.toNat) else none

/-- What the device drives on a contact with a level that a rule names (R426, R428, R429, R442): nothing on its inputs; the lanes and the
LPDDR5X channels are their PHYs'. DESIGN CHOICE: log entry 129. -/
def State.signalLevel (s : State) (x y : Nat) : Level :=
  match y with
  | 148 =>
    if x = 104 then s.xspiEnN else if x = 106 then s.glrunN else if x = 108 then s.trclk
    else if 40 ≤ x ∧ x ≤ 102 ∧ x % 2 = 0 then s.glPin ((x - 40) / 2)
    else none
  | 146 => if x = 68 then s.mgPin 0 else if x = 70 then s.mgPin 1 else none
  | 144 => if 40 ≤ x ∧ x ≤ 54 ∧ x % 2 = 0 then some (!s.sys.lpReset) else none
  | 9 =>
    let p := (x - 35) / 16 - 1
    if 51 ≤ x ∧ x ≤ 114 ∧ (x - 35) % 16 = 2 then some (!s.io.rpPerst.getLsbD p)
    else if 51 ≤ x ∧ x ≤ 114 ∧ (x - 35) % 16 = 0 ∧ s.rpEnabled p then some (Config.pinLevel (60 + p) s.now.toNat)
    else none
  | _ => none

/-- The device drives a contact through its boundary cell while a pin test that drives the pins is in force (R444, R445). -/
def cellDrives (x y : Nat) : Bool := match scanCell x y with | some .output | some .both => true | _ => false

/-- What the device drives on a contact (R444, R445): nothing under HIGHZ, what the boundary cells hold under EXTEST, CLAMP and the instructions
of IEEE 1149.6, and else its own level. DESIGN CHOICE: log entry 129. -/
def State.contactLevel (s : State) (x y : Nat) : Level :=
  match s.sys.tap.ir with
  | .highz => none
  | .extest | .clamp | .extestPulse | .extestTrain => if cellDrives x y then s.sys.tap.cells[cellIndex x y]? else none
  | _ => s.signalLevel x y

/-- What the boundary register captures (R444): the levels at the contacts, which the board drives where the device does not.
DESIGN CHOICE: log entry 129. -/
def State.boundary (s : State) : List Bool :=
  boundaryCells.map (fun c => (s.contactLevel c.1 c.2).getD (Config.pinLevel (1000 * c.1 + c.2) s.now.toNat))

end Sys2Proof.Machine
end

