-- ==== Sys2Proof/Machine/Tick.lean ====
section
/-! DEFINITION. One BCLK cycle without a command: the station counter, the watchdog's count, the ACLK count, the counters of waiting
time, the register accesses of the device's units, the trace port, the PPS output, frames that are being sent and the alerts (R373, R410, R416, R417,
R420, R422, R440). -/

namespace Sys2Proof.Machine

/-! ## Counters of waiting time -/

/-- Ring `r` holds a completion that waits for journal room (R219). -/
def State.journalWaits (s : State) (r : Nat) : Bool :=
  (s.ring r).descs.any (fun d => d.phase == .ended && s.descQuiet r d) && s.journalRoom r == 0

/-- RING.JOURNAL_WAITS: two SCLK cycles for every ring whose completions wait for journal room (R219). -/
def State.countJournal (s : State) : State :=
  s.activeRings.foldl (fun s r => if s.journalWaits r then s.bumpF (.ringJournalWaits r) Fld.ringJournalWaitsCycles 2 else s) s

/-- What keeps a group of the step in progress from running a task: nothing, a stash hold, or anything else (R135, R205). -/
inductive GroupIdle where
  | none | stash | other
  deriving DecidableEq, Repr

/-- Whether a group is idle while the step in progress has a task for it that has not started, and why (R135, R205): a released forward
task that could start but for its holds is held by the stash. DESIGN CHOICE: log entry 3. -/
def State.groupIdle (s : State) (x : StepRun) (g : Nat) : GroupIdle :=
  if (s.firstTask x g .started).isSome then .none
  else match s.firstTask x g .released with
    | some (_, t) =>
      let ready := match x.predecessor t.task with | some p => x.taskDone p | none => true
      if !t.task.bwd && ready && !t.holds.all x.isDone then .stash else .other
    | none => if (x.order.drop x.tasks.length).any (fun t => s.groupOf t.block == g) then .other else .none

/-- PIPE.BUBBLE and PIPE.STASH_HOLDS: two SCLK cycles for every idle group, as a peg wait where the release order is held at one, and
for a cycle in which a forward task is held for physical reuse (R135, R205). The release order of a step that winds down is held at
no peg. DESIGN CHOICE: log entry 3. -/
def State.countGroups (s : State) : State :=
  match s.sched.run with
  | none => s
  | some x =>
    let idle := ((x.order.map (fun t => s.groupOf t.block)).dedup).map (s.groupIdle x)
    let others := 2 * idle.count .other
    let pegHeld : Bool := !x.aborting && (match x.next with | some t => s.pegState x t == .held | none => false)
    let s := if idle.contains .stash then s.bumpF .pipeStashHolds Fld.pipeStashHoldsCycles 2 else s
    if pegHeld then s.bumpF .pipeBubble Fld.pipeBubblePegWait others else s.bumpF .pipeBubble Fld.pipeBubbleDepWait others

/-- The oldest hand-off of a job waits for a shard (R173, R174): its next run names a shard that stages another step or updates. -/
def State.handoffWaits (s : State) (h : Handoff) : Bool :=
  let num (a n : Nat) : Nat := leNat (s.current a n)
  let map := s.af (.stateMap h.job) Fld.stateMapBase * 16
  let run := num (map + 16 * h.bucket) 8 + 16 * h.pos
  let first := num run 4
  let count := num (run + 4) 4
  let x := num (run + 8) 4
  let elem := num (run + 12) 4
  let left := h.pos < num (map + 16 * h.bucket + 8) 4
  match s.shard? x with
  | none => false
  | some d =>
    let hd := headerOf (s.current d.header 64)
    !h.invalid && s.af .stateCtrl Fld.stateCtrlEnable != 0 && map != 0 && left && first + count ≤ h.n && elem + count ≤ d.count
      && !s.engine.errored.contains x && hd.later h.step
      && ((hd.staged != 0 && hd.stagedStep != h.step) || (hd.staged + count ≤ d.count && hd.state == 3))

/-- A hand-off is the oldest of its job. -/
def State.oldestHandoff (s : State) (h : Handoff) : Bool :=
  match s.engine.handoffs.find? (fun y => y.job == h.job) with
  | some y => y.seq == h.seq
  | none => false

/-- A ready shard waits for its state in the pool: in the state-miss queue, or in a slot that its state has not reached (R185). -/
def State.missWaits (s : State) : Bool :=
  (s.engine.missQueue ++ (s.engine.slots.filter (fun p => !p.copied)).map (fun p => p.shard)).any (fun x =>
    match s.shard? x with | some d => (headerOf (s.current d.header 64)).ready d | none => false)

/-- An update that is due waits for a CHECKPOINT (R189). -/
def State.cutWaits (s : State) : Bool :=
  s.engine.shards.any (fun e =>
    let h := headerOf (s.current e.2.header 64)
    s.updateDue e.1 e.2 h && s.cutHolds e.1 h.stagedStep)

/-- STATE.WAITS: eight MCLK cycles while a ready shard waits for its state, and while a hand-off or an update waits (R174, R185, R189).
DESIGN CHOICE: log entry 3. -/
def State.countShards (s : State) : State :=
  let s := if s.missWaits then s.bumpF .stateWaits Fld.stateWaitsMiss 8 else s
  if s.engine.handoffs.any (fun h => s.oldestHandoff h && s.handoffWaits h) || s.cutWaits then
    s.bumpF .stateWaits Fld.stateWaitsHolds 8
  else s

/-- A request that a home has not served waits for a hold to expire (R275): the first on its line, not a read that SnpCur serves. -/
def State.waitsForHold (s : State) (x : Home) (r : HomeReq) : Bool :=
  r.kind != .rdNA && !x.openOn r.line && !s.flips r.line && !s.deviceBias r.line
    && (match x.entry r.line with | some e => e.hold | none => false)
    && x.queue.find? (fun q => q.line == r.line) == some r

/-- HOME.HOLD_WAITS and DIR.RETRY.max_wait of home `h`: eight MCLK for every request that waits for a hold, and the longest wait of its
retry class, at two MCLK for each ACLK (R271, R275). DESIGN CHOICE: log entry 3. -/
def State.countHome (s : State) (h : Nat) : State :=
  let x := s.home h
  let n := x.queue.countP (s.waitsForHold x)
  let s := if n = 0 then s else s.bumpF (.homeHoldWaits h) Fld.homeHoldWaitsCycles (8 * n)
  let w := min (2 ^ 32 - 1) (x.retry.foldl (fun w r => max w (2 * (s.aclk - r.2))) 0)
  if w ≤ s.rf (.dirRetry h) Fld.dirRetryMaxWait then s else s.setF (.dirRetry h) Fld.dirRetryMaxWait w

/-- The counters of waiting time over one BCLK cycle: two SCLK and eight MCLK cycles. DESIGN CHOICE: log entry 3. -/
def State.countWaits (s : State) : State :=
  (s.homes.map Prod.fst).foldl State.countHome s.countJournal.countGroups.countShards

/-- Background zeroing of LPDDR5X goes on (R239). DESIGN CHOICE: log entry 3. -/
def State.zeroMore (s : State) : State := (List.range 8).foldl State.zeroStep s

/-! ## The cycle -/

/-- GL[1] rises at the edge at which station time crosses a whole second (R417). DESIGN CHOICE: log entry 1. -/
def State.ppsEdge (s : State) (before : Nat) : State := if before < s.second then s.ppsRise else s

/-- The edge that ends the watchdog's limit without a kick resets the device (R373). DESIGN CHOICE: log entry 1. -/
def State.wdtEnd (s : State) (due : Bool) : State := if due then s.deviceReset 4 else s

/-- One BCLK cycle in which no command arrives. A freeze stops ACLK, the waiting units' clocks and the guyline outputs, and leaves BCLK
running (R404, R405, R436). ACLK counts four cycles for each of BCLK. DESIGN CHOICE, DEDUCED: log entries 1, 3, 11. -/
def State.tick (s : State) : State :=
  let due := s.wdtDue
  let before := s.second
  let s := s.holdoverEnd.stepClock
  let s : State := { s with
    aclk := if s.frozen then s.aclk else s.aclk + 4
    mclk := if s.frozen then s.mclk else s.mclk + 8
    sys := { s.sys with wdtCount := (if s.wdtOn then s.sys.wdtCount + 1 else s.sys.wdtCount), causeNew := false, slewNew := false, sinceCommit := s.sys.sinceCommit + 1 } }
  (if s.frozen then s else (s.unitAccesses.countWaits.zeroMore.traceShift.ppsFall).ppsEdge before).sendNext.alerts.wdtEnd due

end Sys2Proof.Machine
end

