-- ==== Sys2Proof/Safety.lean ====
section
/-! DEFINITION. The terms of the claims: when a command completes, when a tile is about to execute a word, and what stays unchanged. -/

namespace Sys2Proof.Machine

/-! ## Completion -/

/-- A command completes in a state: it answers a next state, of which `p` holds. -/
def Completes (i : Instr) (s : State) (p : State → Prop) : Prop := ∃ t, exec i s = .next t ∧ p t

/-- Nothing but registers differs between two states. -/
def SameButCsr (s t : State) : Prop := { t with csr := s.csr } = s

/-- Nothing but registers and tiles differs between two states. -/
def SameButTiles (s t : State) : Prop := { t with csr := s.csr, tiles := s.tiles } = s

/-! ## A tile that executes an instruction -/

/-- The opcode of an instruction word (R50). -/
def opc (w : W64) : Nat := bitsOf w.toNat 0 8

/-- Tile `n` is about to execute the word `w`: the tiles run, the sequencer runs, no stop waits, and the program counter
names 8 bytes of program memory that hold `w` without an error (R36, R48). -/
def Ready (s : State) (n : Nat) (w : W64) : Prop :=
  s.runs 6 = true ∧ (s.tile n).seq = .run ∧ (s.tile n).stopping = none ∧ (s.tile n).pc ≠ 0x10000#17
    ∧ s.ueIn (progBase n + (s.tile n).pc.toNat) 8 = [] ∧ s.ceIn (progBase n + (s.tile n).pc.toNat) 8 = [] ∧ s.fetch n = w

/-- `t` is `s` after tile `n` has retired an instruction: the tile has become `f` of what it was, with the program counter at `pc` and
nothing to wait for; VEC.RETIRED counts one more; every other tile, every other register and every other part of the state
is as it was (R48, R77). -/
def Retired (s t : State) (n : Nat) (pc : BitVec 17) (f : Tile → Tile) : Prop :=
  t.tile n = { f (s.tile n) with pc := pc, wait := 0, pwait := none }
    ∧ (∀ m, m ≠ n → t.tile m = s.tile m)
    ∧ t.rf (.vecRetired n) Fld.vecRetiredCount = satAdd Fld.vecRetiredCount.width (s.rf (.vecRetired n) Fld.vecRetiredCount) 1
    ∧ (∀ r, r ≠ .vecRetired n → t.rget r = s.rget r)
    ∧ SameButTiles s t

/-- The command completes as an instruction of tile `n` that makes `f` of the tile and goes on to the next instruction. -/
def Executes (s : State) (i : Instr) (n : Nat) (f : Tile → Tile) : Prop :=
  Completes i s (fun t => Retired s t n ((s.tile n).pc + 8) f)

/-- The vector registers and the accumulator buffers of a tile hold no error (R34). -/
def CleanTile (t : Tile) : Prop := t.vecUe = [] ∧ t.vecCe = [] ∧ t.accUe = [] ∧ t.accCe = []

/-- The lanes of a vector operation on v[a], v[b] and v[c], lane by lane (R63). -/
def lanesOf (t : Tile) (w : W64) (f : Nat → Nat → Nat → Nat) : List Nat :=
  (List.range 256).map (fun i =>
    onLane (vT w) f (elemAt 32 i (t.vreg (vA w)).toNat) (elemAt 32 i (t.vreg (vB w)).toNat) (elemAt 32 i (t.vreg (vC w)).toNat))

/-- The tile with new lanes in v[d] under the guard (R52). -/
def Tile.guardedWrite (t : Tile) (w : W64) (new : List Nat) : Tile :=
  t.setV (vD w) (ofLanes (guarded (t.preg (vG w)) (vZ w) (laneList (t.vreg (vD w))) new))
    (fun i => (t.preg (vG w)).getLsbD i || vZ w)

/-- The tile with new bits in p[d] under the guard (R52). -/
def Tile.guardedPred (t : Tile) (w : W64) (new : BitVec 256) : Tile :=
  t.setP (vD w % 16) ((new &&& t.preg (vG w)) ||| ((if vZ w then 0 else t.preg (vD w % 16)) &&& ~~~(t.preg (vG w))))

/-- Bytes of tile `n` that an access names lie in populated banks and hold no error (R34, R35). -/
def CleanBank (s : State) (n : Nat) (o len : Nat) : Prop :=
  bankOf o < 48 ∧ s.ueIn (apBase n + o) len = [] ∧ s.ceIn (apBase n + o) len = []

/-! ## Registers -/

/-- The access code of the field that holds bit `j` of a register, or nothing where the bit is reserved (R4, R7). -/
def regBit (r : Reg) (j : Nat) : Option Access :=
  (r.fields.find? (fun f => f.lo ≤ j && j < f.lo + f.width)).map (fun f => f.acc)

/-- The bits of a register that an aligned access of 4 or 8 bytes carries: all, or a half (R6). -/
def carries (addr size j : Nat) : Bool := size == 8 || addr / 4 % 2 == j / 32

/-- A register whose write does more than set its RW bits and clear its W1C bits: a command, a commit, a register of a sequencer's own
state, or a register with an effect of its own. -/
def startsAction : Reg → Bool
  | .seqCtrl _ | .vecSrKey _ | .vecSrIndex _ | .vecSreg _ _ | .vecPreg _ _ _ | .vecVregData _ _ | .agenSetup _ _ _ => true
  | .redGovCommit | .redJobCommit _ | .pipeStashCommit | .stateCommit | .pipeCommit | .pipeAdmitCommit => true
  | .ringCommit _ | .ringCtrl _ | .ringDoorbell _ | .pegValue _ | .pegAdd _ => true
  | .hbmcCommit _ | .homeBiasCommit | .fabPortCommit _ | .fabCommit | .fabDiscCtrl | .fabRouteCommit => true
  | .pcieEpCommit | .pcieRpCommit _ | .pcieRpCfgData _ | .pcieMsixTable _ _ | .awnCommit | .dplCommit => true
  | .fuseProgCmd | .bootRepitchCtrl | .bootXspiCmd | .rstSwReset | .rstWdtCtrl | .rstWdtKick | .rstUnit _ => true
  | .fltCommit | .fltStatus | .frzCtrl | .timeSet | .timeCommit => true
  | _ => false

/-! ## Descriptors -/

/-- Descriptor `d` of ring `r` is the one of index `idx`, is admitted, has a good header, waits for no peg, and its turn has come (R215). -/
def Startable (s : State) (r : Nat) (idx : W32) (d : Desc) : Prop :=
  s.runs 4 = true ∧ s.desc? r idx = some d ∧ d.phase = .admitted ∧ (s.ring r).inOrder d = true ∧ d.waitCond = 0
    ∧ d.headerOk = true

/-- Descriptor `d` of ring `r` is the one of index `idx`, and its operation runs. -/
def Running (s : State) (r : Nat) (idx : W32) (d : Desc) : Prop :=
  s.runs 4 = true ∧ s.desc? r idx = some d ∧ d.phase = .running

/-- The state with descriptor `idx` of ring `r` replaced. -/
def State.putDesc (s : State) (r : Nat) (idx : W32) (d : Desc) : State := s.modDesc r idx (fun _ => d)

/-! ## Device resets -/

/-- The code of the cause whose device reset a command raises (R364); a register write raises SOFTWARE. -/
def resetCause : Instr → Option Nat
  | .vddAonFall => some 1
  | .brownout => some 2
  | .pinReset _ => some 3
  | .watchdog => some 4
  | .softwareReset _ | .registerWrite .. | .regWrite .. => some 5
  | .devreset => some 6
  | .clockFail _ | .releaseClockTimeout => some 7
  | .basecampLockup | .meshDeadlock => some 8
  | _ => none

/-- The step has reset the device, and the device is frozen no longer: it takes a command, and the latch holds the code of the command's cause
(R364), or, where a cause has been raised in the same BCLK (log entry 1), the lower of the two codes (R366); or it is the BCLK cycle that ends the
watchdog's limit (R373). -/
def ResetBy (s t : State) : Prop :=
  t.frozen = false ∧ t.released 0 = false
    ∧ ((s.pending = [] ∧ s.wdtDue = true ∧ t.rf .rstLastCause Fld.rstLastCauseCause = 4)
      ∨ ∃ i rest c, s.pending = i :: rest ∧ resetCause i = some c
        ∧ (s.sys.causeNew = false → t.rf .rstLastCause Fld.rstLastCauseCause = c)
        ∧ (s.sys.causeNew = true → t.rf .rstLastCause Fld.rstLastCauseCause = min c (s.rf .rstLastCause Fld.rstLastCauseCause)))

/-! ## Messages of the mesh -/

/-- Two messages of one kind for one receiver, which takes them in order; write-backs also name their line. -/
def sameWay : Msg → Msg → Bool
  | .snp k c _ _ _, .snp k' c' _ _ _ => k == k' && c == c'
  | .cmp g c _, .cmp g' c' _ => g == g' && c == c'
  | .compAck c _, .compAck c' _ => c == c'
  | .snpAck c _ _ _ _, .snpAck c' _ _ _ _ => c == c'
  | .wrAck _ _, .wrAck _ _ => true
  | .wbAck c _, .wbAck c' _ => c == c'
  | .deny c _, .deny c' _ => c == c'
  | .data a _ _, .data a' _ _ => a == a'
  | .fwdData c _ _ _, .fwdData c' _ _ _ => c == c'
  | .snpData c _ _, .snpData c' _ _ => c == c'
  | .wbDirty c l _, .wbDirty c' l' _ => c == c' && l == l'
  | .wbClean c l, .wbClean c' l' => c == c' && l == l'
  | _, _ => false

/-- The receiver's domain runs, `m` is the next message of its kind for its receiver, and `u` is `s` once it has been taken. -/
def Arrives (s : State) (m : Msg) (u : State) : Prop :=
  s.runs m.domain = true ∧ ∃ pre post, s.mesh = pre ++ m :: post ∧ (∀ x ∈ pre, sameWay m x = false) ∧ u = { s with mesh := pre ++ post }

/-- A line whose home has nothing that waits, no open transaction on it, no flip over it and no repair in its bank, and which holds no error. -/
def QuietLine (s : State) (la : Nat) : Prop :=
  s.frozen = false ∧ la % 64 = 0 ∧ isWindow la = true ∧ s.usable la = true ∧ (s.home (s.homeOf la)).queue = []
    ∧ (s.home (s.homeOf la)).openOn la = false ∧ s.flips la = false ∧ s.bankHeld la = false ∧ s.lineUe la = [] ∧ s.lineCe la = []

/-- What a core with a full L2 sends as it makes room for a line (R16, R268). -/
def evictMsgs (s : State) (c la : Nat) : List Msg :=
  let l := (s.core c).lines
  if l.length < l2Lines ∨ ((s.core c).copy la).isSome then []
  else match l[Config.l2Victim c la % l.length]? with
    | some (_, ⟨.shared, _⟩) => []
    | some (v, ⟨.exclusive, _⟩) => [.wbClean c v]
    | some (v, ⟨.modified, d⟩) => [.wbDirty c v d]
    | none => []

end Sys2Proof.Machine
end

