-- ==== Sys2Proof/Certificates/Slice0/Obligations.lean ====
section
/-! DEFINITION. The statements for the provers: what each family of commands does, what reset leaves, and what every step keeps. -/

open Sys2Proof Sys2Proof.Machine

/-! ## The step and reset -/

/-- A step of the block takes the oldest waiting command and runs exec on it with the rest of the queue; on an empty queue one
BCLK cycle passes (the model's choice, log entry 1). (95_what_each_step_holds.md, R404) -/
def Obligations.StepRunsTheOldestCommand : Prop :=
  (∀ (c : Instr) (l : List Instr) (s : State), step { s with pending := c :: l } = exec c { s with pending := l })
    ∧ ∀ s : State, step { s with pending := [] } = .next ({ s with pending := [] } : State).tick

/-! ## The sequencer of a tile -/

/-- START starts an idle sequencer at SEQ.ENTRY with s1 to s31 zero; HALT written to a running sequencer with nothing launched
puts it in HALTED with halt_cause 1; RESUME continues a halted one where it stopped; the watchdog, stated here for wait_reason
0, and a fetch past the end put it in FAULTED. What the spec leaves open here the model settles (log entries 32, 106). (R36,
R37, R38, R39, R47, R475) -/
def Obligations.SequencerCommandsComplete : Prop :=
  (∀ (s : State) (n : TileId), s.runs 6 = true → s.schedOwned n = false → s.startHeld n = false → (s.tile n).seq = .idle →
    Completes (.seqStart n) s (fun t =>
      (t.tile n).seq = .run ∧ (t.tile n).pc.toNat = s.rf (.seqEntry n) Fld.seqEntryEntryPc % 65536 / 8 * 8
        ∧ (∀ k, (t.tile n).sreg k = 0) ∧ (t.tile n).v = (s.tile n).v ∧ (t.tile n).p = (s.tile n).p
        ∧ (∀ m, m ≠ n.val → t.tile m = s.tile m) ∧ { t with tiles := s.tiles } = s))
  ∧ (∀ (s : State) (n : TileId), s.runs 6 = true → (s.tile n).seq = .run → (s.tile n).stopping = none →
      (s.tile n).launched = false →
    Completes (.seqHalt n) s (fun t =>
      (t.tile n).seq = .halted ∧ (t.tile n).cause = 1 ∧ (t.tile n).pc = (s.tile n).pc ∧ (t.tile n).s = (s.tile n).s
        ∧ (∀ m, m ≠ n.val → t.tile m = s.tile m) ∧ { t with tiles := s.tiles } = s))
  ∧ (∀ (s : State) (n : TileId), s.runs 6 = true → s.schedOwned n = false → s.startHeld n = false → (s.tile n).seq = .halted →
    Completes (.seqResume n) s (fun t =>
      t.tile n = { s.tile n with seq := .run, cause := 0 }
        ∧ (∀ m, m ≠ n.val → t.tile m = s.tile m) ∧ { t with tiles := s.tiles } = s))
  ∧ (∀ (s : State) (n : TileId), s.runs 6 = true → (s.tile n).seq = .run → (s.tile n).stopping = none →
      s.rf (.seqWatchdog n) Fld.seqWatchdogLimit ≠ 0 → (s.tile n).wait = 0 → s.triggers Cls.tileWatchdog = false →
    Completes (.sequencerWatchdog n) s (fun t =>
      (t.tile n).seq = .faulted ∧ (t.tile n).cause = 4 ∧ t.rf (.tileFault n) Fld.tileFaultWatchdog = 1
        ∧ t.flt.net = s.flt.net ++ [{ mkRec Cls.tileWatchdog 2 Kind.tile n with time := s.now }]
        ∧ (∀ m, m ≠ n.val → t.tile m = s.tile m) ∧ t.mem = s.mem))
  ∧ (∀ (s : State) (n : TileId), s.runs 6 = true → (s.tile n).seq = .run → (s.tile n).stopping = none → (s.tile n).pc = 0x10000#17 →
      (s.tile n).launched = false → s.triggers Cls.tileIllegal = false →
    Completes (.fetchPastProgramEnd n) s (fun t =>
      (t.tile n).seq = .faulted ∧ (t.tile n).cause = 3
        ∧ t.flt.net = s.flt.net ++ [{ mkRec Cls.tileIllegal 2 Kind.tile n with time := s.now }]
        ∧ (∀ m, m ≠ n.val → t.tile m = s.tile m) ∧ t.csr = s.csr ∧ t.mem = s.mem))

/-- An aligned write of another agent to program memory, to the VEC registers and to AGEN.SETUP of a tile whose sequencer is
IDLE or HALTED is performed; its aperture is read and written byte for byte within a line; a corrected word takes fresh check
bits; a core that has stopped or is held makes none of these accesses. (R34, R35, R36, R44, R77, R95) -/
def Obligations.TileIsWrittenFromOutside : Prop :=
  (∀ (s : State) (a : Agent) (n : TileId) (off : W16) (size : Nat) (data : W64), s.runs (max 6 (Agent.domain a)) = true → s.agentActs a = true →
      s.seqOpen n = true → irregularSize off.toNat size = false →
    exec (.programMemoryWrite a n off size data) s = .next (s.store (progBase n + off.toNat) (leBytes size data.toNat)))
  ∧ (∀ (s : State) (a : Agent) (n : TileId) (off : BitVec 13) (size : Nat) (data : W64) (r : Reg), s.runs (max 6 (Agent.domain a)) = true →
      s.agentActs a = true → s.seqOpen n = true → irregularSize (0xF0002000E000 + n.val * 0x100000 + off.toNat) size = false →
      Reg.inVec n (off.toNat / 8 * 8) = some r → isVecState r = true → r ≠ .vecSreg n 0 → (∀ w, r ≠ .vecPreg n 0 w) →
    Completes (.vecRegisterWrite a n off size data) s (fun t =>
      t.vecView n r = mergeHalf (s.vecView n r) (0xF0002000E000 + n.val * 0x100000 + off.toNat) size data
        ∧ (∀ o r', Reg.inVec n o = some r' → r' ≠ r → t.vecView n r' = s.vecView n r')
        ∧ (∀ m, m ≠ n.val → t.tile m = s.tile m) ∧ { t with tiles := s.tiles } = s))
  ∧ (∀ (s : State) (a : Agent) (n : TileId) (g w : Fin 8) (data : W64), s.runs (max 6 (Agent.domain a)) = true → s.agentActs a = true → s.seqOpen n = true →
    Completes (.agenSetupWrite a n g w data) s (fun t =>
      t.setupWord n g w = data ∧ (∀ g' w' : Fin 8, (g', w') ≠ (g, w) → t.setupWord n g' w' = s.setupWord n g' w')
        ∧ (∀ m, m ≠ n.val → t.tile m = s.tile m) ∧ { t with tiles := s.tiles } = s))
  ∧ (∀ (s : State) (a : Agent) (n : TileId) (off : BitVec 23) (size : Nat), s.runs (max 6 (Agent.domain a)) = true → s.agentActs a = true →
      0 < size → off.toNat % 64 + size ≤ 64 → CleanBank s n off.toNat size → apertureFault a off.toNat ⟨size, false⟩ = none →
    exec (.apertureAccess a n off ⟨size, false⟩ none) s = .next { s with
      readData := BitVec.ofNat 64 (leNat ((s.bytesAt (apBase n + off.toNat) size).take 8)) })
  ∧ (∀ (s : State) (a : Agent) (n : TileId) (off : BitVec 23) (l : List Byte), s.runs (max 6 (Agent.domain a)) = true → s.agentActs a = true →
      off.toNat % 64 + l.length ≤ 64 → CleanBank s n off.toNat l.length → l ≠ [] →
      apertureFault a off.toNat ⟨l.length, false⟩ = none →
    exec (.apertureAccess a n off ⟨l.length, false⟩ (some l)) s = .next { s.store (apBase n + off.toNat) l with readData := 0 })
  ∧ (∀ (s : State) (n : TileId) (w : Nat) (rest : List Nat), s.runs 6 = true → (s.tile n).writeBack = w :: rest → w ∉ s.ue →
    Completes (.correctedWordWriteBack n) s (fun t =>
      w ∉ t.ce ∧ (∀ x, x ≠ w → (x ∈ t.ce ↔ x ∈ s.ce)) ∧ (t.tile n).writeBack = rest ∧ t.mem = s.mem ∧ t.ue = s.ue
        ∧ (∀ m, m ≠ n.val → t.tile m = s.tile m) ∧ t.csr = s.csr))
  ∧ (∀ (s : State) (c : CoreId) (n : TileId) (off : W16) (o : BitVec 23) (v : BitVec 13) (g w : Fin 8) (size : Nat) (access : SizedAccess Nat)
      (write : Option (List Byte)) (data : W64), s.coreRuns c = false →
    exec (.programMemoryWrite (.core c) n off size data) s = .next s ∧ exec (.vecRegisterWrite (.core c) n v size data) s = .next s
      ∧ exec (.agenSetupWrite (.core c) n g w data) s = .next s ∧ exec (.apertureAccess (.core c) n o access write) s = .next s)

/-! ## The instructions of a tile -/

/-- The scalar instructions of layout S write s[d] and nothing else, and go on to the next instruction. LD and ST move 64 bits
between s and the tile's SRAM at s[a] + imm, bits [2:0] ignored; a store changes those 8 bytes and no other byte of memory.
(R48, R50, R54, R72) -/
def Obligations.ScalarInstructionsComplete : Prop :=
  (∀ (s : State) (n : TileId) (w : W64), Ready s n w →
    let put (i : Instr) (f : Tile → W64) : Prop := Executes s i n (fun t => t.setS (fD w) (f t))
    let op2 (i : Instr) (f : W64 → W64 → W64) : Prop := put i (fun t => f (t.sreg (fA w)) (t.sreg (fB w)))
    (opc w = 0x00 → Executes s (.nop n) n id)
    ∧ (opc w = 0x20 → op2 (.add n) (fun a b => a + b))
    ∧ (opc w = 0x21 → op2 (.sub n) (fun a b => a - b))
    ∧ (opc w = 0x22 → op2 (.mul n) (fun a b => a * b))
    ∧ (opc w = 0x23 → op2 (.andS n) (fun a b => a &&& b))
    ∧ (opc w = 0x24 → op2 (.orS n) (fun a b => a ||| b))
    ∧ (opc w = 0x25 → op2 (.xorS n) (fun a b => a ^^^ b))
    ∧ (opc w = 0x26 → op2 (.shl n) (fun a b => a <<< (b.toNat % 64)))
    ∧ (opc w = 0x27 → op2 (.shr n) (fun a b => a >>> (b.toNat % 64)))
    ∧ (opc w = 0x28 → op2 (.sra n) (fun a b => a.sshiftRight (b.toNat % 64)))
    ∧ (opc w = 0x29 → op2 (.slt n) (fun a b => if a.toInt < b.toInt then 1 else 0))
    ∧ (opc w = 0x2A → op2 (.sltu n) (fun a b => if a.toNat < b.toNat then 1 else 0))
    ∧ (opc w = 0x2B → put (.addi n) (fun t => t.sreg (fA w) + fImm w))
    ∧ (opc w = 0x2C → put (.li n) (fun _ => fImm w))
    ∧ (opc w = 0x2D → put (.lih n) (fun t => w.extractLsb' 32 32 ++ (t.sreg (fD w)).extractLsb' 0 32))
    ∧ (opc w = 0x30 → fImm w = 0 → put (.rdsys n) (fun _ => BitVec.ofNat 64 n))
    ∧ (opc w = 0x30 → fImm w = 1 → put (.rdsys n) (fun t => BitVec.ofNat 64 (s.aclk - max t.since s.aclk6)))
    ∧ (opc w = 0x30 → fImm w = 2 → put (.rdsys n) (fun _ => s.now))
    ∧ (opc w = 0x31 → CleanTile (s.tile n) → put (.pcnt n) (fun t => BitVec.ofNat 64 (popcount (t.preg (fA w % 16)))))
    ∧ (opc w = 0x0E → Executes s (.srkey n) n (fun t => { t with
        srKey := (t.sreg (fB w)).extractLsb' 0 32 ++ (t.sreg (fA w)).extractLsb' 0 32, srIndex := 0 })))
  ∧ (∀ (s : State) (n : TileId) (w : W64), Ready s n w →
    let o := ((s.tile n).sreg (fA w) + fImm w).toNat % 2 ^ 23 / 8 * 8
    CleanBank s n o 8 →
    (opc w = 0x2E → Executes s (.ld n) n (fun t => t.setS (fD w) (BitVec.ofNat 64 (leNat (s.bytesAt (apBase n + o) 8)))))
    ∧ (opc w = 0x2F → Completes (.st n) s (fun t =>
        Retired (s.store (apBase n + o) (leBytes 8 ((s.tile n).sreg (fB w)).toNat)) t n ((s.tile n).pc + 8) id
          ∧ (∀ x, ¬(apBase n + o ≤ x ∧ x < apBase n + o + 8) → t.byteAt x = s.byteAt x)
          ∧ leNat (t.bytesAt (apBase n + o) 8) = ((s.tile n).sreg (fB w)).toNat)))

/-- S0 reads as zero and discards writes, p0 reads as all ones and discards writes, and a write of any other register changes it
and no other register. Under the guard, lane i of the destination takes its new value where bit i of the guard is 1, and is
zeroed or kept where it is 0. (R45, R52) -/
def Obligations.ConstantRegistersAndGuards : Prop :=
  (∀ t : Tile, (∀ v, t.setS 0 v = t) ∧ t.sreg 0 = 0 ∧ (∀ v, t.setP 0 v = t) ∧ t.preg 0 = BitVec.allOnes 256
    ∧ (∀ k v j, k ≠ 0 → (t.setS k v).sreg j = if j = k then v else t.sreg j)
    ∧ (∀ k v j, k ≠ 0 → (t.setP k v).preg j = if j = k then v else t.preg j)
    ∧ (∀ k v f j, (t.setV k v f).vreg j = if j = k then v else t.vreg j))
  ∧ (∀ (t : Tile) (w : W64) (new : List Nat) (i : Nat), new.length = 256 → i < 256 →
    elemAt 32 i ((t.guardedWrite w new).vreg (vD w)).toNat
        = (if (t.preg (vG w)).getLsbD i then new.getD i 0 % 2 ^ 32 else if vZ w then 0 else elemAt 32 i (t.vreg (vD w)).toNat)
      ∧ (vD w % 16 ≠ 0 → ∀ p : BitVec 256, ((t.guardedPred w p).preg (vD w % 16)).getLsbD i
        = (if (t.preg (vG w)).getLsbD i then p.getLsbD i else if vZ w then false else (t.preg (vD w % 16)).getLsbD i)))

/-- A taken branch goes to its own address plus imm, bits [2:0] of the sum ignored, where that lies in program memory; an
untaken one goes on; BNZD also decrements s[d]. (R48, R54) -/
def Obligations.BranchesComplete : Prop :=
  ∀ (s : State) (n : TileId) (w : W64), Ready s n w →
    let t := s.tile n
    let target := ((t.pc.zeroExtend 64 + fImm w) &&& 0xFFFFFFFFFFFFFFF8#64)
    let go (i : Instr) (taken : Bool) (f : Tile → Tile) : Prop :=
      Completes i s (fun u => Retired s u n (if taken then target.setWidth 17 else t.pc + 8) f)
    let a := t.sreg (fA w)
    let b := t.sreg (fB w)
    target.toNat ≤ 0xFFF8 →
    (opc w = 0x03 → go (.br n) true id)
    ∧ (opc w = 0x04 → go (.beq n) (a = b) id)
    ∧ (opc w = 0x05 → go (.bne n) (a ≠ b) id)
    ∧ (opc w = 0x06 → go (.blt n) (a.toInt < b.toInt) id)
    ∧ (opc w = 0x07 → go (.bltu n) (a.toNat < b.toNat) id)
    ∧ (opc w = 0x08 → go (.bnzd n) (t.sreg (fD w) - 1 ≠ 0) (fun u => u.setS (fD w) (u.sreg (fD w) - 1)))
    ∧ (opc w = 0x09 → CleanTile t → go (.bpany n) (t.preg (fA w % 16) ≠ 0) id)
    ∧ (opc w = 0x0A → CleanTile t → go (.bpnone n) (t.preg (fA w % 16) = 0) id)

/-- WAIT goes on once the selected work is done; PWAIT once its peg satisfies the condition; PSIG adds to its peg and END enters
IDLE once all work is done; the halt instruction enters HALTED with halt_cause 2. What the spec leaves open here the model
settles (log entry 107). (R55, R56, R57, R221) -/
def Obligations.SynchronisationInstructionsComplete : Prop :=
  ∀ (s : State) (n : TileId) (w : W64), Ready s n w →
    let t := s.tile n
    let p := (t.sreg (fA w)).toNat % 65536
    (opc w = 0x0B → s.waitReason n (fImm w).toNat = 0 → Executes s (.wait n) n id)
    ∧ (opc w = 0x0C → t.pwait = none → fX w % 4 ≠ 3 → pegFaulted (s.peg p) = false → pegCond (fX w % 4) (s.peg p) (t.sreg (fB w)) = true →
        Executes s (.pwait n) n id)
    ∧ (opc w = 0x0D → s.waitReason n waitAll = 0 → s.rf (.pegMirror p) Fld.pegMirrorEnable = 0 →
        Completes (.psig n) s (fun u =>
          (u.peg p).toNat % 2 ^ 63 = ((s.peg p).toNat + (t.sreg (fB w)).toNat) % 2 ^ 63
            ∧ (u.peg p).getLsbD 63 = (s.peg p).getLsbD 63 ∧ (∀ q, q ≠ p → u.peg q = s.peg q)
            ∧ u.mem = s.mem ∧ (pegFaulted (u.peg p) = false → (u.tile n).pc = t.pc + 8 ∧ (u.tile n).seq = .run ∧ (u.tile n).s = t.s
              ∧ (u.tile n).v = t.v ∧ (u.tile n).p = t.p ∧ ∀ r, r ≠ .pegValue p → r ≠ .vecRetired n → u.rget r = s.rget r)))
    ∧ (opc w = 0x01 → t.launched = false → Completes (.halt n) s (fun u =>
        (u.tile n).seq = .halted ∧ (u.tile n).cause = 2 ∧ (u.tile n).pc = t.pc + 8 ∧ (u.tile n).s = t.s
          ∧ (∀ m, m ≠ n.val → u.tile m = s.tile m) ∧ SameButTiles s u))
    ∧ (opc w = 0x02 → s.waitReason n waitAll = 0 → Completes (.endProgram n) s (fun u =>
        (u.tile n).seq = .idle ∧ (u.tile n).ended = true ∧ (u.tile n).cause = 0 ∧ (u.tile n).s = t.s
          ∧ (∀ m, m ≠ n.val → u.tile m = s.tile m) ∧ SameButTiles s u))

/-- The element operations of R63 on floating-point and integer lanes, under the guard. (R63, R64, R52, R98) -/
def Obligations.VectorArithmeticCompletes : Prop :=
  ∀ (s : State) (n : TileId) (w : W64), Ready s n w → CleanTile (s.tile n) →
    let lanes (i : Instr) (types : List Nat) (ff : FloatFmt → Nat → Nat → Nat → Nat) (fi : Nat → Nat → Nat → Nat) : Prop :=
      typeOk types w = true → Executes s i n (fun t => t.guardedWrite w (lanesOf t w (match typeFmt (vT w) with
        | some f => ff f
        | none => fi)))
    let m32 (x : Int) : Nat := (x % (2 ^ 32 : Int)).toNat
    let rm := vRm w
    let key (x : Nat) : Int := if vT w = 3 then sgn 32 x else x
    let one (i : Instr) (g : Machine.Num → Machine.Num) : Prop := lanes i [0] (fun f a _ _ => f.result rm (g (f.decode a))) (fun a _ _ => a)
    let u32 (i : Instr) (g : Nat → Nat → Nat) : Prop := lanes i [4] (fun _ a _ _ => a) (fun a b _ => g a b)
    (opc w = 0x60 → lanes (.vadd n) [0, 1, 2, 3, 4] (fun f a b _ => f.result rm (Machine.Num.add rm (f.decode a) (f.decode b)))
      (fun a b _ => m32 (a + b)))
    ∧ (opc w = 0x61 → lanes (.vsub n) [0, 1, 2, 3, 4] (fun f a b _ => f.result rm (Machine.Num.add rm (f.decode a) (f.decode b).neg))
      (fun a b _ => m32 ((a : Int) - b)))
    ∧ (opc w = 0x62 → lanes (.vmul n) [0, 1, 2, 3, 4] (fun f a b _ => f.result rm (Machine.Num.mul (f.decode a) (f.decode b)))
      (fun a b _ => m32 (a * b)))
    ∧ (opc w = 0x63 → lanes (.vfma n) [0, 1, 2, 3, 4]
      (fun f a b c => f.result rm (Machine.Num.add rm (Machine.Num.mul (f.decode a) (f.decode b)) (f.decode c))) (fun a b c => (a * b + c) % 2 ^ 32))
    ∧ (opc w = 0x64 → lanes (.vmax n) [0, 1, 2, 3, 4] (fun f a b _ => f.result 0 (Machine.Num.max (f.decode a) (f.decode b)))
      (fun a b _ => if key a < key b then b else a))
    ∧ (opc w = 0x65 → lanes (.vmin n) [0, 1, 2, 3, 4] (fun f a b _ => f.result 0 (Machine.Num.min (f.decode a) (f.decode b)))
      (fun a b _ => if key b < key a then b else a))
    ∧ (opc w = 0x66 → lanes (.vabs n) [0, 1, 2, 3] (fun f a _ _ => a % 2 ^ (f.width - 1))
      (fun a _ _ => if a < 2 ^ 31 then m32 a else m32 (-a)))
    ∧ (opc w = 0x67 → lanes (.vneg n) [0, 1, 2, 3] (fun f a _ _ => (a + 2 ^ (f.width - 1)) % (2 * 2 ^ (f.width - 1)))
      (fun a _ _ => m32 (-a)))
    ∧ (opc w = 0x68 → one (.vrcp n) Machine.Num.rcp) ∧ (opc w = 0x69 → one (.vrsqrt n) Machine.Num.rsqrt)
    ∧ (opc w = 0x6A → one (.vexp2 n) Machine.Num.exp2) ∧ (opc w = 0x6B → one (.vlog2 n) Machine.Num.log2)
    ∧ (opc w = 0x6C → u32 (.vand n) (fun a b => a &&& b)) ∧ (opc w = 0x6D → u32 (.vor n) (fun a b => a ||| b))
    ∧ (opc w = 0x6E → u32 (.vxor n) (fun a b => a ^^^ b)) ∧ (opc w = 0x6F → u32 (.vshl n) (fun a b => a * 2 ^ (b % 32) % 2 ^ 32))
    ∧ (opc w = 0x70 → u32 (.vshr n) (fun a b => a / 2 ^ (b % 32)))
    ∧ (opc w = 0x71 → u32 (.vsra n) (fun a b => m32 (sgn 32 a / (2 ^ (b % 32) : Int))))
    ∧ (opc w = 0x72 → lanes (.vadds n) [3] (fun _ a _ _ => a)
      (fun a b _ => m32 (max (-(2 ^ 31)) (min (2 ^ 31 - 1) (sgn 32 a + sgn 32 b)))))
    ∧ (opc w = 0x77 → lanes (.vmov n) [0, 1, 2, 3, 4] (fun _ a _ _ => a) (fun a _ _ => a))

/-- VCMP, VSEL, VBCAST and VIOTA, and the predicate instructions of R74. (R74) -/
def Obligations.VectorPredicatesComplete : Prop :=
  ∀ (s : State) (n : TileId) (w : W64), Ready s n w → CleanTile (s.tile n) →
    let lane (k i : Nat) (t : Tile) : Nat := elemAt 32 i (t.vreg k).toNat
    let pred (i : Instr) (f : BitVec 256 → BitVec 256 → BitVec 256) : Prop :=
      Executes s i n (fun t => t.guardedPred w (f (t.preg (vA w % 16)) (t.preg (vB w % 16))))
    (opc w = 0x73 → typeOk [0, 3, 4] w = true → vX w % 8 ≠ 7 → Executes s (.vcmp n) n (fun t => t.guardedPred w (ofBits256 (fun i =>
        if vT w = 0 then compareFp (vX w % 8) (fp32.decode (lane (vA w) i t)) (fp32.decode (lane (vB w) i t))
        else compareInt (vX w % 8) (intKey (vT w) (lane (vA w) i t)) (intKey (vT w) (lane (vB w) i t))))))
    ∧ (opc w = 0x74 → typeOk allTypes w = true → Executes s (.vsel n) n (fun t => t.setV (vD w) (ofLanes ((List.range 256).map (fun i =>
        if (t.preg (vG w)).getLsbD i then lane (vA w) i t else lane (vB w) i t)))))
    ∧ (opc w = 0x75 → typeOk allTypes w = true → Executes s (.vbcast n) n (fun t => t.guardedWrite w (List.replicate 256
        (if typeBits (vT w) = 16 then (t.sreg (vA w % 32)).toNat % 2 ^ 16 * (2 ^ 16 + 1) else (t.sreg (vA w % 32)).toNat % 2 ^ 32))))
    ∧ (opc w = 0x76 → typeOk [3, 4] w = true → Executes s (.viota n) n (fun t => t.guardedWrite w ((List.range 256).map (fun i =>
        ((t.sreg (vA w % 32)).toNat + i) % 2 ^ 32))))
    ∧ (opc w = 0xC0 → pred (.pand n) (fun a b => a &&& b)) ∧ (opc w = 0xC1 → pred (.por n) (fun a b => a ||| b))
    ∧ (opc w = 0xC2 → pred (.pxor n) (fun a b => a ^^^ b)) ∧ (opc w = 0xC3 → pred (.pnot n) (fun a _ => ~~~a))
    ∧ (opc w = 0xC4 → Executes s (.plt n) n (fun t => t.guardedPred w (ofBits256 (fun i => i < (t.sreg (vA w % 32)).toNat))))
    ∧ (opc w = 0xC5 → Executes s (.pnz n) n (fun t => t.guardedPred w (ofBits256 (fun i => lane (vA w) i t != 0))))

/-- The lane movement instructions of R65 and the Philox instruction of R66. (R65) -/
def Obligations.LaneMovesComplete : Prop :=
  ∀ (s : State) (n : TileId) (w : W64), Ready s n w → CleanTile (s.tile n) →
    let lane (k i : Nat) (t : Tile) : Nat := elemAt 32 i (t.vreg k).toNat
    let sb (t : Tile) : Nat := (t.sreg (vB w % 32)).toNat
    let move (i : Instr) (f : Tile → Nat → Option Nat) : Prop :=
      Executes s i n (fun t => t.guardedWrite w ((List.range 256).map (fun i => match f t i with
        | some j => lane (vA w) j t
        | none => 0)))
    (opc w = 0x80 → move (.vperm n) (fun t i => some (lane (vB w) i t % 256)))
    ∧ (opc w = 0x81 → move (.vxswz n) (fun _ i => some (i ^^^ (vImm w % 256))))
    ∧ (opc w = 0x82 → move (.vrot n) (fun _ i => some ((i + vImm w % 256) % 256)))
    ∧ (opc w = 0x83 → move (.vslide n) (fun _ i =>
        if 0 ≤ (i : Int) + sgn 16 (vImm w) ∧ (i : Int) + sgn 16 (vImm w) ≤ 255 then some ((i : Int) + sgn 16 (vImm w)).toNat else none))
    ∧ (opc w = 0x84 → Executes s (.vext n) n (fun t => t.setS (vD w % 32) (BitVec.ofNat 64 (lane (vA w) (sb t % 256) t))))
    ∧ (opc w = 0x85 → Executes s (.vins n) n (fun t =>
        let on := (t.preg (vG w)).getLsbD (sb t % 256)
        if on || vZ w then
          t.setV (vD w) (ofLanes ((laneList (t.vreg (vD w))).set (sb t % 256)
            (if on then (t.sreg (vA w % 32)).toNat % 2 ^ 32 else 0))) (fun j => j == sb t % 256)
        else t))
    ∧ (opc w = 0x86 → Executes s (.vcomp n) n (fun t =>
        let sel := ((List.range 256).filter (fun i => (t.preg (vG w)).getLsbD i)).map (fun i => lane (vA w) i t)
        (t.setV (vD w) (ofLanes (sel ++ (if vZ w then List.replicate 256 0 else laneList (t.vreg (vD w))).drop sel.length))
          (fun i => vZ w || i < sel.length)).setS (vC w % 32) (BitVec.ofNat 64 sel.length)))
    ∧ (opc w = 0x87 → Executes s (.vexpn n) n (fun t => t.guardedWrite w ((List.range 256).map (fun i =>
        lane (vA w) ((List.range i).countP (fun j => (t.preg (vG w)).getLsbD j)) t))))
    ∧ (opc w = 0x88 → Executes s (.vphx n) n (fun t => t.guardedWrite w ((List.range 256).map (fun i =>
        let x := (sb t + i / 4) % 2 ^ 64
        let k := (t.sreg (vA w % 32)).toNat
        let c := (t.sreg (vC w % 32)).toNat
        philox (bitsOf x 0 32, bitsOf x 32 32, bitsOf c 0 32, bitsOf c 32 32) (bitsOf k 0 32, bitsOf k 32 32) (i % 4)))))

/-- VCVT converts the 256 elements of its source part into the elements of its destination part; the elements outside the part
keep their values; stochastic rounding advances VEC.SR_INDEX by 256; an MX destination writes the scales of its eight blocks to
s[b]; beside these and the program counter, whose instruction waits for nothing, the whole tile is as it was. (R67, R68, R69,
R70, R101, R104) -/
def Obligations.ConversionCompletes : Prop :=
  ∀ (s : State) (n : TileId) (w : W64), Ready s n w → CleanTile (s.tile n) → opc w = 0xA0 → vcvtBad w = false →
    let t := s.tile n
    let df := bitsOf (vImm w) 4 4
    let qd := bitsOf (vImm w) 11 3
    let eb := elemBits df
    let vs := vcvtSource w (t.vreg (vA w)) (t.sreg (vB w % 32))
    let val (j : Nat) : Machine.Num := if isMx df then (vs.getD j .nan).scale (mxFactor ((blockScales df vs).getD (j / 32) 0x7F)) else vs.getD j .nan
    let conv (j : Nat) : Nat :=
      (convert df (vRm w) (if vRm w = 4 then srWord t.srKey n (t.srIndex.toNat + j) else 0) ((vImm w).testBit 15) (val j)).1
    Completes (.vcvt n) s (fun u =>
      (∀ i, i < 8192 / eb → elemAt eb i ((u.tile n).vreg (vD w)).toNat =
        (if 256 * qd ≤ i ∧ i < 256 * qd + 256 then
          (if (t.preg (vG w)).getLsbD (i - 256 * qd) then conv (i - 256 * qd) % 2 ^ eb
            else if vZ w then 0 else elemAt eb i (t.vreg (vD w)).toNat)
        else elemAt eb i (t.vreg (vD w)).toNat))
      ∧ (∀ k, k ≠ vD w → (u.tile n).vreg k = t.vreg k)
      ∧ (∀ k, (isMx df = false ∨ k ≠ vB w % 32) → (u.tile n).sreg k = t.sreg k)
      ∧ (isMx df = true → vB w % 32 ≠ 0 →
          (∀ k, k < 8 → elemAt 8 k ((u.tile n).sreg (vB w % 32)).toNat = (blockScales df vs).getD k 0))
      ∧ u.tile n = { t with
          v := (u.tile n).v, s := (u.tile n).s, srIndex := (if vRm w = 4 then t.srIndex + 256 else t.srIndex), pc := t.pc + 8
          wait := 0, pwait := none }
      ∧ (∀ m, m ≠ n.val → u.tile m = s.tile m) ∧ SameButTiles s u)

/-- The vector loads fill v[d] from the 1 KiB that they address, lane by lane under the guard; the vector stores write the
guarded lanes of v[c] and no other byte. (R71, R72, R73) -/
def Obligations.VectorLoadsAndStoresComplete : Prop :=
  ∀ (s : State) (n : TileId) (w : W64), Ready s n w → CleanTile (s.tile n) →
    let clean (cs : Chunks) : Prop := ∀ c ∈ cs, ∀ p ∈ c, CleanBank s n p.1 p.2
    let load (i : Instr) (cs : Chunks) (post : List Byte → List Byte) : Prop := clean cs →
      Executes s i n (fun t => t.guardedWrite w ((List.range 256).map (fun i => leNat (((cs.flatMap (fun c =>
        post (c.flatMap (fun p => s.bytesAt (apBase n + p.1) p.2)))).drop (4 * i)).take 4))))
    let store (i : Instr) (cs : Chunks) (ps : List (Nat × List Byte)) : Prop := clean cs →
      Completes i s (fun u =>
        Retired (ps.foldl (fun s p => s.store (apBase n + p.1) p.2) s) u n ((s.tile n).pc + 8) id
          ∧ ∀ x, (∀ p ∈ ps, ¬(apBase n + p.1 ≤ x ∧ x < apBase n + p.1 + p.2.length)) → u.byteAt x = s.byteAt x)
    let t := s.tile n
    let g := t.preg (vG w)
    let rows (cs : Chunks) : List (Nat × List Byte) :=
      (cs.zipIdx.map (fun x => rowStores g (leBytes 1024 (t.vreg (vC w)).toNat) x.2 ((x.1.headD (0, 0)).1))).flatten
    (opc w = 0xA1 → load (.vld n) (bankChunks t w) id)
    ∧ (opc w = 0xA3 → load (.vldl n) (linearChunks t w) id)
    ∧ (opc w = 0xA5 → colIndex w < 1024 / colWidth w → load (.vldc n) (colChunks t w) (colPack (colWidth w) (colIndex w)))
    ∧ (opc w = 0xA2 → store (.vst n) (bankChunks t w) (rows (bankChunks t w)))
    ∧ (opc w = 0xA4 → store (.vstl n) (linearChunks t w) (rows (linearChunks t w)))
    ∧ (opc w = 0xA6 → colIndex w < 1024 / colWidth w → store (.vstc n) (colChunks t w)
        ((colChunks t w).zipIdx.map (fun x =>
          colStores s n g (t.vreg (vC w)).toNat x.2 (colWidth w) (colIndex w) x.1)).flatten)

/-- VRACC reads four rows of long sums, VWACC writes the guarded lanes into them, once no pass or drain holds the set; of a set
that has failed a check neither reads nor writes anything. (R31, R71, R73, R391) -/
def Obligations.AccumulatorAccessCompletes : Prop :=
  ∀ (s : State) (n : TileId) (w : W64), Ready s n w → CleanTile (s.tile n) →
    let m := vImm w % 4
    let k := bitsOf (vImm w) 2 1
    let q := bitsOf (vImm w) 3 4
    let t := s.tile n
    (opc w = 0xA7 → accHeld t m k false = 0 → t.setFailed m k = false → Executes s (.vracc n) n (fun t => t.guardedWrite w
        ((List.range 256).map (fun i => elemAt 32 (i % 64) (t.accRow m k (4 * q + i / 64)).toNat))))
    ∧ (opc w = 0xA7 → accHeld t m k false = 0 → t.setFailed m k = true → Executes s (.vracc n) n id)
    ∧ (opc w = 0xA8 → accHeld t m k true = 0 → t.setFailed m k = true → Executes s (.vwacc n) n id)
    ∧ (opc w = 0xA8 → accHeld t m k true = 0 → t.setFailed m k = false → Completes (.vwacc n) s (fun u =>
        (∀ r j, r < 4 → j < 64 → elemAt 32 j ((u.tile n).accRow m k (4 * q + r)).toNat =
          (if (t.preg (vG w)).getLsbD (64 * r + j) then elemAt 32 (64 * r + j) (t.vreg (vC w)).toNat
            else elemAt 32 j (t.accRow m k (4 * q + r)).toNat))
        ∧ (∀ m' k' row, k' < 2 → row < 64 → (m' ≠ m ∨ k' ≠ k ∨ row / 4 ≠ q) → (u.tile n).accRow m' k' row = t.accRow m' k' row)
        ∧ (u.tile n).v = t.v ∧ (u.tile n).s = t.s ∧ (u.tile n).pc = t.pc + 8
        ∧ (∀ j, j ≠ n.val → u.tile j = s.tile j) ∧ SameButTiles s u))

/-- LAUNCH of an accepted format pair and set-up starts its pass at once on a free array and queues it on a busy one; DRAIN
latches its operands; AGLD loads 64 B of set-up; XFER starts or queues a transfer. (R27, R29, R58, R59, R60, R61, R62, R83, R84) -/
def Obligations.ArrayInstructionsComplete : Prop :=
  ∀ (s : State) (n : TileId) (w : W64), Ready s n w →
    let t := s.tile n
    let m := vImm w % 4
    let k := bitsOf (vImm w) 2 1
    let xa := (t.agen (2 * m)).loaded
    let xb := (t.agen (2 * m + 1)).loaded
    let fa := bitsOf (vImm w) 4 4
    let fb := bitsOf (vImm w) 8 4
    let rows := s.rget (.maRowMask n m) &&& t.sreg (vA w % 32) &&& extentMask xa
    let cols := s.rget (.maColMask n m) &&& t.sreg (vB w % 32) &&& extentMask xb
    let pass : Pass := { rows := rows, cols := cols, set := k, fresh := (vImm w).testBit 3, fmtA := fa, fmtB := fb,
                         srKey := t.srKey, setA := xa, setB := xb, chunk := 0, checks := [] }
    let y := t.agen (vImm w % 8)
    let o := (t.sreg (vA w % 32)).toNat % 2 ^ 23 / 64 * 64
    (opc w = 0x40 → pairOk fa fb = true → setupBad xa fa = false → setupBad xb fb = false → walkLen xa = walkLen xb →
        launchHeld t m k = 0 →
      (rows ≠ 0 → cols ≠ 0 → walkLen xa ≠ 0 → Executes s (.launch n) n (fun t =>
        let t := t.noteMasks m k rows cols
        if t.arrayFree m then t.startPass m pass else t.queuePass m pass))
      ∧ (rows = 0 ∨ cols = 0 ∨ walkLen xa = 0 → Completes (.launch n) s (fun u =>
          Retired (s.bumpF (.maPassCount n m) Fld.maPassCountPasses 1) u n (t.pc + 8) (fun t => (t.noteMasks m k rows cols).emptyPass m k))))
    ∧ (opc w = 0x41 → bitsOf (vImm w) 3 4 ≠ 15 → vRm w < 5 → (t.array m).drains.length < 2 → Completes (.drain n) s (fun u =>
        ∃ d : DrainOp, ((u.tile n).array m).drains = (t.array m).drains ++ [d] ∧ d.set = k ∧ d.fmt = bitsOf (vImm w) 3 4 ∧ d.rm = vRm w
          ∧ d.dest = t.sreg (vA w % 32) ∧ d.pitch = t.sreg (vB w % 32) ∧ d.started = false
          ∧ d.rows = (kget (BitVec.allOnes 128) t.setMask (2 * m + k)).extractLsb' 0 64 ∧ d.cols = (kget (BitVec.allOnes 128) t.setMask (2 * m + k)).extractLsb' 64 64
          ∧ (u.tile n).srIndex = (if vRm w = 4 then t.srIndex + 4096 else t.srIndex) ∧ (u.tile n).pc = t.pc + 8
          ∧ (∀ j, j ≠ n.val → u.tile j = s.tile j) ∧ SameButTiles s u))
    ∧ (opc w = 0x42 → CleanBank s n o 64 → Executes s (.agld n) n (fun t =>
        t.setAgen (vImm w % 8) { t.agen (vImm w % 8) with loaded := BitVec.ofNat 512 (leNat (s.bytesAt (apBase n + o) 64)) }))
    ∧ (opc w = 0x43 → xferBad y.loaded = false → walkLen y.loaded ≠ 0 → y.run = none → y.queued = none → Executes s (.xfer n) n (fun t =>
        t.setAgen (vImm w % 8) { y with run := some ⟨y.loaded, false, false⟩, slice := 0, staged := [], taken := [], elems := [], scales := [] }))
    ∧ (opc w = 0x43 → xferBad y.loaded = false → walkLen y.loaded = 0 → y.queued = none → Executes s (.xfer n) n id)
    ∧ (opc w = 0x43 → xferBad y.loaded = false → walkLen y.loaded ≠ 0 → y.run ≠ none → y.queued = none → Executes s (.xfer n) n (fun t =>
        t.setAgen (vImm w % 8) { y with queued := some ⟨y.loaded, false, false⟩ }))

/-- The events of an array: a queued pass starts on a free array; a hand-off adds its sums into the unmasked entries of the set
and ends the array cycles at the last slice; a check point that holds is dropped and one that fails puts the tile in FAULTED; a
pass without check points completes. What the spec leaves open here the model settles (log entry 23). (R59, R88, R107, R386,
R391) -/
def Obligations.PassEventsComplete : Prop :=
  ∀ (s : State) (n : TileId) (m : Fin 4), s.runs 6 = true →
    let t := s.tile n
    let y := t.array m
    let rest (u : State) : Prop := (∀ j, j ≠ n.val → u.tile j = s.tile j) ∧ u.mem = s.mem
    (∀ p, y.queued = some p → t.arrayFree m = true → Completes (.queuedPassStart n m) s (fun u =>
        u.tile n = t.startPass m p ∧ ((u.tile n).array m).run = some p ∧ ((u.tile n).array m).queued = none
          ∧ rest u ∧ { u with tiles := s.tiles } = s))
    ∧ (∀ p v s' l, y.run = some p → s.stagePass n m p p.span.1 p.span.2 = (v, .bytes l) → v.readOldSums n m p = (s', true) →
      Completes (.handOff n m) s (fun u =>
        let sums := ((s'.tile n).handOff m p ((s'.tile n).operands m p) p.span.1).1
        (∀ i j, i < 64 → j < 64 → elemAt 32 j ((u.tile n).accRow m p.set i).toNat =
          (if p.rows.getLsbD i ∧ p.cols.getLsbD j then
              setEntry n p (elemAt 32 j ((s'.tile n).accRow m p.set i).toNat) (sums i j) % 2 ^ 32
            else elemAt 32 j ((s'.tile n).accRow m p.set i).toNat))
        ∧ (walkLen p.setA ≤ p.span.1 + p.span.2 → ((u.tile n).array m).run = none)
        ∧ (p.span.1 + p.span.2 < walkLen p.setA → ∃ q, ((u.tile n).array m).run = some q ∧ q.chunk = p.chunk + 1)
        ∧ (p.set < 2 → ∀ m' k' row, k' < 2 → row < 64 → (m' ≠ m.val ∨ k' ≠ p.set) → (u.tile n).accRow m' k' row = (s'.tile n).accRow m' k' row)
        ∧ (u.tile n).s = (s'.tile n).s ∧ (u.tile n).v = (s'.tile n).v ∧ (u.tile n).p = (s'.tile n).p ∧ (u.tile n).pc = (s'.tile n).pc
        ∧ (∀ j, j ≠ n.val → u.tile j = s'.tile j) ∧ { u with tiles := s'.tiles, fab := s'.fab } = s'))
    ∧ (∀ p c cs ps, y.finishing = p :: ps → p.checks = c :: cs → firstFail c p.rows c.rows = 0xFF → firstFail c p.cols c.cols = 0xFF →
      Completes (.checkPoint n m) s (fun u =>
        u.tile n = t.setArray m { y with finishing := { p with checks := cs } :: ps } ∧ rest u ∧ { u with tiles := s.tiles } = s))
    ∧ (∀ p c cs ps, y.finishing = p :: ps → p.checks = c :: cs → p.set < 2 → firstFail c p.rows c.rows ≠ 0xFF → s.triggers Cls.tileCheck = false →
      Completes (.checkPoint n m) s (fun u =>
        (u.tile n).seq = .faulted ∧ (u.tile n).cause = 3 ∧ (u.tile n).setFailed m p.set = true
          ∧ ((u.tile n).array m).run = none ∧ ((u.tile n).array m).queued = none ∧ ((u.tile n).array m).finishing = []
          ∧ u.rf (.tileFault n) Fld.tileFaultCheckMismatch = 1 ∧ u.flt.net.length = s.flt.net.length + 1 ∧ rest u))
    ∧ (∀ p ps, y.finishing = p :: ps → p.checks = [] → t.stopping = none → Completes (.passComplete n m) s (fun u =>
        u.tile n = t.setArray m { y with finishing := ps }
          ∧ u.rf (.maPassCount n m) Fld.maPassCountPasses
            = satAdd Fld.maPassCountPasses.width (s.rf (.maPassCount n m) Fld.maPassCountPasses) 1
          ∧ (∀ r, r ≠ .maPassCount n m → u.rget r = s.rget r) ∧ rest u ∧ SameButTiles s u))

/-- A drain that may read its set writes every unmasked row and has then started; it completes once every write is acknowledged.
A transfer moves its slices and completes once every write is acknowledged. What the spec leaves open here the model settles
(log entries 23, 24). (R30, R61, R62, R92, R94) -/
def Obligations.DrainAndTransferEventsComplete : Prop :=
  ∀ (s : State) (n : TileId), s.runs 6 = true →
    let t := s.tile n
    (∀ (m : Fin 4) d ds s', (t.array m).drains = d :: ds → d.started = false → t.setInPass m d.set = false → t.setFailed m d.set = false →
        t.accUe = [] → t.accCe = [] → d.sharedBytes = [] →
        (maskBits d.rows).foldl (fun acc i => if acc.2 then acc.1.drainRow n m d i else acc) (s, true) = (s', true) →
      Completes (.drainStart n m) s (fun u =>
        u = (s'.dropFetched (.drain n m)).drainStarted n m
          ∧ ((u.tile n).array m).drains = { d with started := true } :: ds))
    ∧ (∀ (m : Fin 4) d ds, (t.array m).drains = d :: ds → d.started = true → s.ownAcks (.drain n m) = false → t.stopping = none →
      Completes (.drainComplete n m) s (fun u =>
        u.tile n = t.setArray m { t.array m with drains := ds } ∧ (∀ j, j ≠ n.val → u.tile j = s.tile j) ∧ { u with tiles := s.tiles } = s))
    ∧ (∀ (a : Fin 8) w s' l, (t.agen a).run = some w → w.forPass = false → w.issued = false →
        s.xferMove n a w.setup (walkLen w.setup - (t.agen a).slice) = (s', .bytes l) →
      let v := s'.modTile n (fun x => x.setAgen a { x.agen a with run := some { w with issued := true } })
      v.ownAcks (.agen n a) = false →
      Completes (.xferComplete n a) s (fun u =>
        u = v.endWalk n a ∧ ∀ w', ((u.tile n).agen a).run = some w' → w'.forPass = false))
    ∧ (∀ (a : Fin 8) w, (t.agen a).run = some w → w.forPass = false → w.issued = true → s.ownAcks (.agen n a) = false →
      Completes (.xferComplete n a) s (fun u =>
        u.tile n = t.endWalk a ∧ (∀ j, j ≠ n.val → u.tile j = s.tile j) ∧ u.mem = s.mem ∧ { u with tiles := s.tiles, fab := s.fab } = s))

/-! ## Registers -/

/-- A complete write of a register sets its RW bits in the half or whole that the access carries, clears the W1C bits written as
1, and leaves every other bit, every other register, every value in force and everything else. What the spec leaves open here
the model settles (log entry 15). An access of another width or alignment, an access to a reserved offset of the registers, and
a write of a block that only the basecamp controller writes by another agent write nothing, read as zero and produce a
CSR_ACCESS record. (R4, R6, R7, R11, R383) -/
def Obligations.RegisterWritesComplete : Prop :=
  (∀ (s : State) (a : Agent) (addr : BitVec 48) (size : BitVec 4) (data : W64) (r : Reg), s.reachable a addr.toNat = true →
    regPlace addr.toNat = .reg r → irregularSize addr.toNat size.toNat = false → (basecampOnly addr.toNat = false ∨ a = .basecamp) →
    startsAction r = false →
    Completes (.registerWrite a addr ⟨size, false⟩ data) s (fun t =>
      (∀ j, j < 64 → (t.rget r).getLsbD j =
        (let d := data.getLsbD (if size.toNat = 8 then j else j % 32)
        if carries addr.toNat size.toNat j = false then (s.rget r).getLsbD j
        else match regBit r j with
          | some .rw => d
          | some .w1c => (s.rget r).getLsbD j && !d
          | _ => (s.rget r).getLsbD j))
      ∧ (∀ r', r' ≠ r → t.rget r' = s.rget r') ∧ (∀ r', t.aget r' = s.aget r') ∧ SameButCsr s t))
  ∧ (∀ (s : State) (a : Agent) (addr : BitVec 48) (size : BitVec 4) (data : W64), s.reachable a addr.toNat = true → s.frozen = false →
    s.triggers Cls.csrAccess = false →
    (∀ r, regPlace addr.toNat = .reg r → irregularSize addr.toNat size.toNat = true ∨ (basecampOnly addr.toNat = true ∧ a ≠ .basecamp)) →
    (∃ r, regPlace addr.toNat = .reg r) ∨ regPlace addr.toNat = .reserved →
    let noted (t : State) : Prop := ∃ x : FaultRec, x.cls = Cls.csrAccess ∧ x.addr = BitVec.ofNat 64 addr.toNat ∧ x.time = s.now
      ∧ t.flt = { s.flt with net := s.flt.net ++ [x] }
    Completes (.registerWrite a addr ⟨size, false⟩ data) s (fun t => noted t ∧ { t with flt := s.flt } = s)
      ∧ ((irregularSize addr.toNat size.toNat = true ∨ regPlace addr.toNat = .reserved) →
        Completes (.registerReadClear a addr ⟨size, false⟩) s (fun t =>
          noted t ∧ t.readData = 0 ∧ { t with flt := s.flt, readData := s.readData } = s)))

/-- A complete read of a register gives the readable bits of what the register shows, in the half or whole that the access
carries, and clears its RC bits there and no other bit of any register. (R9) -/
def Obligations.RegisterReadsComplete : Prop :=
  ∀ (s : State) (a : Agent) (addr : BitVec 48) (size : BitVec 4) (r : Reg), s.reachable a addr.toNat = true →
    regPlace addr.toNat = .reg r → irregularSize addr.toNat size.toNat = false → (∀ p, r ≠ .pcieRpCfgData p) → r ≠ .frzChainData →
    Completes (.registerReadClear a addr ⟨size, false⟩) s (fun t =>
      (∀ j, j < 64 → t.readData.getLsbD j =
        (if size.toNat = 4 ∧ 32 ≤ j then false
        else
          let k := if size.toNat = 4 ∧ addr.toNat % 8 = 4 then j + 32 else j
          (s.regView r).getLsbD k && (match regBit r k with
            | none | some .wo => false
            | _ => true)))
      ∧ (∀ j, j < 64 → (t.rget r).getLsbD j =
        ((s.rget r).getLsbD j && !(carries addr.toNat size.toNat j && regBit r j == some .rc)))
      ∧ (∀ r', r' ≠ r → t.rget r' = s.rget r') ∧ { t with csr := s.csr, readData := s.readData } = s)

/-! ## Gradient reduction and the stash -/

/-- GOV_COMMIT puts the staged governor fields in force together; JOB_COMMIT binds a job whose block passes its checks, unbinds
it with valid = 0, and otherwise changes nothing but bind_error. What the spec leaves open here the model settles (log entry
39). (R11, R115, R141, R142) -/
def Obligations.ReductionCommitsComplete : Prop :=
  (∀ s : State, s.runs 4 = true → Completes .govCommit s (fun t =>
      (∀ r ∈ [Reg.redGovBase, .redGovCtrl, .redGovThresh], t.aget r = s.rget r)
        ∧ (∀ r, r ∉ [Reg.redGovBase, .redGovCtrl, .redGovThresh] → t.aget r = s.aget r) ∧ { t with act := s.act } = s))
  ∧ (∀ (s : State) (j : JobId), s.runs 4 = true → s.rf (.redJobCfg j) Fld.redJobCfgValid = 0 →
      ((s.job j).buckets ≠ [] → Completes (.jobCommit j) s (fun t =>
        t.rf (.redJobStatus j) Fld.redJobStatusBindError = 7 ∧ (∀ r, r ≠ .redJobStatus j → t.rget r = s.rget r) ∧ SameButCsr s t))
      ∧ ((s.job j).buckets = [] → Completes (.jobCommit j) s (fun t =>
        (t.job j).binding = none ∧ t.rf (.redJobStatus j) Fld.redJobStatusBound = 0 ∧ t.rf (.redJobStatus j) Fld.redJobStatusBindError = 0
          ∧ t.rf (.redJobStatus j) Fld.redJobStatusNextSequence = 0 ∧ t.rf (.redJobStatus j) Fld.redJobStatusBroken = 0
          ∧ t.aget (.redJobCfg j) = s.rget (.redJobCfg j) ∧ (∀ i, i ≠ j.val → t.job i = s.job i) ∧ t.mem = s.mem)))
  ∧ (∀ (s : State) (j : JobId), s.runs 4 = true → s.rf (.redJobCfg j) Fld.redJobCfgValid ≠ 0 → (s.job j).buckets ≠ [] →
      Completes (.jobCommit j) s (fun t =>
        t.rf (.redJobStatus j) Fld.redJobStatusBindError = 7 ∧ (∀ r, r ≠ .redJobStatus j → t.rget r = s.rget r) ∧ SameButCsr s t))
  ∧ (∀ (s u : State) (j : JobId) (g : Binding), s.runs 4 = true → s.rf (.redJobCfg j) Fld.redJobCfgValid ≠ 0 →
      (s.job j).buckets = [] →
      s.readJobBlock j (s.rf (.redJobCfg j) Fld.redJobCfgBlock * 64) = (u, some g) →
      (u.bindError g ≠ 0 → Completes (.jobCommit j) s (fun t =>
        t.rf (.redJobStatus j) Fld.redJobStatusBindError = u.bindError g ∧ (∀ r, r ≠ .redJobStatus j → t.rget r = u.rget r)
          ∧ SameButCsr u t))
      ∧ (u.bindError g = 0 → g.epoch < 256 → Completes (.jobCommit j) s (fun t =>
        (t.job j) = { Job.reset with binding := some g } ∧ t.rf (.redJobStatus j) Fld.redJobStatusBound = 1
          ∧ t.rf (.redJobStatus j) Fld.redJobStatusEpoch = g.epoch ∧ t.rf (.redJobStatus j) Fld.redJobStatusNextSequence = 0
          ∧ t.rf (.redJobStatus j) Fld.redJobStatusBroken = 0 ∧ t.rf (.redJobStatus j) Fld.redJobStatusBindError = 0
          ∧ t.rget (.redJobEarly j) = 0 ∧ t.aget (.redJobCfg j) = u.rget (.redJobCfg j)
          ∧ (∀ i, i ≠ j.val → t.job i = u.job i) ∧ t.mem = u.mem)))

/-- The scale of R151 keeps every converted element within its share of INT32, so that the sum of all participants fits, and the
fragments of R153 divide the bucket. (R151, R152, R153) -/
def Obligations.ReductionSumsFit : Prop :=
  (∀ (p : Nat) (e : Int) (v : Machine.Num), 1 ≤ p → p ≤ 4096 →
      (toInt p e v).1.natAbs ≤ 2 ^ (31 - ceilLog2 p) - 1 ∧ p * (toInt p e v).1.natAbs ≤ 2 ^ 31 - 1)
  ∧ (∀ (g : Binding) (n : Nat), 1 ≤ g.p →
      ((List.range g.p).map (fun f => g.fragLen n f)).sum = n
        ∧ (∀ f, g.fragLo n f % 56 = 0)
        ∧ (∀ i, i < n → ∃ f, f < g.p ∧ g.fragLo n f ≤ i ∧ i < g.fragLo n f + g.fragLen n f))

/-- A reduction packet of a kind leaves the receive queue and has its effect: the contribution is added, the check held, the
result written, the trailer and the total kept, the credit given back, the bucket ended by an abort. A packet whose tag differs
from the open bucket's makes ABORT with reason 1; a packet of a sequence that is not open yet goes to the early store and is
handled at its opening. What the spec leaves open here the model settles (log entries 35, 36, 37, 113, 123). (R142, R148, R150,
R154, R155, R156, R158, R159, R160, R161, R164, R166) -/
def Obligations.ReductionPacketsComplete : Prop :=
  ∀ (s u : State) (p : Nat) (k : Pkt) (g : Binding) (b : Bucket), s.runs 7 = true →
    let j := k.redJob
    let takes (kind : Nat) : Prop := s.takeRed kind = some (p, k, u) ∧ k.redKind = kind ∧ (u.job j).binding = some g
      ∧ u.jobBroken j = false ∧ k.redEpoch = g.epoch
    let opens : Prop := u.bucket? j k.redSeq = some b ∧ b.live = true ∧ b.seq = k.redSeq
    let tagged : Prop := k.redStep = b.op.step ∧ k.redIndex = b.op.index
    let e := sgn 32 (leNat (k.redBody.take 4))
    let fl := leNat ((k.redBody.drop 12).take 1)
    (takes RK.scale → opens → exec .scale s = .next ((u.creditBack k).addScale j k.redSeq
        ⟨k.redSrc, e, k.redStep == b.op.step && k.redIndex == b.op.index && leNat ((k.redBody.drop 4).take 8) == b.op.n, fl.testBit 0⟩))
    ∧ (takes RK.scaleResult → opens → tagged → fl.testBit 2 = false → b.agreed = none →
        exec .scaleResult s = .next ((u.creditBack k).contribute j k.redSeq e (fl.testBit 1)))
    ∧ (∀ v, takes RK.contrib → opens → tagged → u.portHolds g k = false → k.redPath = false →
        u.addLanes j b (g.slot b.seq) (g.fragLo b.op.n g.rank + k.redOffset) k.redValues = (v, true) →
        exec .contrib s = .next (((v.creditBack k).modBucket j k.redSeq (fun b => { b with added := b.added + 1 })).redAdvance j k.redSeq))
    ∧ (takes RK.check → opens → tagged → u.portHolds g k = false →
        exec .check s = .next ((u.modBucket j k.redSeq (fun b => { b with held := b.held ++ [⟨p, k, false⟩] })).redAdvance j k.redSeq))
    ∧ (∀ kind i, (kind, i) ∈ [(RK.contrib, Instr.contrib), (RK.check, .check), (RK.result, .result)] → takes kind → opens → tagged →
        u.portHolds g k = true →
        exec i s = .next (u.setJob j { u.job j with atPort := (u.job j).atPort ++ [⟨p, k, false⟩] }))
    ∧ (∀ v, takes RK.result → opens → tagged → u.portHolds g k = false →
        u.writeSums j b (g.slot b.seq) (g.fragLo b.op.n k.redFrag + k.redOffset) k.redValues = (v, true) →
        exec .result s = .next ((v.creditBack k).modBucket j k.redSeq (fun b => { b with results := b.results + 1 })))
    ∧ (takes RK.trailer → opens → tagged →
        exec .trailer s = .next (((u.creditBack k).modBucket j k.redSeq (fun b =>
          { b with trailers := b.trailers ++ [(k.redPath, k.redSrc, k.redFrag, trailerOf k.redBody)] })).redAdvance j k.redSeq))
    ∧ (takes RK.total → opens → tagged → k.redPath = false →
        exec .total s = .next (((u.creditBack k).modBucket j k.redSeq (fun b =>
          { b with totals := b.totals ++ [(k.redFrag, trailerOf k.redBody)] })).redAdvance j k.redSeq))
    ∧ (∀ r, takes RK.credit → (List.range g.p).find? (fun r => g.members.getD r 4096 == k.src) = some r → (u.job j).outQ = [] →
        Completes .credit s (fun t =>
          kget 0 (t.job j).used (redKey r k.redPath) = kget 0 (u.job j).used (redKey r k.redPath) - k.redCredits
            ∧ (∀ x, x ≠ redKey r k.redPath → kget 0 (t.job j).used x = kget 0 (u.job j).used x)
            ∧ (t.job j).buckets = (u.job j).buckets ∧ (∀ i, i ≠ j → t.job i = u.job i) ∧ { t with jobs := u.jobs } = u))
    ∧ (takes RK.abort → opens → Completes .abort s (fun t =>
        t = (u.creditBack k).endBucket j k.redSeq (abortEnd (leNat (k.redBody.take 1))).1 (abortEnd (leNat (k.redBody.take 1))).2))
    ∧ (b.agreed = none → ∀ x : State, x.bucket? j k.redSeq = some b → x.redAdvance j k.redSeq = x)
    ∧ (∀ kind i, (kind, i) ∈ [(RK.scaleResult, Instr.scaleResult), (RK.contrib, .contrib), (RK.check, .check), (RK.result, .result),
        (RK.trailer, .trailer), (RK.total, .total)] → takes kind → opens → ¬ tagged →
        exec i s = .next ((u.creditBack k).redAbort j k.redSeq 1))
    ∧ (∀ kind i, (kind, i) ∈ [(RK.scale, Instr.scale), (RK.scaleResult, .scaleResult), (RK.contrib, .contrib), (RK.check, .check),
        (RK.result, .result), (RK.trailer, .trailer), (RK.total, .total), (RK.abort, .abort)] → takes kind →
        u.bucket? j k.redSeq = none → u.seqPast j k.redSeq = false → Completes i s (fun t =>
          t.job j = { u.job j with early := (u.job j).early ++ [(p, k)] } ∧ (∀ i, i ≠ j → t.job i = u.job i)
            ∧ t.rf .redEarly Fld.redEarlyCount = satAdd 64 (u.rf .redEarly Fld.redEarlyCount) 1
            ∧ t.rf (.redJobEarly j) Fld.redJobEarlyStored = ((u.job j).early.length + 1) % 2 ^ 32
            ∧ (∀ r, r ≠ .redEarly → r ≠ .redJobEarly j → t.rget r = u.rget r) ∧ { t with csr := u.csr, jobs := u.jobs } = u))
    ∧ (opens → (u.job j).early.filter (fun e => e.2.redSeq == k.redSeq) = [(p, k)] → u.takeEarly j g k.redSeq
        = (((u.setJob j { u.job j with early := (u.job j).early.filter (fun e => e.2.redSeq != k.redSeq) }).setF (.redJobEarly j)
            Fld.redJobEarlyStored ((u.job j).early.filter (fun e => e.2.redSeq != k.redSeq)).length).redHandle j g b p k))

/-- The scan keeps the exponent word of a bucket and sends it to rank 0; a whole bucket finishes and its descriptor completes; a
timeout breaks the job and ends the bucket with TIMEOUT. What the spec leaves open here the model settles (log entries 41, 42).
(R149, R150, R161, R166) -/
def Obligations.BucketEventsComplete : Prop :=
  ∀ (s : State) (j : JobId) (b : Bucket) (g : Binding), s.runs 4 = true → (s.job j).binding = some g →
    (∀ (seq : W32) u v, s.bucket? j seq.toNat = some b → b.scan = none → b.live = true → (g.ports b.op.n).any s.tileInReset = false →
        s.readSlots j b = (u, .vals v) → g.rank ≠ 0 →
      exec (.bucketScanComplete j seq) s = .next ((u.modBucket j seq.toNat (fun b => { b with scan := some (scanValues v) })).sendRed j
        [(0, (u.modBucket j seq.toNat (fun b => { b with scan := some (scanValues v) })).bucketPkt g j b 0 RK.scale false 0 0 0
          (scaleBody (scanValues v).1 b.op.n (if b.op.force then 1 else 0)))]))
    ∧ (∀ (seq : W32) u v, s.bucket? j seq.toNat = some b → b.scan = none → b.live = true → (g.ports b.op.n).any s.tileInReset = false →
        s.readSlots j b = (u, .vals v) → g.rank = 0 →
      exec (.bucketScanComplete j seq) s = .next ((u.modBucket j seq.toNat (fun b => { b with scan := some (scanValues v) })).addScale j
        seq.toNat ⟨0, (scanValues v).1, true, b.op.force⟩))
    ∧ (∀ l e c, (s.job j).buckets = b :: l → b.agreed = some (e, c) → b.live = true → g.complete b = true →
      exec (.bucketFinish j) s = .next (s.finishBucket j g b e))
    ∧ (∀ seq : W32, s.bucket? j seq.toNat = some b → b.live = true → s.triggers Cls.redTimeout = false →
      Completes (.bucketTimeout j seq) s (fun t =>
        t = (s.setF (.redJobStatus j) Fld.redJobStatusBroken 1).endBucket j seq.toNat stTimeout (some Cls.redTimeout)))
    ∧ (∀ v : List Machine.Num, (∀ neg m x, Machine.Num.fin neg m x ∈ v → m ≠ 0 → floorLog2 m x ≤ (scanValues v).1)
        ∧ ((scanValues v).1 = noExp ∨ ∃ neg m x, Machine.Num.fin neg m x ∈ v ∧ m ≠ 0 ∧ (scanValues v).1 = floorLog2 m x)
        ∧ (scanValues v).2 = (v.filter (fun x => !x.isFin)).length)

/-- A stash commit that fails its checks leaves the fields in force and shows its code; one that passes outside a step takes
effect at once, and one within a step waits for the step boundary, which is the first release of a STEP; the switch entry is
written to the journal once it has room. PIPE_COMMIT shows its code, and one that passes waits until no step is in progress; a
task is released into its queue unless a peg or the stash holds it, starts on every tile of its group with its arguments,
completes once every tile has ended, and ends the step when it faults. What the spec leaves open here the model settles (log
entries 50, 110). (R127, R133, R193, R194, R199, R200, R202, R204) -/
def Obligations.SchedulerCommandsComplete : Prop :=
  ((∀ s : State, s.runs 4 = true →
      let e := s.stashCommitError (stashCfgOf s.rget)
      let shown (t : State) : Prop := t.rf .pipeStashStatus Fld.pipeStashStatusCommitError = e
        ∧ (∀ r, r ≠ .pipeStashStatus → t.rget r = s.rget r)
      (e ≠ 0 → Completes .stashCommit s (fun t => shown t ∧ SameButCsr s t))
      ∧ (e = 0 → s.sched.run = none → Completes .stashCommit s (fun t => shown t
        ∧ t.rf .pipeStashStatus Fld.pipeStashStatusPending = 0 ∧ (∀ r ∈ stashStaged, t.aget r = s.rget r)
        ∧ (∀ r, r ∉ stashStaged → t.aget r = s.aget r) ∧ t.sched.stash = { s.sched.stash with waiting := none }
        ∧ { t with csr := s.csr, act := s.act, sched := s.sched } = s))
      ∧ (e = 0 → s.sched.run ≠ none → Completes .stashCommit s (fun t => shown t
        ∧ t.rf .pipeStashStatus Fld.pipeStashStatusPending = 1 ∧ (∀ r, t.aget r = s.aget r)
        ∧ t.sched.stash.waiting = some (stashStaged.map (fun r => (r, s.rget r)))
        ∧ { t with csr := s.csr, sched := s.sched } = s)))
  ∧ (∀ s : State, s.runs 4 = true → s.sched.run = none → exec .stashCommitEffect s = .next s)
  ∧ (∀ (s : State) (f : Reg → W64) x task, s.runs 4 = true → s.sched.run = some x → x.tasks = [] → x.next = some task →
      s.mayRelease x task = true →
      s.sched.stash.waiting = some (stashStaged.map (fun r => (r, f r))) → Completes .stashCommitEffect s (fun t =>
        t.rf .pipeStashStatus Fld.pipeStashStatusPending = 0 ∧ (∀ r ∈ stashStaged, t.aget r = f r)
          ∧ (∀ r, r ∉ stashStaged → t.aget r = s.aget r) ∧ t.sched.stash.waiting = none
          ∧ { t with csr := s.csr, act := s.act, sched := s.sched } = s))
  ∧ (∀ (s : State) (d : DescRef) (units : Nat), s.runs 4 = true → s.journalRoom d.ring ≠ 0 → (∀ rest, s.sched.stash.journal = (d, units) :: rest →
      Completes .stashJournalEntry s (fun t => t.sched.stash.journal = rest
        ∧ t.mem = (s.writeJournal d.ring d.cookie units s.now stOk 0x10 true false d.idx).mem))))
  ∧ (∀ s : State, s.runs 4 = true →
    (pipeCommitError s.rget ≠ 0 → Completes .pipeCommit s (fun t => t.rf .pipeStatus Fld.pipeStatusCommitError = pipeCommitError s.rget
        ∧ (∀ r, r ≠ .pipeStatus → t.rget r = s.rget r) ∧ SameButCsr s t))
    ∧ (pipeCommitError s.rget = 0 → Completes .pipeCommit s (fun t => t.rf .pipeStatus Fld.pipeStatusCommitError = 0
        ∧ t.rf .pipeStatus Fld.pipeStatusPending = 1 ∧ (∀ r, r ≠ .pipeStatus → t.rget r = s.rget r)
        ∧ t.sched = { s.sched with waiting := some (pipeStaged.map (fun r => (r, s.rget r))) }
        ∧ { t with csr := s.csr, sched := s.sched } = s))
    ∧ (∀ f : Reg → W64, s.sched.waiting = some (pipeStaged.map (fun r => (r, f r))) → s.sched.run = none →
        Completes .pipeCommitEffect s (fun t => t.rf .pipeStatus Fld.pipeStatusPending = 0 ∧ (∀ r ∈ pipeStaged, t.aget r = f r)
          ∧ (∀ r, r ∉ pipeStaged → t.aget r = s.aget r) ∧ t.sched = { s.sched with waiting := none }
          ∧ { t with csr := s.csr, act := s.act, sched := s.sched } = s))
    ∧ (∀ x task, s.sched.run = some x → x.next = some task → s.mayRelease x task = true → Completes .taskRelease s (fun t =>
          (∃ arg holds, t.sched.run = some { x with
            tasks := x.tasks ++ [⟨task, .released, arg, holds⟩], pegSeen := false, pegFault := false })
          ∧ t.rf .pipeProgress Fld.pipeProgressReleased = (x.tasks.length + 1) % 2 ^ Fld.pipeProgressReleased.width
          ∧ t.mem = s.mem ∧ t.tiles = s.tiles))
    ∧ (∀ x task, s.sched.run = some x → x.next = some task → s.pegState x task = .held → exec .taskRelease s = .next s)
    ∧ (∀ x task, s.sched.run = some x → x.next = some task → s.pegState x task = .open_ → s.stashHolds x task = true →
        exec .taskRelease s = .next s)
    ∧ (∀ (g : GroupId) x i task, s.sched.run = some x → s.firstTask x g .released = some (i, task) → x.aborting = false →
        s.mayStart x task (s.tilesOf g) = true → Completes (.taskStart g) s (fun t =>
          (∀ k n, (s.tilesOf g)[k]? = some n → (t.tile n).seq = .run
            ∧ (t.tile n).pc.toNat = blockField s.aget task.task.block
                (if task.task.bwd then Fld.pipeBlockBwdEntry else Fld.pipeBlockFwdEntry) % 65536 / 8 * 8
            ∧ (t.tile n).s = x.args task k (s.tilesOf g).length ∧ (t.tile n).v = (s.tile n).v)
          ∧ (∀ n, n ∉ s.tilesOf g → t.tile n = s.tile n) ∧ t.sched.run = some (x.setTask i .started)
          ∧ { t with tiles := s.tiles, sched := s.sched } = s))
    ∧ (∀ (g : GroupId) x i task, s.sched.run = some x → s.firstTask x g .started = some (i, task) → s.groupEnded g = true → x.aborting = false →
        (if task.task.bwd then task.task.block ≠ 0 else task.task.block + 1 ≠ x.blocks) →
        (x.setTask i .done).tasks.length ≠ x.order.length → Completes (.taskComplete g) s (fun t =>
          t.sched.run = some (x.setTask i .done)
            ∧ t.rf .pipeProgress Fld.pipeProgressCompleted
              = satAdd Fld.pipeProgressCompleted.width (s.rf .pipeProgress Fld.pipeProgressCompleted) 1
            ∧ t.rf .pipeTasks Fld.pipeTasksCount = satAdd Fld.pipeTasksCount.width (s.rf .pipeTasks Fld.pipeTasksCount) 1
            ∧ (∀ r, r ≠ .pipeProgress → r ≠ .pipeTasks → t.rget r = s.rget r)
            ∧ { t with csr := s.csr, sched := s.sched } = s))
    ∧ (∀ (g : GroupId) x i task, s.sched.run = some x → s.firstTask x g .started = some (i, task) → x.aborting = false →
        (s.tilesOf g).any (fun n => (s.tile n).seq == .faulted) = true → s.triggers Cls.pipeTask = false →
        Completes (.taskFault g) s (fun t =>
          t.rf .pipeStatus Fld.pipeStatusFaultTask = i % 2 ^ Fld.pipeStatusFaultTask.width
            ∧ (∃ e : FaultRec, e.cls = Cls.pipeTask ∧ e.detail0 = BitVec.ofNat 64 i ∧ t.flt.net = s.flt.net ++ [e])
            ∧ (∀ y, t.sched.run = some y → y.aborting = true) ∧ t.tiles = s.tiles)))

/-! ## Rings and pegs -/

/-- RING_COMMIT shows its code, and one that passes puts the staged fields in force together and, armed, the ring in RUNNING; a
doorbell within range publishes TAIL, and beyond the ring's credit counts as deferred with one DEFERRED entry; one of the
current TAIL does nothing, and one out of range or to a ring that is not RUNNING is discarded with a record; STOP, DISABLE and
the age watchdog. What the spec leaves open here the model settles (log entries 54, 110). (R207, R208, R210, R225, R227, R228) -/
def Obligations.RingCommandsComplete : Prop :=
  ∀ (s : State) (r : RingId), s.runs 4 = true →
    let staged : List Reg := [.ringBase r, .ringSize r, .ringJournalBase r, .ringCfg r, .ringHead r]
    let rest (t : State) (l : List Reg) : Prop := (∀ x, x ∉ l → t.rget x = s.rget x)
    (∀ arm, s.ringCommitError r arm ≠ 0 → Completes (.ringCommit r arm) s (fun t =>
        t.rf (.ringStatus r) Fld.ringStatusCommitError = s.ringCommitError r arm ∧ rest t [.ringStatus r] ∧ SameButCsr s t))
    ∧ (∀ arm, s.ringCommitError r arm = 0 → Completes (.ringCommit r arm) s (fun t =>
        t.rf (.ringStatus r) Fld.ringStatusCommitError = 0 ∧ (∀ x ∈ staged, t.aget x = s.rget x) ∧ (∀ x, x ∉ staged → t.aget x = s.aget x)
          ∧ t.ringState r = (if arm then 1 else s.ringState r) ∧ (t.ring r).descs = (s.ring r).descs
          ∧ rest t [.ringStatus r] ∧ { t with csr := s.csr, act := s.act, rings := s.rings } = s))
    ∧ (∀ tail : W32, s.ringState r = 1 → idxSub (s.ringTail r) (s.ringHead r) < idxSub tail.toNat (s.ringHead r) →
        idxSub tail.toNat (s.ringHead r) ≤ 2 ^ s.ringRs r → (s.ring r).descs.length < s.af (.ringCfg r) Fld.ringCfgCredit →
        Completes (.doorbell r tail) s (fun t => t.ringTail r = tail.toNat ∧ rest t [.ringTail r] ∧ SameButCsr s t))
    ∧ (∀ tail : W32, s.ringState r = 1 → idxSub (s.ringTail r) (s.ringHead r) < idxSub tail.toNat (s.ringHead r) →
        idxSub tail.toNat (s.ringHead r) ≤ 2 ^ s.ringRs r → s.af (.ringCfg r) Fld.ringCfgCredit ≤ (s.ring r).descs.length →
        let counted := satAdd 32 (s.rf (.ringStats r) Fld.ringStatsDeferred) 1
        ((s.ring r).deferredSent = true ∨ s.journalRoom r ≤ (s.ring r).reserved → Completes (.doorbell r tail) s (fun t =>
            t.ringTail r = tail.toNat ∧ t.rf (.ringStats r) Fld.ringStatsDeferred = counted
              ∧ t.rf (.ringStats r) Fld.ringStatsCompleted = s.rf (.ringStats r) Fld.ringStatsCompleted
              ∧ rest t [.ringTail r, .ringStats r] ∧ SameButCsr s t))
        ∧ ((s.ring r).deferredSent = false → (s.ring r).reserved < s.journalRoom r → Completes (.doorbell r tail) s (fun t =>
            ∃ u : State, u.ringTail r = tail.toNat ∧ u.rf (.ringStats r) Fld.ringStatsDeferred = counted
              ∧ rest u [.ringTail r, .ringStats r] ∧ SameButCsr s u
              ∧ t = (u.writeJournal r 0 (idxSub tail.toNat (s.ringHead r)) s.now stDeferred 0 false false
                  (BitVec.ofNat 32 (s.ringHead r))).setRing r { s.ring r with deferredSent := true })))
    ∧ (∀ tail : W32, tail.toNat = s.ringTail r → exec (.doorbell r tail) s = .next s)
    ∧ (∀ tail : W32, (s.ringState r ≠ 1 ∨ idxSub tail.toNat (s.ringHead r) ≤ idxSub (s.ringTail r) (s.ringHead r)
          ∨ 2 ^ s.ringRs r < idxSub tail.toNat (s.ringHead r)) →
        tail.toNat ≠ s.ringTail r → s.triggers Cls.ringDoorbell = false →
        Completes (.doorbell r tail) s (fun t => t.rf (.ringStatus r) Fld.ringStatusDoorbellError = 1
          ∧ t.flt.net = s.flt.net ++ [{ mkRec Cls.ringDoorbell 0 Kind.rings r with time := s.now }] ∧ rest t [.ringStatus r]
          ∧ { t with csr := s.csr, flt := s.flt } = s))
    ∧ Completes .admitCommit s (fun t => t.aget .pipePrioWeight = s.rget .pipePrioWeight ∧ t.aget .pipeAgeLimit = s.rget .pipeAgeLimit
        ∧ (∀ x, x ≠ .pipePrioWeight → x ≠ .pipeAgeLimit → t.aget x = s.aget x) ∧ { t with act := s.act } = s)
    ∧ (s.ringState r = 1 → Completes (.ringStopCommand r) s (fun t =>
        t.ringState r = (if (s.ring r).descs.all (fun d => d.phase == .journaled) then 3 else 2)
          ∧ t.rf (.ringStatus r) Fld.ringStatusStopCause = 0 ∧ rest t [.ringStatus r] ∧ SameButCsr s t))
    ∧ (s.ringState r = 3 → Completes (.ringDisable r) s (fun t =>
        t.ringState r = 0 ∧ rest t [.ringStatus r] ∧ SameButCsr s t))
    ∧ (s.ringState r ≠ 3 → exec (.ringDisable r) s = .next s)
    ∧ (∀ d, (s.ring r).descs.find? (fun d => d.phase != .journaled) = some d → s.af .pipeAgeLimit Fld.pipeAgeLimitLimit ≠ 0 →
        d.idx ∉ (s.ring r).agedSeen → s.triggers Cls.ringAge = false → Completes (.ringAge r) s (fun t =>
          t.rf (.ringStatus r) Fld.ringStatusAged = 1 ∧ d.idx ∈ (t.ring r).agedSeen ∧ (t.ring r).descs = (s.ring r).descs
            ∧ t.flt.net.length = s.flt.net.length + 1 ∧ rest t [.ringStatus r]))

/-- Admission reads the descriptor at HEAD of the ring that the arbiter selects and advances HEAD; an ended descriptor is
journaled with one entry, the counter of completed descriptors counts it, and its signal frees its tracker entry. What the spec
leaves open here the model settles (log entries 54, 109). (R209, R211, R217, R218, R219, R398) -/
def Obligations.AdmissionAndCompletionComplete : Prop :=
  (∀ (s u : State) (r : Nat) (a : Arbiter) (l : List Byte), s.runs 4 = true → s.arbitrate 9 s.arb = some (r, a) →
      ({ s with arb := a } : State).winRead ⟨Kind.rings, r, 1, some ⟨r, BitVec.ofNat 32 (s.ringHead r), 0⟩⟩
        (s.slotAddr r (s.ringHead r)) 64 = (u, some l) →
    Completes .descriptorAdmission s (fun t =>
      t.ringHead r = (s.ringHead r + 1) % 2 ^ 32 ∧ t.arb = u.arb
        ∧ (∃ d : Desc, (t.ring r).descs = (u.ring r).descs ++ [d] ∧ d.idx = BitVec.ofNat 32 (s.ringHead r) ∧ d.raw = toLine l
            ∧ d.phase = .admitted ∧ d.started = false ∧ d.bad = false)
        ∧ (∀ q, q ≠ r → t.ring q = u.ring q) ∧ { t with rings := u.rings, csr := u.csr, act := u.act } = u))
  ∧ (∀ (s : State) (r : RingId) (d : Desc), s.runs 4 = true → s.desc? r d.idx = some d → d.phase = .ended → s.descQuiet r d = true →
      0 < s.journalRoom r →
      let w := (s.dropFetched (.desc r d.idx)).writeJournal r d.cookie (match d.failAt with | some x => min x d.units | none => d.units) (d.ackTime.getD s.now) d.status
        (if d.bad then 0 else d.op) d.started d.stopped d.idx
      Completes (.descriptorCompletion r d.idx) s (fun t => t.mem = w.mem
        ∧ t.rf (.ringJournalTail r) Fld.ringJournalTailTail = (s.rf (.ringJournalTail r) Fld.ringJournalTailTail + 1) % 2 ^ 32
        ∧ (t.ring r).descs = ((w.modDesc r d.idx (fun e => { e with phase := .journaled })).ring r).descs))
  ∧ (∀ (s : State) (r : RingId) (d : Desc), (s.ring r).descs.find? (fun d => d.phase == .ended && s.descQuiet r d) = some d →
      exec (.journalRoom r) s = exec (.descriptorCompletion r d.idx) s)
  ∧ (∀ (s : State) (r : RingId) (d : Desc), s.runs 4 = true → (s.ring r).descs.find? (Desc.isJournaled d.idx) = some d →
      let u := s.signalDesc d
      Completes (.completionSignal r d.idx) s (fun t =>
        (t.ring r).descs = (u.ring r).descs.eraseP (Desc.isJournaled d.idx)
          ∧ (∀ q, q ≠ r.val → t.ring q = u.ring q) ∧ { t with rings := u.rings } = u
          ∧ (d.noSignal = true → u = s)))

/-- An addition to a peg adds to its count modulo 2^63 and sets its fault bit or leaves it; a write of PEG.VALUE sets count and
fault bit; every tile that waits on the peg and whose condition holds has seen it. (R221, R222) -/
def Obligations.PegUpdatesComplete : Prop :=
  ∀ (s : State) (p : PegId), s.runs 4 = true → s.rf (.pegMirror p) Fld.pegMirrorEnable = 0 →
    let reached (t : State) (v : W64) : Prop := t.peg p = v ∧ (∀ q, q ≠ p.val → t.peg q = s.peg q)
      ∧ (pegFaulted v = false → t.mem = s.mem ∧ (∀ r, r ≠ .pegValue p → t.rget r = s.rget r)
        ∧ ∀ n x, (s.tile n).pwait = some x → (t.tile n).pwait = some
          { x with seen := x.seen || (x.peg == p.val && pegCond x.cond v x.value) })
    let added (n : BitVec 63) (f : Bool) : W64 :=
      BitVec.ofNat 64 (((s.peg p).toNat % 2 ^ 63 + n.toNat) % 2 ^ 63 + (if f || (s.peg p).getLsbD 63 then 2 ^ 63 else 0))
    (∀ data, Completes (.pegAdd p data) s (fun t => reached t (added (data.setWidth 63) (data.getLsbD 63))))
    ∧ (∀ data, Completes (.pegValueWrite p data) s (fun t => reached t data))
    ∧ (∀ n f, Completes (.pegUpdate p n f) s (fun t => reached t (added n f)))

/-- A descriptor whose turn has come starts: FENCE completes at once, any other with nothing to do completes with EMPTY, and one
with a checked operation block starts its engine; a header that breaks R214 ends it with ABORTED_FAULT; a peg condition that
holds lets it go on. What the spec leaves open here the model settles (log entries 18, 54). (R214, R215, R216, R223) -/
def Obligations.DescriptorsStart : Prop :=
  (∀ (s : State) (r : RingId) (idx : W32) (d : Desc), Startable s r idx d → d.op = 0x00 →
    exec (.fence r idx) s = .next (s.putDesc r idx ({ d with started := true }.endsWith stOk 0 s.now))
      ∧ exec (.descriptorStart r idx) s = exec (.fence r idx) s)
  ∧ (∀ (s : State) (r : RingId) (idx : W32) (d : Desc), Startable s r idx d → d.op ∈ [0x01, 0x02, 0x10, 0x30, 0x31, 0x32, 0x33, 0x40, 0x41, 0x42] →
      d.count = 0 →
      let done : Out := .next (s.putDesc r idx ({ d with started := true }.endsWith stEmpty 0 s.now))
      exec (.descriptorStart r idx) s = done ∧ (d.op = 0x10 → exec (.step r idx) s = done) ∧ (d.op = 0x30 → exec (.apply r idx) s = done)
        ∧ (d.op = 0x31 → exec (.checkpoint r idx) s = done) ∧ (d.op = 0x32 → exec (.digestCheck r idx) s = done)
        ∧ (d.op = 0x33 → exec (.rederive r idx) s = done) ∧ (∀ n, d.op = 0x40 → exec (.hostRead r idx n) s = done)
        ∧ (∀ n, d.op = 0x41 → exec (.hostWrite r idx n) s = done) ∧ (∀ n, d.op = 0x42 → exec (.hostMsix r idx n) s = done))
  ∧ (∀ (s : State) (r : RingId) (idx : W32) (d : Desc), Startable s r idx d → d.count ≠ 0 → d.blockOk = true →
      let running : Out := .next (s.putDesc r idx { d with phase := .running, started := true })
      (d.op = 0x01 ∨ d.op = 0x02 → exec (.descriptorStart r idx) s = running)
      ∧ (s.hostUp = true → (∀ n, d.op = 0x40 → exec (.hostRead r idx n) s = running)
        ∧ (∀ n, d.op = 0x41 → exec (.hostWrite r idx n) s = running) ∧ (∀ n, d.op = 0x42 → exec (.hostMsix r idx n) s = running))
      ∧ (∀ g u op, d.op = 0x20 → (s.job d.job).binding = some g → s.reduceReady d.job d.count = true → s.jobBroken d.job = false →
          s.checkReduce r d g (lineBytes d.block) (s.slotAddr r d.idx.toNat) = (u, .ok op) →
          u.jobBroken d.job = false → (u.job d.job).binding = some g →
          exec (.reduce r idx) s = .next (((u.dropFetched (.desc r d.idx)).startDesc r d.idx).openBucket r d g op))
      ∧ (∀ u x, d.op = 0x10 → s.schedFree = true → s.checkStep r d (lineBytes d.block) (s.slotAddr r d.idx.toNat) = (u, .ok x) →
          x.tasks = [] → x.order ≠ [] → x.aborting = false → Completes (.step r idx) s (fun t =>
            t.sched.run = some x ∧ t.rf .pipeStatus Fld.pipeStatusBusy = 1 ∧ t.rget .pipeStep = x.step ∧ t.rget .pipeProgress = 0
              ∧ t.mem = u.mem ∧ (∀ e, u.desc? r d.idx = some e → t.desc? r d.idx = some { e with phase := .running, started := true }))))
  ∧ (∀ (s : State) (r : RingId) (idx : W32) (d : Desc) (b : Nat), s.runs 4 = true → s.desc? r idx = some d → d.phase = .admitted →
      (s.ring r).inOrder d = true → d.headerOk = false → d.firstFault (s.jobBound d) = some b →
      exec (.descriptorStart r idx) s = .next (s.rejectDesc r d 0 b (s.slotAddr r d.idx.toNat + b) 0))
  ∧ (∀ (s : State) (r : RingId) (idx : W32) (d : Desc), s.runs 4 = true → s.desc? r idx = some d → d.phase = .admitted →
      (s.ring r).inOrder d = true → d.headerOk = true → d.waitCond ≠ 0 → d.pegSeen = false → d.pegFault = false → d.op = 0x00 →
      (pegFaulted (s.peg d.waitPeg) = false → pegCond d.waitCond (s.peg d.waitPeg) (BitVec.ofNat 64 d.waitValue) = true →
        exec (.descriptorStart r idx) s = .next (s.putDesc r idx ({ d with pegSeen := true, started := true }.endsWith stOk 0 s.now)))
      ∧ (pegFaulted (s.peg d.waitPeg) = false → pegCond d.waitCond (s.peg d.waitPeg) (BitVec.ofNat 64 d.waitValue) = false →
        exec (.descriptorStart r idx) s = .next s)
      ∧ (pegFaulted (s.peg d.waitPeg) = true → exec (.descriptorStart r idx) s = .next (s.endDesc r idx stAborted 0)))

/-- A running COPY reads the next destination line's source and writes it, and a running FILL writes its pattern, up to the end
of the line or of the operation, which then completes with OK. What the spec leaves open here the model settles (log entry 54).
(R229) -/
def Obligations.CopyAndFillMoveLines : Prop :=
  ∀ (s : State) (r : RingId) (idx : W32) (d : Desc), Running s r idx d → d.failAt = none → d.issued < d.count →
    let blk := lineBytes d.block
    let o : Owner := .desc r idx
    let src := (leNat (blk.take 8) + d.issued) % 2 ^ 64
    let dst := ((if d.op = 0x01 then leNat ((blk.drop 8).take 8) else leNat (blk.take 8)) + d.issued) % 2 ^ 64
    let n := min (64 - dst % 64) (d.count - d.issued)
    let moved (v : State) : State :=
      if d.issued + n = d.count then (v.modDesc r idx (fun e => { e with issued := d.count })).endDesc r idx stOk d.count
      else v.modDesc r idx (fun e => { e with issued := d.issued + n })
    (∀ u v l, d.op = 0x01 → s.readRange (descWho r d) o src n = (u, .bytes l) →
        (u.dropFetched o).writeAt (descWho r d) o VC.bulk dst l d.issued = (v, true) → exec (.copy r idx 1) s = .next (moved v))
    ∧ (∀ v, d.op = 0x02 → (s.dropFetched o).writeAt (descWho r d) o VC.bulk dst
          ((List.range n).map (fun i => ((blk.drop 8).take 8).getD ((d.issued + i) % 8) 0)) d.issued = (v, true) →
        exec (.fill r idx 1) s = .next (moved v))
    ∧ (∀ v e, v.desc? r idx = some e → d.issued + n < d.count →
        (moved v).desc? r idx = some { e with issued := d.issued + n })

/-- A running APPLY, CHECKPOINT, DIGEST_CHECK or REDERIVE acts on its next shard and goes on, and completes after the last with
the status that its outcomes give. What the spec leaves open here the model settles (log entries 47, 48). (R176, R187, R189,
R190, R191) -/
def Obligations.StateOperationsComplete : Prop :=
  ∀ (s : State) (r : RingId) (idx : W32) (d : Desc), Running s r idx d →
    let x := d.blk 0 4 + d.pos
    let ends (i : Instr) (st : Nat) : Prop := exec i s = .next (s.endDesc r idx st d.units)
    (d.op = 0x30 → d.pos = d.count → (List.range d.count).all (fun i => s.outcomeDone (d.blk 0 4 + i) (d.blk 8 8)) = true →
        exec (.apply r idx) s = .next (s.endDesc r idx (if s.applyUnits d = d.count then stOk else stPartial) (s.applyUnits d))
          ∧ s.applyUnits d = (List.range d.pos).countP (fun i => !d.missed.contains (d.blk 0 4 + i)
              && !s.engine.errored.contains (d.blk 0 4 + i) && s.outcomeDone (d.blk 0 4 + i) (d.blk 8 8)))
    ∧ (d.op = 0x31 → d.pos = d.count → ends (.checkpoint r idx) stOk)
    ∧ (d.op = 0x32 → d.pos = d.count →
        ends (.digestCheck r idx) (if d.issued ≠ 0 then stMismatch else if d.units < d.count then stPartial else stOk))
    ∧ (d.op = 0x33 → d.pos = d.count → ends (.rederive r idx) stOk)
    ∧ (∀ u m, d.op = 0x30 → d.pos < d.count → s.applyShard x (d.blk 8 8) (d.blk 16 1 == 1) = (u, .acted m) →
        exec (.apply r idx) s = .next ((u.modDesc r idx (fun e =>
          if e.phase == .running then { e with pos := e.pos + 1, missed := if m then e.missed else e.missed ++ [x] } else e)).runApply
            r idx d.count))
    ∧ (d.op = 0x31 → d.pos < d.count → s.shard? x = none →
        exec (.checkpoint r idx) s = .next ((s.putDesc r idx { d with pos := d.pos + 1 }).runCheckpoint r idx d.count))
    ∧ (∀ k u v w y h words bm, d.op = 0x31 → d.pos < d.count → s.shard? x = some k → s.readHeader k = (u, some h) →
        (h.ready k && h.stagedStep ≤ d.blk 8 8 && !u.engine.errored.contains x) = false → u.readWords k k.home = (v, some words) →
        v.engRead (k.header + 64) k.mapBytes = (w, some bm) →
        (List.range k.ckptBlocks).foldl (fun (c : CkptRun) b => c.block r d x k h words bm b) ⟨w, d.issued, d.units, none⟩ = y →
        y.stop = none →
        exec (.checkpoint r idx) s = .next (((y.s.modDesc r idx (fun e =>
          { e with pos := e.pos + 1, issued := y.used, units := y.records })).tryUpdate x).runCheckpoint r idx d.count))
    ∧ (d.op = 0x32 → d.pos < d.count → s.shard? x = none →
        exec (.digestCheck r idx) s = .next ((s.putDesc r idx { d with pos := d.pos + 1 }).runDigestCheck r idx d.count))
    ∧ (∀ k u v l m, d.op = 0x32 → d.pos < d.count → s.shard? x = some k →
        s.readRange (descWho r d) (.desc r idx) k.header 64 = (u, .bytes l) →
        u.readRange (descWho r d) (.desc r idx) (2 ^ 60 + d.blk 4 2 % 4096 * 2 ^ 48 + k.header % 2 ^ 48) 64 = (v, .bytes m) →
        (headerOf l).digestStep = d.blk 8 8 → (headerOf m).digestStep = d.blk 8 8 → (headerOf l).digest = (headerOf m).digest →
        exec (.digestCheck r idx) s = .next ((((v.dropFetched (.desc r idx)).modDesc r idx (fun e =>
          { e with units := e.units + 1 })).modDesc r idx (fun e => { e with pos := e.pos + 1 })).runDigestCheck r idx d.count))
    ∧ (∀ k u v h words, d.op = 0x33 → d.pos < d.count → s.shard? x = some k → s.readHeader k = (u, some h) → h.staged = 0 → h.state = 0 →
        u.engine.updates.any (fun e => e.shard == x) = false → u.readWords k k.home = (v, some words) → k.digest = false →
        exec (.rederive r idx) s = .next ((((v.writeCopy k k.wc0 words.w (fun _ => false)).writeCopy k k.wc1 words.w (fun _ => false)).modDesc
          r idx (fun e => { e with pos := e.pos + 1, units := e.units + 1 })).runRederive r idx d.count))

/-! ## The training state engine -/

/-- STATE_COMMIT reads the shard table and shows its code; one that passes waits, and takes effect when no shard is staging,
ready or updating. What the spec leaves open here the model settles (log entries 43, 48). (R168, R169, R171) -/
def Obligations.StateCommitsComplete : Prop :=
  (∀ (s u v : State) (l : NMap ShardDesc) (code : Nat), s.runs 4 = true →
      s.readTable (s.rf .stateShardBase Fld.stateShardBaseBase * 128) (min (s.rf .stateCtrl Fld.stateCtrlShards) 1048576) 0 [] = (u, some l) →
      u.stateCommitError l = (v, code) →
      (code ≠ 0 → Completes .stateCommit s (fun t => t.rf .stateStatus Fld.stateStatusCommitError = code
        ∧ (∀ r, r ≠ .stateStatus → t.rget r = v.rget r) ∧ SameButCsr v t))
      ∧ (code = 0 → Completes .stateCommit s (fun t => t.rf .stateStatus Fld.stateStatusCommitError = 0
        ∧ t.rf .stateStatus Fld.stateStatusPending = 1 ∧ (∀ r, r ≠ .stateStatus → t.rget r = v.rget r)
        ∧ t.engine = { v.engine with waiting := some (stateStaged.map (fun r => (r, v.rget r)), l) }
        ∧ { t with csr := v.csr, engine := v.engine } = v)))
  ∧ (∀ (s : State) (l : NMap ShardDesc) (f : Reg → W64), s.runs 4 = true →
      s.engine.waiting = some (stateStaged.map (fun r => (r, f r)), l) → s.engine.shards.any (fun e => s.shardBusy e.1 e.2) = false →
      Completes .stateCommitEffect s (fun t => t.rf .stateStatus Fld.stateStatusPending = 0 ∧ (∀ r ∈ stateStaged, t.aget r = f r)
        ∧ (∀ r, r ∉ stateStaged → t.aget r = s.aget r) ∧ t.engine.shards = l ∧ t.engine.waiting = none ∧ t.engine.slots = []
        ∧ t.engine.missQueue = [] ∧ t.engine.handoffs = s.engine.handoffs.map (fun h => { h with held := false })
        ∧ { t with csr := s.csr, act := s.act, engine := s.engine } = s))
  ∧ (∀ (s : State) (p : List (Reg × W64) × NMap ShardDesc), s.engine.waiting = some p →
      s.engine.shards.any (fun e => s.shardBusy e.1 e.2) = true → exec .stateCommitEffect s = .next s)

/-- A hand-off is accepted run by run, or refused and counted where the engine is disabled; an update writes what its rule makes
of master, moments and staged gradient; the pool grants a place that is free; a shard's state comes up into its slot. What the
spec leaves open here the model settles (log entries 45, 48). (R172, R173, R177, R178, R179, R181, R183, R184) -/
def Obligations.UpdatesComplete : Prop :=
  ∀ s : State, s.runs 4 = true →
    (∀ (j : JobId) h, s.engine.handoffs.find? (fun h => h.job == j.val) = some h →
        h.held = true → s.engine.waiting ≠ none → exec (.stateHandoff j) s = .next s)
    ∧ (∀ (j : JobId) h, s.engine.handoffs.find? (fun h => h.job == j.val) = some h → h.held = false ∨ s.engine.waiting = none → h.invalid = false →
        (s.af .stateCtrl Fld.stateCtrlEnable = 0 →
          exec (.stateHandoff j) s = .next ((s.bumpF .stateErrors Fld.stateErrorsMap 1).acceptHandoff h))
        ∧ (∀ u e, s.af .stateCtrl Fld.stateCtrlEnable = 1 → s.af (.stateMap j) Fld.stateMapBase ≠ 0 →
            s.engRead (s.af (.stateMap j) Fld.stateMapBase * 16 + 16 * h.bucket) 16 = (u, some e) →
          exec (.stateHandoff j) s = .next (u.stageRuns h (leNat (e.take 8)) (leNat ((e.drop 8).take 4) - h.pos) h.pos)))
    ∧ (∀ (x : ShardId) u d a b h w g fz bm, s.engine.updates.find? (fun u => u.shard == x.toNat) = some u → s.shard? x.toNat = some d →
        u.target = none → d.rule ≠ 6 → s.readHeader d = (a, some h) → a.readUpdate x.toNat d = (b, some (w, g, fz, bm)) →
        exec (.shardUpdateComplete x) s = .next (b.writeUpdate x.toNat d u h w
          (updateWords d (ruleParams u.block h) w g (frozenBy fz)) fz bm))
    ∧ (∀ x rest d o, s.engine.missQueue = x :: rest → s.shard? x = some d →
        firstFit (s.engine.slots.map (fun p => (p.offset, p.size))) s.poolSize d.slotSize = some o →
        Completes .poolSlotGrant s (fun t => t.engine.missQueue = rest ∧ t.engine.slots = s.engine.slots ++ [⟨x, o, d.slotSize, false⟩]
          ∧ o + d.slotSize ≤ s.poolSize
          ∧ (∀ p ∈ s.engine.slots, o + d.slotSize ≤ p.offset ∨ p.offset + p.size ≤ o ∨ d.slotSize = 0)
          ∧ (∀ r, r ≠ .stateStatus → t.rget r = s.rget r) ∧ t.mem = s.mem))
    ∧ (∀ (x : ShardId) p d u w, s.engine.slots.find? (fun p => p.shard == x.toNat && !p.copied) = some p → s.shard? x.toNat = some d →
        s.readWords d d.home = (u, some w) →
        let v := u.writeWords (d.inPool (u.poolBase + p.offset)) w
        exec (.stateCopyUpComplete x) s = .next (((v.setSlots (v.engine.slots.map (fun q =>
          if q.shard = x.toNat then { q with copied := true } else q))).bumpF .stateMisses Fld.stateMissesCount 1).tryUpdate x.toNat))

/-- An update leaves the master and the elementwise moments of a frozen element as they were, and the lists of master and
moments keep their lengths, for rule 5 one word of statistic per row and per column. (R178, R179, R183) -/
def Obligations.FrozenElementsKeepTheirState : Prop :=
  ∀ (d : ShardDesc) (p : RuleParams) (x : ShardWords) (g : List Nat) (frozen : Nat → Bool), 1 ≤ d.rule → d.rule ≤ 5 →
    x.w.length = g.length → (d.has1 = true → x.m.length = g.length) →
    (updateWords d p x g frozen).w.length = g.length
      ∧ (updateWords d p x g frozen).m.length = (if d.has1 then g.length else 0)
      ∧ (d.rule ≠ 5 → (updateWords d p x g frozen).v.length = (if d.has2 then g.length else 0))
      ∧ (d.rule = 5 → x.v.length = d.rows + d.cols → (updateWords d p x g frozen).v.length = d.rows + d.cols)
      ∧ ∀ i, i < g.length → frozen i = true →
        (updateWords d p x g frozen).w.getD i 0 = x.w.getD i 0
          ∧ (d.has1 = true → (updateWords d p x g frozen).m.getD i 0 = x.m.getD i 0)
          ∧ (d.has2 = true → d.rule ≠ 5 → (updateWords d p x g frozen).v.getD i 0 = x.v.getD i 0)

/-- The digest of R186 tells apart two shards that differ in exactly one word of master and moments. (R186) -/
def Obligations.DigestDetectsOneWord : Prop :=
  ∀ (x y : ShardWords) (i : Nat), (x.w ++ x.m ++ x.v).length = (y.w ++ y.m ++ y.v).length → i < (x.w ++ x.m ++ x.v).length →
    (∀ j, j ≠ i → (x.w ++ x.m ++ x.v).getD j 0 = (y.w ++ y.m ++ y.v).getD j 0) →
    (x.w ++ x.m ++ x.v).getD i 0 < 2 ^ 32 → (y.w ++ y.m ++ y.v).getD i 0 < 2 ^ 32 →
    (x.w ++ x.m ++ x.v).getD i 0 ≠ (y.w ++ y.m ++ y.v).getD i 0 → digestOf x ≠ digestOf y

/-! ## Memory controllers -/

/-- The commands of the memory controllers: a commit clamps the scrub period; a write-back clears the single-bit marks of its
line and changes no data; the scrubber moves to the next check group; a repair takes a marked row, and its end frees it. What
the spec leaves open here the model settles (log entries 67, 68, 69). (R239, R240, R243, R244, R245, R246) -/
def Obligations.MemoryControllersComplete : Prop :=
  (∀ (s : State) (i : Fin 24), s.runs 3 = true → Completes (.hbmcCommit i) s (fun t =>
      t.af (.hbmcScrubCfg i) Fld.hbmcScrubCfgPeriod = max 3600 (min 86400 (s.rf (.hbmcScrubCfg i) Fld.hbmcScrubCfgPeriod))
        ∧ t.af (.hbmcScrubCfg i) Fld.hbmcScrubCfgEnable = s.rf (.hbmcScrubCfg i) Fld.hbmcScrubCfgEnable
        ∧ t.aget (.hbmcRepairCfg i) = s.rget (.hbmcRepairCfg i)
        ∧ (∀ r, r ≠ .hbmcScrubCfg i → r ≠ .hbmcRepairCfg i → t.aget r = s.aget r)
        ∧ (∀ r, r ≠ .hbmcScrubCfg i → t.rget r = s.rget r) ∧ { t with csr := s.csr, act := s.act } = s))
  ∧ (∀ (s : State) (q : Fin 8), s.runs 3 = true → s.rf (.hbmcStatus (16 + q)) Fld.hbmcStatusTierOk = 1 →
      Completes (.lpBackgroundZeroingDone q) s (fun t =>
        t.rf (.hbmcStatus (16 + q)) Fld.hbmcStatusInitDone = 1 ∧ (t.mc (32 + q)).inited = [] ∧ (∀ a, t.homeOf a = 32 + q.val → t.blank a = false)
          ∧ (∀ r, r ≠ .hbmcStatus (16 + q) → t.rget r = s.rget r) ∧ { t with csr := s.csr, mcs := s.mcs } = s))
  ∧ (∀ (s : State) (h : HomeId) la rest, s.runs 3 = true → (s.mc h).writeBack = la :: rest →
      (s.above la = false → Completes (.correctedLineWriteBack h) s (fun t =>
        (t.mc h).writeBack = rest ∧ (∀ w, w ∈ t.ce ↔ w ∈ s.ce ∧ w ∉ wordsOf la 64) ∧ (∀ w ∈ s.ue, w ∈ t.ue)
          ∧ (∀ w ∈ s.checkLost la, w ∈ t.ue)
          ∧ (s.slcCopy la = none → t.homes = s.homes) ∧ { t with ce := s.ce, ue := s.ue, mcs := s.mcs, homes := s.homes } = s))
      ∧ (s.above la = true → Completes (.correctedLineWriteBack h) s (fun t => t.above la = false ∧ (t.mc h).writeBack = rest)))
  ∧ (∀ (s : State) (h : HomeId) (ecs : W32), s.runs 3 = true → s.af (.hbmcScrubCfg (mcOf h)) Fld.hbmcScrubCfgEnable ≠ 0 →
      (s.mc h).scrubGroup + 1 < s.groupsOf h →
      (s.markedLines h (s.mc h).scrubChannel (s.mc h).scrubGroup = [] → Completes (.patrolScrubRead h ecs) s (fun t =>
        t.mc h = { s.mc h with scrubGroup := (s.mc h).scrubGroup + 1 } ∧ (∀ k, k ≠ h.val → t.mc k = s.mc k)
          ∧ (∀ r, r ≠ .hbmcScrubStatus (mcOf h) → t.rget r = s.rget r) ∧ { t with csr := s.csr, mcs := s.mcs } = s))
      ∧ (∀ la, s.markedLines h (s.mc h).scrubChannel (s.mc h).scrubGroup = [la] → s.scrubSkips h (s.mc h).scrubChannel (s.mc h).scrubGroup = false →
          s.scrubUe la = [] → s.ceIn la 64 ≠ [] → Completes (.patrolScrubRead h ecs) s (fun t =>
            la ∈ (t.mc h).writeBack ∧ (t.mc h).scrubGroup = (s.mc h).scrubGroup + 1
              ∧ t.rf (.hbmcCeCount (mcOf h)) Fld.hbmcCeCountWords
                = satAdd Fld.hbmcCeCountWords.width (s.rf (.hbmcCeCount (mcOf h)) Fld.hbmcCeCountWords) (s.ceIn la 64).length
              ∧ t.mem = s.mem ∧ t.ce = s.ce)))
  ∧ (∀ (s : State) (h : HomeId) (r : RowEntry), s.runs 3 = true → (s.mc h).rows.find? (fun r => r.marked && !r.exhausted) = some r →
      s.af (.hbmcRepairCfg (mcOf h)) Fld.hbmcRepairCfgAutoRepair ≠ 0 → (s.mc h).repairing = none →
      (kget 0 (s.mc h).sparesUsed (Config.bankOfRow h r.row) < Config.sparesPerBank → Completes (.rowRepair h) s (fun t =>
        t.mc h = { s.mc h with repairing := some r.row } ∧ t.rf (.hbmcStatus (mcOf h)) Fld.hbmcStatusRepairBusy = 1
          ∧ t.mem = s.mem ∧ t.flt = s.flt))
      ∧ (Config.sparesPerBank ≤ kget 0 (s.mc h).sparesUsed (Config.bankOfRow h r.row) → s.triggers Cls.memRepairExhausted = false →
        Completes (.rowRepair h) s (fun t => (t.mc h).repairing = none
          ∧ t.rf (.hbmcRepairStatus (mcOf h)) Fld.hbmcRepairStatusExhausted
            = satAdd Fld.hbmcRepairStatusExhausted.width (s.rf (.hbmcRepairStatus (mcOf h)) Fld.hbmcRepairStatusExhausted) 1
          ∧ t.flt.net.length = s.flt.net.length + 1 ∧ t.mem = s.mem)))
  ∧ (∀ (s : State) (h : HomeId) (row : Nat), s.runs 3 = true → (s.mc h).repairing = some row → s.triggers Cls.memRepair = false →
      ∃ t : State, exec (.rowRepairComplete h) s = .next (t.drainHome h) ∧ ((t.mc h).repairing = none
        ∧ (t.mc h).rows = (s.mc h).rows.filter (fun r => r.row != row)
        ∧ kget 0 (t.mc h).sparesUsed (Config.bankOfRow h row) = kget 0 (s.mc h).sparesUsed (Config.bankOfRow h row) + 1
        ∧ t.rf (.hbmcRepairStatus (mcOf h)) Fld.hbmcRepairStatusRepairs
          = satAdd Fld.hbmcRepairStatusRepairs.width (s.rf (.hbmcRepairStatus (mcOf h)) Fld.hbmcRepairStatusRepairs) 1
        ∧ t.flt.net.length = s.flt.net.length + 1 ∧ t.mem = s.mem))

/-! ## Coherence -/

/-- A request on a line that nothing holds is served at its home: a non-caching read answers with the line, a write stores its
bytes and no other and is acknowledged, and a core's request makes it the owner; a core's request on a page of DEVICE bias is
denied. What the spec leaves open here the model settles (log entries 25, 62, 65). (R256, R257, R259, R261, R263, R269, R272) -/
def Obligations.CoherentRequestsComplete : Prop :=
  ∀ (s : State) (addr : BitVec 48), QuietLine s addr.toNat →
    let la := addr.toNat
    let h := s.homeOf la
    let same (t : State) : Prop := ∀ x, ¬(la ≤ x ∧ x < la + 64) → t.memByte x = s.memByte x
    (s.moreFor h = true → ∀ a : Agent, s.runs (max 4 (Agent.domain a)) = true → s.agentActs a = true →
      Completes (.rdNa a addr) s (fun t => (t.home h).queue = [⟨a, la, .rdNA, s.mclk⟩] ∧ (∀ k, k ≠ h → t.home k = s.home k)
        ∧ { t with homes := s.homes } = s))
    ∧ (s.moreFor h = false →
    let homes (t : State) : Prop := (∀ k, (t.home k).dir = (s.home k).dir ∧ (t.home k).txns = (s.home k).txns
        ∧ (t.home k).queue = (s.home k).queue ∧ (t.home k).retry = (s.home k).retry)
      ∧ (s.slcCopy la = none → ∀ k, t.home k = s.home k)
      ∧ (∀ e, s.slcCopy la = some e → t.slcCopy la = some { e with dirty := true, ue := 0, ce := 0 })
    (∀ a : Agent, s.runs (max 4 (Agent.domain a)) = true → s.agentActs a = true → s.deviceBias la = true →
      Completes (.rdNa a addr) s (fun t => t.mesh = s.mesh ++ [.data a la (s.lineAt la)] ∧ t.mem = s.mem ∧ t.cores = s.cores
        ∧ (∀ k, t.home k = s.home k))
      ∧ (∀ d, Completes (.wrNa a addr d) s (fun t => t.mesh = s.mesh ++ [.wrAck a la] ∧ t.lineAt la = d ∧ same t
        ∧ t.cores = s.cores ∧ homes t ∧ t.csr = s.csr))
      ∧ (∀ m d, Completes (.wrPart a addr m d) s (fun t => t.mesh = s.mesh ++ [.wrAck a la]
        ∧ (∀ i, i < 64 → (t.lineAt la).extractLsb' (8 * i) 8 =
          (if m.getLsbD i then d.extractLsb' (8 * i) 8 else (s.lineAt la).extractLsb' (8 * i) 8))
        ∧ same t ∧ t.cores = s.cores ∧ homes t)))
    ∧ (∀ (c : CoreId) (retires : Bool), s.runs 5 = true → s.coreRuns c = true → s.wbFlying c la = false → (s.core c).misses = [] →
      let asks (t : State) (up : Bool) : Prop := (t.core c).misses = [⟨la, up, retires, none, false, none, 0, 0⟩]
        ∧ (t.core c).lines = (s.core c).lines ∧ (∀ k, k ≠ c.val → t.core k = s.core k)
      let kept (t : State) : Prop := (t.slcCopy la).isSome = true ∧ t.lineAt la = s.lineAt la
        ∧ ((s.home h).slc.length < slcLines h → ∀ x, t.memByte x = s.memByte x)
      (s.deviceBias la = true → (s.core c).copy la = none →
        Completes (.rdShared c (addr.setWidth 64) retires) s (fun t => asks t false ∧ t.mesh = s.mesh ++ [.deny c la] ∧ t.mem = s.mem
          ∧ t.rf (.homeBiasDenied h) Fld.homeBiasDeniedCount
            = satAdd Fld.homeBiasDeniedCount.width (s.rf (.homeBiasDenied h) Fld.homeBiasDeniedCount) 1))
      ∧ (∀ w, s.deviceBias la = false → (s.core c).copy la = none → (s.home h).entry la = none → (s.home h).pick la = .free w →
        Completes (.rdShared c (addr.setWidth 64) retires) s (fun t => asks t false ∧ kept t
          ∧ t.mesh = s.mesh ++ [.data (.core c) la (s.lineAt la), .cmp .exclusive c la]
          ∧ (∃ e, (t.home h).entry la = some e ∧ e.st = .owned c ∧ e.way = w) ∧ (t.home h).openOn la = true)
        ∧ Completes (.rdOwn c (addr.setWidth 64) retires) s (fun t => asks t false ∧ kept t
          ∧ t.mesh = s.mesh ++ [.data (.core c) la (s.lineAt la), .cmp .modified c la]
          ∧ (∃ e, (t.home h).entry la = some e ∧ e.st = .owned c ∧ e.way = w) ∧ (t.home h).openOn la = true))
      ∧ (∀ l e, s.deviceBias la = false → (s.core c).copy la = some ⟨.shared, l⟩ → (s.home h).entry la = some e →
          e.st = .shared (oneCore c) →
        Completes (.upgrade c (addr.setWidth 64) retires) s (fun t => asks t true ∧ t.mesh = s.mesh ++ [.cmp .modified c la] ∧ t.mem = s.mem
          ∧ (∃ e', (t.home h).entry la = some e' ∧ e'.st = .owned c) ∧ (t.home h).openOn la = true))))

/-- A core answers a snoop with what it holds: SnpShared leaves it SHARED, SnpInv takes its copy, SnpCur leaves it as it is;
dirty data goes to the requester or to the home; without a copy, or with an eviction in flight, the answer says so. What the
spec leaves open here the model settles (log entry 64). (R269, R272, R273, R274) -/
def Obligations.SnoopsComplete : Prop :=
  ∀ (s u : State) (c : CoreId) (la : Nat) (f : Option Nat) (a : Option Agent),
    let others (t : State) : Prop := (∀ k, k ≠ c.val → t.core k = s.core k) ∧ { t with mesh := s.mesh, cores := s.cores } = s
    let copies (t : State) (x : Option CacheLine) : Prop := (t.core c).copy la = x
    (∀ k i, (k, i) ∈ [(SnpKind.shared, Instr.snpShared c false), (.inv, .snpInv c false), (.cur, .snpCur c false)] →
      Arrives s (.snp k c la f a) u →
      (u.wbFlying c la = true → exec i s = .next { u with mesh := u.mesh ++ [.snpAck c la false false true] })
      ∧ (u.wbFlying c la = false → (s.core c).copy la = none →
        exec i s = .next { u with mesh := u.mesh ++ [.snpAck c la false false false] }))
    ∧ (∀ o st d, Arrives s (.snp .shared c la (some o) a) u → u.wbFlying c la = false → (s.core c).copy la = some ⟨st, d⟩ →
        Completes (.snpShared c false) s (fun t => copies t (some ⟨.shared, d⟩) ∧ others t
          ∧ t.mesh = u.mesh ++ [.fwdData o la d false] ++ (if st = .modified then [.snpData c la d] else [])
            ++ [.snpAck c la true (st == .modified) false]))
    ∧ (∀ o st d, Arrives s (.snp .inv c la (some o) a) u → u.wbFlying c la = false → (s.core c).copy la = some ⟨st, d⟩ →
        Completes (.snpInv c false) s (fun t => copies t none ∧ others t
          ∧ t.mesh = u.mesh ++ [.fwdData o la d (st == .modified), .snpAck c la true false false]))
    ∧ (∀ st d, Arrives s (.snp .inv c la none a) u → u.wbFlying c la = false → (s.core c).copy la = some ⟨st, d⟩ →
        Completes (.snpInv c false) s (fun t => copies t none ∧ others t
          ∧ t.mesh = u.mesh ++ (if st = .modified then [.snpData c la d] else []) ++ [.snpAck c la true (st == .modified) false]))
    ∧ (∀ g st d, Arrives s (.snp .cur c la f (some g)) u → u.wbFlying c la = false → (s.core c).copy la = some ⟨st, d⟩ →
        exec (.snpCur c false) s = .next { u with mesh := u.mesh ++ [.data g la d, .snpAck c la true false false] })
    ∧ (∀ st d, Arrives s (.snp .inv c la f a) u → u.wbFlying c la = false → (s.core c).copy la = some ⟨st, d⟩ → st ≠ .shared →
        Completes (.snpInv c true) s (fun t => copies t none ∧ others t
          ∧ t.mesh = u.mesh ++ [if st = .modified then .wbDirty c la d else .wbClean c la, .snpAck c la false false true]))

/-- A core that holds grant and data of a line installs it, stores its bytes and sends CompAck; an acknowledgement leaves the
mesh; a denial ends the miss and is recorded if the access retires. What the spec leaves open here the model settles (log
entries 64, 70). (R263, R269, R272, R273) -/
def Obligations.CoreResponsesComplete : Prop :=
  ∀ (s u : State) (c : CoreId) (la : Nat) (m : Miss), (s.core c).misses = [m] → m.line = la →
    let others (t : State) : Prop := (∀ k, k ≠ c.val → t.core k = s.core k) ∧ t.mem = s.mem ∧ t.homes = s.homes
    let holds (t : State) (x : CacheLine) : Prop := (t.core c).copy la = some x ∧ (t.core c).misses = []
      ∧ t.mesh = u.mesh ++ evictMsgs s c la ++ [.compAck c la]
    (∀ d, Arrives s (.cmp .shared c la) u → m.data = some d →
        Completes (.cmpS c) s (fun t => holds t ⟨.shared, d⟩ ∧ others t))
    ∧ (∀ d mask new, s.coreRuns c = true → m.data = some d → m.dirty = false →
        (Arrives s (.cmp .exclusive c la) u → Completes (.cmpE c mask new) s (fun t =>
          holds t (if mask = 0 then ⟨.exclusive, d⟩ else ⟨.modified, mergeLine d new mask⟩) ∧ others t))
        ∧ (Arrives s (.cmp .modified c la) u → Completes (.cmpM c mask new) s (fun t =>
          holds t (if mask = 0 then ⟨.exclusive, d⟩ else ⟨.modified, mergeLine d new mask⟩) ∧ others t)))
    ∧ (∀ d, Arrives s (.data (.core c) la d) u → m.grant = none →
        Completes (.data (.core c)) s (fun t => (t.core c).misses = (if s.usable la then [{ m with data := some d }] else [])
          ∧ t.mesh = u.mesh ∧ (t.core c).lines = (s.core c).lines ∧ others t))
    ∧ (∀ d dirty, Arrives s (.fwdData c la d dirty) u → m.grant = some .shared →
        Completes (.fwdData c) s (fun t => holds t ⟨.shared, d⟩ ∧ others t))
    ∧ (Arrives s (.deny c la) u → s.triggers Cls.biasHost = false → Completes (.deny c) s (fun t =>
        (t.core c).misses = [] ∧ (t.core c).lines = (s.core c).lines ∧ t.mesh = u.mesh ∧ others t
          ∧ t.flt.net = s.flt.net ++ (if m.retires then [{ biasRec c la with time := s.now }] else [])))
    ∧ (Arrives s (.wbAck c la) u → exec (.wbAck c) s = .next u)
    ∧ (∀ a, Arrives s (.wrAck a la) u → exec .wrAck s = .next u)
    ∧ (∀ a d, (∀ k, a ≠ .core k) → Arrives s (.data a la d) u → exec (.data a) s = .next { u with readData := d.setWidth 64 })

/-- A home takes a core's answers and write-backs: it notes them in the transaction of the line, writes dirty data to memory,
and goes on with what has become possible. What the spec leaves open here the model settles (log entries 62, 64). (R257, R259,
R269, R271, R272, R274, R275) -/
def Obligations.HomeReceivesAnswers : Prop :=
  ∀ (s u : State) (c : CoreId) (la : Nat),
    let ends (t : State) : Out := .next (t.mclkEnd (t.homeOf la))
    (Arrives s (.compAck c la) u → exec (.compAck c) s = ends ((u.modTxn la (fun t => { t with acked := true })).settleLine la))
    ∧ (∀ dirty wb, (wb = true → u.wbFlying c la = false) → Arrives s (.snpAck c la false dirty wb) u →
        exec (.snpAck c) s = ends ((u.modTxn la (fun t =>
          { t with wait := setDel c.val t.wait, needData := t.needData || dirty })).settleLine la))
    ∧ (∀ dirty, Arrives s (.snpAck c la false dirty true) u → u.wbFlying c la = true →
        exec (.snpAck c) s = ends ((u.modTxn la (fun t =>
          { t with wait := setDel c.val t.wait, needData := t.needData || dirty, wbFrom := some c.val })).settleLine la))
    ∧ (∀ dirty wb t r, Arrives s (.snpAck c la true dirty wb) u → (wb = true → u.wbFlying c la = false) → u.ownedBy c la = true →
        u.txn? la = some t → t.why = .request r → (∃ o, r.agent = .core o) →
        exec (.snpAck c) s = ends (((u.bumpF (.homeC2c (u.homeOf la)) Fld.homeC2cCount 1).modTxn la (fun t =>
          { t with wait := setDel c.val t.wait, had := true, needData := t.needData || dirty })).settleLine la))
    ∧ (∀ dirty t b, Arrives s (.snpAck c la true dirty false) u → u.ownedBy c la = true → u.txn? la = some t → t.why = .recall b →
        exec (.snpAck c) s = ends ((u.modTxn la (fun t =>
          { t with wait := setDel c.val t.wait, had := true, needData := t.needData || dirty })).settleLine la))
    ∧ (∀ dirty, Arrives s (.snpAck c la true dirty false) u → u.ownedBy c la = false →
        exec (.snpAck c) s = ends ((u.modTxn la (fun t =>
          { t with wait := setDel c.val t.wait, needData := t.needData || dirty })).settleLine la))
    ∧ (∀ d, Arrives s (.snpData c la d) u → s.usable la = true → (∀ t, s.txn? la = some t → ∀ a l x n, t.why ≠ .request ⟨a, l, .wrNA x, n⟩) →
        exec (.snpData c) s = ends (((u.storeLine la (lineBytes d)).modTxn la (fun t => { t with gotData := true })).settleLine la))
    ∧ (∀ (addr : BitVec 48) d, lineOf addr.toNat = la → Arrives s (.wbDirty c la d) u →
        exec (.wbDirty c addr) s = ends (u.absorb c la (some d)))
    ∧ (∀ addr : BitVec 48, lineOf addr.toNat = la → Arrives s (.wbClean c la) u → exec (.wbClean c addr) s = ends (u.absorb c la none))
    ∧ (∀ (addr : BitVec 48) d, s.runs 4 = true → lineOf addr.toNat = la → s.wbFlying c la = false →
        ((s.core c).copy la = some ⟨.modified, d⟩ →
          exec (.wbDirty c addr) s = ends ((s.setCore c ((s.core c).drop la)).absorb c la (some d)))
        ∧ ((s.core c).copy la = some ⟨.exclusive, d⟩ →
          exec (.wbClean c addr) s = ends ((s.setCore c ((s.core c).drop la)).absorb c la none)))
    ∧ (∀ addr : BitVec 48, s.runs 4 = true → lineOf addr.toNat = la → let x := s.home (s.homeOf la)
        exec (.holdExpiry addr) s = .next ((s.setHome (s.homeOf la) { x with
          dir := x.dir.map (fun e => if e.line = la then { e with hold := false } else e) }).settleLine la))
    ∧ (∀ (h : HomeId) r since rest, s.runs 4 = true → (s.home h).retry = (r, since) :: rest → r.line = la → r.agent = .core c →
        (s.home h).openOn la = false → (s.home h).entry la = none → s.flips la = false → s.deviceBias la = false →
        s.bankHeld la = false → (s.home h).pickRetry la = .free 19 →
        exec (.retryGrant h) s = .next ((s.setHome h { s.home h with retry := rest, serving := some la }).serveNew r c (.free 19)).1)
    ∧ (∀ d x, la % 64 = 0 → (u.storeLine la (lineBytes d)).lineAt la = d
        ∧ (¬(la ≤ x ∧ x < la + 64) → (u.storeLine la (lineBytes d)).memByte x = u.memByte x))

/-- BIAS_COMMIT shows its code and otherwise starts the flip of its run, which to DEVICE recalls each entry of the run that is
not pinned; one of count 0 only signals its peg; the flip completes by giving every page of the run its bias and no other page,
and signals its peg if peg_en is set. What the spec leaves open here the model settles (log entry 117). (R261, R264, R265, R266,
R267) -/
def Obligations.BiasFlipsComplete : Prop :=
  ∀ s : State, s.runs 4 = true →
    let f (x : Fld) : Nat := s.rf .homeBiasCmd x
    let first := f Fld.homeBiasCmdFirst
    let count := f Fld.homeBiasCmdCount
    (s.biasError first count ≠ 0 → Completes .biasCommit s (fun t =>
        t.rf .homeBiasStatus Fld.homeBiasStatusCommitError = s.biasError first count
          ∧ (∀ r, r ≠ .homeBiasStatus → t.rget r = s.rget r) ∧ SameButCsr s t))
    ∧ (s.biasError first count = 0 → count ≠ 0 → f Fld.homeBiasCmdTarget = 0 → Completes .biasCommit s (fun t =>
        t.rf .homeBiasStatus Fld.homeBiasStatusBusy = 1 ∧ t.rf .homeBiasStatus Fld.homeBiasStatusChanged = 0
          ∧ t.flip = some ⟨first, count, false, f Fld.homeBiasCmdPegEn == 1, f Fld.homeBiasCmdPeg, 0⟩
          ∧ t.aget .homeBiasCmd = s.rget .homeBiasCmd ∧ (∀ r, r ≠ .homeBiasStatus → t.rget r = s.rget r)
          ∧ { t with csr := s.csr, act := s.act, flip := s.flip } = s))
    ∧ (s.biasError first count = 0 → count ≠ 0 → f Fld.homeBiasCmdTarget = 1 → ∃ u : State, exec .biasCommit s = .next u.flipRecall
        ∧ (u.rf .homeBiasStatus Fld.homeBiasStatusBusy = 1 ∧ u.rf .homeBiasStatus Fld.homeBiasStatusChanged = 0
          ∧ u.flip = some ⟨first, count, true, f Fld.homeBiasCmdPegEn == 1, f Fld.homeBiasCmdPeg, 0⟩
          ∧ u.aget .homeBiasCmd = s.rget .homeBiasCmd ∧ (∀ r, r ≠ .homeBiasStatus → u.rget r = s.rget r)
          ∧ { u with csr := s.csr, act := s.act, flip := s.flip } = s)
        ∧ (let due (h : Nat) : List DirEntry := (s.home h).dir.filter (fun e => u.flips e.line && !(s.home h).pinned e)
          ((∀ h, due h = []) → u.flipRecall = u) ∧ (∀ h e, h < 40 → due h = [e] → (∀ k, k ≠ h → due k = []) → u.flipRecall = u.recall e none)))
    ∧ (s.biasError first count = 0 → count = 0 → ∃ u : State,
        exec .biasCommit s = .next (if f Fld.homeBiasCmdPegEn = 1 then u.pegSignal (f Fld.homeBiasCmdPeg) 1 else u)
          ∧ u.rf .homeBiasStatus Fld.homeBiasStatusBusy = s.rf .homeBiasStatus Fld.homeBiasStatusBusy
          ∧ u.rf .homeBiasStatus Fld.homeBiasStatusCommitError = 0 ∧ u.flip = s.flip ∧ u.bias = s.bias
          ∧ (∀ r, r ≠ .homeBiasStatus → u.rget r = s.rget r) ∧ { u with csr := s.csr, act := s.act } = s)
    ∧ (∀ x u, s.flip = some x → s.flipDone x = true → x.pegEn = true →
        exec .biasFlipComplete { s with flip := some { x with pegEn := false } } = .next u →
        exec .biasFlipComplete s = .next (u.pegSignal x.peg 1))
    ∧ (∀ x, s.flip = some x → s.flipDone x = true → x.pegEn = false → (∀ h, (s.home h).queue = []) → Completes .biasFlipComplete s (fun t =>
        (∀ p, p ∈ t.bias ↔ (if x.first ≤ p ∧ p < x.first + x.count then x.device = true else p ∈ s.bias))
          ∧ t.flip = none ∧ t.rf .homeBiasStatus Fld.homeBiasStatusBusy = 0 ∧ (∀ h, t.home h = s.home h)
          ∧ (∀ r, r ≠ .homeBiasStatus → t.rget r = s.rget r)
          ∧ { t with csr := s.csr, bias := s.bias, flip := s.flip, homes := s.homes } = s))

/-- The reliability events of a host core: a first residue mismatch is recorded as corrected, a second stops the core, and so
does the retirement watchdog; a dirty line with an uncorrectable error leaves its core and is uncorrectable in memory. What the
spec leaves open here the model settles (log entry 70). (R309, R310, R311, R312, R313) -/
def Obligations.CoreEventsComplete : Prop :=
  ∀ (s : State) (c : CoreId), s.runs 5 = true → (∀ k, s.triggers k = false) →
    let stopped (t : State) : Prop := (t.core c).stopped = true ∧ (t.core c).lines = (s.core c).lines
      ∧ (∀ k, k ≠ c.val → t.core k = s.core k) ∧ { t with cores := s.cores, flt := s.flt } = s
    let noted (t : State) (l : List FaultRec) : Prop := t.flt = { s.flt with net := s.flt.net ++ l.map (fun r => { r with time := s.now }) }
    (s.coreRuns c = true → Completes (.coreResidueMismatch c false) s (fun t =>
        noted t [{ mkRec Cls.coreResidue 0 Kind.core c with corrected := true }] ∧ { t with flt := s.flt } = s))
    ∧ (s.coreRuns c = true → Completes (.coreResidueMismatch c true) s (fun t =>
        stopped t ∧ noted t [mkRec Cls.coreStopped 2 Kind.core c]))
    ∧ (s.coreRuns c = true → Completes (.coreHang c) s (fun t =>
        stopped t ∧ noted t [mkRec Cls.coreHang 2 Kind.core c, mkRec Cls.coreStopped 2 Kind.core c]))
    ∧ (∀ (addr : BitVec 48) retires d, let la := lineOf addr.toNat
        ((s.core c).copy la = some ⟨.shared, d⟩ → Completes (.coreCacheUe c addr (.double retires)) s (fun t =>
          (t.core c).copy la = none ∧ t.mesh = s.mesh ∧ t.ue = s.ue ∧ t.flt = s.flt))
        ∧ ((s.core c).copy la = some ⟨.exclusive, d⟩ → Completes (.coreCacheUe c addr (.double retires)) s (fun t =>
          (t.core c).copy la = none ∧ t.mesh = s.mesh ++ [.wbClean c la] ∧ t.ue = s.ue ∧ t.flt = s.flt))
        ∧ ((s.core c).copy la = some ⟨.modified, d⟩ → Completes (.coreCacheUe c addr (.double retires)) s (fun t =>
          (t.core c).copy la = none ∧ (∀ w ∈ wordsOf la 64, w ∈ t.ue ∧ w ∉ t.ce) ∧ (s.above la = false → t.mem = s.mem) ∧ t.above la = false
            ∧ noted t [{ mkRec Cls.coreUe 0 Kind.core c with addr := BitVec.ofNat 64 la }]))
        ∧ ((s.core c).copy la ≠ none → Completes (.coreCacheUe c addr .single) s (fun t =>
          t.core c = { s.core c with corrected := (s.core c).corrected + 1 } ∧ { t with cores := s.cores } = s)))
    ∧ (s.coreRuns c = true →
        let faults (i : Instr) (a : Nat) : Prop := Completes i s (fun t =>
          t.core c = { s.core c with accessFaults := BitVec.ofNat 64 a :: (s.core c).accessFaults } ∧ { t with cores := s.cores } = s)
        (∀ pa : W64, 2 ^ 48 ≤ pa.toNat → ∀ i ∈ [Instr.rdShared c pa true, .rdOwn c pa true, .upgrade c pa true], faults i pa.toNat)
        ∧ (∀ (addr : BitVec 48) (size : BitVec 4) (data : W64), s.up (max 5 (domainAt addr.toNat)) = true →
            faults (.registerWrite (.core c) addr ⟨size, true⟩ data) addr.toNat
            ∧ faults (.registerReadClear (.core c) addr ⟨size, true⟩) addr.toNat)
        ∧ (∀ (n : TileId) (off : BitVec 23) size w atomic, s.runs 6 = true → atomic = true ∨ coreSize off.toNat size = false →
            faults (.apertureAccess (.core c) n off ⟨size, atomic⟩ w) (apBase n + off.toNat))
        ∧ (∀ (p : RpId) (o : BitVec 21) (size : BitVec 4) (data : W64) atomic, s.runs 8 = true → atomic = true ∨ coreSize o.toNat size.toNat = false →
            faults (.rpWindowLoad c p o ⟨size, atomic⟩) (rpWindow p o.toNat) ∧ faults (.rpWindowStore c p o ⟨size, atomic⟩ data) (rpWindow p o.toNat)))

/-! ## The fabric -/

/-- What a device sends, a device reads: every packet within the field widths of R286 is read back whole from its slots, and
every flit passes the check of R280 with its sequence number, type, acknowledgement and credit returns; sent again, it differs
in its acknowledgement alone (R281). (R280, R281, R286) -/
def Obligations.PacketsAndFlitsReadBack : Prop :=
  (∀ k : Pkt, k.vc < 8 → k.hop < 8 → k.typ < 256 → k.dst < 4096 → k.src < 4096 → k.gen < 256 → k.tag < 65536 → k.off < 2 ^ 48 →
      k.payload.length % 16 = 0 → k.payload.length < 512 →
      pktOf k.header (k.slots.drop 1) = k ∧ headerClean k.header = true ∧ headerLen k.header + 1 = k.slots.length)
  ∧ (∀ (seq typ ack start : Nat) (av nak : Bool) (owed : List (Nat × Nat × Nat)) (slots : List (BitVec 128)),
      let f := mkFlit seq typ ack av nak owed start slots
      flitCrcOk f = true ∧ flitSeq f = seq % 4096 ∧ flitType f = typ % 16 ∧ flitBits f 2 0 12 = ack % 4096
        ∧ (flitBits f 2 12 1 = 1 ↔ av = true) ∧ (flitBits f 2 13 1 = 1 ↔ nak = true)
        ∧ (∀ i, i < 15 → flitSlot f i = slots.getD i 0 ∧ flitStart f i = (start % 2 ^ 15).testBit i)
        ∧ (∀ i, i < 3 → let c := owed.getD i (0, 0, 0)
            flitBits f (4 + 2 * i) 0 3 = c.1 % 8 ∧ flitBits f (4 + 2 * i) 3 3 = c.2.1 % 8 ∧ flitBits f (4 + 2 * i) 6 10 = c.2.2 % 1024)
        ∧ (∀ (a : Nat) (v : Bool), let g := reack f a v
            flitCrcOk g = true ∧ flitSeq g = seq % 4096 ∧ flitType g = typ % 16 ∧ flitBits g 2 0 12 = a % 4096
              ∧ (flitBits g 2 12 1 = 1 ↔ v = true) ∧ (∀ i, i < 3 → flitBits g (4 + 2 * i) 0 16 = flitBits f (4 + 2 * i) 0 16) ∧ ∀ i, i < 15 → flitSlot g i = flitSlot f i ∧ flitStart g i = flitStart f i))

/-- A DATA flit in sequence is accepted and acknowledged, any other is discarded and counted; an acknowledgement frees the flits
up to it; ack_timeout replays; a nak is repeated; an IDLE flit acts by its header alone. What the spec leaves open here the
model settles (log entries 72, 118). (R278, R281, R282, R283) -/
def Obligations.FlitsComplete : Prop :=
  ∀ (s : State) (p : PortId), s.runs 7 = true → s.portUp p = true →
    (∀ flit (corrected : W16), flitCrcOk flit = true → flitType flit = 1 →
      let next := flitSeq flit == ((s.port p).lastSeq + 1) % 4096
      let u := (s.countFec p corrected.toNat false).takeHeader p flit next
      (flitSeq flit = ((u.port p).lastSeq + 1) % 4096 → exec (.dataFlit p flit corrected false) s = .next (((((u.setPort p
          { u.port p with lastSeq := flitSeq flit, anySeq := true, nak := false }).bumpF (.fabPortFlits p) Fld.fabPortFlitsRx 1).takeSlots p
          flit (List.range 15)).idleFlit p false)))
      ∧ (flitSeq flit ≠ ((u.port p).lastSeq + 1) % 4096 → Completes (.dataFlit p flit corrected false) s (fun t =>
          (t.port p).nak = true ∧ (t.port p).lastSeq = (u.port p).lastSeq ∧ (t.port p).retry = (u.port p).retry
            ∧ t.rf (.fabPortLink p) Fld.fabPortLinkFailed
              = satAdd Fld.fabPortLinkFailed.width (u.rf (.fabPortLink p) Fld.fabPortLinkFailed) 1
            ∧ t.fab.inq = u.fab.inq)))
    ∧ (∀ flit (corrected : W16), Completes (.dataFlit p flit corrected true) s (fun t =>
        (t.port p).nak = true ∧ (t.port p).lastSeq = (s.port p).lastSeq ∧ t.fab.inq = s.fab.inq
          ∧ t.rf (.fabPortFec p) Fld.fabPortFecUncorrectable = satAdd Fld.fabPortFecUncorrectable.width
              (s.rf (.fabPortFec p) Fld.fabPortFecUncorrectable) (if firstWhole (s.port p).rxFlits then 1 else 0)
          ∧ t.rf (.fabPortFec p) Fld.fabPortFecCorrected
            = satAdd Fld.fabPortFecCorrected.width (s.rf (.fabPortFec p) Fld.fabPortFecCorrected) corrected.toNat))
    ∧ (∀ flit (corrected : W16), flitCrcOk flit = true → flitType flit = 0 →
        exec (.idleFlit p flit corrected false) s = .next ((s.countFec p corrected.toNat false).takeHeader p flit))
    ∧ (∀ flit pre x post, flitBits flit 2 12 1 = 1 → (s.port p).retry = pre ++ x :: post → x.seq = flitBits flit 2 0 12 →
        (∀ y ∈ pre, y.seq ≠ x.seq) → let t := s.takeAck p flit;
        (t.port p).retry = post ∧ (t.port p).replays = 0 ∧ (t.port p).outQ = (s.port p).outQ
          ∧ (∀ k, k ∈ (t.port p).sent ↔ k ∈ (s.port p).sent ∧ ∀ y ∈ pre ++ [x], y.seq ≠ k.last))
    ∧ ((s.port p).retry ≠ [] → (s.port p).replays + 1 < 16 → Completes (.ackTimeout p) s (fun t =>
        t.port p = { s.port p with replays := (s.port p).replays + 1 }
          ∧ t.fab.wire = ((s.port p).replayed.map (fun f => (p.val, f))).reverse ++ s.fab.wire
          ∧ t.rf (.fabPortLink p) Fld.fabPortLinkReplays
            = satAdd Fld.fabPortLinkReplays.width (s.rf (.fabPortLink p) Fld.fabPortLinkReplays) 1
          ∧ (∀ q, q ≠ p.val → t.port q = s.port q) ∧ t.portState p = 3))
    ∧ ((s.port p).nak = true → exec (.nakRepeat p) s = .next (s.putFlit p 0 0 0 [] true).1)
    ∧ ((s.port p).nak = false → exec (.nakRepeat p) s = .next s)

/-- The states of a port: training, HELLO, UP, retrain, DOWN and DISABLED follow the events of the lanes, the timers and the
commits. What the spec leaves open here the model settles (log entries 72, 73, 110). (R279, R284, R285, R289) -/
def Obligations.PortStatesComplete : Prop :=
  ∀ (s : State) (p : PortId), s.runs 7 = true →
    let only (t : State) (l : List Reg) : Prop := (∀ r, r ∉ l → t.rget r = s.rget r) ∧ (∀ q, q ≠ p.val → t.port q = s.port q) ∧ t.mem = s.mem
    (s.portState p = 5 → s.portEnabled p = true → Completes (.portTrainingAttempt p) s (fun t =>
        t.portState p = 1 ∧ only t [.fabPortStatus p] ∧ SameButCsr s t))
    ∧ (s.portState p = 1 → (s.port p).takeover = none → Completes (.lanesTrained p) s (fun t =>
        t.portState p = 2 ∧ (t.port p).nextSeq = 0 ∧ (t.port p).retry = [] ∧ (t.port p).lastSeq = 4095 ∧ (t.port p).credits = []
          ∧ (t.port p).outQ = (s.port p).outQ ∧ (t.port p).lvl = s.levels ∧ only t [.fabPortStatus p]))
    ∧ (s.portState p = 4 → (s.port p).outQ = [] → Completes (.lanesTrained p) s (fun t =>
        t.portState p = 3 ∧ t.port p = s.port p
          ∧ t.fab.wire = ((s.port p).replayed.map (fun f => (p.val, f))).reverse ++ s.fab.wire ∧ only t [.fabPortStatus p]))
    ∧ (s.portState p = 3 → (s.port p).retrainAt = [] → Completes (.pcsLossOfLock p false) s (fun t =>
        t.portState p = 4 ∧ (t.port p).retry = (s.port p).retry
          ∧ t.rf (.fabPortEvents p) Fld.fabPortEventsRetrains
            = satAdd Fld.fabPortEventsRetrains.width (s.rf (.fabPortEvents p) Fld.fabPortEventsRetrains) 1
          ∧ only t [.fabPortStatus p, .fabPortEvents p]))
    ∧ (s.portState p = 2 → Completes (.pcsLossOfLock p false) s (fun t => t.portState p = 1 ∧ only t [.fabPortStatus p]))
    ∧ (s.portState p = 4 → s.idValid = false → s.triggers Cls.fabLinkDown = false →
        (∀ q, q ≠ p.val → s.portUp q = false) → Completes (.retrainTimeout p) s (fun t =>
          t.portState p = 5 ∧ (t.port p).sent = [] ∧ (t.port p).outQ = [] ∧ (t.port p).retry = []
            ∧ t.rf (.fabPortEvents p) Fld.fabPortEventsDowns
              = satAdd Fld.fabPortEventsDowns.width (s.rf (.fabPortEvents p) Fld.fabPortEventsDowns) 1
            ∧ t.rf (.fabPortEvents p) Fld.fabPortEventsDropped
              = satAdd Fld.fabPortEventsDropped.width (s.rf (.fabPortEvents p) Fld.fabPortEventsDropped) (s.port p).undelivered
            ∧ (∃ e : FaultRec, e.cls = Cls.fabLinkDown ∧ e.sev = 2 ∧ e.unitIx = p.val ∧ t.flt.net = s.flt.net ++ [e])
            ∧ only t [.fabPortStatus p, .fabPortEvents p]))
    ∧ (s.portEnabled p = false → s.rf (.fabPortCfg p) Fld.fabPortCfgEnable = 1 → Completes (.fabPortCommit p) s (fun t =>
        t.portState p = 1 ∧ t.aget (.fabPortCfg p) = s.rget (.fabPortCfg p) ∧ (∀ r, r ≠ .fabPortCfg p → t.aget r = s.aget r)
          ∧ t.port p = { s.port p with knownPeer := false } ∧ only t [.fabPortStatus p]
          ∧ { t with csr := s.csr, act := s.act, fab := s.fab } = s))
    ∧ (s.portState p = 2 → (s.port p).nak = true → exec (.nakRepeat p) s = .next (s.putFlit p 0 0 0 [] true).1)
    ∧ (s.portEnabled p = true → s.rf (.fabPortCfg p) Fld.fabPortCfgEnable = 0 → s.portUp p = false → Completes (.fabPortCommit p) s (fun t =>
        t.portState p = 0 ∧ t.aget (.fabPortCfg p) = s.rget (.fabPortCfg p) ∧ only t [.fabPortStatus p]
          ∧ { t with csr := s.csr, act := s.act } = s))
    ∧ (s.fabCommitError ≠ 0 → Completes .fabCommit s (fun t =>
        t.rf .fabStatus Fld.fabStatusCommitError = s.fabCommitError ∧ only t [.fabStatus] ∧ SameButCsr s t))
    ∧ (s.fabCommitError = 0 → Completes .fabCommit s (fun t =>
        t.af .fabCfg Fld.fabCfgAckTimeout = max 100 (min 900 (s.rf .fabCfg Fld.fabCfgAckTimeout))
          ∧ t.af .fabCfg Fld.fabCfgLevels = s.rf .fabCfg Fld.fabCfgLevels ∧ t.aget .fabVcShare = s.rget .fabVcShare
          ∧ t.aget .fabInbound = s.rget .fabInbound ∧ only t [.fabStatus, .fabCfg] ∧ { t with csr := s.csr, act := s.act } = s))

/-- A request packet is performed at its destination and answered, or refused with the ERR code of R306; a response ends the
open request that it matches, and one that matches none is counted as late; a timeout ends a request with FAB_TIMEOUT. What the
spec leaves open here the model settles (log entries 56, 57). (R251, R286, R288, R306) -/
def Obligations.FabricRequestsComplete : Prop :=
  ∀ (s u : State) (k : Pkt), s.runs 7 = true →
    let takes (typ : Nat) : Prop := s.takePkt typ = some (k, u)
    let a := lineOf k.off
    (takes PT.rd → u.inbound a = .window → u.usable a = true →
      (∀ v l, u.winRead (inboundWho k) a 64 = (v, some l) → exec .rd s = .next (v.respond k PT.rddata l))
      ∧ (∀ v, u.winRead (inboundWho k) a 64 = (v, none) → exec .rd s = .next (v.respondErr k 3)))
    ∧ (takes PT.rd → u.inbound a = .window → u.usable a = false → exec .rd s = .next ((u.outOfRange (inboundWho k) a).respondErr k 1))
    ∧ (takes PT.rd → u.inbound a = .denied → exec .rd s = .next (u.deny k 2))
    ∧ (takes PT.rd → u.inbound a = .refused → exec .rd s = .next ((u.undecoded (inboundWho k) a).respondErr k 1))
    ∧ (takes PT.wr → u.inbound a = .window → u.usable a = true →
        exec .wr s = .next ((u.maskWrite (inboundWho k) a (BitVec.allOnes 64) (toLine k.payload)).respond k PT.wrack []))
    ∧ (takes PT.wrp → u.inbound a = .window → u.usable a = true →
        exec .wrp s = .next ((u.maskWrite (inboundWho k) a (BitVec.ofNat 64 (leNat (k.payload.take 8)))
          (toLine ((k.payload.drop 8).take 64))).respond k PT.wrack []))
    ∧ (∀ mask d, u.deviceBias a = true → u.bankHeld a = false →
        u.maskWrite (inboundWho k) a mask d = u.homeWrite (inboundWho k) a mask d)
    ∧ (∀ p, takes PT.pegadd → Reg.ofAddr k.off = some (.pegAdd p) → u.inboundOpen Fld.fabInboundPeg = true →
        exec .pegadd s = .next ((u.pegApply p (.add (BitVec.ofNat 63 (leNat (k.payload.take 8)))
          (bitsOf (leNat (k.payload.take 8)) 63 1 == 1))).respond k PT.wrack []))
    ∧ (takes PT.pegadd → (∀ p, Reg.ofAddr k.off ≠ some (.pegAdd p)) → exec .pegadd s = .next
        ((if isAbsent k.off then u.undecoded (inboundWho k) k.off else u).respondErr k 4))
    ∧ (takes PT.rdreg → u.inboundReg k.off = .open → exec .rdreg s = .next (u.readTo (inboundWho k) k.off 8 (.fabric k)))
    ∧ (takes PT.wrreg → u.inboundReg k.off = .open → exec .wrreg s = .next ((u.csrWrite (.fabric k.src) k.off 8
        (BitVec.ofNat 64 (leNat (k.payload.take 8)))).respond k PT.wrack []))
    ∧ (takes PT.wrreg → u.inboundReg k.off = .denied → exec .wrreg s = .next (u.deny k 2))
    ∧ (∀ r v, u.answered k = some (r, v) →
      (takes PT.rddata → Completes .rddata s (fun t => t.fab.fetched = u.fab.fetched ++ [(r.owner, globalAddr r.dev r.off, toLine k.payload)]
        ∧ t.fab.openReqs = v.fab.openReqs ∧ { t with fab := u.fab } = u))
      ∧ (takes PT.wrack → exec .wrack s = .next v)
      ∧ (takes PT.err → exec .err s = .next (v.failReq r (errClass (k.payload.headD 0).toNat)))
      ∧ r ∈ u.fab.openReqs ∧ r.tag = k.tag ∧ r.gen = k.gen ∧ v.fab.openReqs.length + 1 = u.fab.openReqs.length)
    ∧ (u.answered k = none → ∀ i typ, (i, typ) ∈ [(Instr.rddata, PT.rddata), (.wrack, PT.wrack), (.err, PT.err)] → takes typ →
        exec i s = .next (u.bumpF .fabDrops Fld.fabDropsLate 1))
    ∧ (∀ (tag : BitVec 16) (gen : BitVec 8) q rest, popFirst (fun r : OpenReq => r.tag == tag.toNat && r.gen == gen.toNat) s.fab.openReqs = some (q, rest) →
        exec (.requestTimeout tag gen) s = .next (({ s with fab := { s.fab with openReqs := rest } } : State).failReq q Cls.fabTimeout))

/-- The root records registrations, gives IDs and tables and marks devices that are ready; a device installs its ID and its
table together with the last of ASSIGN and its 256 parts; a ROUTE without the 16 entries of a part is malformed; management
packets pass along their route; a takeover answers the last sequence number accepted. What the spec leaves open here the model
settles (log entry 73). (R285, R287, R291, R299, R300, R301, R303) -/
def Obligations.ManagementPacketsComplete : Prop :=
  (∀ (v : State) (id epoch : Nat) (l : List (W64 × W64)), id < 4096 → epoch < 65536 → let t := v.install id epoch l
      t.devId = id ∧ t.idValid = true ∧ t.rf .fabId Fld.fabIdEpoch = epoch ∧ t.rf .fabStatus Fld.fabStatusPhase = 3
        ∧ (∀ d a b, l[d]? = some (a, b) → t.aget (.fabRoutePrimary d) = a ∧ t.aget (.fabRouteAlternative d) = b) ∧ t.mem = v.mem)
  ∧ ∀ (s : State) (p : PortId), s.runs 7 = true →
    let whole (parts : List (Nat × List (W64 × W64))) : Prop := ∀ k, k < 256 → ∃ e ∈ parts, e.1 = k
    let installs (u : State) (id epoch : Nat) (parts : List (Nat × List (W64 × W64))) : Out :=
      let v := u.install id epoch ((List.range 256).flatMap (fun k => ((parts.find? (fun e => e.1 == k)).map (fun e => e.2)).getD []))
      let w : State := { v with fab := { v.fab with parts := [], pendingId := none } }
      .next (match u.fab.parent with | some q => w.sendMgmt q (.ready u.serial) | none => w)
    (∀ serial eligible (slot : BitVec 6) (held : Option (BitVec 12)) links, let u := s.consume p PT.register;
      (u.isRoot = true → Completes (.register p serial eligible slot held links) s (fun t =>
        (∃ r ∈ t.fab.registered, r.serial = serial ∧ r.eligible = eligible ∧ r.slot = slot.toNat ∧ r.heldId = held.map BitVec.toNat)
          ∧ (∀ r, r.serial ≠ serial → (r ∈ t.fab.registered ↔ r ∈ u.fab.registered)) ∧ { t with fab := u.fab } = u))
      ∧ (∀ q, u.isRoot = false → u.fab.parent = some q → ∃ r : RegRep, r.serial = serial ∧
          exec (.register p serial eligible slot held links) s = .next (u.sendMgmt q (.register r))))
    ∧ (∀ (id : BitVec 12) (epoch : W16), let u := s.consume p PT.assign;
      ((∀ e ∈ u.fab.parts, e.1 ≠ 0) → exec (.assign p [] id epoch) s
          = .next { u with fab := { u.fab with pendingId := some (id.toNat, epoch.toNat) } })
      ∧ (whole u.fab.parts → exec (.assign p [] id epoch) s = installs u id.toNat epoch.toNat u.fab.parts)
      ∧ (∀ (q : PortId) rest, exec (.assign p (q :: rest) id epoch) s
          = .next (u.sendMgmt q (.assign (rest.map (fun x => x.val)) id.toNat epoch.toNat))))
    ∧ (∀ (part : Byte) entries, entries.length = 16 → let u := s.consume p PT.route;
      (u.fab.pendingId = none → exec (.route p [] part entries) s = .next { u with fab := { u.fab with
          parts := u.fab.parts.filter (fun e => e.1 != part.toNat) ++ [(part.toNat, entries)] } })
      ∧ (∀ id epoch, u.fab.pendingId = some (id, epoch) →
          let parts := u.fab.parts.filter (fun e => e.1 != part.toNat) ++ [(part.toNat, entries)]
          whole parts → exec (.route p [] part entries) s = installs u id epoch parts)
      ∧ (∀ (q : PortId) rest, exec (.route p (q :: rest) part entries) s
          = .next (u.sendMgmt q (.route (rest.map (fun x => x.val)) part.toNat entries))))
    ∧ (∀ route (part : Byte) entries, entries.length ≠ 16 →
        let u := s.consume p PT.route; u.triggers Cls.fabMalformed = false →
        Completes (.route p route part entries) s (fun t =>
          t.rf .fabDrops Fld.fabDropsMalformed = satAdd Fld.fabDropsMalformed.width (u.rf .fabDrops Fld.fabDropsMalformed) 1
            ∧ t.flt.net = u.flt.net ++ [{ mkRec Cls.fabMalformed 0 Kind.device 0 with time := u.now }]
            ∧ { t with csr := u.csr, flt := u.flt } = u))
    ∧ (∀ serial, let u := s.consume p PT.ready;
      (u.isRoot = true → Completes (.ready p serial) s (fun t =>
        (∀ r ∈ t.fab.registered, r.serial = serial → r.ready = true)
          ∧ t.fab.registered.map (fun r => r.serial) = u.fab.registered.map (fun r => r.serial) ∧ { t with fab := u.fab } = u))
      ∧ (∀ q, u.isRoot = false → u.fab.parent = some q → exec (.ready p serial) s = .next (u.sendMgmt q (.ready serial))))
    ∧ (∀ q : PortId, let u := s.consume p PT.takeoverReq;
        exec (.takeoverReq p q) s = .next ((u.setPort q { u.port q with partSlots := [] }).sendMgmt p (.takeoverAck q (u.port q).lastSeq)))
    ∧ (∀ (q : PortId) (seq : BitVec 12), let u := s.consume p PT.takeoverAck;
        (u.port q).takeover = some p.val → (u.port q).sent = [] → (u.port q).outQ = [] → Completes (.takeoverAck p q seq) s (fun t =>
          (t.port q).takeover = none ∧ (t.port q).retry = [] ∧ (∀ x, x ≠ q.val → t.port x = u.port x) ∧ { t with fab := u.fab } = u))
    ∧ (let u := s.consume p PT.reassign;
        (u.rf .fabStatus Fld.fabStatusPhase = 1 → exec (.reassign p) s = .next u)
        ∧ (u.rf .fabStatus Fld.fabStatusPhase ≠ 1 → exec (.reassign p) s = .next ((u.flood (some p.val)).restartElection)))

/-- The exchange of HELLOs and the timers of discovery: a second HELLO with an echo brings a port UP, another version isolates
it; an eligible device with no lower offer declares itself root; without a candidate there is no root; tables are given after
registration; DISC_REASSIGN starts the election again (stated where no port is UP, so without its flooding). What the spec
leaves open here the model settles (log entries 73, 119). (R11, R296, R297, R298, R299, R300, R302, R303) -/
def Obligations.DiscoveryComplete : Prop :=
  ∀ s : State, s.runs 7 = true →
    (∀ p : PortId, s.portHears p = true → exec (.helloTimer p) s = .next (s.putFlit p 0 2 0 (slotsOf (s.helloPayload p))).1)
    ∧ (∀ (p : PortId) flit (corrected : W16), s.portHears p = true → flitCrcOk flit = true → flitType flit = 2 →
      let u := (s.countFec p corrected.toNat false).takeHeader p flit
      let i := helloOf flit
      (bitsOf i.versions 2 1 = 0 → exec (.hello p flit corrected false) s = .next (u.isolate p Cls.fabVersion))
      ∧ (bitsOf i.versions 2 1 = 1 → i.rootValid = false → u.portState p = 2 → (u.port p).knownPeer = false → u.idValid = false →
          (u.port p).outQ = [] →
        let echo := i.echoValid && i.echoSerial == u.serial && i.echoPort == p.val
        let again := (u.port p).heard && (u.port p).peerSerial == i.serial && (u.port p).peerPort == i.port
        (echo = true → again = true → 1 ≤ (u.port p).helloCount → Completes (.hello p flit corrected false) s (fun t =>
          t.portState p = 3 ∧ t.rf (.fabPortStatus p) Fld.fabPortStatusVersion = 2 ∧ (t.port p).knownPeer = true
            ∧ (t.port p).firstPeer = i.serial ∧ t.rget (.fabPortPeer p) = i.serial ∧ (∀ q, q ≠ p.val → t.port q = u.port q)))
        ∧ (echo = false → Completes (.hello p flit corrected false) s (fun t =>
          t.portState p = 2 ∧ (t.port p).helloCount = 0 ∧ (t.port p).peerSerial = i.serial ∧ t.rget (.fabPortPeer p) = i.serial
            ∧ (∀ q, q ≠ p.val → t.port q = u.port q)))))
    ∧ (s.eligibleRoot = true → s.fab.candidate = some s.serial → s.rf .fabStatus Fld.fabStatusPhase = 1 → Completes .rootDeclare s (fun t =>
        t.isRoot = true ∧ t.rf .fabStatus Fld.fabStatusPhase = 2 ∧ t.fab.registered = [s.ownRep]
          ∧ (∀ r, r ≠ .fabId → r ≠ .fabStatus → t.rget r = s.rget r) ∧ { t with csr := s.csr, fab := s.fab } = s))
    ∧ (s.fab.candidate = none → s.rf .fabStatus Fld.fabStatusPhase = 1 → s.triggers Cls.fabNoRoot = false → Completes .noRootTimeout s (fun t =>
        t.rf .fabStatus Fld.fabStatusPhase = 4 ∧ t.flt.net = s.flt.net ++ [{ mkRec Cls.fabNoRoot 0 Kind.device 0 with time := s.now }]
          ∧ { t with csr := s.csr, flt := s.flt } = s))
    ∧ (∀ c q, s.isRoot = false → s.fab.candidate = some c → c ≠ s.serial → s.fab.parent = some q →
        exec .candidateStable s = .next ((s.setPhase 2).sendMgmt q (.register s.ownRep)))
    ∧ (s.isRoot = true → s.rf .fabStatus Fld.fabStatusPhase = 2 → exec .registrationSettle s
        = .next ((s.record s.ownRep).distribute ((s.rf .fabId Fld.fabIdEpoch + 1) % 65536)))
    ∧ (s.isRoot = true → s.fab.changed = true → exec .tableRedistribution s = .next s.redistribute)
    ∧ ((s.csr.map Prod.fst).Nodup → Completes .routeCommit s (fun t =>
        (∀ d, t.aget (.fabRoutePrimary d) = s.rget (.fabRoutePrimary d) ∧ t.aget (.fabRouteAlternative d) = s.rget (.fabRouteAlternative d))
          ∧ (∀ r, isRoute r = false → t.aget r = s.aget r)
          ∧ t.rf .fabStatus Fld.fabStatusRouteGen
            = satAdd Fld.fabStatusRouteGen.width (s.rf .fabStatus Fld.fabStatusRouteGen) 1
          ∧ { t with csr := s.csr, act := s.act } = s))
    ∧ ((∀ p, s.portState p ≠ 3 ∧ s.portState p ≠ 6) → Completes .discReassign s (fun t =>
        t.rf .fabStatus Fld.fabStatusPhase = 1 ∧ t.isRoot = false ∧ t.fab.registered = []
          ∧ t.fab.candidate = (if s.eligibleRoot then some s.serial else none) ∧ t.devId = s.devId ∧ t.idValid = s.idValid
          ∧ t.act = s.act ∧ t.mem = s.mem))

/-- The root gives each registered device an ID of its own below 4,096, and one that holds an ID that no device of lower serial
holds keeps it (mode 0, up to 4,096 devices); a redistribution changes no assigned ID. (R301) -/
def Obligations.AssignedIdsAreDistinct : Prop :=
  ∀ reps : List RegRep, (reps.map (fun r => r.serial)).Nodup → reps.length ≤ 4096 →
    (∀ r ∈ reps, (∀ i, r.heldId = some i → i < 4096) ∧ (∀ i, r.id = some i → i < 4096)) →
    let out := assignIds [] reps
    out.length = reps.length ∧ (∀ r ∈ out, ∃ i, r.id = some i ∧ i < 4096)
      ∧ out.Pairwise (fun a b => a.id ≠ b.id ∧ a.serial < b.serial)
      ∧ (∀ r ∈ reps, ∀ i, r.id.or r.heldId = some i → (∀ q ∈ reps, q.serial < r.serial → q.id.or q.heldId ≠ some i) →
        ∃ x ∈ out, x.serial = r.serial ∧ x.id = some i)
      ∧ (∀ table, ∀ r ∈ reps, ∀ i, r.id = some i → ∃ x ∈ sameIds table reps, x.serial = r.serial ∧ x.id = some i)

/-! ## The endpoint and the root ports -/

/-- The endpoint's commits, its reads, writes and messages, its flush reads, their errors, configuration requests and the loss
of its link. What the spec leaves open here the model settles (log entries 78, 79), and what it takes from PCI Express it
presumes (log entry 80). (R314, R315, R319, R320, R321, R322, R323, R324, R375) -/
def Obligations.EndpointComplete : Prop :=
  ∀ s : State, s.runs 8 = true →
    (∀ i r, (i, r) ∈ [(Instr.epCommit, Reg.pcieEpCfg), (.awnCommit, .awnBase)] → Completes i s (fun t =>
        t.aget r = s.rget r ∧ (∀ x, x ≠ r → t.aget x = s.aget x) ∧ { t with act := s.act } = s))
    ∧ (∀ (r : RingId) (d : Desc) n, Running s r d.idx d → d.op = 0x40 → d.failAt = none → d.issued < d.count → 0 < n → s.hostUp = true →
        s.epFull = false →
        let a := (leNat ((lineBytes d.block).take 8) + d.issued) % 2 ^ 64
        let k := min (min (min n s.readMax) (d.count - d.issued)) (4096 - a % 4096)
        Completes (.hostRead r d.idx n) s (fun t => (∃ tag, tag < 16384 ∧ tag ∉ s.epTags
            ∧ t.io.reads = s.io.reads ++ [⟨tag, r, d.idx, d.issued, k, []⟩]
            ∧ t.io.out = (0, .memRead tag a k (d.block.getLsbD 128) (d.block.getLsbD 129)) :: s.io.out)
          ∧ t.desc? r d.idx = some { d with issued := d.issued + k } ∧ { t with io := s.io, rings := s.rings } = s))
    ∧ (∀ (u : State) (r : RingId) (d : Desc) n l, Running s r d.idx d → d.op = 0x41 → d.issued < d.count → 0 < n → s.hostUp = true →
        s.epFull = false →
        let a := (d.hostAddr + d.issued) % 2 ^ 64
        let src := (d.ioAddr + d.issued) % 2 ^ 64
        let k := min (min (min (min n s.payloadMax) (d.count - d.issued)) (64 - src % 64)) (min (4096 - a % 4096) (2 ^ 20 - d.issued % 2 ^ 20))
        let last := d.issued + k = d.count ∨ (d.issued + k) % 2 ^ 20 = 0
        s.readAt (descWho r d) (.desc r d.idx) src k = (u, .bytes l) → u.desc? r d.idx = some d →
        Completes (.hostWrite r d.idx n) s (fun t => (0, .memWrite a l d.noSnoop d.relaxed) ∈ t.io.out
          ∧ (¬last → t.io.out = (0, .memWrite a l d.noSnoop d.relaxed) :: u.io.out ∧ t.io.flushes = u.io.flushes)
          ∧ (last → ∃ tag, t.io.flushes = u.io.flushes ++ [⟨tag, r, d.idx, d.issued + k⟩]
            ∧ t.io.out = (0, .memRead tag ((a + k - 1) % 2 ^ 64) 0 false false) :: (0, .memWrite a l d.noSnoop d.relaxed) :: u.io.out)
          ∧ t.desc? r d.idx = some { d with issued := d.issued + k } ∧ t.mem = u.mem ∧ t.csr = u.csr))
    ∧ (∀ (r : RingId) (d : Desc), Running s r d.idx d → d.op = 0x42 → d.issued < d.count → s.hostUp = true → s.epFull = false →
        let v := d.firstVector + d.issued
        let d' : Desc := { d with issued := d.issued + 1 }
        let addr := (s.rget (.pcieMsixTable v 0)).toNat
        let msg : Nat × Tlp := (0, .memWrite addr (leBytes 4 ((s.rget (.pcieMsixTable v 1)).toNat % 2 ^ 32)) false false)
        (s.msixMasked v = true ∨ s.msixOn = false → d.issued + 1 < d.count → (d.issued + 1) % 256 ≠ 0 →
          exec (.hostMsix r d.idx 1) s = .next ((s.setPba v true).putDesc r d.idx d'))
        ∧ (s.msixMasked v = false → s.msixOn = true → Completes (.hostMsix r d.idx 1) s (fun t => msg ∈ t.io.out
          ∧ (d.issued + 1 < d.count ∨ d.pos ≤ d.issued → t.io.sent = s.io.sent ++ [⟨r, d.idx, d.issued, addr⟩]
            ∧ t.desc? r d.idx = some d' ∧ t.csr = s.csr ∧ t.mem = s.mem)
          ∧ (d.issued + 1 < d.count → (d.issued + 1) % 256 ≠ 0 → t.io.out = msg :: s.io.out ∧ t.io.flushes = s.io.flushes)
          ∧ (d.issued + 1 = d.count → d.pos ≤ d.issued → (∀ f ∈ s.io.flushes, f.ring = r → f.idx = d.idx → f.units ≤ d.issued) →
            ∃ tag, t.io.flushes = s.io.flushes ++ [⟨tag, r, d.idx, d.count⟩]
              ∧ t.io.out = (0, .memRead tag addr 0 false false) :: msg :: s.io.out)))
        ∧ (∀ n, n < 2048 → exec (.hostMsix r d.idx (n + 1)) s
          = .next ((s.ioPieces r d.idx 0x42 n).ioPiece r d.idx 0x42 1)))
    ∧ (∀ (u : State) pre (e : EpRead) post d (tag : BitVec 14), s.io.reads = pre ++ e :: post → (∀ x ∈ pre, x.tag ≠ e.tag) → e.tag = tag.toNat →
        u = { s with io := { s.io with reads := pre ++ post } } → s.desc? e.ring e.idx = some d → d.phase = .running → d.op = 0x40 →
        0 < e.len → e.got = [] →
        (∀ x ∈ pre ++ post, x.ring = e.ring → x.idx = e.idx → 0 < x.len ∧ x.got = [] ∧ e.pos < x.pos) →
        let at_ := (d.hostAddr + e.pos) % 2 ^ 64
        (∀ v l d', l.length = e.len → u.placeRead e.ring d e.pos l = (v, none) → v.desc? e.ring d.idx = some d' → d'.phase = .running →
            d'.failAt = none → d'.issued = d.issued → d'.count = d.count → d'.op = 0x40 →
          (d.issued = d.count → v.io.reads.any (fun x => x.ring == e.ring && x.idx == d.idx) = false →
            exec (.readCompletion tag .sc l false) s = .next (v.endDesc e.ring d.idx stOk d.count))
          ∧ (d.issued ≠ d.count → exec (.readCompletion tag .sc l false) s = .next v))
        ∧ (∀ st l, st ≠ .sc → exec (.readCompletion tag st l false) s
            = .next ((u.report (cplRec Cls.pcieCplError e.ring d at_)).endDesc e.ring d.idx stAborted (s.ioUnits e.ring d)))
        ∧ (∀ st l, exec (.readCompletion tag st l true) s = .next (s.poisoned 0 Kind.endpoint 0 at_))
        ∧ exec (.completionTimeout tag) s
            = .next (((u.aerSet 0 Aer.timeout).report (cplRec Cls.pcieCplTimeout e.ring d at_)).endDesc e.ring d.idx stTimeout
              (s.ioUnits e.ring d)))
    ∧ (∀ (e f : EpRead) d (tag : BitVec 14) l, s.io.reads = [e, f] → e.ring = f.ring → e.idx = f.idx → e.pos < f.pos → 0 < e.len →
        e.got = [] → f.tag = tag.toNat → e.tag ≠ f.tag → 0 < f.len → s.desc? e.ring e.idx = some d → d.phase = .running → d.op = 0x40 →
        d.idx = e.idx → l.length = f.len → Completes (.readCompletion tag .sc l false) s (fun t =>
          t.io.reads = [{ f with len := 0, got := f.got ++ l }, e] ∧ { t with io := { s.io with reads := t.io.reads } } = s))
    ∧ (∀ (u : State) pre (f : EpFlush) post d (tag : BitVec 14), s.io.flushes = pre ++ f :: post → (∀ x ∈ pre, x.tag ≠ f.tag) →
        f.tag = tag.toNat → u = { s with io := { s.io with flushes := pre ++ post } } → s.desc? f.ring f.idx = some d → d.phase = .running →
        d.op = 0x41 → d.idx = f.idx → d.units ≤ f.units →
        (f.units < d.count → exec (.flushReadCompletion tag) s = .next (u.putDesc f.ring f.idx { d with units := f.units, ackTime := some s.now }))
        ∧ (f.units = d.count → exec (.flushReadCompletion tag) s = .next (u.putDesc f.ring f.idx ({ d with ackTime := some s.now }.endsWith stOk d.count s.now))))
    ∧ (∀ e, s.lossHappens e = true → Completes (.hostLinkLoss e) s (fun t =>
        t.rf .pcieEpStatus Fld.pcieEpStatusLinkUp = (if e = .functionReset then s.rf .pcieEpStatus Fld.pcieEpStatusLinkUp else 0)
          ∧ t.io.reads = [] ∧ t.io.flushes = [] ∧ t.mem = s.mem
          ∧ t.rf .pcieEpEvents Fld.pcieEpEventsLosses = satAdd Fld.pcieEpEventsLosses.width (s.rf .pcieEpEvents Fld.pcieEpEventsLosses) 1
          ∧ (e ≠ .recovery → e ≠ .detect → e ≠ .pllUnlock → t.rf .pcieEpStatus Fld.pcieEpStatusBusMaster = 0
            ∧ t.rf .pcieEpStatus Fld.pcieEpStatusMsixEnable = 0)
          ∧ ∀ (r : Nat) d, s.desc? r d.idx = some d → d.phase = .running → d.started = true →
            (d.op = 0x40 → s.io.reads.any (fun x => x.ring == r && x.idx == d.idx) = true →
              t.desc? r d.idx = some (d.endsWith stLinkLost (s.ioUnits r d) s.now))
            ∧ (d.op = 0x41 ∨ d.op = 0x42 → s.unacked r d = true → t.desc? r d.idx = some (d.endsWith stLinkLost (s.ioUnits r d) s.now))
            ∧ (d.op < 0x40 → d.isCopy = false → t.desc? r d.idx = some d)))
    ∧ (s.rf .pcieEpStatus Fld.pcieEpStatusLinkUp = 1 → s.rf (.rstUnit 544) Fld.rstUnitState ≠ 0 →
        ∀ q, exec (.pcieConfigurationRequest q) s = .next (s.unsupported 0))
    ∧ (s.rf .pcieEpStatus Fld.pcieEpStatusLinkUp = 1 → s.rf (.rstUnit 544) Fld.rstUnitState = 0 →
        (∀ mask : W32, Completes (.pcieConfigurationRequest (.clearErrors mask)) s (fun t =>
          kget 0 t.io.aer 0 = kget 0 s.io.aer 0 &&& ~~~mask ∧ (∀ k, k ≠ 0 → kget 0 t.io.aer k = kget 0 s.io.aer k)
            ∧ { t with io := s.io } = s))
        ∧ (let reads (q : ConfigRequest) (n x : Nat) : Prop :=
            exec (.pcieConfigurationRequest q) s = .next (s.sendTlp 0 (.cpl 0 (leBytes n x)))
          reads .readErrors 4 (kget 0 s.io.aer 0).toNat
            ∧ reads .readCommand 2 (4 * s.rf .pcieEpStatus Fld.pcieEpStatusBusMaster)
            ∧ reads .readMsix 2 (2047 + 2 ^ 14 * oneIf s.io.fnMask + 2 ^ 15 * oneIf s.msixOn)
            ∧ reads .readControl 2 (2 ^ 5 * s.io.payload + 2 ^ 12 * s.io.readSize)
            ∧ reads .readPower 2 (3 * oneIf s.io.d3hot))
        ∧ (∀ b, (∀ v, (s.rget (.pcieMsixPba v)) = 0) → Completes (.pcieConfigurationRequest (.busMaster b)) s (fun t =>
          t.rf .pcieEpStatus Fld.pcieEpStatusBusMaster = (if b then 1 else 0) ∧ (∀ r, r ≠ .pcieEpStatus → t.rget r = s.rget r)
            ∧ SameButCsr s t))
        ∧ (∀ i base, Completes (.pcieConfigurationRequest (.bar i base)) s (fun t =>
            (kget 0 t.io.bars i.val).toNat = base.toNat / (if i = 0 then 2 ^ 31 else 2 ^ 28) * (if i = 0 then 2 ^ 31 else 2 ^ 28)
              ∧ (∀ j, j ≠ i.val → kget 0 t.io.bars j = kget 0 s.io.bars j) ∧ { t with io := s.io } = s)))

/-- A memory request of the external host over a live link is performed by its BAR; one that a BAR refuses, a poisoned one, and
one that meets a reset of the endpoint have the ends of R315 to R318 and R375; data goes back in completions of at most the
payload size. What the spec leaves open here the model settles (log entries 58, 59), and what it takes from PCI Express, D3hot
among it, it presumes (log entry 80). (R314, R315, R316, R317, R318, R375) -/
def Obligations.HostRequestsComplete : Prop :=
  ∀ s : State, s.runs 8 = true → s.rf .pcieEpStatus Fld.pcieEpStatusLinkUp = 1 →
    let serves := s.rf (.rstUnit 544) Fld.rstUnitState = 0 ∧ s.io.d3hot = false
    let ur : State := s.unsupported 0
    (∀ (o : BitVec 31) l, serves →
        (csrRefused (csrBar o.toNat) = false → exec (.tlpPostedWrite (.csr o) l false) s
          = .next (s.csrWrite .host (csrBar o.toNat) l.length (BitVec.ofNat 64 (leNat l))))
        ∧ (csrRefused (csrBar o.toNat) = true → exec (.tlpPostedWrite (.csr o) l false) s = .next (s.pcieRefuse (csrBar o.toNat))))
    ∧ (∀ (o : BitVec 31) (n : BitVec 13), serves →
        (csrRefused (csrBar o.toNat) = false → exec (.tlpRead (.csr o) n false) s
          = .next (s.readTo hostWho (csrBar o.toNat) n.toNat (.host n.toNat)))
        ∧ (csrRefused (csrBar o.toNat) = true → exec (.tlpRead (.csr o) n false) s
          = .next ((s.pcieRefuse (csrBar o.toNat)).complete? 0 (csrBar o.toNat) (some (List.replicate n.toNat 0)))))
    ∧ (∀ (o : BitVec 28), serves → let a := s.af .awnBase Fld.awnBaseBase * 2 ^ 28 + o.toNat
        (∀ l, inRegisters a = false →
          exec (.tlpPostedWrite (.awning o) l false) s = .next ((s.awnCount a l.length).ioWriteRange hostWho a l))
        ∧ (∀ (n : BitVec 13) u r, inRegisters a = false →
          (s.awnCount a n.toNat).ioReadRange hostWho a n.toNat = (u, r) →
          exec (.tlpRead (.awning o) n false) s = .next (u.complete? 0 a r))
        ∧ (inRegisters a = true → (∀ l, exec (.tlpPostedWrite (.awning o) l false) s = .next (s.pcieRefuse a))
          ∧ ∀ n : BitVec 13, exec (.tlpRead (.awning o) n false) s
            = .next ((s.pcieRefuse a).complete? 0 a (some (List.replicate n.toNat 0)))))
    ∧ (∀ b (n : BitVec 13), (serves → exec (.tlpRead b n true) s = .next ((s.poisoned 0 Kind.endpoint 0 (s.barAddr b)).unsupported 0))
        ∧ (¬serves → ∀ p, exec (.tlpRead b n p) s = .next ur))
    ∧ (∀ b l, (serves → exec (.tlpPostedWrite b l true) s = .next (s.poisoned 0 Kind.endpoint 0 (s.barAddr b)))
        ∧ (¬serves → ∀ p, exec (.tlpPostedWrite b l p) s = .next s))
    ∧ (∀ link a l, let t := s.complete? link a (some l); let m := s.linkPayload link
        (0 < m → ∃ parts : List (List Byte), parts.flatten = l ∧ (∀ x ∈ parts, x.length ≤ m)
          ∧ t.io.out = (parts.map (fun x => (link, Tlp.cpl 0 x))).reverse ++ s.io.out) ∧ { t with io := s.io } = s)

/-- A link of a root port comes up and goes down; window and configuration accesses become TLPs with the bus address of R326, or
end with all ones; an inbound request is placed by its key, delivers an interrupt, or is denied; a region table that passes is
in force together. What the spec leaves open here the model settles (log entry 81), and its error-status bits it presumes (log
entry 80). (R325, R326, R327, R328, R329, R330, R442) -/
def Obligations.RootPortsComplete : Prop :=
  ∀ (s : State) (p : RpId), s.runs 8 = true →
    let only (t : State) (l : List Reg) : Prop := ∀ r, r ∉ l → t.rget r = s.rget r
    let fails (reply : Reply) (u : State) (addr size : Nat) : Out := .next (u.rpFails p addr size reply)
    (∀ (rate : BitVec 3) (width : BitVec 5), 1 ≤ rate.toNat → rate.toNat ≤ 6 → linkWidth width.toNat = true →
        (s.rpEnabled p = true → s.io.rpPerst.getLsbD p = false → s.io.pllLost = 0 → Completes (.linkUp (some p) rate width) s (fun t =>
          t.rf (.pcieRpStatus p) Fld.pcieRpStatusLinkUp = 1 ∧ t.rf (.pcieRpStatus p) Fld.pcieRpStatusRate = rate.toNat
            ∧ t.rf (.pcieRpStatus p) Fld.pcieRpStatusWidth = width.toNat ∧ only t [.pcieRpStatus p] ∧ SameButCsr s t))
        ∧ ((∀ v, s.rget (.pcieMsixPba v) = 0) → s.io.pllLost = 0 → Completes (.linkUp none rate width) s (fun t =>
          t.rf .pcieEpStatus Fld.pcieEpStatusLinkUp = 1 ∧ t.rf .pcieEpStatus Fld.pcieEpStatusRate = rate.toNat
            ∧ t.rf .pcieEpStatus Fld.pcieEpStatusWidth = width.toNat
            ∧ t.rf .pcieEpStatus Fld.pcieEpStatusFlitMode = (if rate.toNat = 6 then 1 else 0) ∧ only t [.pcieEpStatus] ∧ SameButCsr s t)))
    ∧ (∀ q (rate : BitVec 3) (width : BitVec 5), ¬(1 ≤ rate.toNat ∧ rate.toNat ≤ 6 ∧ linkWidth width.toNat = true) →
        exec (.linkUp q rate width) s = .next s)
    ∧ (s.rpUp p = true → s.triggers Cls.rpLinkDown = false → Completes (.rpLinkDown p false) s (fun t =>
        t.rpUp p = false
          ∧ t.rf (.pcieRpEvents p) Fld.pcieRpEventsLinkDowns
            = satAdd Fld.pcieRpEventsLinkDowns.width (s.rf (.pcieRpEvents p) Fld.pcieRpEventsLinkDowns) 1
          ∧ t.flt.net = s.flt.net ++ [{ mkRec Cls.rpLinkDown 0 Kind.rootPort p with time := s.now }]
          ∧ only t [.pcieRpStatus p, .pcieRpEvents p] ∧ { t with csr := s.csr, flt := s.flt } = s))
    ∧ (s.rf (.pcieRpCfg p) Fld.pcieRpCfgEnable = 1 → Completes (.rpCommit p) s (fun t =>
        t.aget (.pcieRpCfg p) = s.rget (.pcieRpCfg p) ∧ (∀ r, r ≠ .pcieRpCfg p → t.aget r = s.aget r) ∧ { t with act := s.act } = s))
    ∧ (s.rf (.pcieRpCfg p) Fld.pcieRpCfgEnable ≠ 1 → Completes (.rpCommit p) s (fun t =>
        t.rpEnabled p = false ∧ t.rpUp p = false ∧ t.io.rpPerst.getLsbD p = true))
    ∧ (s.rpEnabled p = true → s.released 8 = true → Completes (.rpPerstDeassert p) s (fun t =>
        (∀ q, t.io.rpPerst.getLsbD q = (s.io.rpPerst.getLsbD q && q != p.val)) ∧ { t with io := s.io } = s))
    ∧ (∀ (c : CoreId) (o : BitVec 21) (size : BitVec 4), s.coreRuns c = true → coreSize o.toNat size.toNat = true →
        let bus := s.rf (.pcieRpWin p) Fld.pcieRpWinBusBase * 2 ^ 21 + o.toNat
        (s.rpServes p = true → s.rpFull p = false → Completes (.rpWindowLoad c p o ⟨size, false⟩) s (fun t => ∃ tag, (∀ e ∈ s.io.rpReads, e.port = p.val → e.tag ≠ tag)
            ∧ t.io.rpReads = s.io.rpReads ++ [⟨p, tag, rpWindow p o.toNat, size.toNat, .agent⟩]
            ∧ t.io.out = (p.val + 1, .memRead tag bus size.toNat false false) :: s.io.out ∧ { t with io := s.io } = s))
        ∧ (s.rpServes p = true → ∀ d : W64, exec (.rpWindowStore c p o ⟨size, false⟩ d) s
            = .next (s.sendTlp (p + 1) (.memWrite bus (leBytes size.toNat d.toNat) false false)))
        ∧ (s.rpServes p = true → s.rpFull p = true → Completes (.rpWindowLoad c p o ⟨size, false⟩) s (fun t => t.io.rpReads = s.io.rpReads
            ∧ t.io.out = s.io.out ∧ t.io.rpWaiting.length = s.io.rpWaiting.length + 1 ∧ { t with io := s.io } = s))
        ∧ (s.rpServes p = false → exec (.rpWindowLoad c p o ⟨size, false⟩) s = fails .agent s (rpWindow p o.toNat) size.toNat
          ∧ ∀ d, exec (.rpWindowStore c p o ⟨size, false⟩ d) s = .next s))
    ∧ (∀ (a : Agent) (size : BitVec 4), s.agentActs a = true → size.toNat = 4 ∨ size.toNat = 8 →
        let tgt := (s.rget (.pcieRpCfgAddr p)).toNat % 2 ^ 28 / 4 * 4
        (s.rpServes p = true → s.rpFull p = false → Completes (.rpCfgRead a p 0 size) s (fun t => ∃ tag, (∀ e ∈ s.io.rpReads, e.port = p.val → e.tag ≠ tag)
            ∧ t.io.rpReads = s.io.rpReads ++ [⟨p, tag, (Reg.pcieRpCfgData p).addr, 4, .agent⟩]
            ∧ t.io.out = (p.val + 1, .cfgRead tag tgt) :: s.io.out ∧ { t with io := s.io } = s))
        ∧ (s.rpServes p = true → ∀ d : W64, Completes (.rpCfgWrite a p 0 size d) s (fun t =>
            t.io.out = (p.val + 1, .cfgWrite tgt (d.setWidth 32)) :: s.io.out ∧ only t [.pcieRpCfgData p] ∧ t.mem = s.mem))
        ∧ (s.rpServes p = false → exec (.rpCfgRead a p 0 size) s = fails .agent s (Reg.pcieRpCfgData p).addr 4))
    ∧ (∀ (u : State) pre (e : RpRead) post (tag : BitVec 14) (d : W64), s.io.rpReads = pre ++ e :: post → e.port = p.val → e.tag = tag.toNat →
        (∀ x ∈ pre, x.port = p.val → x.tag ≠ e.tag) → u = { s with io := { s.io with rpReads := pre ++ post } } →
        exec (.rpReadCompletion p tag .sc d) s = .next ((u.replyRead e.reply (BitVec.ofNat 64 (d.toNat % 2 ^ (8 * e.size)))).rpNext p)
          ∧ (∀ st, st ≠ .sc → exec (.rpReadCompletion p tag st d) s = .next ((u.rpFails p e.addr e.size e.reply).rpNext p))
          ∧ exec (.rpAccessTimeout p tag) s = .next (((u.aerSet (p + 1) Aer.timeout).rpFails p e.addr e.size e.reply).rpNext p))
    ∧ ((∀ e ∈ s.io.rpWaiting, e.1.port ≠ p.val) → s.rpNext p = s)
    ∧ (∀ addr size, s.triggers Cls.rpAccess = false → let t := s.rpFails p addr size .agent;
        t.readData = BitVec.ofNat 64 (2 ^ (8 * size) - 1) ∧ only t [.pcieRpEvents p]
          ∧ t.rf (.pcieRpEvents p) Fld.pcieRpEventsMmioErrors
            = satAdd Fld.pcieRpEventsMmioErrors.width (s.rf (.pcieRpEvents p) Fld.pcieRpEventsMmioErrors) 1
          ∧ t.flt.net = s.flt.net ++ [{ mkRec Cls.rpAccess 0 Kind.rootPort p with addr := BitVec.ofNat 64 addr, time := s.now }]
          ∧ { t with csr := s.csr, flt := s.flt, readData := s.readData } = s)
    ∧ (s.rpServes p = true → ∀ addr : W64, let key := addr.toNat / 2 ^ 32; let o := addr.toNat % 2 ^ 32
        (∀ x l, key ≠ 0 → (placements s.aget).find? (fun y => y.key == key) = some x →
          o < x.length → o + l.length ≤ x.length → bitsOf x.ports p 1 = 1 → x.write = true →
          exec (.rpInboundRequest p addr l.length (some l) false) s = .next (s.ioWriteRange (rpWho p) (x.base + o) l))
        ∧ (∀ x n u r, key ≠ 0 → (placements s.aget).find? (fun y => y.key == key) = some x →
          o < x.length → o + n ≤ x.length → bitsOf x.ports p 1 = 1 → x.read = true → s.ioReadRange (rpWho p) (x.base + o) n = (u, r) →
          exec (.rpInboundRequest p addr n none false) s = .next (u.complete? (p + 1) addr.toNat r))
        ∧ (∀ l h, l.length = 4 → addr.toNat = 0xFE000000 + 4096 * h → h < 96 → 0 < (l.headD 0).toNat →
          Completes (.rpInboundRequest p addr 4 (some l) false) s (fun t =>
            kget 0 t.io.imsic h = kget 0 s.io.imsic h ||| BitVec.ofNat 256 (2 ^ (l.headD 0).toNat)
              ∧ (∀ k, k ≠ h → kget 0 t.io.imsic k = kget 0 s.io.imsic k) ∧ { t with io := s.io } = s))
        ∧ (∀ n w, key ≠ 0 → (placements s.aget).find? (fun y => y.key == key) = none →
          exec (.rpInboundRequest p addr n w false) s = .next (s.dplDeny p addr.toNat w.isSome)))
    ∧ (s.dplError ≠ 0 → Completes .dplCommit s (fun t =>
        t.rf .dplStatus Fld.dplStatusCommitError = s.dplError ∧ only t [.dplStatus] ∧ SameButCsr s t))
    ∧ (s.dplError = 0 → Completes .dplCommit s (fun t =>
        placements t.aget = placements s.rget ∧ t.io.dplPending = s.io.dplPending + 1 ∧ only t [.dplStatus]
          ∧ (∀ r, (∀ i, r ≠ .dplRegionBase i ∧ r ≠ .dplRegionAttr i ∧ r ≠ .dplRegionKey i) → t.aget r = s.aget r)
          ∧ { t with csr := s.csr, act := s.act, io := s.io } = s))
    ∧ (0 < s.io.dplPending → Completes .dplEpochAdvance s (fun t =>
        t.rf .dplStatus Fld.dplStatusEpoch = (s.rf .dplStatus Fld.dplStatusEpoch + 1) % 2 ^ Fld.dplStatusEpoch.width
          ∧ t.io.dplPending = s.io.dplPending - 1 ∧ only t [.dplStatus]))

/-! ## Boot, fuses, attestation and the re-pitch -/

/-- A configuration load reads the fuses and goes by the boot mode; the first failing check of an image is its error code and
leaves the device in recovery, and an image that passes is applied; DATA stores bytes in the load buffer, LOAD loads from it; a
frame of another EtherType or to another address does nothing (which groups count in run is the model's: log entry 120). Nothing
of it happens where the ROM's own code is lost (log entry 120). What the spec leaves open here the model settles (log entries
82, 91, 128). (R335, R340, R344, R345, R348, R349, R350) -/
def Obligations.LoadsComplete : Prop :=
  (∀ (s : State) reads, s.frozen = false → s.stage = 0 → s.loadFailed = false → s.released 2 = true → s.codeLost = false →
      let u := s.readRom.readFuses
      let mode := bitsOf (s.rget .bootStraps).toNat 8 2
      (s.sys.fuses.uncorrectable = true → (mode ≠ 3 → exec (.configurationLoad reads) s = .next (s.readRom.loadFail 10))
        ∧ (mode = 3 → exec (.configurationLoad reads) s
          = .next ((s.readRom.setF .bootStatus Fld.bootStatusStrapError 1).loadFail 10)))
      ∧ (s.sys.fuses.uncorrectable = false →
        (mode = 2 → Completes (.configurationLoad reads) s (fun t => t.stage = 6 ∧ t.rget .fusePart = s.sys.fuses.part
          ∧ t.rget .fuseSerial = s.sys.fuses.serial ∧ t.rget .fuseRollback = BitVec.ofNat 64 s.sys.fuses.rollback
          ∧ t.rf .timeMac Fld.timeMacMac = 0x02 * 2 ^ 40 + s.sys.fuses.serial.toNat % 2 ^ 40 ∧ t.loadPhase = true
          ∧ t.rf .bootGlPhase Fld.bootGlPhaseXspiEn = 1 ∧ { t with csr := s.csr } = s.readRom))
        ∧ (mode = 1 ∨ mode = 3 → Completes (.configurationLoad reads) s (fun t => t.stage = 5
          ∧ t.rf .bootStatus Fld.bootStatusStrapError = (if mode = 3 then 1 else s.rf .bootStatus Fld.bootStatusStrapError)
          ∧ t.runPhase = true ∧ { t with csr := s.csr } = s.readRom))
        ∧ (mode = 0 → bitsOf (s.rget .bootStraps).toNat 6 2 = 3 → Completes (.configurationLoad reads) s (fun t =>
          t.stage = 5 ∧ t.rf .bootStatus Fld.bootStatusError = 1 ∧ t.runPhase = true))
        ∧ (∀ c, mode = 0 → bitsOf (s.rget .bootStraps).toNat 6 2 ≠ 3 → u.judge (flashRead reads 0) = c → c ≠ 5 →
          (c ≠ 0 → s.sys.loadReply = none → Completes (.configurationLoad reads) s (fun t => t.stage = 5
            ∧ t.rf .bootStatus Fld.bootStatusError = c % 16 ∧ t.rf .bootStatus Fld.bootStatusAttempts = 1 ∧ t.sys.applied = s.sys.applied
            ∧ t.runPhase = true))
          ∧ (c = 0 → exec (.configurationLoad reads) s = .next ((({ u.setF .bootStatus Fld.bootStatusSource 0 with
            sys := { u.sys with loadRead := some (((flashRead reads 0).take (imgTotal (flashRead reads 0))).drop 256) } } : State).setF
              .bootStatus Fld.bootStatusAttempts 1).applyImage (flashRead reads 0))))))
  ∧ (∀ (s : State) (src : Ether) seq (off : W32) l, s.hears src = true → s.loadRuns = false → s.romServes = true →
      (off.toNat + l.length ≤ 1048576 → Completes (.dataFrame src seq off l) s (fun t => t.bufBytes off.toNat l.length = l
        ∧ (∀ k, k < off.toNat ∨ off.toNat + l.length ≤ k → kget 0 t.sys.loadBuf k = kget 0 s.sys.loadBuf k)
        ∧ t.sys.frames = ⟨some src.src, 3, 0, seq.toNat, off.toNat, 0, [], s.mac, 0x88B5⟩ :: s.sys.frames ∧ { t with sys := s.sys } = s))
      ∧ (1048576 < off.toNat + l.length → exec (.dataFrame src seq off l) s = .next (s.answerFrame src.src 3 1 seq.toNat off.toNat [])))
  ∧ (∀ (s : State) (src : Ether) seq (off : W32) reads, s.hears src = true →
      (s.loadRuns = true → exec (.loadFrame src seq off reads) s = .next (s.answerFrame src.src 3 2 seq.toNat 0 []))
      ∧ (s.loadRuns = false → s.firmwareRuns = true → exec (.loadFrame src seq off reads) s = .next (s.answerFrame src.src 5 0xFF seq.toNat 0 []))
      ∧ (∀ l c, s.loadRuns = false → s.romServes = true → s.frozen = false → off ≠ 0xFFFFFFFF → s.sys.bufEcc = ⟨[], []⟩ → l = s.bufBytes 0 1048576 →
        s.judge l = c → c ≠ 5 →
        let u := (({ s with sys := { s.sys with loadReply := some (src.src, seq.toNat) } } : State).setF .bootStatus Fld.bootStatusSource 1).setF
          .bootStatus Fld.bootStatusAttempts 1
        (c ≠ 0 → exec (.loadFrame src seq off reads) s = .next (u.loadFail c))
        ∧ (c = 0 → exec (.loadFrame src seq off reads) s = .next (u.applyImage l))))
  ∧ (∀ s : State, (s.romServes = true → exec .announceTimer s = .next (s.sendFrame ⟨none, 1, 0, 0, 0, 10, s.announceData, s.mac, 0x88B5⟩))
      ∧ (∀ (src : Ether) seq, s.firmwareRuns = true → s.hears src = true → exec (.announceFrame src seq) s
        = .next (s.sendFrame ⟨some src.src, 1, 0, seq.toNat, 0, s.announceData.length, s.announceData, s.mac, 0x88B5⟩))
      ∧ (∀ src : Ether, s.hears src = true ↔ src.etherType = 0x88B5
        ∧ (src.dst = s.mac ∨ s.firmwareRuns = true ∧ src.dst ∈ groupAddresses))
      ∧ (∀ (src : Ether) seq (off : W32) l reads, s.hears src = false →
        exec (.announceFrame src seq) s = .next s ∧ exec (.dataFrame src seq off l) s = .next s
          ∧ exec (.loadFrame src seq off reads) s = .next s))

/-- The firmware's answers: a report and its signature in 36 frames, the certificate in 35, which go out one by one and until
then have every further request answered with status 2; register reads with their value, and register writes from the peer; the
fuse commands are refused with their code or begin, and end with the fuses blown. What the spec leaves open here the model
settles (log entries 60, 84, 85, 86). (R343, R352, R353, R422) -/
def Obligations.FirmwareAndFusesComplete : Prop :=
  (∀ (s : State) (src : Ether) seq, s.firmwareRuns = true → s.hears src = true →
    let parts (t : State) (op n : Nat) (all : List Byte) : Prop := ∃ fs : List MgmtFrame, fs.length = n ∧ t.sys.sendQ = fs
      ∧ t.sys.frames = s.sys.frames ∧ fs.flatMap (fun f => f.data) = all ∧ ∀ k (f : MgmtFrame), fs[k]? = some f →
        f.dst = some src.src ∧ f.mac = s.mac ∧ f.etherType = 0x88B5 ∧ f.op = op ∧ f.status = 0 ∧ f.seq = seq.toNat
        ∧ f.offset = 1024 * k ∧ f.length = f.data.length
    (s.sys.sendQ ≠ [] → ∀ op (i : Instr), (op, i) ∈ [(21, Instr.telemetry src seq), (19, .cert src seq)] ∨ (∃ nonce, (op, i) = (17, .attest src seq nonce))
        ∨ (∃ off, (op, i) = (32, .regRead src seq off)) ∨ (∃ off v, (op, i) = (33, .regWrite src seq off v))
        ∨ (∃ chain first, (op, i) = (34, .chainRead src seq chain first)) → exec i s = .next (s.answerFrame src.src op 2 seq.toNat 0 []))
    ∧ (s.sys.sendQ = [] →
    (∀ (nonce : BitVec 256) c, s.sys.cert = some c → Completes (.attest src seq nonce) s (fun t => (s.reportBytes nonce).length = 256
      ∧ (∃ sig : List Byte, sig.length = 35664 ∧ parts t 17 36 (s.reportBytes nonce ++ sig)) ∧ t.sys.cert = some c
      ∧ { t with sys := s.sys, freeCtr := s.freeCtr } = s))
    ∧ (∀ c, s.sys.cert = some c → c.length = 35760 → Completes (.cert src seq) s (fun t => parts t 19 35 c ∧ { t with sys := s.sys } = s))
    ∧ (s.sys.cert = none → Completes (.cert src seq) s (fun t => ∃ sig : List Byte, sig.length = 35664
      ∧ t.sys.cert = some (s.identity ++ s.digest ++ s.aliasKey ++ sig) ∧ parts t 19 35 (s.identity ++ s.digest ++ s.aliasKey ++ sig)))
    ∧ (∀ off : W64, off.toNat < 2 ^ 48 → inMemory off.toNat = false → s.reachable .basecamp off.toNat = true →
        exec (.regRead src seq off) s = .next (s.readTo basecampWho off.toNat 8 (.mgmt src.src seq.toNat off.toNat))
        ∧ (s.mgmtMay src.src = true → ∀ v, (s.csrWrite .basecamp off.toNat 8 v).firmwareRuns = true → exec (.regWrite src seq off v) s
          = .next ((s.csrWrite .basecamp off.toNat 8 v).answerFrame src.src 33 0 seq.toNat 0 [])))
    ∧ (∀ off v, s.mgmtMay src.src = false → exec (.regWrite src seq off v) s = .next (s.answerFrame src.src 33 1 seq.toNat 0 []))
    ∧ exec (.telemetry src seq) s = .next (s.answerFrame src.src 21 0 seq.toNat 0 (leBytes 8 s.now.toNat ++ leBytes 8 (s.rget .timePower).toNat
        ++ leBytes 8 (s.rget .timeEnergy).toNat ++ (List.range 56).flatMap (fun i => leBytes 2 (s.rf (.timeTemp i) Fld.timeTempTemp))
        ++ leBytes 1 (s.rf .timeStatus Fld.timeStatusState) ++ List.replicate 7 0))
    ∧ (∀ chain first, s.mgmtMay src.src = false → exec (.chainRead src seq chain first) s = .next (s.answerFrame src.src 34 1 seq.toNat 0 []))
    ∧ (∀ (chain : W16) (first : W32), s.mgmtMay src.src = true → Completes (.chainRead src seq chain first) s (fun t => ∃ l : List Byte,
        t.sys.frames = ⟨some src.src, 34, 0, seq.toNat, 0, 8 + l.length, leBytes 2 chain.toNat ++ leBytes 2 0 ++ leBytes 4 first.toNat ++ l,
          s.mac, 0x88B5⟩ :: s.sys.frames ∧ l.length ≤ 8 * 124 ∧ t.mem = s.mem))))
  ∧ (∀ (s : State) f rest, s.sys.sendQ = f :: rest → let t := s.sendNext
      (t.sys.sendQ = rest ∧ t.sys.frames = f :: s.sys.frames ∨ t.sys.sendQ = s.sys.sendQ ∧ t.sys.frames = s.sys.frames)
        ∧ { t with sys := s.sys, freeCtr := s.freeCtr } = s)
  ∧ (∀ (s : State) (unlock : W32),
    let refused (i : Instr) (e : Nat) : Prop := Completes i s (fun t => t.rf .fuseProgStatus Fld.fuseProgStatusError = e
      ∧ (∀ r, r ≠ .fuseProgStatus → t.rget r = s.rget r) ∧ SameButCsr s t)
    let begins (i : Instr) (op : FuseOp) : Prop := Completes i s (fun t => t.sys = { s.sys with fuseOp := some op }
      ∧ t.rf .fuseProgStatus Fld.fuseProgStatusBusy = 1 ∧ t.rf .fuseProgStatus Fld.fuseProgStatusError = 0
      ∧ (∀ r, r ≠ .fuseProgStatus → t.rget r = s.rget r))
    let ready := s.fuseReady unlock = true
    (¬ready → (∀ n, refused (.fuseAdvanceRollback unlock n) 1) ∧ (∀ k, refused (.fuseProgramSlot unlock k) 1)
      ∧ (∀ k, refused (.fuseRevokeSlot unlock k) 1))
    ∧ (ready → (∀ n : BitVec 6, (n.toNat < s.sys.fuses.rollback → refused (.fuseAdvanceRollback unlock n) 4)
        ∧ (s.sys.fuses.rollback ≤ n.toNat → begins (.fuseAdvanceRollback unlock n) (.rollback n.toNat)))
      ∧ (∀ k : BitVec 2, (k = 0 ∨ s.sys.fuses.programmed.getLsbD k.toNat = true → refused (.fuseProgramSlot unlock k) 2)
        ∧ (k ≠ 0 → s.sys.fuses.programmed.getLsbD k.toNat = false → begins (.fuseProgramSlot unlock k) (.program k.toNat))
        ∧ (s.sys.applied = true → s.rf .bootImage Fld.bootImageKeySlot = k.toNat → refused (.fuseRevokeSlot unlock k) 3)
        ∧ (s.rf .bootImage Fld.bootImageKeySlot ≠ k.toNat → begins (.fuseRevokeSlot unlock k) (.revoke k.toNat)))))
  ∧ (∀ (s : State) (op : FuseOp), s.sys.fuseOp = some op →
    Completes (.fuseProgComplete none) s (fun t => t.sys.fuseOp = none ∧ (∀ n, op = .load n → t.sys.fuses.rollback = n ∧ t.stage = 4) ∧ t.rf .fuseProgStatus Fld.fuseProgStatusBusy = 0
      ∧ t.rget .fuseRollback = BitVec.ofNat 64 t.sys.fuses.rollback
      ∧ (∀ n, op = .rollback n → t.sys.fuses = { s.sys.fuses with rollback := n })
      ∧ (∀ k, op = .program k → k < 4 → t.sys.fuses.programmed.getLsbD k = true ∧ t.sys.fuses.revoked = s.sys.fuses.revoked
        ∧ ∀ w, w < 4 → kget 0 t.sys.fuses.keyHash (4 * k + w) = kget 0 s.sys.fuses.keyHash (4 * k + w) ||| s.rget (.fuseProgData w))
      ∧ (∀ k, op = .revoke k → k < 4 → t.sys.fuses.revoked.getLsbD k = true ∧ t.sys.fuses.keyHash = s.sys.fuses.keyHash))
    ∧ (∀ k, s.triggers Cls.fuseProg = false → s.frozen = false → Completes (.fuseProgComplete (some k)) s (fun t =>
      t.sys.fuseOp = none ∧ t.rf .fuseProgStatus Fld.fuseProgStatusError = 5
        ∧ t.flt.net = s.flt.net ++ [{ mkRec Cls.fuseProg 1 Kind.basecamp 0 with time := s.now }])))

/-- The re-pitch: ENTER, the idle field, its timeout, VERIFY, LEAVE and the time limit move its state; an xSPI command runs in
load phase, one at a time, and leaves what it reads in the load buffer. What the spec leaves open here the model settles (log
entry 88). (R354, R355, R356, R435) -/
def Obligations.RepitchComplete : Prop :=
  ∀ s : State,
    let only (t : State) (l : List Reg) : Prop := ∀ r, r ∉ l → t.rget r = s.rget r
    let errs (i : Instr) (e : Nat) : Prop := Completes i s (fun t => t.rf .bootRepitchStatus Fld.bootRepitchStatusError = e
      ∧ t.repitchState = s.repitchState ∧ only t [.bootRepitchStatus] ∧ SameButCsr s t)
    let exits (t : State) : Prop := t.repitchState = 0 ∧ t.runPhase = true ∧ t.rf .bootGlPhase Fld.bootGlPhaseXspiEn = 0 ∧ t.clockState = 1
      ∧ t.sys.leaving = false ∧ only t [.bootRepitchStatus, .bootGlPhase, .timeStatus]
    (s.repitchState = 0 → Completes .enter s (fun t => t.repitchState = 1 ∧ t.rf .bootRepitchStatus Fld.bootRepitchStatusError = 0
        ∧ only t [.bootRepitchStatus] ∧ SameButCsr s t))
    ∧ (s.repitchState ≠ 0 → errs .enter 2)
    ∧ (s.frozen = false → s.repitchState = 1 → s.fieldIdle = true → Completes .repitchFieldIdle s (fun t => t.repitchState = 2
        ∧ t.rf .bootGlPhase Fld.bootGlPhaseLow = 1 ∧ t.rf .bootGlPhase Fld.bootGlPhaseXspiEn = 1 ∧ t.clockState = 3
        ∧ t.rf .timeAlert Fld.timeAlertHoldover = 1 ∧ only t [.bootRepitchStatus, .bootGlPhase, .timeStatus, .timeAlert] ∧ SameButCsr s t))
    ∧ (s.repitchState = 1 → Completes .repitchIdleTimeout s (fun t => t.repitchState = 0
        ∧ t.rf .bootRepitchStatus Fld.bootRepitchStatusError = 1 ∧ only t [.bootRepitchStatus] ∧ SameButCsr s t))
    ∧ (∀ reads, s.frozen = false →
        (s.repitchState ≠ 2 ∨ s.sys.xspi.isSome = true → errs (.verify reads) 2)
        ∧ (s.repitchState = 2 → s.sys.xspi = none → bitsOf (s.rget .bootStraps).toNat 6 2 ≠ 3 → Completes (.verify reads) s (fun t =>
          t.rf .bootRepitchStatus Fld.bootRepitchStatusVerifyCode = (s.judgeReads (flashRead reads)).1 % 16
            ∧ t.repitchState = 2 ∧ only t [.bootRepitchStatus] ∧ SameButCsr s t)))
    ∧ (s.frozen = false → s.repitchState = 2 → s.sys.xspi = none →
        Completes .leave s (fun t => exits t ∧ { t with csr := s.csr } = { s with sys := { s.sys with leaving := false } })
        ∧ Completes .repitchTimeLimit s (fun t => exits t ∧ t.rf .bootRepitchStatus Fld.bootRepitchStatusError = 3))
    ∧ (s.frozen = false → s.repitchState = 2 → s.sys.xspi.isSome = true →
        exec .leave s = .next { s with sys := { s.sys with leaving := true } })
    ∧ (s.frozen = false → s.repitchState ≠ 2 → errs .leave 2 ∧ exec .repitchTimeLimit s = .next s)
    ∧ (∀ (addrEn write : Bool) (n : BitVec 9) (a : W32), s.frozen = false →
        ∀ i op, (i, op) ∈ [(Instr.xspiRead addrEn write n a, if bitsOf (s.rget .bootStraps).toNat 6 2 = 2 then 0x0C else 0xEE),
          (.xspiWriteEnable addrEn write n a, 0x06), (.xspiReadStatus addrEn write n a, 0x05), (.xspiPageProgram addrEn write n a, 0x12),
          (.xspiSectorErase addrEn write n a, 0xDC)] →
        (s.repitchState = 2 → s.sys.xspi = none → s.sys.leaving = false → n.toNat ≤ 256 → s.sys.bufEcc.ue = [] → Completes i s (fun t =>
          t.rf .bootRepitchStatus Fld.bootRepitchStatusXspiBusy = 1 ∧ only t [.bootRepitchStatus]
            ∧ t.sys = { s.sys with xspi := some ⟨op, addrEn, write, n.toNat, a.toNat, if write then
              (List.range n.toNat).map (fun k => kget 0 s.sys.loadBuf ((a.toNat + k) % 1048576)) else [], s.nvm, s.xspiExt op⟩ }))
        ∧ (s.repitchState ≠ 2 ∨ s.sys.xspi.isSome = true ∨ s.sys.leaving = true ∨ 256 < n.toNat → errs i 2)
        ∧ ∀ m, s.nvm = some m → (m.octal = true → s.xspiExt op = some (0xFF - op)) ∧ (m.octal = false → s.xspiExt op = none))
    ∧ (∀ (c : XspiCmd) l, s.frozen = false → s.sys.xspi = some c → l.length = c.length →
        c.address % 1048576 + c.length ≤ 1048576 → s.sys.leaving = false → Completes (.xspiCommandComplete l) s (fun t => t.sys.xspi = none
          ∧ t.rf .bootRepitchStatus Fld.bootRepitchStatusXspiBusy = 0 ∧ only t [.bootRepitchStatus] ∧ t.repitchState = s.repitchState
          ∧ (c.write = true → t.sys.loadBuf = s.sys.loadBuf)
          ∧ (c.write = false → ∀ k, k < l.length → kget 0 t.sys.loadBuf (c.address % 1048576 + k) = l.getD k 0)))

/-! ## Resets -/

/-- A device reset of every cause returns everything to the state after power-on but the cause latch, the fuses (which a reset
during their blowing leaves in part blown), the DRAM's hard repairs and the TAP (the last three are the model's reading of R343,
R246 and R443), whether or not the device is frozen; the watchdog's commands. When the POR cause ends, which of two causes in
one BCLK is kept and which detectors act the model settles (log entries 1, 92, 93). The domains are released one by one in
order, each when its condition holds; D0 samples the straps and starts station time at zero, D7 the strap of the election, D8
derives the keys and starts the firmware or the advance of the rollback counter; memory training ends with the HBM window
reading as zero, or fails the load. What the spec leaves open here the model settles (log entries 68, 84, 98). (R237, R238,
R342, R352, R363, R364, R365, R366, R368, R369, R373, R451) -/
def Obligations.ResetAndReleaseComplete : Prop :=
  (∀ s : State,
    let x := State.reset
    let resets (i : Instr) (cause : Nat) : Prop := Completes i s (fun t => t.rf .rstLastCause Fld.rstLastCauseCause = s.causeCode cause
      ∧ (∀ r, r ≠ .rstLastCause → t.rget r = x.rget r)
      ∧ t.sys = { x.sys with
        fuses := s.fusesLeft, hardRepairs := s.sys.hardRepairs, tap := t.sys.tap, causeNew := true, porHolds := cause == 1 || s.sys.porHolds }
      ∧ t.pending = s.pending
      ∧ { t with csr := x.csr, sys := x.sys, pending := x.pending, readData := x.readData, freeCtr := x.freeCtr } = x)
    (s.sys.fuseOp = none → s.fusesLeft = s.sys.fuses)
    ∧ (∀ n, s.sys.fuseOp = some (.load n) ∨ s.sys.fuseOp = some (.rollback n) → s.sys.fuses.rollback ≤ n →
        s.sys.fuses.rollback ≤ s.fusesLeft.rollback ∧ s.fusesLeft.rollback ≤ n)
    ∧ resets (.pinReset false) 3 ∧ resets .vddAonFall 1 ∧ resets .devreset 6 ∧ resets (.softwareReset 0x53575253) 5
    ∧ (s.af .pcieEpCfg Fld.pcieEpCfgPerstScope = 1 → resets (.pinReset true) 3)
    ∧ (s.af .pcieEpCfg Fld.pcieEpCfgPerstScope = 0 → exec (.pinReset true) s = .next s)
    ∧ (∀ key, key ≠ 0x53575253 → exec (.softwareReset key) s = .next s)
    ∧ (s.sys.porHolds = false → resets .brownout 2)
    ∧ (s.sys.porHolds = true → ∃ b : Bool, Completes .brownout s (fun t =>
        (b = true → t.rf .rstLastCause Fld.rstLastCauseCause = s.causeCode 2 ∧ t.sys.porHolds = false ∧ t.released 0 = false
          ∧ ∀ r, r ≠ .rstLastCause → t.rget r = x.rget r)
        ∧ (b = false → { t with freeCtr := s.freeCtr } = s)))
    ∧ (∀ m, s.released (monitorScope m).1 = true → s.frozen = false ∨ (monitorScope m).2 = true → resets (.clockFail m) 7)
    ∧ (∀ n, s.nextDomain = n → 1 ≤ n → n ≤ 8 → n ≠ 3 ∨ s.sys.applied = true → s.frozen = false ∨ n = 1 → resets .releaseClockTimeout 7)
    ∧ (∀ n, s.nextDomain = n → n = 0 ∨ 9 ≤ n ∨ n = 3 ∧ s.sys.applied = false ∨ s.frozen = true ∧ 2 ≤ n →
        exec .releaseClockTimeout s = .next s)
    ∧ (s.frozen = false → (s.released 0 = true → resets .basecampLockup 8) ∧ (s.released 4 = true → resets .meshDeadlock 8))
    ∧ (s.frozen = true → exec .basecampLockup s = .next s ∧ exec .meshDeadlock s = .next s)
    ∧ (s.wdtOn = true → 175000 * s.wdtLimit ≤ s.sys.wdtCount + 1 → resets .watchdog 4)
    ∧ (s.wdtOn = false ∨ s.sys.wdtCount + 1 < 175000 * s.wdtLimit → exec .watchdog s = .next s)
    ∧ (∀ enable limit, (s.wdtOn = true → exec (.wdtEnable enable limit) s = .next s)
        ∧ (s.wdtOn = false → Completes (.wdtEnable enable limit) s (fun t => t.wdtOn = enable ∧ t.rf .rstWdtCtrl Fld.rstWdtCtrlLimit = limit.toNat
          ∧ (∀ r, r ≠ .rstWdtCtrl → t.rget r = s.rget r) ∧ t.sys = { s.sys with wdtCount := 0 } ∧ { t with csr := s.csr, sys := s.sys } = s)))
    ∧ exec (.wdtKick 0x4B49434B) s = .next { s with sys := { s.sys with wdtCount := 0 } }
    ∧ (∀ key, key ≠ 0x4B49434B → exec (.wdtKick key) s = .next s))
  ∧ (∀ s : State,
    (∀ n gl, s.nextDomain = n → n ≤ 8 → s.releaseReady n = true → Completes (.domainRelease gl) s (fun t =>
        (∀ k, k ≤ 8 → t.released k = (s.released k || k == n))
          ∧ t.rf .rstDomains Fld.rstDomainsWaiting = (if n = 8 then 15 else n + 1)
          ∧ (n = 0 → t.stn = 0 ∧ t.rget .bootStraps = gl.setWidth 64 ∧ t.sys.porHolds = false) ∧ (n ≠ 0 → t.stn = s.stn)
          ∧ (n = 2 → s.bootMode ≠ 2 → t.loadPhase = true) ∧ (n = 2 → s.bootMode = 2 → t.rget .bootGlPhase = s.rget .bootGlPhase)
          ∧ (2 ≤ n → s.frozen = false)
          ∧ (n = 7 → t.rf .fabId Fld.fabIdEligible = bitsOf (s.rget .bootStraps).toNat 10 1)
          ∧ (n = 8 → s.sys.imageFlags % 2 = 0 ∨ s.rf .bootImage Fld.bootImageSvn ≤ s.sys.fuses.rollback → t.stage = 4)
          ∧ (n = 8 → s.sys.imageFlags % 2 = 1 → s.sys.fuses.rollback < s.rf .bootImage Fld.bootImageSvn → t.stage = s.stage
            ∧ t.sys.fuseOp = some (.load (s.rf .bootImage Fld.bootImageSvn)))
          ∧ (n = 8 → s.sys.secretLocked = false → t.sys.secretLocked = true ∧ t.sys.identity = keySeeds s.sys.fuses.secret identityLabel
            ∧ t.sys.aliasKeys = keySeeds s.sys.fuses.secret s.aliasLabel)
          ∧ t.mem = s.mem))
    ∧ (∀ gl, s.nextDomain = 9 ∨ s.releaseReady s.nextDomain = false → exec (.domainRelease gl) s = .next s)
    ∧ (∀ lp, s.frozen = false → s.released 3 = true → s.released 4 = false → s.rf (.hbmcStatus 0) Fld.hbmcStatusTrained = 0 →
        exec (.memoryTrainingComplete true lp) s = .next (s.resetUpper.loadFail 9)
        ∧ Completes (.memoryTrainingComplete false lp) s (fun t => (∀ i, i < 16 → t.rf (.hbmcStatus i) Fld.hbmcStatusTrained = 1)
          ∧ (∀ a, a < 0x50000000000 → t.byteAt a = 0 ∧ a / 4 ∉ t.ue ∧ a / 4 ∉ t.ce)
          ∧ (s.lpPopulated = true → (∀ c, lp = some c → s.lpHas c = false) → ∀ q, q < 8 → t.rf (.hbmcStatus (16 + q)) Fld.hbmcStatusTierOk = 1)
          ∧ (s.lpPopulated = true → ∀ c, lp = some c → s.lpHas c = true → t.lpSize = 0 ∧ (s.triggers Cls.lpddrTrain = false →
            t.flt.net = s.flt.net ++ [{ mkRec Cls.lpddrTrain 2 Kind.lpmc c with time := s.now }]))
          ∧ (∀ a, 0x50000000000 ≤ a → t.byteAt a = s.byteAt a))))

/-- RESET asks a unit to become idle or is refused; an idle unit is reset, one that is not in time is reset by force, and what a
tile's reset leaves is its memory; the end of the reset counts it and records UNIT_RESET; RELEASE starts a held core at
RST.CORE_VECTOR. What the spec leaves open here the model settles (log entries 94, 95). (R370, R375, R376, R378, R379) -/
def Obligations.UnitResetsComplete : Prop :=
  ∀ (s : State) (u : UnitId),
    let only (t : State) (l : List Reg) : Prop := ∀ r, r ∉ l → t.rget r = s.rget r
    let refused (i : Instr) : Prop := Completes i s (fun t => t.rf (.rstUnit u) Fld.rstUnitError = 1 ∧ only t [.rstUnit u] ∧ SameButCsr s t)
    (s.released (unitOf u).domain = false ∨ s.unitState u = 1 ∨ s.unitState u = 2 → refused (.unitResetCommand u))
    ∧ (s.frozen = false → s.released (unitOf u).domain = true → s.unitState u = 0 ∨ s.unitState u = 3 →
        Completes (.unitResetCommand u) s (fun t => t.unitState u = 1
          ∧ (∀ n, unitOf u = .tile n → (s.tile n).seq ≠ .run → t.tile n = s.tile n ∧ only t [.rstUnit u] ∧ SameButCsr s t)
          ∧ (∀ c, unitOf u = .core c → (t.core c).stopped = true ∧ (t.core c).lines = (s.core c).lines
            ∧ (s.triggers Cls.coreStopped = false → t.flt.net = s.flt.net ++ (if s.coreRuns c then
              [{ mkRec Cls.coreStopped 2 Kind.core c with time := s.now }] else [])))
          ∧ ((∀ n, unitOf u ≠ .tile n) → (∀ c, unitOf u ≠ .core c) → only t [.rstUnit u] ∧ SameButCsr s t)))
    ∧ (s.frozen = false → s.unitState u = 1 →
        (s.unitIdle (unitOf u) = true → Completes (.unitIdle u) s (fun t => t.unitState u = 2 ∧ t.rf (.rstUnit u) Fld.rstUnitForced = 0))
        ∧ (s.unitIdle (unitOf u) = false →
          Completes (.unitResetTimeout u) s (fun t => t.unitState u = 2 ∧ t.rf (.rstUnit u) Fld.rstUnitForced = 1))
        ∧ (∀ n, unitOf u = .tile n → s.unitIdle (.tile n) = true → (∀ g, g < 32 → n ∉ s.tilesOf g) → Completes (.unitIdle u) s (fun t =>
          t.tile n = { Tile.reset with since := s.aclk } ∧ (∀ m, m ≠ n → t.tile m = s.tile m) ∧ t.mem = s.mem ∧ t.ue = s.ue ∧ t.ce = s.ce
            ∧ (∀ r, (UnitOf.tile n).owns r = true → (∀ e ∈ s.image, e.1 ≠ r) → t.rget r = r.reset)
            ∧ (∀ r, (UnitOf.tile n).owns r = false → r ≠ .rstUnit u → t.rget r = s.rget r))))
    ∧ (s.frozen = false → s.unitState u = 2 → s.triggers Cls.unitReset = false → Completes (.unitResetHoldEnd u) s (fun t =>
        t.unitState u = (if 384 ≤ u.val ∧ u.val < 480 then 3 else 0)
          ∧ t.rf (.rstUnit u) Fld.rstUnitResets = satAdd Fld.rstUnitResets.width (s.rf (.rstUnit u) Fld.rstUnitResets) 1
          ∧ t.flt.net = s.flt.net ++ [{ mkRec Cls.unitReset 2 (unitOf u).record.1 (unitOf u).record.2 with
            forced := s.rf (.rstUnit u) Fld.rstUnitForced == 1, time := s.now }]))
    ∧ (∀ c, unitOf u = .core c → s.frozen = false → s.released 5 = true → s.unitState u = 3 → Completes (.unitRelease u) s (fun t =>
        t.unitState u = 0 ∧ t.core c = { HostCore.reset with pc := s.rget .rstCoreVector } ∧ (∀ k, k ≠ c → t.core k = s.core k)
          ∧ only t [.rstUnit u]))
    ∧ ((∀ c, unitOf u ≠ .core c) → refused (.unitRelease u))

/-! ## Faults and the freeze -/

/-- The collector numbers a record, may assert FAULT_N, and writes it with its phase to the enabled ring, holds it early, or
loses it; a FLT commit, the pin, the freeze and its triggers, and the readout of a chain. What the spec leaves open here the
model settles (log entries 74, 75, 77, 110). (R394, R399, R400, R401, R404, R405, R407, R409) -/
def Obligations.FaultsComplete : Prop :=
  ∀ s : State,
    let only (t : State) (l : List Reg) : Prop := ∀ r, r ∉ l → t.rget r = s.rget r
    (∀ r rest, s.frozen = false → s.flt.net = r :: rest → s.traceOn Fld.bootTraceRecords = false →
        let pins (t : State) : Prop := s.pinLevel r.sev = true → t.rf .fltStatus Fld.fltStatusPin = 1
        (s.fltOn = false → s.flt.early.length < 256 → Completes .faultRecord s (fun t => pins t
          ∧ t.flt = { s.flt with net := rest, seq := s.flt.seq + 1, early := s.flt.early ++ [⟨r, s.flt.seq⟩] }
          ∧ only t [.fltStatus] ∧ { t with csr := s.csr, flt := s.flt } = s))
        ∧ ((if s.fltOn then 2 ^ s.fltFs ≤ s.fltUsed else 256 ≤ s.flt.early.length) → Completes .faultRecord s (fun t => pins t
          ∧ t.flt = { s.flt with net := rest, seq := s.flt.seq + 1, lostRun := s.flt.lostRun + 1 }
          ∧ t.rf .fltStatus Fld.fltStatusOverflow = 1 ∧ t.rget .fltLost = s.rget .fltLost + 1 ∧ only t [.fltStatus, .fltLost]
          ∧ { t with csr := s.csr, flt := s.flt } = s))
        ∧ (s.fltOn = true → s.fltUsed < 2 ^ s.fltFs → s.rf .fltNotify Fld.fltNotifyHartEn = 0 → s.rf .fltNotify Fld.fltNotifyVectorEn = 0 →
          s.faultFwd = false →
          let j := s.rf .fltTail Fld.fltTailTail
          let a := s.af .fltRingBase Fld.fltRingBaseBase * 4096 + 64 * (j % 2 ^ s.fltFs)
          s.usable a = true → s.deviceBias a = true → s.bankHeld a = false → Completes .faultRecord s (fun t => pins t
            ∧ t.flt = { s.flt with net := rest, seq := s.flt.seq + 1, lostRun := 0 } ∧ t.rf .fltTail Fld.fltTailTail = (j + 1) % 2 ^ 32
            ∧ t.memBytes a 64 = recBytes s.devId r s.flt.seq.toNat (s.flt.lostRun != 0) false ((j / 2 ^ s.fltFs + 1) % 2 == 1) s.flt.lostRun
            ∧ (∀ x, ¬(a ≤ x ∧ x < a + 64) → t.memByte x = s.memByte x) ∧ only t [.fltStatus, .fltTail])))
    ∧ (s.fltCommitError ≠ 0 → Completes .fltCommit s (fun t => t.rf .fltStatus Fld.fltStatusCommitError = s.fltCommitError
        ∧ only t [.fltStatus] ∧ SameButCsr s t))
    ∧ (s.fltCommitError = 0 → s.flt.early = [] ∨ s.frozen = true ∨ s.rf .fltCtrl Fld.fltCtrlEnable = 0 → Completes .fltCommit s (fun t =>
        t.aget .fltRingBase = s.rget .fltRingBase ∧ t.aget .fltCtrl = s.rget .fltCtrl
          ∧ (∀ r, r ≠ .fltRingBase → r ≠ .fltCtrl → t.aget r = s.aget r) ∧ only t [.fltStatus] ∧ { t with csr := s.csr, act := s.act } = s))
    ∧ (s.frozen = false → s.loadFailed = false → (∀ r ∈ s.flt.net, s.pinLevel r.sev = false) → Completes .faultPinClear s (fun t =>
        t.rf .fltStatus Fld.fltStatusPin = 0 ∧ only t [.fltStatus] ∧ SameButCsr s t))
    ∧ (s.frozen = true ∨ s.loadFailed = true ∨ (∃ r ∈ s.flt.net, s.pinLevel r.sev = true) → exec .faultPinClear s = .next s)
    ∧ (s.frozen = false → ∀ i src, (i, src) ∈ [(Instr.freeze, 1), (.freezeKey, 2)] → (src = 1 → s.rf .clkStatus Fld.clkStatusRootLock = 1) → Completes i s (fun t =>
        t.frozen = true ∧ t.rf .frzStatus Fld.frzStatusFrozen = 1 ∧ t.rf .frzStatus Fld.frzStatusSource = src ∧ t.rget .frzTime = s.now
          ∧ t.sys.selfRefresh = true ∧ only t [.frzStatus, .frzTime] ∧ { t with csr := s.csr, sys := s.sys, frozen := s.frozen } = s))
    ∧ (s.frozen = true → exec .freeze s = .next s ∧ exec .freezeKey s = .next s)
    ∧ (s.rf .clkStatus Fld.clkStatusRootLock ≠ 1 → s.released 1 = false → exec .freeze s = .next s)
    ∧ (s.rf .clkStatus Fld.clkStatusRootLock ≠ 1 → s.released 1 = true → s.frozen = false → ∃ b : Bool, Completes .freeze s (fun t =>
        t.frozen = b ∧ (b = true → t.rf .clkStatus Fld.clkStatusRootLock = 1 ∧ t.rf .frzStatus Fld.frzStatusSource = 1)
          ∧ (b = false → { t with freeCtr := s.freeCtr } = s)))
    ∧ (∀ r : FaultRec, s.frozen = false → s.triggers r.cls = true → let t := s.report r;
        t.frozen = true ∧ t.flt = s.flt ∧ t.rf .frzStatus Fld.frzStatusSource = 3
          ∧ (List.range 8).flatMap (fun w => leBytes 8 (t.rget (.frzRecord w)).toNat)
            = recBytes s.devId { r with time := s.now } (s.flt.seq.toNat + s.flt.net.length) (s.flt.lostRun != 0) false false s.flt.lostRun)
    ∧ (∀ r : FaultRec, s.frozen = true → s.report r = s)
    ∧ (let c := s.rf .frzChainSel Fld.frzChainSelChain; let w := s.rf .frzChainSel Fld.frzChainSelWord
        Completes .chainDataRead s (fun t => t.readData = s.chainWord c w
          ∧ t.rf .frzChainSel Fld.frzChainSelWord = (w + 1) % 2 ^ 32 ∧ t.rf .frzChainSel Fld.frzChainSelChain = c
          ∧ (s.frozen = false → t.readData = 0) ∧ only t [.frzChainSel] ∧ { t with csr := s.csr, readData := s.readData } = s))

/-! ## Time, telemetry, the run-phase pins and the TAP -/

/-- TIME.SET steps station time forward or is refused; a TIME commit shows its code or puts rate, slew and state in force;
HOLDOVER, the end of a slew, telemetry, PPS, the sideband latches, time marks and PTP stamps. What the spec leaves open here the
model settles (log entries 1, 4, 97, 103, 110, 120). Each TAP instruction is loaded; a pin test is accepted only while RESET_N
is held low and is refused as BYPASS otherwise; IDCODE captures the code with the stepping; SAMPLE/PRELOAD shifts the cells of
the boundary register (log entry 129); the FRZ instructions act only on a frozen device with jtag_read. (R410, R414, R415, R416,
R417, R418, R419, R440, R443, R444, R445, R446) -/
def Obligations.ClockAndTapCommandsComplete : Prop :=
  (∀ s : State,
    let only (t : State) (l : List Reg) : Prop := ∀ r, r ∉ l → t.rget r = s.rget r
    (∀ v : W64, s.now ≤ v → Completes (.timeSet v) s (fun t => t.now = v ∧ t.stn = v.toNat * 2 ^ 40
        ∧ t.sys = { s.sys with
          slew := if s.sys.slewNew then s.sys.slew else 0
          pps := if s.second < v.toNat / 10 ^ 9 ∧ s.runPhase = true ∧ s.frozen = false ∧ s.af .timeCfg Fld.timeCfgPpsOutEn = 1 then
            some v.toNat else s.sys.pps }
        ∧ { t with stn := s.stn, sys := s.sys } = s))
    ∧ (∀ v : W64, v < s.now → Completes (.timeSet v) s (fun t => t.rf .timeStatus Fld.timeStatusSetError = 1 ∧ only t [.timeStatus]
        ∧ SameButCsr s t))
    ∧ (let rate := sgn 32 (s.rf .timeAdj Fld.timeAdjRate)
      (549755813 < rate.natAbs → Completes .timeCommit s (fun t => t.rf .timeStatus Fld.timeStatusCommitError = 1 ∧ only t [.timeStatus]
        ∧ SameButCsr s t))
      ∧ (rate.natAbs ≤ 549755813 → s.repitchState = 2 → Completes .timeCommit s (fun t =>
        t.rf .timeStatus Fld.timeStatusCommitError = 2 ∧ only t [.timeStatus] ∧ SameButCsr s t))
      ∧ (rate.natAbs ≤ 549755813 → s.repitchState ≠ 2 → Completes .timeCommit s (fun t =>
        t.rf .timeStatus Fld.timeStatusCommitError = 0 ∧ t.aget .timeAdj = s.rget .timeAdj ∧ t.aget .timeCfg = s.rget .timeCfg
          ∧ t.sys = { s.sys with slew := sgn 32 (s.rf .timeAdj Fld.timeAdjSlew) * 2 ^ 40, slewNew := true, sinceCommit := 0 } ∧ t.stn = s.stn
          ∧ t.clockState = (if s.rf .timeCfg Fld.timeCfgStateReq = 0 ∨ s.loadPhase = true ∧ s.rf .timeCfg Fld.timeCfgStateReq ≠ 3 then s.clockState
            else s.rf .timeCfg Fld.timeCfgStateReq)
          ∧ (s.rf .timeCfg Fld.timeCfgStateReq = 3 → t.rf .timeAlert Fld.timeAlertHoldover = 1) ∧ only t [.timeStatus, .timeAlert])))
    ∧ (s.clockState = 2 → 175000000 * max 1 (s.af .timeCfg Fld.timeCfgHoldoverS) ≤ s.sys.sinceCommit + 1 → Completes .holdoverTimeout s (fun t => t.clockState = 3 ∧ t.rf .timeAlert Fld.timeAlertHoldover = 1
        ∧ only t [.timeStatus, .timeAlert] ∧ SameButCsr s t))
    ∧ (s.clockState ≠ 2 ∨ s.sys.sinceCommit + 1 < 175000000 * max 1 (s.af .timeCfg Fld.timeCfgHoldoverS) →
        exec .holdoverTimeout s = .next s)
    ∧ (s.sys.slew.natAbs ≤ s.slewStep → exec .slewComplete s = .next { s with sys := { s.sys with slew := 0 } })
    ∧ (∀ (temps : List W16) power energy, Completes (.telemetrySample temps power energy) s (fun t =>
        t.rget .timePower = power ∧ t.rget .timeEnergy = energy ∧ SameButCsr s t
        ∧ (∀ i, i < 56 → temps.length ≤ i → t.rf (.timeTemp i) Fld.timeTempTemp = s.rf (.timeTemp i) Fld.timeTempTemp) ∧ ∀ i, i < 56 → ∀ x, temps[i]? = some x →
          t.rf (.timeTemp i) Fld.timeTempTemp = x.toNat
            ∧ sgn 16 (t.rf (.timeTemp i) Fld.timeTempPeak) = max (sgn 16 (s.rf (.timeTemp i) Fld.timeTempPeak)) (sgn 16 x.toNat)
            ∧ (s.frozen = false → 40 ≤ i → t.rf (.hbmcStatus (i - 40)) Fld.hbmcStatusHotRefresh = (if 85 * 16 < sgn 16 x.toNat then 1 else 0))))
    ∧ (∀ (t : State) l, l = t.alerts → (t.tooHot = true → l.rf .timeAlert Fld.timeAlertTemp = 1)
        ∧ (t.tooMuch = true → l.rf .timeAlert Fld.timeAlertPower = 1) ∧ (t.offTime = true → l.rf .timeAlert Fld.timeAlertOffset = 1))
    ∧ (s.runPhase = true → s.af .timeCfg Fld.timeCfgPpsInEn = 1 → s.sys.ppsSeen = false ∨ (s.rget .timePpsIn).toNat + 500000000 ≤ s.now.toNat →
        Completes .ppsInEdge s (fun t => t.rget .timePpsIn = s.now ∧ t.sys.ppsSeen = true ∧ only t [.timePpsIn]))
    ∧ (s.runPhase = true → s.sys.ppsSeen = true → s.now.toNat < (s.rget .timePpsIn).toNat + 500000000 → exec .ppsInEdge s = .next s)
    ∧ (s.frozen = false → s.runPhase = true → s.af .timeCfg Fld.timeCfgPpsOutEn = 1 → s.ppsNear = true → Completes .ppsOut s (fun t => t.ppsOut = some true
        ∧ { t with sys := s.sys } = s))
    ∧ (s.ppsNear = false → exec .ppsOut s = .next s)
    ∧ (∀ i, s.runPhase = true → Completes (.sidebandFallingEdge i) s (fun t =>
        t.rf .bootSideband (if i = 0 then Fld.bootSidebandSbi0Fell else Fld.bootSidebandSbi1Fell) = 1 ∧ only t [.bootSideband] ∧ SameButCsr s t))
    ∧ (s.traceOn Fld.bootTraceMarks = true → s.sys.traceQ.length < 16 → Completes .timeMark s (fun t =>
        t.sys.traceQ = s.sys.traceQ ++ [[0x7E, 2] ++ leBytes 8 s.now.toNat ++ [(leBytes 8 s.now.toNat).foldl (· ^^^ ·) 0]]
          ∧ { t with sys := s.sys } = s))
    ∧ (∀ l,
        (s.acceptsPtp l = true → exec (.ptpFrame l) s = .next { s with sys := { s.sys with ptp := (s.now, l) :: s.sys.ptp } })
        ∧ (s.acceptsPtp l = false → exec (.ptpFrame l) s = .next s)))
  ∧ (∀ s : State,
    let loads (i : Instr) (ir : TapInstr) (v : W64) : Prop := Completes i s (fun t =>
      t.sys = { s.sys with tap := { s.sys.tap with ir := ir, refused := false, captured := v } } ∧ { t with sys := s.sys } = s)
    (∀ i ir (low : Bool), (i, ir) ∈ [(Instr.extest low, TapInstr.extest), (.highz low, .highz), (.clamp low, .clamp),
        (.extestPulse low, .extestPulse), (.extestTrain low, .extestTrain)] →
      (low = true → s.released 0 = false → loads i ir 0)
      ∧ (low = false → Completes i s (fun t => t.sys = { s.sys with tap := { s.sys.tap with ir := .bypass, refused := true, captured := 0 } }
        ∧ bitsOf t.captureIr.toNat 2 1 = 1 ∧ { t with sys := s.sys } = s)))
    ∧ loads .bypass .bypass 0
    ∧ loads .idcode .idcode (BitVec.ofNat 64 (0x0296B4A7 + bitsOf s.sys.fuses.part.toNat 40 4 * 2 ^ 28))
    ∧ (∀ cells, Completes (.samplePreload cells) s (fun t => t.sys.tap.ir = .samplePreload ∧ t.sys.tap.cells.length = boundaryLength
        ∧ (∀ k, k < boundaryLength → t.sys.tap.cells.getD k false = cells.getD k false) ∧ { t with sys := s.sys } = s))
    ∧ (∀ op, op ∉ [0x00, 0x01, 0x02, 0x03, 0x04, 0x05, 0x06, 0x10, 0x11, 0x12, 0x13] → tapInstr op = .bypass)
    ∧ Completes .tapReset s (fun t => t.sys.tap.ir = .idcode ∧ t.sys.tap.refused = false ∧ { t with sys := s.sys } = s)
    ∧ (s.frozen = true → s.rf .frzCfg Fld.frzCfgJtagRead = 1 →
        (∀ (chain : W16) (word : W32), Completes (.frzSel chain word) s (fun t => t.rf .frzChainSel Fld.frzChainSelChain = chain.toNat
          ∧ t.rf .frzChainSel Fld.frzChainSelWord = word.toNat ∧ t.sys.tap.ir = .frzSel ∧ (∀ r, r ≠ .frzChainSel → t.rget r = s.rget r)))
        ∧ Completes .frzRead s (fun t =>
          t.sys.tap.captured = s.chainWord (s.rf .frzChainSel Fld.frzChainSelChain) (s.rf .frzChainSel Fld.frzChainSelWord)
            ∧ t.rf .frzChainSel Fld.frzChainSelWord = (s.rf .frzChainSel Fld.frzChainSelWord + 1) % 2 ^ 32)
        ∧ loads .frzLen .frzLen (BitVec.ofNat 64 (s.chainLen (s.rf .frzChainSel Fld.frzChainSelChain))))
    ∧ (s.frozen = false ∨ s.rf .frzCfg Fld.frzCfgJtagRead = 0 →
        (∀ chain word, loads (.frzSel chain word) .frzSel 0) ∧ loads .frzRead .frzRead 0 ∧ loads .frzLen .frzLen 0))

/-! ## The whole machine -/

/-- After reset the last cause is POR, no command waits, the memory has its canonical form and reads as zero, every register
holds its reset value, station time is zero and nothing is frozen. (R10, R382, R404, R410) -/
def Obligations.ResetState : Prop :=
  let s := State.reset
  s.rf .rstLastCause Fld.rstLastCauseCause = 1 ∧ s.pending = [] ∧ Memory.wf s.mem = true ∧ (∀ a, s.byteAt a = 0)
    ∧ (∀ r, s.rget r = r.reset ∧ s.aget r = r.reset) ∧ s.stn = 0 ∧ s.frozen = false ∧ (∀ n, s.tile n = Tile.reset)
    ∧ (∀ r, s.ring r = Ring.reset) ∧ s.flt.net = []

/-- Between two device resets station time never decreases: a clock cycle adds to it, no command changes it but a forward step
of TIME.SET, which clears its fraction and the slew but for one committed in the same BCLK (log entry 103). (R410, R411, R415) -/
def Obligations.StationTimeNeverDecreases : Prop :=
  ∀ s t : State, s.released 0 = true → s.stn < 2 ^ 104 → step s = .next t →
    ResetBy s t
      ∨ (s.pending = [] ∧ t.stn = s.stn + s.stepTime)
      ∨ (s.pending ≠ [] ∧ (t.stn = s.stn ∨ (t.stn % 2 ^ 40 = 0 ∧ s.stn / 2 ^ 40 ≤ t.stn / 2 ^ 40 ∧ t.sys.slew = if s.sys.slewNew then s.sys.slew else 0)))

/-- A frozen device leaves the freeze only through a device reset, whose cause the latch records, and the freeze itself leaves
no record; until then no step changes what has no clock: memory, tiles, rings, cores, homes, the mesh, the fabric, the engines,
the I/O and their registers. (R408) -/
def Obligations.FreezeContains : Prop :=
  (∀ s t : State, s.frozen = true → step s = .next t →
    ResetBy s t
      ∨ (t.frozen = true ∧ t.mem = s.mem ∧ t.ue = s.ue ∧ t.ce = s.ce ∧ t.tiles = s.tiles ∧ t.rings = s.rings ∧ t.arb = s.arb ∧ t.flt = s.flt
        ∧ t.bias = s.bias ∧ t.flip = s.flip ∧ t.homes = s.homes ∧ t.cores = s.cores ∧ t.mesh = s.mesh ∧ t.mcs = s.mcs ∧ t.fab = s.fab
        ∧ t.jobs = s.jobs ∧ t.engine = s.engine ∧ t.sched = s.sched ∧ t.aclk = s.aclk ∧ t.io = s.io
        ∧ (∀ r : Reg, 0xF00001000000 ≤ r.addr → t.rget r = s.rget r ∧ t.aget r = s.aget r) ∧ t.sys.held = s.sys.held))
  ∧ ∀ (s : State) (source cls : Nat), (s.freeze source cls).flt = s.flt ∧ (s.freeze source cls).frozen = true
end

