-- ==== Sys2Proof/Laws/State.lean ====
section
/-! SUPPORT. What the named updates of the state leave unchanged: one lemma per field and update, true by unfolding. -/

namespace Sys2Proof.Machine

/-! `rset` changes csr. -/
@[simp] theorem rset_pending (s : State) (r : Reg) (v : W64) : (s.rset r v).pending = s.pending := rfl
@[simp] theorem rset_act (s : State) (r : Reg) (v : W64) : (s.rset r v).act = s.act := rfl
@[simp] theorem rset_mem (s : State) (r : Reg) (v : W64) : (s.rset r v).mem = s.mem := rfl
@[simp] theorem rset_ue (s : State) (r : Reg) (v : W64) : (s.rset r v).ue = s.ue := rfl
@[simp] theorem rset_ce (s : State) (r : Reg) (v : W64) : (s.rset r v).ce = s.ce := rfl
@[simp] theorem rset_stn (s : State) (r : Reg) (v : W64) : (s.rset r v).stn = s.stn := rfl
@[simp] theorem rset_aclk (s : State) (r : Reg) (v : W64) : (s.rset r v).aclk = s.aclk := rfl
@[simp] theorem rset_aclk6 (s : State) (r : Reg) (v : W64) : (s.rset r v).aclk6 = s.aclk6 := rfl
@[simp] theorem rset_mclk (s : State) (r : Reg) (v : W64) : (s.rset r v).mclk = s.mclk := rfl
@[simp] theorem rset_frozen (s : State) (r : Reg) (v : W64) : (s.rset r v).frozen = s.frozen := rfl
@[simp] theorem rset_tiles (s : State) (r : Reg) (v : W64) : (s.rset r v).tiles = s.tiles := rfl
@[simp] theorem rset_rings (s : State) (r : Reg) (v : W64) : (s.rset r v).rings = s.rings := rfl
@[simp] theorem rset_arb (s : State) (r : Reg) (v : W64) : (s.rset r v).arb = s.arb := rfl
@[simp] theorem rset_flt (s : State) (r : Reg) (v : W64) : (s.rset r v).flt = s.flt := rfl
@[simp] theorem rset_bias (s : State) (r : Reg) (v : W64) : (s.rset r v).bias = s.bias := rfl
@[simp] theorem rset_flip (s : State) (r : Reg) (v : W64) : (s.rset r v).flip = s.flip := rfl
@[simp] theorem rset_homes (s : State) (r : Reg) (v : W64) : (s.rset r v).homes = s.homes := rfl
@[simp] theorem rset_cores (s : State) (r : Reg) (v : W64) : (s.rset r v).cores = s.cores := rfl
@[simp] theorem rset_mesh (s : State) (r : Reg) (v : W64) : (s.rset r v).mesh = s.mesh := rfl
@[simp] theorem rset_mcs (s : State) (r : Reg) (v : W64) : (s.rset r v).mcs = s.mcs := rfl
@[simp] theorem rset_fab (s : State) (r : Reg) (v : W64) : (s.rset r v).fab = s.fab := rfl
@[simp] theorem rset_jobs (s : State) (r : Reg) (v : W64) : (s.rset r v).jobs = s.jobs := rfl
@[simp] theorem rset_engine (s : State) (r : Reg) (v : W64) : (s.rset r v).engine = s.engine := rfl
@[simp] theorem rset_sched (s : State) (r : Reg) (v : W64) : (s.rset r v).sched = s.sched := rfl
@[simp] theorem rset_io (s : State) (r : Reg) (v : W64) : (s.rset r v).io = s.io := rfl
@[simp] theorem rset_sys (s : State) (r : Reg) (v : W64) : (s.rset r v).sys = s.sys := rfl
@[simp] theorem rset_image (s : State) (r : Reg) (v : W64) : (s.rset r v).image = s.image := rfl
@[simp] theorem rset_readData (s : State) (r : Reg) (v : W64) : (s.rset r v).readData = s.readData := rfl
@[simp] theorem rset_freeCtr (s : State) (r : Reg) (v : W64) : (s.rset r v).freeCtr = s.freeCtr := rfl

/-! `aset` changes act. -/
@[simp] theorem aset_pending (s : State) (r : Reg) (v : W64) : (s.aset r v).pending = s.pending := rfl
@[simp] theorem aset_csr (s : State) (r : Reg) (v : W64) : (s.aset r v).csr = s.csr := rfl
@[simp] theorem aset_mem (s : State) (r : Reg) (v : W64) : (s.aset r v).mem = s.mem := rfl
@[simp] theorem aset_ue (s : State) (r : Reg) (v : W64) : (s.aset r v).ue = s.ue := rfl
@[simp] theorem aset_ce (s : State) (r : Reg) (v : W64) : (s.aset r v).ce = s.ce := rfl
@[simp] theorem aset_stn (s : State) (r : Reg) (v : W64) : (s.aset r v).stn = s.stn := rfl
@[simp] theorem aset_aclk (s : State) (r : Reg) (v : W64) : (s.aset r v).aclk = s.aclk := rfl
@[simp] theorem aset_aclk6 (s : State) (r : Reg) (v : W64) : (s.aset r v).aclk6 = s.aclk6 := rfl
@[simp] theorem aset_mclk (s : State) (r : Reg) (v : W64) : (s.aset r v).mclk = s.mclk := rfl
@[simp] theorem aset_frozen (s : State) (r : Reg) (v : W64) : (s.aset r v).frozen = s.frozen := rfl
@[simp] theorem aset_tiles (s : State) (r : Reg) (v : W64) : (s.aset r v).tiles = s.tiles := rfl
@[simp] theorem aset_rings (s : State) (r : Reg) (v : W64) : (s.aset r v).rings = s.rings := rfl
@[simp] theorem aset_arb (s : State) (r : Reg) (v : W64) : (s.aset r v).arb = s.arb := rfl
@[simp] theorem aset_flt (s : State) (r : Reg) (v : W64) : (s.aset r v).flt = s.flt := rfl
@[simp] theorem aset_bias (s : State) (r : Reg) (v : W64) : (s.aset r v).bias = s.bias := rfl
@[simp] theorem aset_flip (s : State) (r : Reg) (v : W64) : (s.aset r v).flip = s.flip := rfl
@[simp] theorem aset_homes (s : State) (r : Reg) (v : W64) : (s.aset r v).homes = s.homes := rfl
@[simp] theorem aset_cores (s : State) (r : Reg) (v : W64) : (s.aset r v).cores = s.cores := rfl
@[simp] theorem aset_mesh (s : State) (r : Reg) (v : W64) : (s.aset r v).mesh = s.mesh := rfl
@[simp] theorem aset_mcs (s : State) (r : Reg) (v : W64) : (s.aset r v).mcs = s.mcs := rfl
@[simp] theorem aset_fab (s : State) (r : Reg) (v : W64) : (s.aset r v).fab = s.fab := rfl
@[simp] theorem aset_jobs (s : State) (r : Reg) (v : W64) : (s.aset r v).jobs = s.jobs := rfl
@[simp] theorem aset_engine (s : State) (r : Reg) (v : W64) : (s.aset r v).engine = s.engine := rfl
@[simp] theorem aset_sched (s : State) (r : Reg) (v : W64) : (s.aset r v).sched = s.sched := rfl
@[simp] theorem aset_io (s : State) (r : Reg) (v : W64) : (s.aset r v).io = s.io := rfl
@[simp] theorem aset_sys (s : State) (r : Reg) (v : W64) : (s.aset r v).sys = s.sys := rfl
@[simp] theorem aset_image (s : State) (r : Reg) (v : W64) : (s.aset r v).image = s.image := rfl
@[simp] theorem aset_readData (s : State) (r : Reg) (v : W64) : (s.aset r v).readData = s.readData := rfl
@[simp] theorem aset_freeCtr (s : State) (r : Reg) (v : W64) : (s.aset r v).freeCtr = s.freeCtr := rfl

/-! `setF` changes csr. -/
@[simp] theorem setF_pending (s : State) (r : Reg) (f : Fld) (x : Nat) : (s.setF r f x).pending = s.pending := rfl
@[simp] theorem setF_act (s : State) (r : Reg) (f : Fld) (x : Nat) : (s.setF r f x).act = s.act := rfl
@[simp] theorem setF_mem (s : State) (r : Reg) (f : Fld) (x : Nat) : (s.setF r f x).mem = s.mem := rfl
@[simp] theorem setF_ue (s : State) (r : Reg) (f : Fld) (x : Nat) : (s.setF r f x).ue = s.ue := rfl
@[simp] theorem setF_ce (s : State) (r : Reg) (f : Fld) (x : Nat) : (s.setF r f x).ce = s.ce := rfl
@[simp] theorem setF_stn (s : State) (r : Reg) (f : Fld) (x : Nat) : (s.setF r f x).stn = s.stn := rfl
@[simp] theorem setF_aclk (s : State) (r : Reg) (f : Fld) (x : Nat) : (s.setF r f x).aclk = s.aclk := rfl
@[simp] theorem setF_aclk6 (s : State) (r : Reg) (f : Fld) (x : Nat) : (s.setF r f x).aclk6 = s.aclk6 := rfl
@[simp] theorem setF_mclk (s : State) (r : Reg) (f : Fld) (x : Nat) : (s.setF r f x).mclk = s.mclk := rfl
@[simp] theorem setF_frozen (s : State) (r : Reg) (f : Fld) (x : Nat) : (s.setF r f x).frozen = s.frozen := rfl
@[simp] theorem setF_tiles (s : State) (r : Reg) (f : Fld) (x : Nat) : (s.setF r f x).tiles = s.tiles := rfl
@[simp] theorem setF_rings (s : State) (r : Reg) (f : Fld) (x : Nat) : (s.setF r f x).rings = s.rings := rfl
@[simp] theorem setF_arb (s : State) (r : Reg) (f : Fld) (x : Nat) : (s.setF r f x).arb = s.arb := rfl
@[simp] theorem setF_flt (s : State) (r : Reg) (f : Fld) (x : Nat) : (s.setF r f x).flt = s.flt := rfl
@[simp] theorem setF_bias (s : State) (r : Reg) (f : Fld) (x : Nat) : (s.setF r f x).bias = s.bias := rfl
@[simp] theorem setF_flip (s : State) (r : Reg) (f : Fld) (x : Nat) : (s.setF r f x).flip = s.flip := rfl
@[simp] theorem setF_homes (s : State) (r : Reg) (f : Fld) (x : Nat) : (s.setF r f x).homes = s.homes := rfl
@[simp] theorem setF_cores (s : State) (r : Reg) (f : Fld) (x : Nat) : (s.setF r f x).cores = s.cores := rfl
@[simp] theorem setF_mesh (s : State) (r : Reg) (f : Fld) (x : Nat) : (s.setF r f x).mesh = s.mesh := rfl
@[simp] theorem setF_mcs (s : State) (r : Reg) (f : Fld) (x : Nat) : (s.setF r f x).mcs = s.mcs := rfl
@[simp] theorem setF_fab (s : State) (r : Reg) (f : Fld) (x : Nat) : (s.setF r f x).fab = s.fab := rfl
@[simp] theorem setF_jobs (s : State) (r : Reg) (f : Fld) (x : Nat) : (s.setF r f x).jobs = s.jobs := rfl
@[simp] theorem setF_engine (s : State) (r : Reg) (f : Fld) (x : Nat) : (s.setF r f x).engine = s.engine := rfl
@[simp] theorem setF_sched (s : State) (r : Reg) (f : Fld) (x : Nat) : (s.setF r f x).sched = s.sched := rfl
@[simp] theorem setF_io (s : State) (r : Reg) (f : Fld) (x : Nat) : (s.setF r f x).io = s.io := rfl
@[simp] theorem setF_sys (s : State) (r : Reg) (f : Fld) (x : Nat) : (s.setF r f x).sys = s.sys := rfl
@[simp] theorem setF_image (s : State) (r : Reg) (f : Fld) (x : Nat) : (s.setF r f x).image = s.image := rfl
@[simp] theorem setF_readData (s : State) (r : Reg) (f : Fld) (x : Nat) : (s.setF r f x).readData = s.readData := rfl
@[simp] theorem setF_freeCtr (s : State) (r : Reg) (f : Fld) (x : Nat) : (s.setF r f x).freeCtr = s.freeCtr := rfl

/-! `setB` changes csr. -/
@[simp] theorem setB_pending (s : State) (r : Reg) (f : Fld) (b : Bool) : (s.setB r f b).pending = s.pending := rfl
@[simp] theorem setB_act (s : State) (r : Reg) (f : Fld) (b : Bool) : (s.setB r f b).act = s.act := rfl
@[simp] theorem setB_mem (s : State) (r : Reg) (f : Fld) (b : Bool) : (s.setB r f b).mem = s.mem := rfl
@[simp] theorem setB_ue (s : State) (r : Reg) (f : Fld) (b : Bool) : (s.setB r f b).ue = s.ue := rfl
@[simp] theorem setB_ce (s : State) (r : Reg) (f : Fld) (b : Bool) : (s.setB r f b).ce = s.ce := rfl
@[simp] theorem setB_stn (s : State) (r : Reg) (f : Fld) (b : Bool) : (s.setB r f b).stn = s.stn := rfl
@[simp] theorem setB_aclk (s : State) (r : Reg) (f : Fld) (b : Bool) : (s.setB r f b).aclk = s.aclk := rfl
@[simp] theorem setB_aclk6 (s : State) (r : Reg) (f : Fld) (b : Bool) : (s.setB r f b).aclk6 = s.aclk6 := rfl
@[simp] theorem setB_mclk (s : State) (r : Reg) (f : Fld) (b : Bool) : (s.setB r f b).mclk = s.mclk := rfl
@[simp] theorem setB_frozen (s : State) (r : Reg) (f : Fld) (b : Bool) : (s.setB r f b).frozen = s.frozen := rfl
@[simp] theorem setB_tiles (s : State) (r : Reg) (f : Fld) (b : Bool) : (s.setB r f b).tiles = s.tiles := rfl
@[simp] theorem setB_rings (s : State) (r : Reg) (f : Fld) (b : Bool) : (s.setB r f b).rings = s.rings := rfl
@[simp] theorem setB_arb (s : State) (r : Reg) (f : Fld) (b : Bool) : (s.setB r f b).arb = s.arb := rfl
@[simp] theorem setB_flt (s : State) (r : Reg) (f : Fld) (b : Bool) : (s.setB r f b).flt = s.flt := rfl
@[simp] theorem setB_bias (s : State) (r : Reg) (f : Fld) (b : Bool) : (s.setB r f b).bias = s.bias := rfl
@[simp] theorem setB_flip (s : State) (r : Reg) (f : Fld) (b : Bool) : (s.setB r f b).flip = s.flip := rfl
@[simp] theorem setB_homes (s : State) (r : Reg) (f : Fld) (b : Bool) : (s.setB r f b).homes = s.homes := rfl
@[simp] theorem setB_cores (s : State) (r : Reg) (f : Fld) (b : Bool) : (s.setB r f b).cores = s.cores := rfl
@[simp] theorem setB_mesh (s : State) (r : Reg) (f : Fld) (b : Bool) : (s.setB r f b).mesh = s.mesh := rfl
@[simp] theorem setB_mcs (s : State) (r : Reg) (f : Fld) (b : Bool) : (s.setB r f b).mcs = s.mcs := rfl
@[simp] theorem setB_fab (s : State) (r : Reg) (f : Fld) (b : Bool) : (s.setB r f b).fab = s.fab := rfl
@[simp] theorem setB_jobs (s : State) (r : Reg) (f : Fld) (b : Bool) : (s.setB r f b).jobs = s.jobs := rfl
@[simp] theorem setB_engine (s : State) (r : Reg) (f : Fld) (b : Bool) : (s.setB r f b).engine = s.engine := rfl
@[simp] theorem setB_sched (s : State) (r : Reg) (f : Fld) (b : Bool) : (s.setB r f b).sched = s.sched := rfl
@[simp] theorem setB_io (s : State) (r : Reg) (f : Fld) (b : Bool) : (s.setB r f b).io = s.io := rfl
@[simp] theorem setB_sys (s : State) (r : Reg) (f : Fld) (b : Bool) : (s.setB r f b).sys = s.sys := rfl
@[simp] theorem setB_image (s : State) (r : Reg) (f : Fld) (b : Bool) : (s.setB r f b).image = s.image := rfl
@[simp] theorem setB_readData (s : State) (r : Reg) (f : Fld) (b : Bool) : (s.setB r f b).readData = s.readData := rfl
@[simp] theorem setB_freeCtr (s : State) (r : Reg) (f : Fld) (b : Bool) : (s.setB r f b).freeCtr = s.freeCtr := rfl

/-! `bumpF` changes csr. -/
@[simp] theorem bumpF_pending (s : State) (r : Reg) (f : Fld) (k : Nat) : (s.bumpF r f k).pending = s.pending := rfl
@[simp] theorem bumpF_act (s : State) (r : Reg) (f : Fld) (k : Nat) : (s.bumpF r f k).act = s.act := rfl
@[simp] theorem bumpF_mem (s : State) (r : Reg) (f : Fld) (k : Nat) : (s.bumpF r f k).mem = s.mem := rfl
@[simp] theorem bumpF_ue (s : State) (r : Reg) (f : Fld) (k : Nat) : (s.bumpF r f k).ue = s.ue := rfl
@[simp] theorem bumpF_ce (s : State) (r : Reg) (f : Fld) (k : Nat) : (s.bumpF r f k).ce = s.ce := rfl
@[simp] theorem bumpF_stn (s : State) (r : Reg) (f : Fld) (k : Nat) : (s.bumpF r f k).stn = s.stn := rfl
@[simp] theorem bumpF_aclk (s : State) (r : Reg) (f : Fld) (k : Nat) : (s.bumpF r f k).aclk = s.aclk := rfl
@[simp] theorem bumpF_aclk6 (s : State) (r : Reg) (f : Fld) (k : Nat) : (s.bumpF r f k).aclk6 = s.aclk6 := rfl
@[simp] theorem bumpF_mclk (s : State) (r : Reg) (f : Fld) (k : Nat) : (s.bumpF r f k).mclk = s.mclk := rfl
@[simp] theorem bumpF_frozen (s : State) (r : Reg) (f : Fld) (k : Nat) : (s.bumpF r f k).frozen = s.frozen := rfl
@[simp] theorem bumpF_tiles (s : State) (r : Reg) (f : Fld) (k : Nat) : (s.bumpF r f k).tiles = s.tiles := rfl
@[simp] theorem bumpF_rings (s : State) (r : Reg) (f : Fld) (k : Nat) : (s.bumpF r f k).rings = s.rings := rfl
@[simp] theorem bumpF_arb (s : State) (r : Reg) (f : Fld) (k : Nat) : (s.bumpF r f k).arb = s.arb := rfl
@[simp] theorem bumpF_flt (s : State) (r : Reg) (f : Fld) (k : Nat) : (s.bumpF r f k).flt = s.flt := rfl
@[simp] theorem bumpF_bias (s : State) (r : Reg) (f : Fld) (k : Nat) : (s.bumpF r f k).bias = s.bias := rfl
@[simp] theorem bumpF_flip (s : State) (r : Reg) (f : Fld) (k : Nat) : (s.bumpF r f k).flip = s.flip := rfl
@[simp] theorem bumpF_homes (s : State) (r : Reg) (f : Fld) (k : Nat) : (s.bumpF r f k).homes = s.homes := rfl
@[simp] theorem bumpF_cores (s : State) (r : Reg) (f : Fld) (k : Nat) : (s.bumpF r f k).cores = s.cores := rfl
@[simp] theorem bumpF_mesh (s : State) (r : Reg) (f : Fld) (k : Nat) : (s.bumpF r f k).mesh = s.mesh := rfl
@[simp] theorem bumpF_mcs (s : State) (r : Reg) (f : Fld) (k : Nat) : (s.bumpF r f k).mcs = s.mcs := rfl
@[simp] theorem bumpF_fab (s : State) (r : Reg) (f : Fld) (k : Nat) : (s.bumpF r f k).fab = s.fab := rfl
@[simp] theorem bumpF_jobs (s : State) (r : Reg) (f : Fld) (k : Nat) : (s.bumpF r f k).jobs = s.jobs := rfl
@[simp] theorem bumpF_engine (s : State) (r : Reg) (f : Fld) (k : Nat) : (s.bumpF r f k).engine = s.engine := rfl
@[simp] theorem bumpF_sched (s : State) (r : Reg) (f : Fld) (k : Nat) : (s.bumpF r f k).sched = s.sched := rfl
@[simp] theorem bumpF_io (s : State) (r : Reg) (f : Fld) (k : Nat) : (s.bumpF r f k).io = s.io := rfl
@[simp] theorem bumpF_sys (s : State) (r : Reg) (f : Fld) (k : Nat) : (s.bumpF r f k).sys = s.sys := rfl
@[simp] theorem bumpF_image (s : State) (r : Reg) (f : Fld) (k : Nat) : (s.bumpF r f k).image = s.image := rfl
@[simp] theorem bumpF_readData (s : State) (r : Reg) (f : Fld) (k : Nat) : (s.bumpF r f k).readData = s.readData := rfl
@[simp] theorem bumpF_freeCtr (s : State) (r : Reg) (f : Fld) (k : Nat) : (s.bumpF r f k).freeCtr = s.freeCtr := rfl

/-! `commitReg` changes act. -/
@[simp] theorem commitReg_pending (s : State) (r : Reg) : (s.commitReg r).pending = s.pending := rfl
@[simp] theorem commitReg_csr (s : State) (r : Reg) : (s.commitReg r).csr = s.csr := rfl
@[simp] theorem commitReg_mem (s : State) (r : Reg) : (s.commitReg r).mem = s.mem := rfl
@[simp] theorem commitReg_ue (s : State) (r : Reg) : (s.commitReg r).ue = s.ue := rfl
@[simp] theorem commitReg_ce (s : State) (r : Reg) : (s.commitReg r).ce = s.ce := rfl
@[simp] theorem commitReg_stn (s : State) (r : Reg) : (s.commitReg r).stn = s.stn := rfl
@[simp] theorem commitReg_aclk (s : State) (r : Reg) : (s.commitReg r).aclk = s.aclk := rfl
@[simp] theorem commitReg_aclk6 (s : State) (r : Reg) : (s.commitReg r).aclk6 = s.aclk6 := rfl
@[simp] theorem commitReg_mclk (s : State) (r : Reg) : (s.commitReg r).mclk = s.mclk := rfl
@[simp] theorem commitReg_frozen (s : State) (r : Reg) : (s.commitReg r).frozen = s.frozen := rfl
@[simp] theorem commitReg_tiles (s : State) (r : Reg) : (s.commitReg r).tiles = s.tiles := rfl
@[simp] theorem commitReg_rings (s : State) (r : Reg) : (s.commitReg r).rings = s.rings := rfl
@[simp] theorem commitReg_arb (s : State) (r : Reg) : (s.commitReg r).arb = s.arb := rfl
@[simp] theorem commitReg_flt (s : State) (r : Reg) : (s.commitReg r).flt = s.flt := rfl
@[simp] theorem commitReg_bias (s : State) (r : Reg) : (s.commitReg r).bias = s.bias := rfl
@[simp] theorem commitReg_flip (s : State) (r : Reg) : (s.commitReg r).flip = s.flip := rfl
@[simp] theorem commitReg_homes (s : State) (r : Reg) : (s.commitReg r).homes = s.homes := rfl
@[simp] theorem commitReg_cores (s : State) (r : Reg) : (s.commitReg r).cores = s.cores := rfl
@[simp] theorem commitReg_mesh (s : State) (r : Reg) : (s.commitReg r).mesh = s.mesh := rfl
@[simp] theorem commitReg_mcs (s : State) (r : Reg) : (s.commitReg r).mcs = s.mcs := rfl
@[simp] theorem commitReg_fab (s : State) (r : Reg) : (s.commitReg r).fab = s.fab := rfl
@[simp] theorem commitReg_jobs (s : State) (r : Reg) : (s.commitReg r).jobs = s.jobs := rfl
@[simp] theorem commitReg_engine (s : State) (r : Reg) : (s.commitReg r).engine = s.engine := rfl
@[simp] theorem commitReg_sched (s : State) (r : Reg) : (s.commitReg r).sched = s.sched := rfl
@[simp] theorem commitReg_io (s : State) (r : Reg) : (s.commitReg r).io = s.io := rfl
@[simp] theorem commitReg_sys (s : State) (r : Reg) : (s.commitReg r).sys = s.sys := rfl
@[simp] theorem commitReg_image (s : State) (r : Reg) : (s.commitReg r).image = s.image := rfl
@[simp] theorem commitReg_readData (s : State) (r : Reg) : (s.commitReg r).readData = s.readData := rfl
@[simp] theorem commitReg_freeCtr (s : State) (r : Reg) : (s.commitReg r).freeCtr = s.freeCtr := rfl

/-! `setTile` changes tiles. -/
@[simp] theorem setTile_pending (s : State) (n : Nat) (x : Tile) : (s.setTile n x).pending = s.pending := rfl
@[simp] theorem setTile_csr (s : State) (n : Nat) (x : Tile) : (s.setTile n x).csr = s.csr := rfl
@[simp] theorem setTile_act (s : State) (n : Nat) (x : Tile) : (s.setTile n x).act = s.act := rfl
@[simp] theorem setTile_mem (s : State) (n : Nat) (x : Tile) : (s.setTile n x).mem = s.mem := rfl
@[simp] theorem setTile_ue (s : State) (n : Nat) (x : Tile) : (s.setTile n x).ue = s.ue := rfl
@[simp] theorem setTile_ce (s : State) (n : Nat) (x : Tile) : (s.setTile n x).ce = s.ce := rfl
@[simp] theorem setTile_stn (s : State) (n : Nat) (x : Tile) : (s.setTile n x).stn = s.stn := rfl
@[simp] theorem setTile_aclk (s : State) (n : Nat) (x : Tile) : (s.setTile n x).aclk = s.aclk := rfl
@[simp] theorem setTile_aclk6 (s : State) (n : Nat) (x : Tile) : (s.setTile n x).aclk6 = s.aclk6 := rfl
@[simp] theorem setTile_mclk (s : State) (n : Nat) (x : Tile) : (s.setTile n x).mclk = s.mclk := rfl
@[simp] theorem setTile_frozen (s : State) (n : Nat) (x : Tile) : (s.setTile n x).frozen = s.frozen := rfl
@[simp] theorem setTile_rings (s : State) (n : Nat) (x : Tile) : (s.setTile n x).rings = s.rings := rfl
@[simp] theorem setTile_arb (s : State) (n : Nat) (x : Tile) : (s.setTile n x).arb = s.arb := rfl
@[simp] theorem setTile_flt (s : State) (n : Nat) (x : Tile) : (s.setTile n x).flt = s.flt := rfl
@[simp] theorem setTile_bias (s : State) (n : Nat) (x : Tile) : (s.setTile n x).bias = s.bias := rfl
@[simp] theorem setTile_flip (s : State) (n : Nat) (x : Tile) : (s.setTile n x).flip = s.flip := rfl
@[simp] theorem setTile_homes (s : State) (n : Nat) (x : Tile) : (s.setTile n x).homes = s.homes := rfl
@[simp] theorem setTile_cores (s : State) (n : Nat) (x : Tile) : (s.setTile n x).cores = s.cores := rfl
@[simp] theorem setTile_mesh (s : State) (n : Nat) (x : Tile) : (s.setTile n x).mesh = s.mesh := rfl
@[simp] theorem setTile_mcs (s : State) (n : Nat) (x : Tile) : (s.setTile n x).mcs = s.mcs := rfl
@[simp] theorem setTile_fab (s : State) (n : Nat) (x : Tile) : (s.setTile n x).fab = s.fab := rfl
@[simp] theorem setTile_jobs (s : State) (n : Nat) (x : Tile) : (s.setTile n x).jobs = s.jobs := rfl
@[simp] theorem setTile_engine (s : State) (n : Nat) (x : Tile) : (s.setTile n x).engine = s.engine := rfl
@[simp] theorem setTile_sched (s : State) (n : Nat) (x : Tile) : (s.setTile n x).sched = s.sched := rfl
@[simp] theorem setTile_io (s : State) (n : Nat) (x : Tile) : (s.setTile n x).io = s.io := rfl
@[simp] theorem setTile_sys (s : State) (n : Nat) (x : Tile) : (s.setTile n x).sys = s.sys := rfl
@[simp] theorem setTile_image (s : State) (n : Nat) (x : Tile) : (s.setTile n x).image = s.image := rfl
@[simp] theorem setTile_readData (s : State) (n : Nat) (x : Tile) : (s.setTile n x).readData = s.readData := rfl
@[simp] theorem setTile_freeCtr (s : State) (n : Nat) (x : Tile) : (s.setTile n x).freeCtr = s.freeCtr := rfl

/-! `modTile` changes tiles. -/
@[simp] theorem modTile_pending (s : State) (n : Nat) (g : Tile → Tile) : (s.modTile n g).pending = s.pending := rfl
@[simp] theorem modTile_csr (s : State) (n : Nat) (g : Tile → Tile) : (s.modTile n g).csr = s.csr := rfl
@[simp] theorem modTile_act (s : State) (n : Nat) (g : Tile → Tile) : (s.modTile n g).act = s.act := rfl
@[simp] theorem modTile_mem (s : State) (n : Nat) (g : Tile → Tile) : (s.modTile n g).mem = s.mem := rfl
@[simp] theorem modTile_ue (s : State) (n : Nat) (g : Tile → Tile) : (s.modTile n g).ue = s.ue := rfl
@[simp] theorem modTile_ce (s : State) (n : Nat) (g : Tile → Tile) : (s.modTile n g).ce = s.ce := rfl
@[simp] theorem modTile_stn (s : State) (n : Nat) (g : Tile → Tile) : (s.modTile n g).stn = s.stn := rfl
@[simp] theorem modTile_aclk (s : State) (n : Nat) (g : Tile → Tile) : (s.modTile n g).aclk = s.aclk := rfl
@[simp] theorem modTile_aclk6 (s : State) (n : Nat) (g : Tile → Tile) : (s.modTile n g).aclk6 = s.aclk6 := rfl
@[simp] theorem modTile_mclk (s : State) (n : Nat) (g : Tile → Tile) : (s.modTile n g).mclk = s.mclk := rfl
@[simp] theorem modTile_frozen (s : State) (n : Nat) (g : Tile → Tile) : (s.modTile n g).frozen = s.frozen := rfl
@[simp] theorem modTile_rings (s : State) (n : Nat) (g : Tile → Tile) : (s.modTile n g).rings = s.rings := rfl
@[simp] theorem modTile_arb (s : State) (n : Nat) (g : Tile → Tile) : (s.modTile n g).arb = s.arb := rfl
@[simp] theorem modTile_flt (s : State) (n : Nat) (g : Tile → Tile) : (s.modTile n g).flt = s.flt := rfl
@[simp] theorem modTile_bias (s : State) (n : Nat) (g : Tile → Tile) : (s.modTile n g).bias = s.bias := rfl
@[simp] theorem modTile_flip (s : State) (n : Nat) (g : Tile → Tile) : (s.modTile n g).flip = s.flip := rfl
@[simp] theorem modTile_homes (s : State) (n : Nat) (g : Tile → Tile) : (s.modTile n g).homes = s.homes := rfl
@[simp] theorem modTile_cores (s : State) (n : Nat) (g : Tile → Tile) : (s.modTile n g).cores = s.cores := rfl
@[simp] theorem modTile_mesh (s : State) (n : Nat) (g : Tile → Tile) : (s.modTile n g).mesh = s.mesh := rfl
@[simp] theorem modTile_mcs (s : State) (n : Nat) (g : Tile → Tile) : (s.modTile n g).mcs = s.mcs := rfl
@[simp] theorem modTile_fab (s : State) (n : Nat) (g : Tile → Tile) : (s.modTile n g).fab = s.fab := rfl
@[simp] theorem modTile_jobs (s : State) (n : Nat) (g : Tile → Tile) : (s.modTile n g).jobs = s.jobs := rfl
@[simp] theorem modTile_engine (s : State) (n : Nat) (g : Tile → Tile) : (s.modTile n g).engine = s.engine := rfl
@[simp] theorem modTile_sched (s : State) (n : Nat) (g : Tile → Tile) : (s.modTile n g).sched = s.sched := rfl
@[simp] theorem modTile_io (s : State) (n : Nat) (g : Tile → Tile) : (s.modTile n g).io = s.io := rfl
@[simp] theorem modTile_sys (s : State) (n : Nat) (g : Tile → Tile) : (s.modTile n g).sys = s.sys := rfl
@[simp] theorem modTile_image (s : State) (n : Nat) (g : Tile → Tile) : (s.modTile n g).image = s.image := rfl
@[simp] theorem modTile_readData (s : State) (n : Nat) (g : Tile → Tile) : (s.modTile n g).readData = s.readData := rfl
@[simp] theorem modTile_freeCtr (s : State) (n : Nat) (g : Tile → Tile) : (s.modTile n g).freeCtr = s.freeCtr := rfl

/-! `store` changes mem, ue, ce. -/
@[simp] theorem store_pending (s : State) (a : Nat) (l : List Byte) : (s.store a l).pending = s.pending := rfl
@[simp] theorem store_csr (s : State) (a : Nat) (l : List Byte) : (s.store a l).csr = s.csr := rfl
@[simp] theorem store_act (s : State) (a : Nat) (l : List Byte) : (s.store a l).act = s.act := rfl
@[simp] theorem store_stn (s : State) (a : Nat) (l : List Byte) : (s.store a l).stn = s.stn := rfl
@[simp] theorem store_aclk (s : State) (a : Nat) (l : List Byte) : (s.store a l).aclk = s.aclk := rfl
@[simp] theorem store_aclk6 (s : State) (a : Nat) (l : List Byte) : (s.store a l).aclk6 = s.aclk6 := rfl
@[simp] theorem store_mclk (s : State) (a : Nat) (l : List Byte) : (s.store a l).mclk = s.mclk := rfl
@[simp] theorem store_frozen (s : State) (a : Nat) (l : List Byte) : (s.store a l).frozen = s.frozen := rfl
@[simp] theorem store_tiles (s : State) (a : Nat) (l : List Byte) : (s.store a l).tiles = s.tiles := rfl
@[simp] theorem store_rings (s : State) (a : Nat) (l : List Byte) : (s.store a l).rings = s.rings := rfl
@[simp] theorem store_arb (s : State) (a : Nat) (l : List Byte) : (s.store a l).arb = s.arb := rfl
@[simp] theorem store_flt (s : State) (a : Nat) (l : List Byte) : (s.store a l).flt = s.flt := rfl
@[simp] theorem store_bias (s : State) (a : Nat) (l : List Byte) : (s.store a l).bias = s.bias := rfl
@[simp] theorem store_flip (s : State) (a : Nat) (l : List Byte) : (s.store a l).flip = s.flip := rfl
@[simp] theorem store_homes (s : State) (a : Nat) (l : List Byte) : (s.store a l).homes = s.homes := rfl
@[simp] theorem store_cores (s : State) (a : Nat) (l : List Byte) : (s.store a l).cores = s.cores := rfl
@[simp] theorem store_mesh (s : State) (a : Nat) (l : List Byte) : (s.store a l).mesh = s.mesh := rfl
@[simp] theorem store_mcs (s : State) (a : Nat) (l : List Byte) : (s.store a l).mcs = s.mcs := rfl
@[simp] theorem store_fab (s : State) (a : Nat) (l : List Byte) : (s.store a l).fab = s.fab := rfl
@[simp] theorem store_jobs (s : State) (a : Nat) (l : List Byte) : (s.store a l).jobs = s.jobs := rfl
@[simp] theorem store_engine (s : State) (a : Nat) (l : List Byte) : (s.store a l).engine = s.engine := rfl
@[simp] theorem store_sched (s : State) (a : Nat) (l : List Byte) : (s.store a l).sched = s.sched := rfl
@[simp] theorem store_io (s : State) (a : Nat) (l : List Byte) : (s.store a l).io = s.io := rfl
@[simp] theorem store_sys (s : State) (a : Nat) (l : List Byte) : (s.store a l).sys = s.sys := rfl
@[simp] theorem store_image (s : State) (a : Nat) (l : List Byte) : (s.store a l).image = s.image := rfl
@[simp] theorem store_readData (s : State) (a : Nat) (l : List Byte) : (s.store a l).readData = s.readData := rfl
@[simp] theorem store_freeCtr (s : State) (a : Nat) (l : List Byte) : (s.store a l).freeCtr = s.freeCtr := rfl

/-! `sendFrame` changes sys. -/
@[simp] theorem sendFrame_pending (s : State) (f : MgmtFrame) : (s.sendFrame f).pending = s.pending := rfl
@[simp] theorem sendFrame_csr (s : State) (f : MgmtFrame) : (s.sendFrame f).csr = s.csr := rfl
@[simp] theorem sendFrame_act (s : State) (f : MgmtFrame) : (s.sendFrame f).act = s.act := rfl
@[simp] theorem sendFrame_mem (s : State) (f : MgmtFrame) : (s.sendFrame f).mem = s.mem := rfl
@[simp] theorem sendFrame_ue (s : State) (f : MgmtFrame) : (s.sendFrame f).ue = s.ue := rfl
@[simp] theorem sendFrame_ce (s : State) (f : MgmtFrame) : (s.sendFrame f).ce = s.ce := rfl
@[simp] theorem sendFrame_stn (s : State) (f : MgmtFrame) : (s.sendFrame f).stn = s.stn := rfl
@[simp] theorem sendFrame_aclk (s : State) (f : MgmtFrame) : (s.sendFrame f).aclk = s.aclk := rfl
@[simp] theorem sendFrame_aclk6 (s : State) (f : MgmtFrame) : (s.sendFrame f).aclk6 = s.aclk6 := rfl
@[simp] theorem sendFrame_mclk (s : State) (f : MgmtFrame) : (s.sendFrame f).mclk = s.mclk := rfl
@[simp] theorem sendFrame_frozen (s : State) (f : MgmtFrame) : (s.sendFrame f).frozen = s.frozen := rfl
@[simp] theorem sendFrame_tiles (s : State) (f : MgmtFrame) : (s.sendFrame f).tiles = s.tiles := rfl
@[simp] theorem sendFrame_rings (s : State) (f : MgmtFrame) : (s.sendFrame f).rings = s.rings := rfl
@[simp] theorem sendFrame_arb (s : State) (f : MgmtFrame) : (s.sendFrame f).arb = s.arb := rfl
@[simp] theorem sendFrame_flt (s : State) (f : MgmtFrame) : (s.sendFrame f).flt = s.flt := rfl
@[simp] theorem sendFrame_bias (s : State) (f : MgmtFrame) : (s.sendFrame f).bias = s.bias := rfl
@[simp] theorem sendFrame_flip (s : State) (f : MgmtFrame) : (s.sendFrame f).flip = s.flip := rfl
@[simp] theorem sendFrame_homes (s : State) (f : MgmtFrame) : (s.sendFrame f).homes = s.homes := rfl
@[simp] theorem sendFrame_cores (s : State) (f : MgmtFrame) : (s.sendFrame f).cores = s.cores := rfl
@[simp] theorem sendFrame_mesh (s : State) (f : MgmtFrame) : (s.sendFrame f).mesh = s.mesh := rfl
@[simp] theorem sendFrame_mcs (s : State) (f : MgmtFrame) : (s.sendFrame f).mcs = s.mcs := rfl
@[simp] theorem sendFrame_fab (s : State) (f : MgmtFrame) : (s.sendFrame f).fab = s.fab := rfl
@[simp] theorem sendFrame_jobs (s : State) (f : MgmtFrame) : (s.sendFrame f).jobs = s.jobs := rfl
@[simp] theorem sendFrame_engine (s : State) (f : MgmtFrame) : (s.sendFrame f).engine = s.engine := rfl
@[simp] theorem sendFrame_sched (s : State) (f : MgmtFrame) : (s.sendFrame f).sched = s.sched := rfl
@[simp] theorem sendFrame_io (s : State) (f : MgmtFrame) : (s.sendFrame f).io = s.io := rfl
@[simp] theorem sendFrame_image (s : State) (f : MgmtFrame) : (s.sendFrame f).image = s.image := rfl
@[simp] theorem sendFrame_readData (s : State) (f : MgmtFrame) : (s.sendFrame f).readData = s.readData := rfl
@[simp] theorem sendFrame_freeCtr (s : State) (f : MgmtFrame) : (s.sendFrame f).freeCtr = s.freeCtr := rfl

/-! `answerFrame` changes sys. -/
@[simp] theorem answerFrame_pending (s : State) (dst : BitVec 48) (op st seq off : Nat) (l : List Byte) : (s.answerFrame dst op st seq off l).pending = s.pending := rfl
@[simp] theorem answerFrame_csr (s : State) (dst : BitVec 48) (op st seq off : Nat) (l : List Byte) : (s.answerFrame dst op st seq off l).csr = s.csr := rfl
@[simp] theorem answerFrame_act (s : State) (dst : BitVec 48) (op st seq off : Nat) (l : List Byte) : (s.answerFrame dst op st seq off l).act = s.act := rfl
@[simp] theorem answerFrame_mem (s : State) (dst : BitVec 48) (op st seq off : Nat) (l : List Byte) : (s.answerFrame dst op st seq off l).mem = s.mem := rfl
@[simp] theorem answerFrame_ue (s : State) (dst : BitVec 48) (op st seq off : Nat) (l : List Byte) : (s.answerFrame dst op st seq off l).ue = s.ue := rfl
@[simp] theorem answerFrame_ce (s : State) (dst : BitVec 48) (op st seq off : Nat) (l : List Byte) : (s.answerFrame dst op st seq off l).ce = s.ce := rfl
@[simp] theorem answerFrame_stn (s : State) (dst : BitVec 48) (op st seq off : Nat) (l : List Byte) : (s.answerFrame dst op st seq off l).stn = s.stn := rfl
@[simp] theorem answerFrame_aclk (s : State) (dst : BitVec 48) (op st seq off : Nat) (l : List Byte) : (s.answerFrame dst op st seq off l).aclk = s.aclk := rfl
@[simp] theorem answerFrame_aclk6 (s : State) (dst : BitVec 48) (op st seq off : Nat) (l : List Byte) : (s.answerFrame dst op st seq off l).aclk6 = s.aclk6 := rfl
@[simp] theorem answerFrame_mclk (s : State) (dst : BitVec 48) (op st seq off : Nat) (l : List Byte) : (s.answerFrame dst op st seq off l).mclk = s.mclk := rfl
@[simp] theorem answerFrame_frozen (s : State) (dst : BitVec 48) (op st seq off : Nat) (l : List Byte) : (s.answerFrame dst op st seq off l).frozen = s.frozen := rfl
@[simp] theorem answerFrame_tiles (s : State) (dst : BitVec 48) (op st seq off : Nat) (l : List Byte) : (s.answerFrame dst op st seq off l).tiles = s.tiles := rfl
@[simp] theorem answerFrame_rings (s : State) (dst : BitVec 48) (op st seq off : Nat) (l : List Byte) : (s.answerFrame dst op st seq off l).rings = s.rings := rfl
@[simp] theorem answerFrame_arb (s : State) (dst : BitVec 48) (op st seq off : Nat) (l : List Byte) : (s.answerFrame dst op st seq off l).arb = s.arb := rfl
@[simp] theorem answerFrame_flt (s : State) (dst : BitVec 48) (op st seq off : Nat) (l : List Byte) : (s.answerFrame dst op st seq off l).flt = s.flt := rfl
@[simp] theorem answerFrame_bias (s : State) (dst : BitVec 48) (op st seq off : Nat) (l : List Byte) : (s.answerFrame dst op st seq off l).bias = s.bias := rfl
@[simp] theorem answerFrame_flip (s : State) (dst : BitVec 48) (op st seq off : Nat) (l : List Byte) : (s.answerFrame dst op st seq off l).flip = s.flip := rfl
@[simp] theorem answerFrame_homes (s : State) (dst : BitVec 48) (op st seq off : Nat) (l : List Byte) : (s.answerFrame dst op st seq off l).homes = s.homes := rfl
@[simp] theorem answerFrame_cores (s : State) (dst : BitVec 48) (op st seq off : Nat) (l : List Byte) : (s.answerFrame dst op st seq off l).cores = s.cores := rfl
@[simp] theorem answerFrame_mesh (s : State) (dst : BitVec 48) (op st seq off : Nat) (l : List Byte) : (s.answerFrame dst op st seq off l).mesh = s.mesh := rfl
@[simp] theorem answerFrame_mcs (s : State) (dst : BitVec 48) (op st seq off : Nat) (l : List Byte) : (s.answerFrame dst op st seq off l).mcs = s.mcs := rfl
@[simp] theorem answerFrame_fab (s : State) (dst : BitVec 48) (op st seq off : Nat) (l : List Byte) : (s.answerFrame dst op st seq off l).fab = s.fab := rfl
@[simp] theorem answerFrame_jobs (s : State) (dst : BitVec 48) (op st seq off : Nat) (l : List Byte) : (s.answerFrame dst op st seq off l).jobs = s.jobs := rfl
@[simp] theorem answerFrame_engine (s : State) (dst : BitVec 48) (op st seq off : Nat) (l : List Byte) : (s.answerFrame dst op st seq off l).engine = s.engine := rfl
@[simp] theorem answerFrame_sched (s : State) (dst : BitVec 48) (op st seq off : Nat) (l : List Byte) : (s.answerFrame dst op st seq off l).sched = s.sched := rfl
@[simp] theorem answerFrame_io (s : State) (dst : BitVec 48) (op st seq off : Nat) (l : List Byte) : (s.answerFrame dst op st seq off l).io = s.io := rfl
@[simp] theorem answerFrame_image (s : State) (dst : BitVec 48) (op st seq off : Nat) (l : List Byte) : (s.answerFrame dst op st seq off l).image = s.image := rfl
@[simp] theorem answerFrame_readData (s : State) (dst : BitVec 48) (op st seq off : Nat) (l : List Byte) : (s.answerFrame dst op st seq off l).readData = s.readData := rfl
@[simp] theorem answerFrame_freeCtr (s : State) (dst : BitVec 48) (op st seq off : Nat) (l : List Byte) : (s.answerFrame dst op st seq off l).freeCtr = s.freeCtr := rfl

end Sys2Proof.Machine
end

