-- ==== Sys2Proof/Laws/Registers.lean ====
section
/-! SUPPORT. Tables and registers: what a read gives after a write, and that a write leaves every other key and field alone (R7, R11). -/

namespace Sys2Proof

/-! ## Tables -/

section
variable {κ β : Type} [DecidableEq κ]

theorem kget_kdel_ne (d : β) (m : List (κ × β)) (k k' : κ) (h : k' ≠ k) : kget d (kdel m k) k' = kget d m k' := by
  induction m with
  | nil => rfl
  | cons e m ih =>
    obtain ⟨a, v⟩ := e
    simp only [kdel, kget]
    split
    · rename_i ha; rw [ih, if_neg (fun hk => h (hk.symm.trans ha))]
    · simp only [kget, ih]

theorem kget_kdel_same (d : β) (m : List (κ × β)) (k : κ) : kget d (kdel m k) k = d := by
  induction m with
  | nil => rfl
  | cons e m ih =>
    obtain ⟨a, v⟩ := e
    simp only [kdel]
    split
    · exact ih
    · rename_i ha; simp only [kget, if_neg ha, ih]

theorem kget_kins_same (rank : κ → Nat) (d : β) (m : List (κ × β)) (k : κ) (v : β) (h : ∀ e ∈ m, e.1 ≠ k) :
    kget d (kins rank k v m) k = v := by
  induction m with
  | nil => simp [kins, kget]
  | cons e m ih =>
    obtain ⟨a, w⟩ := e
    simp only [kins]
    split
    · simp [kget]
    · simp only [kget]
      rw [if_neg (h (a, w) (by simp)), ih (fun e he => h e (by simp [he]))]

theorem kget_kins_ne (rank : κ → Nat) (d : β) (m : List (κ × β)) (k k' : κ) (v : β) (h : k ≠ k') :
    kget d (kins rank k v m) k' = kget d m k' := by
  induction m with
  | nil => simp [kins, kget, h]
  | cons e m ih =>
    obtain ⟨a, w⟩ := e
    simp only [kins]
    split
    · simp [kget, h]
    · simp only [kget, ih]

theorem kdel_ne (m : List (κ × β)) (k : κ) : ∀ e ∈ kdel m k, e.1 ≠ k := by
  induction m with
  | nil => simp [kdel]
  | cons e m ih =>
    obtain ⟨a, v⟩ := e
    simp only [kdel]
    split
    · exact ih
    · rename_i ha
      intro e he
      rcases List.mem_cons.1 he with rfl | he
      · exact ha
      · exact ih e he

variable [DecidableEq β]

/-- A set leaves every other key as it was, whatever default it is read with. -/
theorem kget_kset_ne (rank : κ → Nat) (d d' : β) (m : List (κ × β)) (k k' : κ) (v : β) (h : k' ≠ k) :
    kget d' (kset rank d m k v) k' = kget d' m k' := by
  unfold kset
  split
  · exact kget_kdel_ne _ _ _ _ h
  · rw [kget_kins_ne rank d' _ _ _ v (Ne.symm h), kget_kdel_ne _ _ _ _ h]

/-- A key holds the value that it was set to. -/
theorem kget_kset_same (rank : κ → Nat) (d : β) (m : List (κ × β)) (k : κ) (v : β) : kget d (kset rank d m k v) k = v := by
  unfold kset
  split
  · rename_i hv; rw [kget_kdel_same, hv]
  · exact kget_kins_same rank d _ _ v (kdel_ne m _)

/-- What a key holds after a set: the value at that key, and what it held at any other. -/
theorem kget_kset (rank : κ → Nat) (d : β) (m : List (κ × β)) (k k' : κ) (v : β) :
    kget d (kset rank d m k v) k' = if k' = k then v else kget d m k' := by
  split
  · rename_i h; subst h; exact kget_kset_same rank d m _ v
  · rename_i h; exact kget_kset_ne rank d d m k k' v h

/-- The same of a table keyed by numbers. -/
theorem kget_nset {β : Type} [DecidableEq β] (d : β) (m : NMap β) (k k' : Nat) (v : β) :
    kget d (nset d m k v) k' = if k' = k then v else kget d m k' := kget_kset _ d m k k' v

end

/-! ## Bit fields of numbers -/

theorem bitsOf_lt (v lo width : Nat) : bitsOf v lo width < 2 ^ width := Nat.mod_lt _ (by positivity)

/-- A number is its part below a field, the field, and its part above. -/
theorem bitsOf_split (v lo width : Nat) :
    v = v % 2 ^ lo + bitsOf v lo width * 2 ^ lo + v / 2 ^ (lo + width) * 2 ^ (lo + width) := by
  unfold bitsOf
  have h1 := Nat.div_add_mod v (2 ^ lo)
  have h2 := Nat.div_add_mod (v / 2 ^ lo) (2 ^ width)
  have h3 : v / 2 ^ lo / 2 ^ width = v / 2 ^ (lo + width) := by rw [Nat.div_div_eq_div_mul, ← pow_add]
  rw [h3] at h2
  rw [pow_add]
  calc v = 2 ^ lo * (v / 2 ^ lo) + v % 2 ^ lo := h1.symm
    _ = 2 ^ lo * (2 ^ width * (v / (2 ^ lo * 2 ^ width)) + v / 2 ^ lo % 2 ^ width) + v % 2 ^ lo := by
      rw [← pow_add] at *; rw [h2]
    _ = _ := by ring

/-- The bits of a number whose parts are known. -/
theorem bitsOf_mk (a x c lo width : Nat) (ha : a < 2 ^ lo) (hx : x < 2 ^ width) :
    bitsOf (a + x * 2 ^ lo + c * 2 ^ (lo + width)) lo width = x := by
  unfold bitsOf
  have h : (a + x * 2 ^ lo + c * 2 ^ (lo + width)) / 2 ^ lo = x + c * 2 ^ width := by
    rw [show a + x * 2 ^ lo + c * 2 ^ (lo + width) = a + (x + c * 2 ^ width) * 2 ^ lo by rw [pow_add]; ring,
      Nat.add_mul_div_right _ _ (by positivity), Nat.div_eq_of_lt ha, Nat.zero_add]
  rw [h, Nat.add_mul_mod_self_right, Nat.mod_eq_of_lt hx]

namespace Machine

/-! ## Fields of a value -/

/-- A value with a field replaced, as a number: the part below, the field, the part above. -/
theorem withField_toNat (v : W64) (f : Fld) (x : Nat) (h : f.lo + f.width ≤ 64) :
    (withField v f x).toNat
      = v.toNat % 2 ^ f.lo + x % 2 ^ f.width * 2 ^ f.lo + v.toNat / 2 ^ (f.lo + f.width) * 2 ^ (f.lo + f.width) := by
  have hs := bitsOf_split v.toNat f.lo f.width
  have hx : x % 2 ^ f.width < 2 ^ f.width := Nat.mod_lt _ (by positivity)
  have ha : v.toNat % 2 ^ f.lo < 2 ^ f.lo := Nat.mod_lt _ (by positivity)
  unfold withField
  rw [BitVec.toNat_ofNat]
  generalize v.toNat % 2 ^ f.lo = a at *
  generalize hb : bitsOf v.toNat f.lo f.width = b at *
  generalize hc : v.toNat / 2 ^ (f.lo + f.width) = c at *
  have hc' : c < 2 ^ (64 - (f.lo + f.width)) := by
    rw [← hc]; apply Nat.div_lt_of_lt_mul
    rw [← pow_add, Nat.add_sub_cancel' h]; exact v.isLt
  rw [hs, show a + b * 2 ^ f.lo + c * 2 ^ (f.lo + f.width) - b * 2 ^ f.lo + x % 2 ^ f.width * 2 ^ f.lo
    = a + x % 2 ^ f.width * 2 ^ f.lo + c * 2 ^ (f.lo + f.width) by omega]
  apply Nat.mod_eq_of_lt
  have h1 : a + x % 2 ^ f.width * 2 ^ f.lo < 2 ^ (f.lo + f.width) := by
    rw [pow_add]; nlinarith
  have h2 : 2 ^ 64 = 2 ^ (f.lo + f.width) * 2 ^ (64 - (f.lo + f.width)) := by rw [← pow_add, Nat.add_sub_cancel' h]
  rw [h2]; nlinarith

/-- A replaced field reads as what it was given. -/
theorem fieldOf_withField (v : W64) (f : Fld) (x : Nat) (h : f.lo + f.width ≤ 64) :
    fieldOf (withField v f x) f = x % 2 ^ f.width := by
  unfold fieldOf
  rw [withField_toNat v f x h]
  exact bitsOf_mk _ _ _ _ _ (Nat.mod_lt _ (by positivity)) (Nat.mod_lt _ (by positivity))

/-- A field that does not overlap the replaced one reads as before. -/
theorem fieldOf_withField_ne (v : W64) (f g : Fld) (x : Nat) (h : f.lo + f.width ≤ 64)
    (hd : g.lo + g.width ≤ f.lo ∨ f.lo + f.width ≤ g.lo) : fieldOf (withField v f x) g = fieldOf v g := by
  unfold fieldOf
  rw [withField_toNat v f x h]
  have hs := bitsOf_split v.toNat f.lo f.width
  have ha : v.toNat % 2 ^ f.lo < 2 ^ f.lo := Nat.mod_lt _ (by positivity)
  have hx : x % 2 ^ f.width < 2 ^ f.width := Nat.mod_lt _ (by positivity)
  have hb := bitsOf_lt v.toNat f.lo f.width
  conv_rhs => rw [hs]
  generalize v.toNat % 2 ^ f.lo = a at *
  generalize bitsOf v.toNat f.lo f.width = b at *
  generalize v.toNat / 2 ^ (f.lo + f.width) = c at *
  generalize x % 2 ^ f.width = y at *
  unfold bitsOf
  rcases hd with hd | hd
  · obtain ⟨k, hk⟩ := Nat.exists_eq_add_of_le hd
    have e (z : Nat) : a + z * 2 ^ f.lo + c * 2 ^ (f.lo + f.width)
        = a + (z * 2 ^ k + c * 2 ^ (k + f.width)) * 2 ^ g.width * 2 ^ g.lo := by
      rw [hk]; simp only [pow_add]; ring
    rw [e, e, Nat.add_mul_div_right _ _ (by positivity), Nat.add_mul_mod_self_right,
      Nat.add_mul_div_right _ _ (by positivity), Nat.add_mul_mod_self_right]
  · obtain ⟨k, hk⟩ := Nat.exists_eq_add_of_le hd
    have e (z : Nat) (hz : z < 2 ^ f.width) : (a + z * 2 ^ f.lo + c * 2 ^ (f.lo + f.width)) / 2 ^ g.lo = c / 2 ^ k := by
      rw [hk, pow_add 2 (f.lo + f.width) k, ← Nat.div_div_eq_div_mul, Nat.add_mul_div_right _ _ (by positivity)]
      have : a + z * 2 ^ f.lo < 2 ^ (f.lo + f.width) := by rw [pow_add]; nlinarith
      rw [Nat.div_eq_of_lt this, Nat.zero_add]
    rw [e y hx, e b hb]

/-! ## Registers -/

theorem rget_rset (s : State) (r r' : Reg) (v : W64) : (s.rset r v).rget r' = if r' = r then v else s.rget r' := by
  unfold State.rget State.rset
  split
  · rename_i h; subst h; exact kget_kset_same _ _ _ _ _
  · rename_i h; exact kget_kset_ne _ _ _ _ _ _ _ h

@[simp] theorem rget_rset_same (s : State) (r : Reg) (v : W64) : (s.rset r v).rget r = v := by rw [rget_rset, if_pos rfl]

theorem rget_rset_ne (s : State) (r r' : Reg) (v : W64) (h : r' ≠ r) : (s.rset r v).rget r' = s.rget r' := by
  rw [rget_rset, if_neg h]

theorem aget_aset (s : State) (r r' : Reg) (v : W64) : (s.aset r v).aget r' = if r' = r then v else s.aget r' := by
  unfold State.aget State.aset
  split
  · rename_i h; subst h; exact kget_kset_same _ _ _ _ _
  · rename_i h; exact kget_kset_ne _ _ _ _ _ _ _ h

theorem rget_setF (s : State) (r r' : Reg) (f : Fld) (x : Nat) :
    (s.setF r f x).rget r' = if r' = r then withField (s.rget r) f x else s.rget r' := rget_rset _ _ _ _

theorem rget_setF_ne (s : State) (r r' : Reg) (f : Fld) (x : Nat) (h : r' ≠ r) : (s.setF r f x).rget r' = s.rget r' := by
  rw [rget_setF, if_neg h]

/-- A field that was set reads as its new value. -/
theorem rf_setF_same (s : State) (r : Reg) (f : Fld) (x : Nat) (h : f.lo + f.width ≤ 64) :
    (s.setF r f x).rf r f = x % 2 ^ f.width := by
  unfold State.rf; rw [rget_setF, if_pos rfl, fieldOf_withField _ _ _ h]

/-- Another field of the register, or a field of another register, reads as before. -/
theorem rf_setF_ne (s : State) (r r' : Reg) (f g : Fld) (x : Nat) (h : f.lo + f.width ≤ 64)
    (hd : r' ≠ r ∨ g.lo + g.width ≤ f.lo ∨ f.lo + f.width ≤ g.lo) : (s.setF r f x).rf r' g = s.rf r' g := by
  unfold State.rf; rw [rget_setF]
  split
  · rename_i he; subst he
    exact fieldOf_withField_ne _ _ _ _ h (hd.resolve_left (fun hn => hn rfl))
  · rfl

end Machine
end Sys2Proof
end

