-- ==== Sys2Proof/Laws/Buffer.lean ====
section
/-! SUPPORT. The load buffer (R333): what each of its bytes reads as after bytes are stored in it. -/

namespace Sys2Proof.Machine

variable {β : Type}

/-- Entries that a test keeps, where it keeps every entry of the key. -/
theorem kget_filter_keep (d : β) (p : Nat → Bool) (m : NMap β) (k : Nat) (h : p k = true) :
    kget d (m.filter (fun e => p e.1)) k = kget d m k := by
  induction m with
  | nil => rfl
  | cons e m ih =>
    by_cases hk : e.1 = k
    · have hp : p e.1 = true := by rw [hk]; exact h
      simp [kget, hk, h]
    · by_cases hp : p e.1 = true <;> simp [hp, kget, hk, ih]

/-- A key that no entry has reads as the default. -/
theorem kget_absent (d : β) (m : NMap β) (k : Nat) (h : ∀ e ∈ m, e.1 ≠ k) : kget d m k = d := by
  induction m with
  | nil => rfl
  | cons e m ih =>
    rw [List.forall_mem_cons] at h
    simp [kget, h.1, ih h.2]

/-- Two tables in a row: the second answers for the keys that the first has no entry of. -/
theorem kget_append_right (d : β) (m m' : NMap β) (k : Nat) (h : ∀ e ∈ m, e.1 ≠ k) : kget d (m ++ m') k = kget d m' k := by
  induction m with
  | nil => rfl
  | cons e m ih =>
    rw [List.forall_mem_cons] at h
    simp [kget, h.1, ih h.2]

/-- Two tables in a row: the first answers for the keys that the second has no entry of. -/
theorem kget_append_left (d : β) (m m' : NMap β) (k : Nat) (h : ∀ e ∈ m', e.1 ≠ k) : kget d (m ++ m') k = kget d m k := by
  induction m with
  | nil => simpa [kget] using kget_absent d m' k h
  | cons e m ih => simp [kget, ih]

/-- The cells of bytes lie at or above the first address. -/
theorem bufCells_above (l : List Byte) (a : Nat) : ∀ e ∈ bufCells a l, a ≤ e.1 ∧ e.1 < a + l.length := by
  induction l generalizing a with
  | nil => simp [bufCells]
  | cons b l ih =>
    intro e he
    have hl : (b :: l).length = l.length + 1 := rfl
    unfold bufCells at he
    split at he
    · have := ih (a + 1) e he; omega
    · rcases List.mem_cons.mp he with rfl | he
      · exact ⟨le_rfl, by simp⟩
      · have := ih (a + 1) e he; omega

/-- The cells of bytes hold the bytes. -/
theorem kget_bufCells (l : List Byte) (a i : Nat) (h : i < l.length) : kget 0 (bufCells a l) (a + i) = l[i] := by
  induction l generalizing a i with
  | nil => simp at h
  | cons b l ih =>
    have above : ∀ e ∈ bufCells (a + 1) l, e.1 ≠ a := fun e he => by have := bufCells_above l (a + 1) e he; omega
    cases i with
    | zero =>
      unfold bufCells
      split
      · next hb => simpa [hb] using kget_absent (0 : Byte) _ a above
      · simp [kget]
    | succ i =>
      have := ih (a + 1) i (by simpa using h)
      unfold bufCells
      split
      · simpa [Nat.add_assoc, Nat.add_comm 1] using this
      · simpa [kget, Nat.add_assoc, Nat.add_comm 1] using this

/-- A byte of the load buffer that the store covers reads as stored. -/
theorem loadBuf_putBuf_in (s : State) (a i : Nat) (l : List Byte) (h : i < l.length) :
    kget 0 (s.putBuf a l).sys.loadBuf (a + i) = l[i] := by
  have above : ∀ e ∈ s.sys.loadBuf.filter (fun e => a + l.length ≤ e.1), e.1 ≠ a + i := by
    intro e he; have := (List.mem_filter.mp he).2; simp at this; omega
  have below : ∀ e ∈ s.sys.loadBuf.filter (fun e => e.1 < a), e.1 ≠ a + i := by
    intro e he; have := (List.mem_filter.mp he).2; simp at this; omega
  show kget 0 (_ ++ bufCells a l ++ _) (a + i) = _
  rw [kget_append_left 0 _ _ _ above, kget_append_right 0 _ _ _ below, kget_bufCells l a i h]

/-- A byte of the load buffer that the store does not cover stays. -/
theorem loadBuf_putBuf_out (s : State) (a x : Nat) (l : List Byte) (h : x < a ∨ a + l.length ≤ x) :
    kget 0 (s.putBuf a l).sys.loadBuf x = kget 0 s.sys.loadBuf x := by
  have cells : ∀ e ∈ bufCells a l, e.1 ≠ x := fun e he => by have := bufCells_above l a e he; omega
  show kget 0 (_ ++ bufCells a l ++ _) x = _
  rcases h with h | h
  · have above : ∀ e ∈ s.sys.loadBuf.filter (fun e => a + l.length ≤ e.1), e.1 ≠ x := by
      intro e he; have := (List.mem_filter.mp he).2; simp at this; omega
    rw [kget_append_left 0 _ _ _ above, kget_append_left 0 _ _ _ cells]
    exact kget_filter_keep 0 (fun k => k < a) _ x (by simpa using h)
  · have below : ∀ e ∈ s.sys.loadBuf.filter (fun e => e.1 < a), e.1 ≠ x := by
      intro e he; have := (List.mem_filter.mp he).2; simp at this; omega
    rw [List.append_assoc, kget_append_right 0 _ _ _ below, kget_append_right 0 _ _ _ cells]
    exact kget_filter_keep 0 (fun k => a + l.length ≤ k) _ x (by simpa using h)

end Sys2Proof.Machine
end

