-- ==== Sys2Proof/Laws/Home.lean ====
section
/-! SUPPORT. Homes, cores, memory controllers and ports: what each reads as after one of them is stored, and what storing one leaves. -/

namespace Sys2Proof.Machine

/-- Home `k` after one is stored. -/
theorem home_setHome (s : State) (j k : Nat) (x : Home) : (s.setHome j x).home k = if k = j then x else s.home k := by
  simp [State.home, State.setHome, kget_nset]

/-- The one that was stored. -/
@[simp] theorem home_setHome_same (s : State) (j : Nat) (x : Home) : (s.setHome j x).home j = x := by simp [home_setHome]

/-- The others stay. -/
theorem home_setHome_ne (s : State) (j k : Nat) (x : Home) (h : k ≠ j) : (s.setHome j x).home k = s.home k := by
  simp [home_setHome, h]

/-- Core `k` after one is stored. -/
theorem core_setCore (s : State) (j k : Nat) (x : HostCore) : (s.setCore j x).core k = if k = j then x else s.core k := by
  simp [State.core, State.setCore, kget_nset]

/-- The one that was stored. -/
@[simp] theorem core_setCore_same (s : State) (j : Nat) (x : HostCore) : (s.setCore j x).core j = x := by simp [core_setCore]

/-- The others stay. -/
theorem core_setCore_ne (s : State) (j k : Nat) (x : HostCore) (h : k ≠ j) : (s.setCore j x).core k = s.core k := by
  simp [core_setCore, h]

/-- The controller of home `k` after one is stored. -/
theorem mc_setMc (s : State) (j k : Nat) (x : MemCtl) : (s.setMc j x).mc k = if k = j then x else s.mc k := by
  simp [State.mc, State.setMc, kget_nset]

/-- The one that was stored. -/
@[simp] theorem mc_setMc_same (s : State) (j : Nat) (x : MemCtl) : (s.setMc j x).mc j = x := by simp [mc_setMc]

/-- The others stay. -/
theorem mc_setMc_ne (s : State) (j k : Nat) (x : MemCtl) (h : k ≠ j) : (s.setMc j x).mc k = s.mc k := by
  simp [mc_setMc, h]

/-- Port `k` after one is stored. -/
theorem port_setPort (s : State) (j k : Nat) (x : Port) : (s.setPort j x).port k = if k = j then x else s.port k := by
  simp [State.port, State.setPort, kget_nset]

/-- The one that was stored. -/
@[simp] theorem port_setPort_same (s : State) (j : Nat) (x : Port) : (s.setPort j x).port j = x := by simp [port_setPort]

/-- The others stay. -/
theorem port_setPort_ne (s : State) (j k : Nat) (x : Port) (h : k ≠ j) : (s.setPort j x).port k = s.port k := by
  simp [port_setPort, h]

@[simp] theorem setHome_pending (s : State) (j : Nat) (x : Home) : (s.setHome j x).pending = s.pending := rfl
@[simp] theorem setHome_csr (s : State) (j : Nat) (x : Home) : (s.setHome j x).csr = s.csr := rfl
@[simp] theorem setHome_act (s : State) (j : Nat) (x : Home) : (s.setHome j x).act = s.act := rfl
@[simp] theorem setHome_mem (s : State) (j : Nat) (x : Home) : (s.setHome j x).mem = s.mem := rfl
@[simp] theorem setHome_ue (s : State) (j : Nat) (x : Home) : (s.setHome j x).ue = s.ue := rfl
@[simp] theorem setHome_ce (s : State) (j : Nat) (x : Home) : (s.setHome j x).ce = s.ce := rfl
@[simp] theorem setHome_stn (s : State) (j : Nat) (x : Home) : (s.setHome j x).stn = s.stn := rfl
@[simp] theorem setHome_aclk (s : State) (j : Nat) (x : Home) : (s.setHome j x).aclk = s.aclk := rfl
@[simp] theorem setHome_aclk6 (s : State) (j : Nat) (x : Home) : (s.setHome j x).aclk6 = s.aclk6 := rfl
@[simp] theorem setHome_mclk (s : State) (j : Nat) (x : Home) : (s.setHome j x).mclk = s.mclk := rfl
@[simp] theorem setHome_frozen (s : State) (j : Nat) (x : Home) : (s.setHome j x).frozen = s.frozen := rfl
@[simp] theorem setHome_tiles (s : State) (j : Nat) (x : Home) : (s.setHome j x).tiles = s.tiles := rfl
@[simp] theorem setHome_rings (s : State) (j : Nat) (x : Home) : (s.setHome j x).rings = s.rings := rfl
@[simp] theorem setHome_arb (s : State) (j : Nat) (x : Home) : (s.setHome j x).arb = s.arb := rfl
@[simp] theorem setHome_flt (s : State) (j : Nat) (x : Home) : (s.setHome j x).flt = s.flt := rfl
@[simp] theorem setHome_bias (s : State) (j : Nat) (x : Home) : (s.setHome j x).bias = s.bias := rfl
@[simp] theorem setHome_flip (s : State) (j : Nat) (x : Home) : (s.setHome j x).flip = s.flip := rfl
@[simp] theorem setHome_cores (s : State) (j : Nat) (x : Home) : (s.setHome j x).cores = s.cores := rfl
@[simp] theorem setHome_mesh (s : State) (j : Nat) (x : Home) : (s.setHome j x).mesh = s.mesh := rfl
@[simp] theorem setHome_mcs (s : State) (j : Nat) (x : Home) : (s.setHome j x).mcs = s.mcs := rfl
@[simp] theorem setHome_fab (s : State) (j : Nat) (x : Home) : (s.setHome j x).fab = s.fab := rfl
@[simp] theorem setHome_jobs (s : State) (j : Nat) (x : Home) : (s.setHome j x).jobs = s.jobs := rfl
@[simp] theorem setHome_engine (s : State) (j : Nat) (x : Home) : (s.setHome j x).engine = s.engine := rfl
@[simp] theorem setHome_sched (s : State) (j : Nat) (x : Home) : (s.setHome j x).sched = s.sched := rfl
@[simp] theorem setHome_io (s : State) (j : Nat) (x : Home) : (s.setHome j x).io = s.io := rfl
@[simp] theorem setHome_sys (s : State) (j : Nat) (x : Home) : (s.setHome j x).sys = s.sys := rfl
@[simp] theorem setHome_image (s : State) (j : Nat) (x : Home) : (s.setHome j x).image = s.image := rfl
@[simp] theorem setHome_readData (s : State) (j : Nat) (x : Home) : (s.setHome j x).readData = s.readData := rfl
@[simp] theorem setHome_freeCtr (s : State) (j : Nat) (x : Home) : (s.setHome j x).freeCtr = s.freeCtr := rfl

@[simp] theorem setCore_pending (s : State) (j : Nat) (x : HostCore) : (s.setCore j x).pending = s.pending := rfl
@[simp] theorem setCore_csr (s : State) (j : Nat) (x : HostCore) : (s.setCore j x).csr = s.csr := rfl
@[simp] theorem setCore_act (s : State) (j : Nat) (x : HostCore) : (s.setCore j x).act = s.act := rfl
@[simp] theorem setCore_mem (s : State) (j : Nat) (x : HostCore) : (s.setCore j x).mem = s.mem := rfl
@[simp] theorem setCore_ue (s : State) (j : Nat) (x : HostCore) : (s.setCore j x).ue = s.ue := rfl
@[simp] theorem setCore_ce (s : State) (j : Nat) (x : HostCore) : (s.setCore j x).ce = s.ce := rfl
@[simp] theorem setCore_stn (s : State) (j : Nat) (x : HostCore) : (s.setCore j x).stn = s.stn := rfl
@[simp] theorem setCore_aclk (s : State) (j : Nat) (x : HostCore) : (s.setCore j x).aclk = s.aclk := rfl
@[simp] theorem setCore_aclk6 (s : State) (j : Nat) (x : HostCore) : (s.setCore j x).aclk6 = s.aclk6 := rfl
@[simp] theorem setCore_mclk (s : State) (j : Nat) (x : HostCore) : (s.setCore j x).mclk = s.mclk := rfl
@[simp] theorem setCore_frozen (s : State) (j : Nat) (x : HostCore) : (s.setCore j x).frozen = s.frozen := rfl
@[simp] theorem setCore_tiles (s : State) (j : Nat) (x : HostCore) : (s.setCore j x).tiles = s.tiles := rfl
@[simp] theorem setCore_rings (s : State) (j : Nat) (x : HostCore) : (s.setCore j x).rings = s.rings := rfl
@[simp] theorem setCore_arb (s : State) (j : Nat) (x : HostCore) : (s.setCore j x).arb = s.arb := rfl
@[simp] theorem setCore_flt (s : State) (j : Nat) (x : HostCore) : (s.setCore j x).flt = s.flt := rfl
@[simp] theorem setCore_bias (s : State) (j : Nat) (x : HostCore) : (s.setCore j x).bias = s.bias := rfl
@[simp] theorem setCore_flip (s : State) (j : Nat) (x : HostCore) : (s.setCore j x).flip = s.flip := rfl
@[simp] theorem setCore_homes (s : State) (j : Nat) (x : HostCore) : (s.setCore j x).homes = s.homes := rfl
@[simp] theorem setCore_mesh (s : State) (j : Nat) (x : HostCore) : (s.setCore j x).mesh = s.mesh := rfl
@[simp] theorem setCore_mcs (s : State) (j : Nat) (x : HostCore) : (s.setCore j x).mcs = s.mcs := rfl
@[simp] theorem setCore_fab (s : State) (j : Nat) (x : HostCore) : (s.setCore j x).fab = s.fab := rfl
@[simp] theorem setCore_jobs (s : State) (j : Nat) (x : HostCore) : (s.setCore j x).jobs = s.jobs := rfl
@[simp] theorem setCore_engine (s : State) (j : Nat) (x : HostCore) : (s.setCore j x).engine = s.engine := rfl
@[simp] theorem setCore_sched (s : State) (j : Nat) (x : HostCore) : (s.setCore j x).sched = s.sched := rfl
@[simp] theorem setCore_io (s : State) (j : Nat) (x : HostCore) : (s.setCore j x).io = s.io := rfl
@[simp] theorem setCore_sys (s : State) (j : Nat) (x : HostCore) : (s.setCore j x).sys = s.sys := rfl
@[simp] theorem setCore_image (s : State) (j : Nat) (x : HostCore) : (s.setCore j x).image = s.image := rfl
@[simp] theorem setCore_readData (s : State) (j : Nat) (x : HostCore) : (s.setCore j x).readData = s.readData := rfl
@[simp] theorem setCore_freeCtr (s : State) (j : Nat) (x : HostCore) : (s.setCore j x).freeCtr = s.freeCtr := rfl

@[simp] theorem setMc_pending (s : State) (j : Nat) (x : MemCtl) : (s.setMc j x).pending = s.pending := rfl
@[simp] theorem setMc_csr (s : State) (j : Nat) (x : MemCtl) : (s.setMc j x).csr = s.csr := rfl
@[simp] theorem setMc_act (s : State) (j : Nat) (x : MemCtl) : (s.setMc j x).act = s.act := rfl
@[simp] theorem setMc_mem (s : State) (j : Nat) (x : MemCtl) : (s.setMc j x).mem = s.mem := rfl
@[simp] theorem setMc_ue (s : State) (j : Nat) (x : MemCtl) : (s.setMc j x).ue = s.ue := rfl
@[simp] theorem setMc_ce (s : State) (j : Nat) (x : MemCtl) : (s.setMc j x).ce = s.ce := rfl
@[simp] theorem setMc_stn (s : State) (j : Nat) (x : MemCtl) : (s.setMc j x).stn = s.stn := rfl
@[simp] theorem setMc_aclk (s : State) (j : Nat) (x : MemCtl) : (s.setMc j x).aclk = s.aclk := rfl
@[simp] theorem setMc_aclk6 (s : State) (j : Nat) (x : MemCtl) : (s.setMc j x).aclk6 = s.aclk6 := rfl
@[simp] theorem setMc_mclk (s : State) (j : Nat) (x : MemCtl) : (s.setMc j x).mclk = s.mclk := rfl
@[simp] theorem setMc_frozen (s : State) (j : Nat) (x : MemCtl) : (s.setMc j x).frozen = s.frozen := rfl
@[simp] theorem setMc_tiles (s : State) (j : Nat) (x : MemCtl) : (s.setMc j x).tiles = s.tiles := rfl
@[simp] theorem setMc_rings (s : State) (j : Nat) (x : MemCtl) : (s.setMc j x).rings = s.rings := rfl
@[simp] theorem setMc_arb (s : State) (j : Nat) (x : MemCtl) : (s.setMc j x).arb = s.arb := rfl
@[simp] theorem setMc_flt (s : State) (j : Nat) (x : MemCtl) : (s.setMc j x).flt = s.flt := rfl
@[simp] theorem setMc_bias (s : State) (j : Nat) (x : MemCtl) : (s.setMc j x).bias = s.bias := rfl
@[simp] theorem setMc_flip (s : State) (j : Nat) (x : MemCtl) : (s.setMc j x).flip = s.flip := rfl
@[simp] theorem setMc_homes (s : State) (j : Nat) (x : MemCtl) : (s.setMc j x).homes = s.homes := rfl
@[simp] theorem setMc_cores (s : State) (j : Nat) (x : MemCtl) : (s.setMc j x).cores = s.cores := rfl
@[simp] theorem setMc_mesh (s : State) (j : Nat) (x : MemCtl) : (s.setMc j x).mesh = s.mesh := rfl
@[simp] theorem setMc_fab (s : State) (j : Nat) (x : MemCtl) : (s.setMc j x).fab = s.fab := rfl
@[simp] theorem setMc_jobs (s : State) (j : Nat) (x : MemCtl) : (s.setMc j x).jobs = s.jobs := rfl
@[simp] theorem setMc_engine (s : State) (j : Nat) (x : MemCtl) : (s.setMc j x).engine = s.engine := rfl
@[simp] theorem setMc_sched (s : State) (j : Nat) (x : MemCtl) : (s.setMc j x).sched = s.sched := rfl
@[simp] theorem setMc_io (s : State) (j : Nat) (x : MemCtl) : (s.setMc j x).io = s.io := rfl
@[simp] theorem setMc_sys (s : State) (j : Nat) (x : MemCtl) : (s.setMc j x).sys = s.sys := rfl
@[simp] theorem setMc_image (s : State) (j : Nat) (x : MemCtl) : (s.setMc j x).image = s.image := rfl
@[simp] theorem setMc_readData (s : State) (j : Nat) (x : MemCtl) : (s.setMc j x).readData = s.readData := rfl
@[simp] theorem setMc_freeCtr (s : State) (j : Nat) (x : MemCtl) : (s.setMc j x).freeCtr = s.freeCtr := rfl

@[simp] theorem setPort_pending (s : State) (j : Nat) (x : Port) : (s.setPort j x).pending = s.pending := rfl
@[simp] theorem setPort_csr (s : State) (j : Nat) (x : Port) : (s.setPort j x).csr = s.csr := rfl
@[simp] theorem setPort_act (s : State) (j : Nat) (x : Port) : (s.setPort j x).act = s.act := rfl
@[simp] theorem setPort_mem (s : State) (j : Nat) (x : Port) : (s.setPort j x).mem = s.mem := rfl
@[simp] theorem setPort_ue (s : State) (j : Nat) (x : Port) : (s.setPort j x).ue = s.ue := rfl
@[simp] theorem setPort_ce (s : State) (j : Nat) (x : Port) : (s.setPort j x).ce = s.ce := rfl
@[simp] theorem setPort_stn (s : State) (j : Nat) (x : Port) : (s.setPort j x).stn = s.stn := rfl
@[simp] theorem setPort_aclk (s : State) (j : Nat) (x : Port) : (s.setPort j x).aclk = s.aclk := rfl
@[simp] theorem setPort_aclk6 (s : State) (j : Nat) (x : Port) : (s.setPort j x).aclk6 = s.aclk6 := rfl
@[simp] theorem setPort_mclk (s : State) (j : Nat) (x : Port) : (s.setPort j x).mclk = s.mclk := rfl
@[simp] theorem setPort_frozen (s : State) (j : Nat) (x : Port) : (s.setPort j x).frozen = s.frozen := rfl
@[simp] theorem setPort_tiles (s : State) (j : Nat) (x : Port) : (s.setPort j x).tiles = s.tiles := rfl
@[simp] theorem setPort_rings (s : State) (j : Nat) (x : Port) : (s.setPort j x).rings = s.rings := rfl
@[simp] theorem setPort_arb (s : State) (j : Nat) (x : Port) : (s.setPort j x).arb = s.arb := rfl
@[simp] theorem setPort_flt (s : State) (j : Nat) (x : Port) : (s.setPort j x).flt = s.flt := rfl
@[simp] theorem setPort_bias (s : State) (j : Nat) (x : Port) : (s.setPort j x).bias = s.bias := rfl
@[simp] theorem setPort_flip (s : State) (j : Nat) (x : Port) : (s.setPort j x).flip = s.flip := rfl
@[simp] theorem setPort_homes (s : State) (j : Nat) (x : Port) : (s.setPort j x).homes = s.homes := rfl
@[simp] theorem setPort_cores (s : State) (j : Nat) (x : Port) : (s.setPort j x).cores = s.cores := rfl
@[simp] theorem setPort_mesh (s : State) (j : Nat) (x : Port) : (s.setPort j x).mesh = s.mesh := rfl
@[simp] theorem setPort_mcs (s : State) (j : Nat) (x : Port) : (s.setPort j x).mcs = s.mcs := rfl
@[simp] theorem setPort_jobs (s : State) (j : Nat) (x : Port) : (s.setPort j x).jobs = s.jobs := rfl
@[simp] theorem setPort_engine (s : State) (j : Nat) (x : Port) : (s.setPort j x).engine = s.engine := rfl
@[simp] theorem setPort_sched (s : State) (j : Nat) (x : Port) : (s.setPort j x).sched = s.sched := rfl
@[simp] theorem setPort_io (s : State) (j : Nat) (x : Port) : (s.setPort j x).io = s.io := rfl
@[simp] theorem setPort_sys (s : State) (j : Nat) (x : Port) : (s.setPort j x).sys = s.sys := rfl
@[simp] theorem setPort_image (s : State) (j : Nat) (x : Port) : (s.setPort j x).image = s.image := rfl
@[simp] theorem setPort_readData (s : State) (j : Nat) (x : Port) : (s.setPort j x).readData = s.readData := rfl
@[simp] theorem setPort_freeCtr (s : State) (j : Nat) (x : Port) : (s.setPort j x).freeCtr = s.freeCtr := rfl

@[simp] theorem mesh_pending (s : State) (m : Msg) : (s.mesh! m).pending = s.pending := rfl
@[simp] theorem mesh_csr (s : State) (m : Msg) : (s.mesh! m).csr = s.csr := rfl
@[simp] theorem mesh_act (s : State) (m : Msg) : (s.mesh! m).act = s.act := rfl
@[simp] theorem mesh_mem (s : State) (m : Msg) : (s.mesh! m).mem = s.mem := rfl
@[simp] theorem mesh_ue (s : State) (m : Msg) : (s.mesh! m).ue = s.ue := rfl
@[simp] theorem mesh_ce (s : State) (m : Msg) : (s.mesh! m).ce = s.ce := rfl
@[simp] theorem mesh_stn (s : State) (m : Msg) : (s.mesh! m).stn = s.stn := rfl
@[simp] theorem mesh_aclk (s : State) (m : Msg) : (s.mesh! m).aclk = s.aclk := rfl
@[simp] theorem mesh_aclk6 (s : State) (m : Msg) : (s.mesh! m).aclk6 = s.aclk6 := rfl
@[simp] theorem mesh_mclk (s : State) (m : Msg) : (s.mesh! m).mclk = s.mclk := rfl
@[simp] theorem mesh_frozen (s : State) (m : Msg) : (s.mesh! m).frozen = s.frozen := rfl
@[simp] theorem mesh_tiles (s : State) (m : Msg) : (s.mesh! m).tiles = s.tiles := rfl
@[simp] theorem mesh_rings (s : State) (m : Msg) : (s.mesh! m).rings = s.rings := rfl
@[simp] theorem mesh_arb (s : State) (m : Msg) : (s.mesh! m).arb = s.arb := rfl
@[simp] theorem mesh_flt (s : State) (m : Msg) : (s.mesh! m).flt = s.flt := rfl
@[simp] theorem mesh_bias (s : State) (m : Msg) : (s.mesh! m).bias = s.bias := rfl
@[simp] theorem mesh_flip (s : State) (m : Msg) : (s.mesh! m).flip = s.flip := rfl
@[simp] theorem mesh_homes (s : State) (m : Msg) : (s.mesh! m).homes = s.homes := rfl
@[simp] theorem mesh_cores (s : State) (m : Msg) : (s.mesh! m).cores = s.cores := rfl
@[simp] theorem mesh_mcs (s : State) (m : Msg) : (s.mesh! m).mcs = s.mcs := rfl
@[simp] theorem mesh_fab (s : State) (m : Msg) : (s.mesh! m).fab = s.fab := rfl
@[simp] theorem mesh_jobs (s : State) (m : Msg) : (s.mesh! m).jobs = s.jobs := rfl
@[simp] theorem mesh_engine (s : State) (m : Msg) : (s.mesh! m).engine = s.engine := rfl
@[simp] theorem mesh_sched (s : State) (m : Msg) : (s.mesh! m).sched = s.sched := rfl
@[simp] theorem mesh_io (s : State) (m : Msg) : (s.mesh! m).io = s.io := rfl
@[simp] theorem mesh_sys (s : State) (m : Msg) : (s.mesh! m).sys = s.sys := rfl
@[simp] theorem mesh_image (s : State) (m : Msg) : (s.mesh! m).image = s.image := rfl
@[simp] theorem mesh_readData (s : State) (m : Msg) : (s.mesh! m).readData = s.readData := rfl
@[simp] theorem mesh_freeCtr (s : State) (m : Msg) : (s.mesh! m).freeCtr = s.freeCtr := rfl

/-- A message that is sent is behind those on their way. -/
@[simp] theorem mesh_mesh (s : State) (m : Msg) : (s.mesh! m).mesh = s.mesh ++ [m] := rfl

/-- Changing an open transaction changes its home alone. -/
theorem home_modTxn_ne (s : State) (la k : Nat) (f : Txn → Txn) (h : k ≠ s.homeOf la) : (s.modTxn la f).home k = s.home k := by
  simp [State.modTxn, home_setHome, h]

/-- Changing the copy of a line in a system-level cache changes its home alone. -/
theorem home_modSlc_ne (s : State) (la k : Nat) (f : SlcLine → SlcLine) (h : k ≠ s.homeOf la) : (s.modSlc la f).home k = s.home k := by
  simp [State.modSlc, home_setHome, h]

/-- Changing a copy in a system-level cache leaves the directory and the open transactions of its home. -/
theorem dir_modSlc (s : State) (la k : Nat) (f : SlcLine → SlcLine) :
    ((s.modSlc la f).home k).dir = (s.home k).dir ∧ ((s.modSlc la f).home k).txns = (s.home k).txns := by
  by_cases h : k = s.homeOf la
  · subst h; simp [State.modSlc]
  · simp [home_modSlc_ne s la k f h]

/-- Changing a miss changes its core alone. -/
theorem core_modMiss_ne (s : State) (c la k : Nat) (f : Miss → Miss) (h : k ≠ c) : (s.modMiss c la f).core k = s.core k := by
  simp [State.modMiss, core_setCore, h]

/-- Changing a miss leaves the lines that its core holds. -/
theorem lines_modMiss (s : State) (c la k : Nat) (f : Miss → Miss) : ((s.modMiss c la f).core k).lines = (s.core k).lines := by
  by_cases h : k = c
  · subst h; simp [State.modMiss]
  · simp [core_modMiss_ne s c la k f h]

end Sys2Proof.Machine
end

