-- ==== Sys2Proof/Laws/Memory.lean ====
section
/-! SUPPORT. Memory: its canonical form is kept by every operation that writes it, and a store changes the bytes it names and no other. -/

namespace Sys2Proof

/-! ## The canonical form of a table keyed by numbers -/

section
variable {β : Type}

/-- Every key of a table is above a bound. -/
def keysAbove (b : Nat) (m : NMap β) : Prop := ∀ e ∈ m, b < e.1

variable [DecidableEq β]

theorem wf_nil (d : β) : NMap.wf d ([] : NMap β) = true := by simp [NMap.wf]

/-- A table is in canonical form if its first key lies below the others, its value is not the default, and the rest is. -/
theorem wf_cons (d : β) (k : Nat) (v : β) (m : NMap β) :
    NMap.wf d ((k, v) :: m) = true ↔ (v ≠ d ∧ keysAbove k m ∧ NMap.wf d m = true) := by
  simp only [NMap.wf, Bool.and_eq_true, decide_eq_true_eq, List.all_eq_true, List.map_cons, List.mem_cons, forall_eq_or_imp,
    bne_iff_ne, ne_eq]
  rw [List.pairwise_cons]
  simp only [keysAbove, List.mem_map, forall_exists_index, and_imp]
  constructor
  · rintro ⟨⟨h1, h2⟩, h3, h4⟩; exact ⟨h3, fun e he => h1 _ e he rfl, h2, h4⟩
  · rintro ⟨h3, h1, h2, h4⟩; exact ⟨⟨fun a e he ha => ha ▸ h1 e he, h2⟩, h3, h4⟩

omit [DecidableEq β] in
theorem keysAbove_kdel (b k : Nat) (m : NMap β) (h : keysAbove b m) : keysAbove b (kdel m k) := by
  induction m with
  | nil => exact h
  | cons e m ih =>
    obtain ⟨a, v⟩ := e
    have hm : keysAbove b m := fun e he => h e (List.mem_cons_of_mem _ he)
    simp only [kdel]
    split
    · exact ih hm
    · intro e he
      rcases List.mem_cons.1 he with rfl | he
      · exact h _ (List.mem_cons_self ..)
      · exact ih hm e he

omit [DecidableEq β] in
theorem keysAbove_kins (b k : Nat) (v : β) (m : NMap β) (hb : b < k) (h : keysAbove b m) :
    keysAbove b (kins (fun n => n) k v m) := by
  induction m with
  | nil => simpa [kins, keysAbove] using hb
  | cons e m ih =>
    obtain ⟨a, w⟩ := e
    have hm : keysAbove b m := fun e he => h e (List.mem_cons_of_mem _ he)
    simp only [kins]
    split
    · intro e he
      rcases List.mem_cons.1 he with rfl | he
      · exact hb
      · exact h e he
    · intro e he
      rcases List.mem_cons.1 he with rfl | he
      · exact h _ (List.mem_cons_self ..)
      · exact ih hm e he

theorem wf_kdel (d : β) (k : Nat) (m : NMap β) (h : NMap.wf d m = true) : NMap.wf d (kdel m k) = true := by
  induction m with
  | nil => exact h
  | cons e m ih =>
    obtain ⟨a, v⟩ := e
    rw [wf_cons] at h
    simp only [kdel]
    split
    · exact ih h.2.2
    · exact (wf_cons ..).2 ⟨h.1, keysAbove_kdel a k m h.2.1, ih h.2.2⟩

theorem wf_kins (d : β) (k : Nat) (v : β) (m : NMap β) (hv : v ≠ d) (hk : ∀ e ∈ m, e.1 ≠ k) (h : NMap.wf d m = true) :
    NMap.wf d (kins (fun n => n) k v m) = true := by
  induction m with
  | nil => exact (wf_cons ..).2 ⟨hv, fun e he => absurd he (by simp), wf_nil d⟩
  | cons e m ih =>
    obtain ⟨a, w⟩ := e
    have hw := (wf_cons ..).1 h
    simp only [kins]
    split
    · rename_i hlt
      refine (wf_cons ..).2 ⟨hv, fun e he => ?_, h⟩
      rcases List.mem_cons.1 he with rfl | he
      · exact hlt
      · exact lt_trans hlt (hw.2.1 e he)
    · rename_i hge
      have hne : a ≠ k := hk (a, w) (List.mem_cons_self ..)
      exact (wf_cons ..).2 ⟨hw.1, keysAbove_kins a k v m (by omega) hw.2.1,
        ih (fun e he => hk e (List.mem_cons_of_mem _ he)) hw.2.2⟩

/-- A set keeps the canonical form. -/
theorem wf_nset (d : β) (m : NMap β) (k : Nat) (v : β) (h : NMap.wf d m = true) : NMap.wf d (nset d m k v) = true := by
  unfold nset kset
  split
  · exact wf_kdel d k m h
  · rename_i hv; exact wf_kins d k v _ hv (kdel_ne m k) (wf_kdel d k m h)

end

/-! ## Byte strings -/

/-- A little-endian byte string holds its number (R3). -/
theorem leNat_leBytes (n v : Nat) : leNat (leBytes n v) = v % 2 ^ (8 * n) := by
  induction n generalizing v with
  | zero => simp [leBytes, leNat, Nat.mod_one]
  | succ n ih =>
    simp only [leBytes, leNat, ih, BitVec.toNat_ofNat]
    rw [show 8 * (n + 1) = 8 + 8 * n by ring, pow_add, Nat.mod_mul]; norm_num

/-- The length of a little-endian byte string. -/
theorem length_leBytes (n v : Nat) : (leBytes n v).length = n := by
  induction n generalizing v with
  | zero => rfl
  | succ n ih => simp [leBytes, ih]

namespace Machine

/-! ## Bytes of memory -/

/-- Storing bytes keeps the canonical form of the memory. -/
theorem wf_putCells (m : List Host.Cell) (a : Nat) (l : List Byte) (h : Memory.wf m = true) : Memory.wf (putCells m a l) = true := by
  induction l generalizing m a with
  | nil => exact h
  | cons b l ih => exact ih _ _ (wf_nset 0 m a b h)

/-- A store keeps the canonical form of the memory. -/
theorem wf_store (s : State) (a : Nat) (l : List Byte) (h : Memory.wf s.mem = true) : Memory.wf (s.store a l).mem = true :=
  wf_putCells s.mem a l h

/-- What bytes `a` on read as after a list of bytes has been put there. -/
theorem kget_putCells (m : List Host.Cell) (a : Nat) (l : List Byte) (x : Nat) :
    kget 0 (putCells m a l) x = if a ≤ x ∧ x < a + l.length then l.getD (x - a) 0 else kget 0 m x := by
  induction l generalizing m a with
  | nil => simp [putCells]
  | cons b l ih =>
    simp only [putCells, ih, kget_nset, List.length_cons]
    by_cases h : x = a
    · subst h; simp
    · by_cases h2 : a + 1 ≤ x ∧ x < a + 1 + l.length
      · rw [if_pos h2, if_pos ⟨by omega, by omega⟩]
        obtain ⟨k, hk⟩ := Nat.exists_eq_add_of_le h2.1
        rw [show x - (a + 1) = k by omega, show x - a = k + 1 by omega]; rfl
      · rw [if_neg h2, if_neg h, if_neg (by omega)]

/-- A store changes the bytes that it names and no other. -/
theorem byteAt_store (s : State) (a : Nat) (l : List Byte) (x : Nat) :
    (s.store a l).byteAt x = if a ≤ x ∧ x < a + l.length then l.getD (x - a) 0 else s.byteAt x := kget_putCells s.mem a l x

/-- Bytes from an address, one by one. -/
theorem bytesAt_eq (s : State) (a n : Nat) : s.bytesAt a n = (List.range n).map (fun i => s.byteAt (a + i)) := by
  induction n generalizing a with
  | zero => rfl
  | succ n ih =>
    rw [State.bytesAt, ih, List.range_succ_eq_map]; simp [Function.comp_def, Nat.add_assoc, Nat.add_comm 1]

/-- What was stored reads back. -/
theorem bytesAt_store (s : State) (a : Nat) (l : List Byte) : (s.store a l).bytesAt a l.length = l := by
  rw [bytesAt_eq]
  apply List.ext_getElem (by simp)
  intro i h1 h2
  simp only [List.getElem_map, List.getElem_range, byteAt_store]
  rw [if_pos ⟨by omega, by omega⟩, Nat.add_sub_cancel_left, List.getD_eq_getElem _ _ h2]

end Machine
end Sys2Proof
end

