-- ==== Sys2Proof/Laws/Mesh.lean ====
section
/-! SUPPORT. Taking the first element that a test selects from a list, and the messages of the mesh. -/

namespace Sys2Proof.Machine

/-- The first element that `p` selects is the one behind a part that `p` rejects. -/
theorem popFirst_append {α : Type} (p : α → Bool) (pre post : List α) (x : α) (hpre : ∀ y ∈ pre, p y = false) (hx : p x = true) :
    popFirst p (pre ++ x :: post) = some (x, pre ++ post) := by
  induction pre with
  | nil => simp [popFirst, hx]
  | cons y l ih =>
    have hy : p y = false := hpre y (by simp)
    have := ih (fun z hz => hpre z (by simp [hz]))
    simp [popFirst, hy, this]

/-- A test that agrees with `sameWay` takes the message that arrives. -/
theorem popFirst_arrives (s u : State) (m : Msg) (p : Msg → Bool) (hp : ∀ x, p x = sameWay m x) (hm : sameWay m m = true)
    (h : Arrives s m u) : popFirst p s.mesh = some (m, u.mesh) ∧ u = { s with mesh := u.mesh } := by
  obtain ⟨_, pre, post, hs, hpre, rfl⟩ := h
  refine ⟨?_, rfl⟩
  rw [hs]
  exact popFirst_append p pre post m (fun y hy => by rw [hp, hpre y hy]) (by rw [hp, hm])

end Sys2Proof.Machine
end

