-- ==== Sys2Proof/Laws/Signatures.lean ====
section
/-! SUPPORT. The lengths of hashes, keys and signatures (R339, R352, R353). -/

namespace Sys2Proof

open Sys2Proof.Machine

theorem length_beBytes (n v : Nat) : (beBytes n v).length = n := by simp [beBytes, length_leBytes]

/-! ## Hashes -/

theorem length_round (f : ShaKind) (v : List (BitVec f.w)) (kw : BitVec f.w) : (f.round v kw).length = v.length := by
  unfold ShaKind.round; split <;> simp

theorem length_foldl_round (f : ShaKind) (l : List (BitVec f.w)) (v : List (BitVec f.w)) : (l.foldl f.round v).length = v.length := by
  induction l generalizing v with
  | nil => rfl
  | cons x l ih => rw [List.foldl_cons, ih, length_round]

theorem length_compressAll (f : ShaKind) (n : Nat) (v : List (BitVec f.w)) (l : List Byte) : (f.compressAll v n l).length = v.length := by
  induction n generalizing v l with
  | zero => rfl
  | succ n ih => rw [ShaKind.compressAll, ih, ShaKind.compress, List.length_zipWith, length_foldl_round, Nat.min_self]

theorem length_flatMap_const {α β : Type} (l : List α) (g : α → List β) (k : Nat) (h : ∀ x ∈ l, (g x).length = k) :
    (l.flatMap g).length = k * l.length := by
  induction l with
  | nil => rfl
  | cons x l ih =>
    rw [List.flatMap_cons, List.length_append, h x (by simp), ih (fun y hy => h y (by simp [hy])), List.length_cons]
    ring

/-- A hash value is eight words. -/
theorem length_hash (f : ShaKind) (l : List Byte) : (f.hash l).length = 8 * f.size := by
  have hp : (shaPrimes.take 8).length = 8 := by decide +kernel
  unfold ShaKind.hash
  rw [length_flatMap_const _ _ f.size (fun x _ => length_beBytes _ _), length_compressAll, ShaKind.initial, List.length_map, hp, Nat.mul_comm]

@[simp] theorem length_sha256 (l : List Byte) : (sha256 l).length = 32 := length_hash _ _
@[simp] theorem length_sha512 (l : List Byte) : (sha512 l).length = 64 := length_hash _ _
@[simp] theorem length_hmac512 (k m : List Byte) : (hmac512 k m).length = 64 := length_sha512 _

/-! ## Signatures, for hashes of at most 32 bytes -/

variable {q : SlhSet}

theorem length_hashOne (hn : q.n ≤ 32) (seed : List Byte) (a : SlhPlace) (m : List Byte) : (q.hashOne seed a m).length = q.n := by
  simp [SlhSet.hashOne]; omega

theorem length_hashMany (hn : q.n ≤ 32) (seed : List Byte) (a : SlhPlace) (m : List Byte) : (q.hashMany seed a m).length = q.n := by
  simp [SlhSet.hashMany]; omega

theorem length_chain (hn : q.n ≤ 32) (seed : List Byte) (a : SlhPlace) (k i : Nat) (m : List Byte) (hm : m.length = q.n) :
    (q.chain seed a k i m).length = q.n := by
  induction k generalizing i m with
  | zero => exact hm
  | succ k ih => exact ih _ _ (length_hashOne hn ..)

theorem length_digits (m : List Byte) : (q.digits m).length = 2 * m.length + 3 := by
  have h : (nibbles m).length = 2 * m.length := length_flatMap_const _ _ 2 (fun _ _ => rfl)
  simp [SlhSet.digits, h]

theorem length_flatten_const {β : Type} (l : List (List β)) (k : Nat) (h : ∀ x ∈ l, x.length = k) : l.flatten.length = k * l.length := by
  have := length_flatMap_const l id k h
  simpa [List.flatMap_id] using this

theorem length_oneTimeSign (hn : q.n ≤ 32) (sk seed : List Byte) (layer tree leaf : Nat) (m : List Byte) (hm : m.length = q.n) :
    (q.oneTimeSign sk seed layer tree leaf m).length = q.n * q.chains := by
  unfold SlhSet.oneTimeSign
  rw [length_flatten_const _ q.n, List.length_map, List.length_zipIdx, length_digits, hm, SlhSet.chains]
  intro x hx
  obtain ⟨⟨d, i⟩, -, rfl⟩ := List.mem_map.mp hx
  exact length_chain hn _ _ _ _ _ (length_hashOne hn ..)

theorem length_node (hn : q.n ≤ 32) (seed : List Byte) (a : SlhPlace) (leaf : Nat → List Byte) (hl : ∀ i, (leaf i).length = q.n) (z i : Nat) :
    (q.node seed a leaf z i).length = q.n := by
  cases z with
  | zero => exact hl i
  | succ z => exact length_hashMany hn ..

theorem length_siblings (hn : q.n ≤ 32) (seed : List Byte) (a : SlhPlace) (leaf : Nat → List Byte) (hl : ∀ i, (leaf i).length = q.n)
    (levels i : Nat) : (q.siblings seed a leaf levels i).length = q.n * levels := by
  rw [SlhSet.siblings, length_flatMap_const _ _ q.n (fun j _ => length_node hn _ _ _ hl _ _), List.length_range]

theorem length_oneTimePublic (hn : q.n ≤ 32) (sk seed : List Byte) (layer tree leaf : Nat) :
    (q.oneTimePublic sk seed layer tree leaf).length = q.n := length_hashMany hn ..

theorem length_treeRoot (hn : q.n ≤ 32) (sk seed : List Byte) (layer tree : Nat) : (q.treeRoot sk seed layer tree).length = q.n :=
  length_node hn _ _ _ (fun _ => length_oneTimePublic hn ..) _ _

theorem length_treeSign (hn : q.n ≤ 32) (sk seed : List Byte) (layer tree leaf : Nat) (m : List Byte) (hm : m.length = q.n) :
    (q.treeSign sk seed layer tree leaf m).length = q.layerBytes := by
  rw [SlhSet.treeSign, List.length_append, length_oneTimeSign hn _ _ _ _ _ _ hm,
    length_siblings hn _ _ _ (fun _ => length_oneTimePublic hn ..), SlhSet.layerBytes, Nat.mul_add]

theorem length_layersSign (hn : q.n ≤ 32) (sk seed : List Byte) (k layer tree leaf : Nat) (m : List Byte) (hm : m.length = q.n) :
    (q.layersSign sk seed k layer tree leaf m).length = k * q.layerBytes := by
  induction k generalizing layer tree leaf m with
  | zero => simp [SlhSet.layersSign]
  | succ k ih =>
    rw [SlhSet.layersSign, List.length_append, length_treeSign hn _ _ _ _ _ _ hm, ih _ _ _ _ (length_treeRoot hn ..)]
    ring

theorem length_fewSign (hn : q.n ≤ 32) (sk seed : List Byte) (p : SlhPick) :
    (q.fewSign sk seed p).length = p.leaves.length * q.fewBytes := by
  unfold SlhSet.fewSign
  rw [length_flatMap_const _ _ q.fewBytes, List.length_zipIdx, Nat.mul_comm]
  rintro ⟨x, t⟩ -
  have h : ∀ i, (q.fewLeaf seed p i (q.fewSecret sk seed p i)).length = q.n := fun _ => length_hashOne hn ..
  have h' : ∀ i, (q.fewSecret sk seed p i).length = q.n := fun _ => length_hashOne hn ..
  simp only [List.length_append, length_siblings hn _ _ _ h, h', SlhSet.fewBytes]
  ring

/-- A signature has the bytes of its parameter set (R339, R353). -/
theorem length_signWith (hn : q.n ≤ 32) (sk prf key rand m : List Byte) : (q.signWith sk prf key rand m).length = q.sigBytes := by
  have hl : ∀ d, (q.pick d).leaves.length = q.fewTrees := fun d => by simp [SlhSet.pick]
  simp only [SlhSet.signWith, List.length_append, length_fewSign hn, hl, List.length_take, length_hmac512, SlhSet.sigBytes]
  have h : ∀ seed p sig, (q.fewRecover seed p sig).length = q.n := fun _ _ _ => length_hashMany hn ..
  rw [length_layersSign hn _ _ _ _ _ _ _ (h ..)]
  omega

/-- A public key is two values. -/
theorem length_publicKey (hn : q.n ≤ 32) (sk seed : List Byte) (hs : seed.length = q.n) : (q.publicKey sk seed).length = 2 * q.n := by
  rw [SlhSet.publicKey, List.length_append, hs, length_treeRoot hn]; omega

/-- The lengths of R339 and R353. -/
theorem signature_lengths : SlhSet.s192.sigBytes = 16224 ∧ SlhSet.f192.sigBytes = 35664 := by decide +kernel

end Sys2Proof
end

