-- ==== Sys2Proof/Laws/Tiles.lean ====
section
/-! SUPPORT. Tiles: storing one leaves the others, what retiring an instruction leaves, and when a command executes the word at the program
counter (R48, R77). -/

namespace Sys2Proof.Machine

theorem tile_setTile (s : State) (n m : Nat) (x : Tile) : (s.setTile n x).tile m = if m = n then x else s.tile m := kget_nset _ _ _ _ _

@[simp] theorem tile_setTile_same (s : State) (n : Nat) (x : Tile) : (s.setTile n x).tile n = x := by rw [tile_setTile, if_pos rfl]

theorem tile_setTile_ne (s : State) (n m : Nat) (x : Tile) (h : m ≠ n) : (s.setTile n x).tile m = s.tile m := by
  rw [tile_setTile, if_neg h]

@[simp] theorem tile_modTile_same (s : State) (n : Nat) (f : Tile → Tile) : (s.modTile n f).tile n = f (s.tile n) :=
  tile_setTile_same ..

theorem tile_modTile_ne (s : State) (n m : Nat) (f : Tile → Tile) (h : m ≠ n) : (s.modTile n f).tile m = s.tile m :=
  tile_setTile_ne _ _ _ _ h

@[simp] theorem tile_rset (s : State) (r : Reg) (v : W64) (n : Nat) : (s.rset r v).tile n = s.tile n := rfl
@[simp] theorem tile_setF (s : State) (r : Reg) (f : Fld) (x n : Nat) : (s.setF r f x).tile n = s.tile n := rfl
@[simp] theorem tile_bumpF (s : State) (r : Reg) (f : Fld) (k n : Nat) : (s.bumpF r f k).tile n = s.tile n := rfl
@[simp] theorem tile_store (s : State) (a : Nat) (l : List Byte) (n : Nat) : (s.store a l).tile n = s.tile n := rfl

@[simp] theorem rget_setTile (s : State) (n : Nat) (x : Tile) (r : Reg) : (s.setTile n x).rget r = s.rget r := rfl
@[simp] theorem rget_modTile (s : State) (n : Nat) (f : Tile → Tile) (r : Reg) : (s.modTile n f).rget r = s.rget r := rfl
@[simp] theorem rf_modTile (s : State) (n : Nat) (f : Tile → Tile) (r : Reg) (g : Fld) : (s.modTile n f).rf r g = s.rf r g := rfl
@[simp] theorem rget_store (s : State) (a : Nat) (l : List Byte) (r : Reg) : (s.store a l).rget r = s.rget r := rfl
@[simp] theorem rf_store (s : State) (a : Nat) (l : List Byte) (r : Reg) (g : Fld) : (s.store a l).rf r g = s.rf r g := rfl

/-- What changing a tile and retiring its instruction leaves: the terms of `Retired`. -/
theorem retired_retireTo (s : State) (n : Nat) (pc : BitVec 17) (f : Tile → Tile) :
    Retired s ((s.modTile n f).retireTo n pc) n pc f := by
  refine ⟨?_, fun m hm => ?_, ?_, fun r hr => ?_, rfl⟩
  · simp [State.retireTo]
  · rw [State.retireTo, tile_modTile_ne _ _ _ _ hm, tile_bumpF, tile_modTile_ne _ _ _ _ hm]
  · rw [State.retireTo, rf_modTile, State.bumpF, rf_setF_same _ _ _ _ (by decide), rf_modTile]
    exact Nat.mod_eq_of_lt (lt_of_le_of_lt (Nat.min_le_right _ _) (by decide))
  · rw [State.retireTo, rget_modTile, State.bumpF, rget_setF_ne _ _ _ _ _ hr, rget_modTile]

/-- The same for the next instruction, when the change leaves the program counter. -/
theorem retired_retire (s : State) (n : Nat) (f : Tile → Tile) (h : (f (s.tile n)).pc = (s.tile n).pc) :
    Retired s ((s.modTile n f).retire n) n ((s.tile n).pc + 8) f := by
  have := retired_retireTo s n ((s.tile n).pc + 8) f
  rwa [State.retire, tile_modTile_same, h]

/-- Retiring an instruction that leaves the tile as it is. -/
theorem retired_retireTo_id (s : State) (n : Nat) (pc : BitVec 17) : Retired s (s.retireTo n pc) n pc id := by
  refine ⟨?_, fun m hm => ?_, ?_, fun r hr => ?_, rfl⟩
  · simp [State.retireTo]
  · rw [State.retireTo, tile_modTile_ne _ _ _ _ hm, tile_bumpF]
  · rw [State.retireTo, rf_modTile, State.bumpF, rf_setF_same _ _ _ _ (by decide)]
    exact Nat.mod_eq_of_lt (lt_of_le_of_lt (Nat.min_le_right _ _) (by decide))
  · rw [State.retireTo, rget_modTile, State.bumpF, rget_setF_ne _ _ _ _ _ hr]

/-- A command of an instruction, on a tile that is ready to execute a word of its opcode, runs the instruction on that word. -/
theorem tisStep_ready {s : State} {n op : Nat} {w : W64} (h : Ready s n w) (hl : listedOp op = true) (ho : opc w = op)
    (k : W64 → State → State) : tisStep n op k s = k w s := by
  obtain ⟨-, h1, h2, h3, h4, h5, h6⟩ := h
  unfold opc at ho
  simp [tisStep, h1, h2, h3, h4, h5, h6, ho, hl, State.sramCorrected]

/-- The same for the whole command. -/
theorem clocked_ready {s : State} {n op : Nat} {w : W64} (h : Ready s n w) (hl : listedOp op = true) (ho : opc w = op)
    (k : W64 → State → State) : clocked 6 s (tisStep n op k) = .next (k w s) := by
  simp [clocked, h.1, tisStep_ready h hl ho]

/-- A read of clean bytes of a populated bank returns them and changes nothing (R34, R35). -/
theorem sramRead_clean (s : State) (w : Who) (n o len : Nat) (h : CleanBank s n o len) :
    s.sramRead w n o len = (s, some (s.bytesAt (apBase n + o) len)) := by
  obtain ⟨h1, h2, h3⟩ := h
  simp [State.sramRead, show ¬ 48 ≤ bankOf o by omega, h2, h3, State.sramCorrected]

/-- A write to clean bytes of a populated bank stores them (R32, R35). -/
theorem sramWrite_clean (s : State) (w : Who) (n o : Nat) (l : List Byte) (hl : l ≠ []) (h : CleanBank s n o l.length) :
    s.sramWrite w n o l = (s.store (apBase n + o) l, true) := by
  obtain ⟨h1, h2, h3⟩ := h
  simp [State.sramWrite, hl, show ¬ 48 ≤ bankOf o by omega, h2, h3, State.sramCorrected]

/-- What a branch whose target lies in the program memory leaves (R54). -/
theorem branchIf_taken {s : State} {n : Nat} {tk : Tile → W64 → Bool} {f : W64 → Tile → Tile} {w : W64} (hp : (f w (s.tile n)).pc = (s.tile n).pc)
    (b : Bool) (hb : tk (s.tile n) w = b) (ht : (branchTarget (s.tile n) w).toNat ≤ 0xFFF8) :
    Retired s (branchIf n tk f w s) n (if b then (branchTarget (s.tile n) w).setWidth 17 else (s.tile n).pc + 8) (f w) := by
  subst hb
  unfold branchIf
  simp only [ht, if_true]
  split
  · exact retired_retireTo ..
  · exact retired_retire _ _ _ hp

/-- Two functions that agree on the tile describe the same retirement. -/
theorem retired_congr {s t : State} {n : Nat} {pc} {f g : Tile → Tile} (h : Retired s t n pc f) (hfg : f (s.tile n) = g (s.tile n)) : Retired s t n pc g := by
  obtain ⟨h1, h2⟩ := h; exact ⟨by rw [h1, hfg], h2⟩

/-- Reading words of registers without errors changes nothing (R34, R384). -/
theorem readWords32_clean (s : State) (n : Nat) (hit : Nat → Bool) (k : State → State) (h : CleanTile (s.tile n)) :
    s.readWords32 n hit k = k s := by
  simp [State.readWords32, State.wordErrors, h.1, h.2.1]

/-- Reading registers without errors changes nothing (R34, R384). -/
theorem readVecs_clean (s : State) (n : Nat) (rs : List Nat) (k : State → State) (h : CleanTile (s.tile n)) : s.readVecs n rs k = k s :=
  readWords32_clean s n _ k h

/-- What writing lanes under the guard leaves (R52). -/
theorem writeLanes_ret (s : State) (n : Nat) (w : W64) (new : List Nat) (h : CleanTile (s.tile n)) :
    Retired s (s.writeLanes n w new) n ((s.tile n).pc + 8) (fun t => t.guardedWrite w new) := by
  unfold State.writeLanes
  rw [readVecs_clean _ _ _ _ h]
  exact retired_retire s n _ rfl

/-- What writing predicate bits under the guard leaves (R52). -/
theorem writePred_ret (s : State) (n : Nat) (w : W64) (new : BitVec 256) (h : CleanTile (s.tile n)) :
    Retired s (s.writePred n w new) n ((s.tile n).pc + 8) (fun t => t.guardedPred w new) := by
  unfold State.writePred
  rw [readVecs_clean _ _ _ _ h]
  simp only
  rw [readWords32_clean _ _ _ _ h]
  refine retired_congr (retired_retire s n _ ?_) ?_
  · simp [Tile.setP]; split <;> rfl
  · simp [Tile.guardedPred, Tile.setP, h.1, h.2.1]

/-- The lanes of an element operation, lane by lane. -/
theorem lanes_zip (t : Tile) (w : W64) (f : Nat → Nat → Nat → Nat) :
    ((laneList (t.vreg (vA w))).zip ((laneList (t.vreg (vB w))).zip (laneList (t.vreg (vC w))))).map
      (fun x => onLane (vT w) f x.1 x.2.1 x.2.2) = lanesOf t w f := by
  simp [laneList, lanesOf, List.zip_map', Function.comp_def]

/-- What an element operation on clean registers leaves (R63). -/
theorem lane3_ret {s : State} {n : Nat} {types ff fi srcs} {w : W64} (hc : CleanTile (s.tile n)) (ht : typeOk types w = true) :
    Retired s (lane3 n types ff fi srcs w s) n ((s.tile n).pc + 8)
      (fun t => t.guardedWrite w (lanesOf (s.tile n) w (match typeFmt (vT w) with | some fmt => ff fmt (vRm w) | none => fi (vT w)))) := by
  unfold lane3
  rw [ht]; simp only [Bool.not_true, Bool.false_eq_true, if_false]
  rw [readVecs_clean _ _ _ _ hc, lanes_zip]
  exact writeLanes_ret _ _ _ _ hc

end Sys2Proof.Machine
end

