-- ==== Sys2Proof/Laws/Units.lean ====
section
/-! SUPPORT. When a command of a unit has its effect (R369, R404), and when a frame reaches the software (R349, R421). -/

namespace Sys2Proof.Machine

/-- A unit runs exactly where no freeze stops it and its domain is up. -/
theorem runs_iff (s : State) (d : Nat) : s.runs d = true ↔ s.frozen = false ∧ s.up d = true := by simp [State.runs]

/-- A unit that runs is not frozen. -/
theorem not_frozen_of_runs {s : State} {d : Nat} (h : s.runs d = true) : s.frozen = false := ((runs_iff s d).mp h).1

/-- Above D2 a unit that runs has its domain released. -/
theorem released_of_runs {s : State} {d : Nat} (h : s.runs d = true) (hd : 3 ≤ d) : s.released d = true := by
  have := ((runs_iff s d).mp h).2
  simpa [State.up, show ¬ d < 3 by omega] using this

/-- D0 to D2 run unless the device is frozen. -/
theorem runs_low (s : State) {d : Nat} (hd : d < 3) : s.runs d = !s.frozen := by simp [State.runs, State.up, hd]

/-- A command of a unit that runs has its effect. -/
theorem clocked_runs {s : State} {d : Nat} (h : s.runs d = true) (f : State → State) : clocked d s f = .next (f s) := by
  simp [clocked, h]

/-- A command of a unit that does not run has none. -/
theorem clocked_held {s : State} {d : Nat} (h : s.runs d = false) (f : State → State) : clocked d s f = .next s := by
  simp [clocked, h]

/-- A frame that is heard has its effect. -/
theorem onFrame_heard {s : State} {h : Ether} (hh : s.hears h = true) (f : State → State) : onFrame h s f = .next (f s) := by
  simp [onFrame, always, hh]

/-- A frame that is not heard has none. -/
theorem onFrame_unheard {s : State} {h : Ether} (hh : s.hears h = false) (f : State → State) : onFrame h s f = .next s := by
  simp [onFrame, always, hh]

/-- Whether a unit runs depends on the register of the domains and the freeze only. -/
theorem runs_congr {s t : State} (hr : t.rget .rstDomains = s.rget .rstDomains) (hf : t.frozen = s.frozen) (d : Nat) :
    t.runs d = s.runs d := by
  simp [State.runs, State.up, State.released, State.rf, hr, hf]

end Sys2Proof.Machine
end

