-- ==== Sys2Proof/WellFormed.lean ====
section
/-! DEFINITION. Which payloads one access of a link carries. No meaning tests it: a larger payload has the effect of its bytes. -/

namespace Sys2Proof

/-- The longest piece of an aperture or memory access: one line. -/
def lineLimit : Nat := 64

/-- An access of `size` bytes at `offset` carries data of that size, if it writes, and lies in one 64 B line.
DESIGN CHOICE: log entry 4. -/
def accessWf (offset size : Nat) (write : Option (List Byte)) : Bool :=
  size ≤ lineLimit && offset % 64 + size ≤ 64 && (match write with | some l => l.length == size | none => true)

/-- A memory request of PCI Express: at most 512 B written or 4,096 B read, within one 4 KiB block of addresses (R314).
DESIGN CHOICE: log entry 4. -/
def tlpWf (addr len : Nat) (write : Option (List Byte)) : Bool :=
  addr % 4096 + len ≤ 4096 && (match write with | some l => l.length == len && len ≤ 512 | none => true)

end Sys2Proof
end

