-- ==== Sys2Proof/Tests/Slice0.lean ====
section
/-! SUPPORT. Tests of the model on small states: what the checks of WellFormed refuse, states and operands that meet the hypotheses of
each statement, and single steps whose results come from the manual. -/

namespace Sys2Proof.Tests

open Sys2Proof Sys2Proof.Machine

set_option Elab.async false

/-! ## Helpers -/

/-- The machine after reset with every domain released. -/
def upState : State := State.reset.setF .rstDomains Fld.rstDomainsReleased 511

/-- The state after reset with some bytes of memory. -/
def withBytes (a : Nat) (l : List Byte) (s : State) : State := { s with mem := putCells s.mem a l }

/-- An instruction word of layout S or V from its opcode and the bits above it. -/
def word (op rest : Nat) : W64 := BitVec.ofNat 64 (op + rest)

/-- Tile 0 runs at the first instruction of its program memory, which holds `w`. -/
def running (w : W64) : State :=
  withBytes (progBase 0) (leBytes 8 w.toNat) (upState.setTile 0 { Tile.reset with seq := .run })

/-- Tile 0 after `f`, the rest as `running` leaves it. -/
def runningWith (w : W64) (f : Tile → Tile) : State := (running w).modTile 0 f

theorem some_of {α β : Type} {p : α × Option β} (h : p.2.isSome = true) : ∃ u l, p = (u, some l) := by
  obtain ⟨u, o⟩ := p
  cases o with
  | none => cases h
  | some l => exact ⟨u, l, rfl⟩

theorem true_of {α : Type} {p : α × Bool} (h : p.2 = true) : ∃ u, p = (u, true) := by
  obtain ⟨u, b⟩ := p
  exact ⟨u, by cases h; rfl⟩

/-- The state that an answer goes on to. -/
def after (o : Out) : State := match o with
  | .next s => s
  | _ => State.reset

/-- An answer is a next state. -/
def isNext (o : Out) : Bool := match o with
  | .next _ => true
  | _ => false

/-- The sequencer of tile 0 is software's to start. -/
def unowned (s : State) : State := s.rset (.tileCtrl 0) 0

/-! ## WellFormed -/

/-- An access over a line boundary, one of more than a line, and one whose data has another length are refused. -/
theorem test_access_wf : accessWf 60 8 none = false ∧ accessWf 0 65 none = false ∧ accessWf 0 4 (some [1]) = false
    ∧ accessWf 56 8 none = true := by decide

/-- A read over a 4 KiB boundary, a write of 513 bytes, and one whose data has another length are refused. -/
theorem test_tlp_wf : tlpWf 4095 2 none = false ∧ tlpWf 0 513 (some (List.replicate 513 0)) = false ∧ tlpWf 0 4 (some [1]) = false
    ∧ tlpWf 0 4096 none = true := by decide +kernel

/-- An access that `accessWf` refuses has the effect of its bytes. -/
theorem test_over_a_line : isNext (exec (.apertureAccess .host 0 60 ⟨8, false⟩ none) upState) = true := by decide +kernel

/-! ## Tiles: states that meet the hypotheses -/

theorem test_sequencer_hypotheses :
    (let s := unowned upState; s.frozen = false ∧ s.schedOwned 0 = false ∧ s.startHeld 0 = false ∧ (s.tile 0).seq = .idle)
    ∧ (let s := running 0
       s.frozen = false ∧ (s.tile 0).seq = .run ∧ (s.tile 0).stopping = none ∧ (s.tile 0).launched = false
        ∧ s.rf (.seqWatchdog 0) Fld.seqWatchdogLimit ≠ 0 ∧ (s.tile 0).wait = 0 ∧ s.triggers Cls.tileWatchdog = false)
    ∧ (let s := unowned (upState.setTile 0 { Tile.reset with seq := .halted })
       s.schedOwned 0 = false ∧ s.startHeld 0 = false ∧ (s.tile 0).seq = .halted)
    ∧ (let s := runningWith 0 (fun t => { t with pc := 0x10000 })
       (s.tile 0).seq = .run ∧ (s.tile 0).stopping = none ∧ (s.tile 0).pc = 0x10000#17 ∧ (s.tile 0).launched = false
        ∧ s.triggers Cls.tileIllegal = false) := by decide +kernel

theorem test_outside_writes_hypotheses :
    (let s := upState
     s.frozen = false ∧ s.seqOpen 0 = true ∧ irregularSize 0 8 = false ∧ irregularSize 0xFFFC 4 = false
        ∧ irregularSize (0xF0002000E000 + 0x1000) 8 = false)
    ∧ (accessWf 0x5FFFF8 8 none = true ∧ bankOf 0x5FFFF8 < 48 ∧ CleanBank upState 0 0x5FFFF8 8
      ∧ accessWf 0 2 (some [1, 2]) = true ∧ CleanBank upState 0 0 2)
    ∧ (let s := upState.setTile 0 { Tile.reset with writeBack := [5] }
       (s.tile 0).writeBack = [5] ∧ 5 ∉ s.ue) := by
  unfold CleanBank; decide +kernel

theorem test_vec_register_hypotheses :
    Reg.inVec 0 0x400 = some (.vecVregData 0 0) ∧ isVecState (.vecVregData 0 0) = true := by decide +kernel

/-- Every opcode runs from a state that is ready for it, with registers free of errors. -/
theorem test_ready : ∀ op ∈ List.range 256, Ready (running (word op 0)) 0 (word op 0) ∧ opc (word op 0) = op
    ∧ CleanTile ((running (word op 0)).tile 0) := by
  unfold Ready CleanTile; decide +kernel

theorem test_scalar_hypotheses : CleanBank (running 0x2E) 0 0 8 ∧ fImm (word 0x30 0) = 0 ∧ fImm (word 0x30 (2 ^ 32)) = 1
    ∧ fImm (word 0x30 (2 ^ 33)) = 2 := by
  unfold CleanBank; decide +kernel

theorem test_branch_hypotheses :
    (((running 3).tile 0).pc.zeroExtend 64 + fImm (word 3 (0xFFF8 * 2 ^ 32)) &&& 0xFFFFFFFFFFFFFFF8#64).toNat ≤ 0xFFF8
      ∧ ((((running 3).tile 0).pc.zeroExtend 64 + fImm (word 3 0)) &&& 0xFFFFFFFFFFFFFFF8#64).toNat ≤ 0xFFF8 := by decide +kernel

theorem test_synchronisation_hypotheses :
    (let s := running 0
     s.waitReason 0 waitAll = 0 ∧ s.waitReason 0 (fImm 0x0B).toNat = 0 ∧ (s.tile 0).pwait = none ∧ fX 0x0C % 4 ≠ 3
       ∧ pegFaulted (s.peg 0) = false ∧ pegCond (fX 0x0C % 4) (s.peg 0) ((s.tile 0).sreg 0) = true
       ∧ pegCond 1 (s.peg 0) 0 = true ∧ pegCond 2 (s.peg 0) 0 = true
       ∧ s.rf (.pegMirror 0) Fld.pegMirrorEnable = 0 ∧ (s.tile 0).launched = false) := by decide +kernel

/-- The words of vector instructions: each element type is accepted where it is listed; U32 alone, INT32 alone and FP32 alone too. -/
theorem test_vector_hypotheses :
    (∀ t ∈ [0, 1, 2, 3, 4], typeOk [0, 1, 2, 3, 4] (word 0x60 (t * 2 ^ 37)) = true)
    ∧ typeOk [0] (word 0x68 0) = true ∧ typeOk [3] (word 0x72 (3 * 2 ^ 37)) = true ∧ typeOk [4] (word 0x6C (4 * 2 ^ 37)) = true
    ∧ typeOk [0, 3, 4] (word 0x73 (6 * 2 ^ 43)) = true ∧ vX (word 0x73 (6 * 2 ^ 43)) % 8 ≠ 7
    ∧ (∀ t ∈ [1, 2], typeOk allTypes (word 0x74 (t * 2 ^ 37)) = true) ∧ typeOk [3, 4] (word 0x76 (4 * 2 ^ 37)) = true := by
  decide +kernel

/-- VCVT from FP32 to FP32, to E4M3 and to MXFP4 is well formed. -/
theorem test_conversion_hypotheses : vcvtBad (word 0xA0 0) = false ∧ opc (word 0xA0 0) = 0xA0 := by decide +kernel

/-- The chunks of every vector load and store form lie in populated banks that hold no error. -/
theorem test_vector_memory_hypotheses :
    (let t := (running 0).tile 0
     (∀ c ∈ bankChunks t (word 0xA1 0), ∀ p ∈ c, CleanBank (running 0) 0 p.1 p.2)
      ∧ (∀ c ∈ linearChunks t (word 0xA3 0), ∀ p ∈ c, CleanBank (running 0) 0 p.1 p.2)
      ∧ (∀ c ∈ colChunks t (word 0xA5 (3 * 2 ^ 48)), ∀ p ∈ c, CleanBank (running 0) 0 p.1 p.2))
    ∧ (∀ w ∈ [0, 1, 2, 3], colIndex (word 0xA5 (w * 2 ^ 48)) < 1024 / colWidth (word 0xA5 (w * 2 ^ 48)))
    ∧ colIndex (word 0xA5 ((255 * 4) * 2 ^ 48)) < 1024 / colWidth (word 0xA5 ((255 * 4) * 2 ^ 48)) := by
  unfold CleanBank; decide +kernel

theorem test_accumulator_hypotheses :
    (let t := (running 0).tile 0
     accHeld t 0 0 false = 0 ∧ accHeld t 3 1 true = 0 ∧ t.setFailed 0 0 = false)
    ∧ (let t := (runningWith 0 (fun t => { t with failed := 0xFF })).tile 0
       accHeld t 0 0 false = 0 ∧ accHeld t 0 0 true = 0 ∧ t.setFailed 0 0 = true) := by decide +kernel

/-- A set-up block of one slice of extent 1: every count 1, one group, FP32. -/
def oneSlice : BitVec 512 := BitVec.ofNat 512 ((List.range 6).foldl (fun a l => a + 2 ^ (64 + 16 * l)) (2 ^ 352))

/-- A LAUNCH of an E4M3 pair on MA0, set 0, fresh, with row and column masks in s1. -/
def launchWord : W64 := word 0x40 ((8 + 16 * 3 + 256 * 3) * 2 ^ 48 + 2 ^ 14 + 2 ^ 20)

/-- Tile 0 before `launchWord`, with both feeders set up. -/
def launching : State := runningWith launchWord (fun t =>
  ((t.setS 1 (BitVec.allOnes 64)).setAgen 0 { Agen.reset with loaded := oneSlice }).setAgen 1 { Agen.reset with loaded := oneSlice })

theorem test_launch_hypotheses :
    (let t := launching.tile 0
     let rows := launching.rget (.maRowMask 0 0) &&& t.sreg (vA launchWord % 32) &&& extentMask oneSlice
     opc launchWord = 0x40 ∧ bitsOf (vImm launchWord) 4 4 = 3 ∧ pairOk 3 3 = true ∧ setupBad oneSlice 3 = false ∧ (t.agen 0).loaded = oneSlice
       ∧ walkLen oneSlice = 1 ∧ launchHeld t 0 0 = 0 ∧ rows = 1 ∧ t.arrayFree 0 = true)
    ∧ (let s := running (word 0x40 ((8 + 16 * 3 + 256 * 3) * 2 ^ 48))
       s.rget (.maRowMask 0 0) &&& (s.tile 0).sreg 0 = 0)
    ∧ pairOk 8 8 = true ∧ pairOk 1 1 = true ∧ pairOk 1 2 = false := by decide +kernel

theorem test_drain_and_transfer_hypotheses :
    (bitsOf (vImm (word 0x41 0)) 3 4 ≠ 15 ∧ vRm (word 0x41 0) < 5 ∧ (((running 0).tile 0).array 0).drains.length < 2)
    ∧ CleanBank (running 0) 0 0 64
    ∧ xferBad oneSlice = false ∧ walkLen oneSlice ≠ 0
    ∧ (((runningWith 0x43 (fun t => t.setAgen 0 { Agen.reset with loaded := oneSlice, run := some ⟨oneSlice, false, false⟩ })).tile 0).agen
        0).queued = none := by
  unfold CleanBank; decide +kernel

/-- A pass of one slice on one cell. -/
def onePass (checks : List CheckPoint) : Pass :=
  { rows := 1, cols := 1, set := 0, fresh := true, fmtA := 3, fmtB := 3, srKey := 0, setA := oneSlice, setB := oneSlice, chunk := 0,
    checks := checks }

/-- A check point of one row and one column with the unit sum `u` and the cell sum 0. -/
def checkOf (u : Int) : CheckPoint :=
  { exact := true, n := 1, last := 0, rows := [⟨false, u, 0, 0⟩], cols := [⟨false, 0, 0, 0⟩] }

/-- Tile 0 with array 0 as given. -/
def withArray (y : MatArray) : State := runningWith 0 (fun t => t.setArray 0 y)

def isBytes : Got → Bool
  | .bytes _ => true
  | _ => false

theorem bytes_of {p : State × Got} (h : isBytes p.2 = true) : ∃ u l, p = (u, .bytes l) := by
  obtain ⟨u, g⟩ := p
  cases g with
  | bytes l => exact ⟨u, l, rfl⟩
  | _ => cases h

theorem test_queued_pass_hypotheses :
    (let s := withArray { MatArray.reset with queued := some (onePass []) }
     s.frozen = false ∧ ((s.tile 0).array 0).queued = some (onePass []) ∧ (s.tile 0).arrayFree 0 = true) := by decide +kernel

theorem test_hand_off_hypotheses :
    let s := withArray { MatArray.reset with run := some (onePass []) }
    ((s.tile 0).array 0).run = some (onePass [])
      ∧ (∃ u l, s.stagePass 0 0 (onePass []) (onePass []).span.1 (onePass []).span.2 = (u, .bytes l))
      ∧ ((s.stagePass 0 0 (onePass []) (onePass []).span.1 (onePass []).span.2).1.readOldSums 0 0 (onePass [])).2 = true
      ∧ walkLen (onePass []).setA ≤ (onePass []).span.1 + (onePass []).span.2 :=
  ⟨by decide +kernel, bytes_of (by decide +kernel), by decide +kernel, by decide +kernel⟩

theorem test_check_point_hypotheses :
    (let s := withArray { MatArray.reset with finishing := [onePass [checkOf 0]] }
     ((s.tile 0).array 0).finishing = [onePass [checkOf 0]] ∧ firstFail (checkOf 0) 1 (checkOf 0).rows = 0xFF
       ∧ firstFail (checkOf 0) 1 (checkOf 0).cols = 0xFF)
    ∧ (firstFail (checkOf 1) 1 (checkOf 1).rows ≠ 0xFF ∧ (onePass []).set < 2 ∧ upState.triggers Cls.tileCheck = false)
    ∧ (let s := withArray { MatArray.reset with finishing := [onePass []] }
       ((s.tile 0).array 0).finishing = [onePass []] ∧ (onePass []).checks = [] ∧ (s.tile 0).stopping = none) := by decide +kernel

/-- A drain of row 0 of set 0 to the start of the tile's SRAM. -/
def oneDrain (started : Bool) : DrainOp :=
  { set := 0, fmt := 0, health := false, packed6 := false, sat := false, rm := 0, dest := BitVec.ofNat 64 (apBase 0), pitch := 256,
    tensor := 0, rows := 1, cols := BitVec.allOnes 64, srKey := 0, srIndex := 0, started := started }

theorem test_drain_start_hypotheses :
    let s := withArray { MatArray.reset with drains := [oneDrain false] }
    let t := s.tile 0
    ((t.array 0).drains = [oneDrain false] ∧ t.setInPass 0 0 = false ∧ t.setFailed 0 0 = false ∧ t.accUe = [] ∧ t.accCe = []
      ∧ (oneDrain false).sharedBytes = [])
    ∧ ∃ s', (maskBits (oneDrain false).rows).foldl (fun acc i => if acc.2 then acc.1.drainRow 0 0 (oneDrain false) i else acc) (s, true)
        = (s', true) :=
  ⟨by decide +kernel, true_of (by decide +kernel)⟩

theorem test_drain_end_hypotheses :
    let s := withArray { MatArray.reset with drains := [oneDrain true] }
    ((s.tile 0).array 0).drains = [oneDrain true] ∧ s.ownAcks (.drain 0 0) = false ∧ (s.tile 0).stopping = none := by decide +kernel

/-- Tile 0 with a transfer of one slice on AGEN 0. -/
def transferring (issued : Bool) : State :=
  runningWith 0 (fun t => t.setAgen 0 { Agen.reset with run := some ⟨oneSlice, false, issued⟩ })

theorem test_transfer_end_hypotheses :
    (let r := (transferring false).xferMove 0 0 oneSlice (walkLen oneSlice)
     isBytes r.2 = true ∧ r.1.ownAcks (.agen 0 0) = false ∧ ((r.1.tile 0).agen 0).slice = 1)
    ∧ (((transferring true).tile 0).agen 0).run = some ⟨oneSlice, false, true⟩ ∧ (transferring true).ownAcks (.agen 0 0) = false := by
  decide +kernel

/-! ## Registers: states and operands that meet the hypotheses -/

theorem test_register_write_hypotheses :
    (let a := (Reg.ringCfg 0).addr
     upState.reachable .host a = true ∧ regPlace a = .reg (.ringCfg 0) ∧ irregularSize a 8 = false ∧ irregularSize (a + 4) 4 = false
       ∧ basecampOnly a = false ∧ startsAction (.ringCfg 0) = false)
    ∧ (let a := (Reg.hbmcHbmSize).addr
       upState.reachable .host a = true ∧ regPlace a = .reg .hbmcHbmSize ∧ irregularSize a 2 = true)
    ∧ (let a := (Reg.rstUnit 0).addr
       upState.reachable .host a = true ∧ regPlace a = .reg (.rstUnit 0) ∧ irregularSize a 8 = false)
    ∧ upState.frozen = false ∧ upState.triggers Cls.csrAccess = false := by decide +kernel

/-- A register that another agent than the basecamp controller may not write, and a reserved offset. -/
theorem test_register_discard_hypotheses :
    (let a := (Reg.bootStatus).addr
     upState.reachable .host a = true ∧ basecampOnly a = true ∧ irregularSize a 8 = false)
    ∧ (∃ a ∈ [0xF0000000FFF8, 0xF00000030FF8], regPlace a = .reserved ∧ upState.reachable .host a = true) := by
  decide +kernel

/-! ## Reduction: states and operands that meet the hypotheses -/

/-- The state after reset with 16 MiB of usable HBM and device ID 5. -/
def withHbm : State := ((upState.setF .hbmcHbmSize Fld.hbmcHbmSizeBytes 0x1000000).setF .fabId Fld.fabIdValid 1).setF .fabId
  Fld.fabIdDeviceId 5

/-- A job block at 0x1000: P = 2 (members 5 and 7), rank 0, window 1, open 1, epoch 9, the early store at 0x10000 (4 KiB), the sum area at
0x20000 (64 KiB), reduction tile 3. -/
def jobBlock (p : Nat) : List Byte :=
  leBytes 2 p ++ leBytes 2 0 ++ [1, 1, 40, 9] ++ leBytes 4 0 ++ leBytes 4 0 ++ leBytes 8 0x10000 ++ leBytes 8 0x1000 ++ leBytes 8 0x20000
    ++ leBytes 8 0x10000 ++ (8 :: List.replicate 47 0) ++ List.replicate 160 0 ++ leBytes 2 5 ++ leBytes 2 7

/-- Job 0 staged to bind to the block at 0x1000. -/
def binding (p : Nat) : State :=
  withBytes 0x1000 (jobBlock p) ((withHbm.setF (.redJobCfg 0) Fld.redJobCfgValid 1).setF (.redJobCfg 0) Fld.redJobCfgBlock (0x1000 / 64))

def blockOf (s : State) : Option Binding := (s.readJobBlock 0 (s.rf (.redJobCfg 0) Fld.redJobCfgBlock * 64)).2

theorem test_commit_hypotheses :
    upState.rf (.redJobCfg 0) Fld.redJobCfgValid = 0 ∧ (upState.job 0).buckets = []
    ∧ (binding 2).rf (.redJobCfg 0) Fld.redJobCfgValid ≠ 0 ∧ (blockOf (binding 2)).map (binding 2).bindError = some 0
    ∧ (blockOf (binding 2)).map (fun g => (g.p, g.rank, g.epoch, g.redTiles, g.members)) = some (2, 0, 9, [3], [5, 7])
    ∧ ((binding 2).job 0).buckets = [] ∧ (blockOf (binding 0)).map (binding 0).bindError = some 1 := by decide +kernel

theorem test_bind_reads : ∃ u g, (binding 2).readJobBlock 0 ((binding 2).rf (.redJobCfg 0) Fld.redJobCfgBlock * 64) = (u, some g) :=
  some_of (by decide +kernel)

/-- The binding of `jobBlock 2`, seen from a rank. -/
def twoMembers (rank : Nat) : Binding :=
  { p := 2, rank := rank, window := 1, openMax := 1, sampleShift := 255, epoch := 9, timeout := 100000, earlyBase := 0x10000
    earlySize := 0x1000, sumBase := 0x20000, sumSize := 0x10000, redTiles := [3], healthTiles := [], members := [5, 7] }

/-- A bucket of 112 elements, sequence 4, step 6, index 1. -/
def bucketOf (agreed : Option (Int × Bool)) : Bucket :=
  { seq := 4, ring := 0, idx := 0, cookie := 0, health := [], scan := none, scales := [], agreed := agreed
    op := { n := 112, buffer := 0, segments := [], layers := [], step := 6, index := 1, result := 0, mode := 0, force := false, summary := 0 }
    flushed := 0, toConvert := [], toCheck := [], added := 0, checkAdded := 0, held := [], compared := 0, sentCheck := false, sentResult := false, sentCopy := false
    sentTotal := false, trailers := [], copies := [], totals := [], results := 0, ended := none, handing := none }

/-- Job 0 bound with one open bucket. -/
def reducing (rank : Nat) (b : Bucket) : State := withHbm.setJob 0 { Job.reset with binding := some (twoMembers rank), buckets := [b] }

/-- A packet of that bucket from member 7, rank 1. -/
def redPacket (kind lanes : Nat) (body : List Byte) : Pkt :=
  { upState.redPkt 5 0 kind false 1 0 lanes 9 4 6 1 0 1 body with src := 7 }

/-- The packet has come by port 2. -/
def received (k : Pkt) (s : State) : State := { s with fab := { s.fab with inq := [(2, k)] } }

/-- What every clause of `Obligations.ReductionPacketsComplete` asks of a packet. -/
def taken (kind : Nat) (s : State) : Bool :=
  match s.takeRed kind with
  | some (_, k, u) => k.redKind == kind && (u.job k.redJob).binding.isSome && !u.jobBroken k.redJob && k.redEpoch == 9
      && (match u.bucket? k.redJob k.redSeq with
        | some b => b.live && b.seq == k.redSeq && k.redStep == b.op.step && k.redIndex == b.op.index
        | none => false)
  | none => false

theorem test_packet_hypotheses :
    (∀ kind ∈ [1, 2, 3, 4, 5, 6, 7, 8, 9], taken kind (received (redPacket kind 1 []) (reducing 0 (bucketOf none))) = true)
    ∧ (List.range 2).find? (fun r => (twoMembers 0).members.getD r 4096 == (redPacket 8 0 []).src) = some 1
    ∧ ((reducing 0 (bucketOf none)).job 0).outQ = [] ∧ (redPacket 3 1 []).redPath = false
    ∧ (∀ kind ∈ [3, 4, 5], let s := reducing 0 (bucketOf none)
       s.portHolds (twoMembers 0) (redPacket kind 1 []) = false
         ∧ (s.setF (.rstUnit 3) Fld.rstUnitState 2).portHolds (twoMembers 0) (redPacket kind 1 []) = true) := by decide +kernel

theorem test_busy_commit_hypotheses :
    let s := (reducing 0 (bucketOf none)).setF (.redJobCfg 0) Fld.redJobCfgValid 1
    s.rf (.redJobCfg 0) Fld.redJobCfgValid ≠ 0 ∧ (s.job 0).buckets ≠ [] := by decide +kernel

theorem test_packet_memory :
    let k := redPacket 3 1 [1, 0, 0, 0]
    let s := received k (reducing 0 (bucketOf (some (0, false))))
    let b := bucketOf (some (0, false))
    let g := twoMembers 0
    (∃ v, s.addLanes 0 b (g.slot b.seq) (g.fragLo b.op.n g.rank + k.redOffset) k.redValues = (v, true))
      ∧ ∃ v, s.writeSums 0 b (g.slot b.seq) (g.fragLo b.op.n k.redFrag + k.redOffset) k.redValues = (v, true) :=
  ⟨true_of (by decide +kernel), true_of (by decide +kernel)⟩

theorem test_bucket_event_hypotheses :
    (∀ rank ∈ [0, 1],
      (let s := reducing rank (bucketOf none)
       s.bucket? 0 4 = some (bucketOf none) ∧ (bucketOf none).scan = none ∧ (bucketOf none).live = true
         ∧ ((twoMembers rank).ports 112).any s.tileInReset = false ∧ (s.readSlots 0 (bucketOf none)).2 = .vals []))
    ∧ (let b := { bucketOf (some (0, false)) with results := 2, totals := [(0, ⟨0, 0, []⟩)] }
       ((reducing 1 b).job 0).buckets = [b] ∧ b.live = true ∧ (twoMembers 1).complete b = true)
    ∧ upState.triggers Cls.redTimeout = false := by decide +kernel

/-- A contribution of one lane goes to the sum in memory, and comes back as a credit (R156, R142). -/
theorem test_contribution_is_added :
    let s := after (exec .contrib (received (redPacket 3 1 [5, 0, 0, 0]) (withBytes 0x20000 [2, 0, 0, 0] (reducing 0 (bucketOf none)))))
    s.byteAt 0x20000 = 7 := by decide +kernel

/-- The scale of R150 for P = 3: two bits of headroom. -/
theorem test_scale : redScale 3 0 = 28 ∧ ceilLog2 3 = 2 ∧ (toInt 3 0 (.fin false 1 0)).1 = 2 ^ 28 ∧ (toInt 3 0 (.fin true 1 (-29))).1 = 0 := by
  decide +kernel

/-- The state with a packet taken from its queue, for a test on the packet and the state. -/
def takenWith (kind : Nat) (s : State) (f : Pkt → State → Bool) : Bool :=
  match s.takeRed kind with
  | some (_, k, u) => k.redKind == kind && (u.job k.redJob).binding.isSome && !u.jobBroken k.redJob && k.redEpoch == 9 && f k u
  | none => false

/-- A packet of another index, one of a sequence that is not open yet, and one that is open and stood in the early store. -/
theorem test_early_packet_hypotheses :
    let s := reducing 0 (bucketOf none)
    let other (kind seq index : Nat) : State := received { upState.redPkt 5 0 kind false 1 0 1 9 seq 6 index 0 1 [] with src := 7 } s
    (∀ kind ∈ [2, 3, 4, 5, 6, 7], takenWith kind (other kind 4 2) (fun k u =>
      u.bucket? 0 4 == some (bucketOf none) && k.redSeq == 4 && k.redStep == 6 && k.redIndex == 2) = true)
    ∧ (∀ kind ∈ [1, 2, 3, 4, 5, 6, 7, 9], takenWith kind (other kind 5 1) (fun k u =>
      (u.bucket? 0 k.redSeq).isNone && !u.seqPast 0 k.redSeq) = true)
    ∧ takenWith 3 (received (redPacket 3 1 []) (s.setJob 0 { s.job 0 with early := [(2, redPacket 3 1 [])] })) (fun k u =>
      u.bucket? 0 4 == some (bucketOf none) && (u.job 0).early.filter (fun e => e.2.redSeq == k.redSeq) == [(2, k)]) = true := by
  decide +kernel

/-! ## The scheduler and the stash: states that meet the hypotheses -/

/-- A step of one micro-batch on one block, descriptor 0 of ring 0. -/
def oneStep (tasks : List ReleasedTask) (fwdIn : Option Nat) : StepRun :=
  { ring := 0, idx := 0, cookie := 3, step := 11, firstMb := 0, stage := 0, blocks := 1, fwdIn := fwdIn, bwdIn := none, fwdOut := none
    bwdOut := none, pegBase := 0, stepArg := 0, mbs := [⟨7, 0, 0, 1⟩], order := [⟨0, 0, false⟩, ⟨0, 0, true⟩], tasks := tasks
    pegSeen := false, pegFault := false, aborting := false }

/-- Block 0 runs on group 0, tile 0; its forward entry is 0x40. -/
def grouped : State :=
  let s := (upState.setF (.pipeBlock 0) Fld.pipeBlockValid 1).setF (.pipeBlock 0) Fld.pipeBlockFwdEntry 0x40
  (s.rset (.pipeGroup 0 0) 1).commitReg (.pipeBlock 0) |>.commitReg (.pipeGroup 0 0)

/-- A step in progress. -/
def stepping (tasks : List ReleasedTask) (fwdIn : Option Nat) : State := grouped.setRun (oneStep tasks fwdIn)

/-- A task of the step in a phase. -/
def taskIn (p : TaskPhase) : ReleasedTask := ⟨⟨0, 0, false⟩, p, 0, []⟩

theorem test_stash_hypotheses :
    upState.stashCommitError (stashCfgOf upState.rget) = 0 ∧ upState.sched.run = none
    ∧ (stepping [] none).stashCommitError (stashCfgOf (stepping [] none).rget) = 0 ∧ (stepping [] none).sched.run ≠ none
    ∧ (let s := upState.setF .pipeStashCfg Fld.pipeStashCfgEnable 1; s.stashCommitError (stashCfgOf s.rget) = 4)
    ∧ (let s := (stepping [] none).modSched (fun x => { x with stash := { x.stash with waiting := some (stashStaged.map (fun r => (r, 0))) } })
       s.sched.run = some (oneStep [] none) ∧ s.mayRelease (oneStep [] none) ⟨0, 0, false⟩ = true ∧ s.sched.stash.waiting = some (stashStaged.map (fun r => (r, (fun _ : Reg => 0) r))))
    ∧ (let s := upState.modStash (fun h => { h with journal := [(⟨0, 0, 0⟩, 1)] })
       s.sched.stash.journal = [(⟨0, 0, 0⟩, 1)] ∧ s.journalRoom 0 ≠ 0) := by decide +kernel

/-- The registers of `grouped` that a scheduler commit reads. -/
def groupedValue : Reg → W64
  | .pipeGroup g w => if g = 0 ∧ w = 0 then 1 else 0
  | .pipeBlock b => if b = 0 then 0x10000000040 else 0
  | _ => 0

theorem pipe_error_of (s : State) (f : Reg → W64) (h : ∀ g w, s.rget (.pipeGroup g w) = f (.pipeGroup g w))
    (k : ∀ b, s.rget (.pipeBlock b) = f (.pipeBlock b)) : pipeCommitError s.rget = pipeCommitError f := by
  have hb : blockField s.rget = blockField f := by funext b x; simp only [blockField, k]
  have hv : validBlocks s.rget = validBlocks f := by simp only [validBlocks, hb]
  have hg : groupTiles s.rget = groupTiles f := by funext g; simp only [groupTiles, h]
  simp only [pipeCommitError, hv, hb, hg, h]

theorem grouped_csr : grouped.csr = [(.rstDomains, upState.rget .rstDomains), (.pipeGroup 0 0, 1), (.pipeBlock 0, 0x10000000040)] := by decide +kernel

theorem grouped_group (g w : Nat) : grouped.rget (.pipeGroup g w) = groupedValue (.pipeGroup g w) := by
  have h : (Reg.pipeGroup g w).reset = 0 := rfl
  simp [State.rget, grouped_csr, kget, groupedValue, h, eq_comm]

theorem grouped_block (b : Nat) : grouped.rget (.pipeBlock b) = groupedValue (.pipeBlock b) := by
  have h : (Reg.pipeBlock b).reset = 0 := rfl
  simp [State.rget, grouped_csr, kget, groupedValue, h, eq_comm]

theorem test_scheduler_commit_hypotheses : pipeCommitError upState.rget = 3 ∧ pipeCommitError grouped.rget = 0 := by
  rw [pipe_error_of upState (fun _ => 0) (fun _ _ => rfl) (fun _ => rfl), pipe_error_of grouped groupedValue grouped_group grouped_block]
  constructor <;> decide +kernel

theorem test_task_release_hypotheses :
    let s := stepping [] none
    s.sched.run = some (oneStep [] none) ∧ (oneStep [] none).next = some ⟨0, 0, false⟩
      ∧ s.mayRelease (oneStep [] none) ⟨0, 0, false⟩ = true
      ∧ (let c := (stepping [] none).aset .pipeStashCfg (withField 0 Fld.pipeStashCfgEnable 1)
         c.pegState (oneStep [] none) ⟨0, 0, false⟩ = .open_ ∧ c.stashHolds (oneStep [] none) ⟨0, 0, false⟩ = true)
      ∧ (stepping [] (some 5)).pegState (oneStep [] (some 5)) ⟨0, 0, false⟩ = .held := by decide +kernel

theorem test_task_start_hypotheses :
    let s := stepping [taskIn .released] none
    s.firstTask (oneStep [taskIn .released] none) 0 .released = some (0, taskIn .released)
      ∧ s.mayStart (oneStep [taskIn .released] none) (taskIn .released) (s.tilesOf 0) = true ∧ s.tilesOf 0 = [0] := by decide +kernel

theorem test_scheduler_commit_waits :
    let s := upState.modSched (fun x => { x with waiting := some (pipeStaged.map (fun r => (r, (fun _ : Reg => 0) r))) })
    s.sched.waiting = some (pipeStaged.map (fun r => (r, (fun _ : Reg => 0) r))) ∧ s.sched.run = none := ⟨rfl, rfl⟩

theorem test_task_end_hypotheses :
    let x := { oneStep [taskIn .started] none with blocks := 2 }
    let s := grouped.setRun x
    s.firstTask x 0 .started = some (0, taskIn .started) ∧ x.aborting = false ∧ (taskIn .started).task.block + 1 ≠ x.blocks
      ∧ (x.setTask 0 .done).tasks.length ≠ x.order.length
      ∧ (s.setTile 0 { Tile.reset with ended := true }).groupEnded 0 = true
      ∧ ((s.tilesOf 0).any (fun n => ((s.setTile 0 { Tile.reset with seq := .faulted }).tile n).seq == .faulted)) = true
      ∧ s.triggers Cls.pipeTask = false := by decide +kernel

/-- TASK_START puts the sequencer of the tile at the block's entry (R200), with the step in s1 and the tokens in s3 (R201). -/
theorem test_task_starts :
    let s := after (exec (.taskStart 0) (stepping [taskIn .released] none))
    (s.tile 0).seq = .run ∧ (s.tile 0).pc = 0x40 ∧ (s.tile 0).sreg 1 = 11 ∧ (s.tile 0).sreg 3 = 7 := by decide +kernel

/-! ## Rings and pegs: states that meet the hypotheses -/

/-- Ring 0 of 16 slots at 0x4000 with a journal of 32 entries at 0x8000, staged, not committed. -/
def stagedRing : State :=
  let s := ((withHbm.setF (.ringBase 0) Fld.ringBaseBase 4).setF (.ringJournalBase 0) Fld.ringJournalBaseBase 8).setF (.ringSize 0)
    Fld.ringSizeRs 4
  (s.setF (.ringSize 0) Fld.ringSizeJs 5).setF (.ringCfg 0) Fld.ringCfgCredit 8

/-- The ring is committed and armed, and one descriptor is published. -/
def armedRing : State := (stagedRing.ringCommit 0 true).doorbell 0 1

/-- A descriptor of ring 0 with the given fields of its header, and 1 in no_signal. -/
def descOf (op count : Nat) (phase : DescPhase) : Desc :=
  { idx := 0, raw := BitVec.ofNat 512 (op + 2 * 2 ^ 8 + 2 ^ 17 + count * 2 ^ 384), bad := false, phase := phase, headerOk := true
    pegSeen := false, pegFault := false, started := phase != .admitted, stopped := false, status := 0, units := 0, issued := 0
    failAt := none, blockOk := true, block := 0, pos := 0, missed := [], stashDone := false, ackTime := none }

/-- Ring 0 holds one descriptor. -/
def holding (d : Desc) : State := armedRing.setRing 0 ⟨[d], false, []⟩

theorem test_ring_hypotheses :
    upState.ringCommitError 0 false = 2 ∧ stagedRing.ringCommitError 0 true = 0
    ∧ (let s := stagedRing.ringCommit 0 true
       s.ringState 0 = 1 ∧ idxSub (s.ringTail 0) (s.ringHead 0) < idxSub 1 (s.ringHead 0) ∧ idxSub 1 (s.ringHead 0) ≤ 2 ^ s.ringRs 0
         ∧ (s.ring 0).descs.length < s.af (.ringCfg 0) Fld.ringCfgCredit)
    ∧ (upState.ringState 0 ≠ 1 ∧ (1 : Nat) ≠ upState.ringTail 0 ∧ upState.triggers Cls.ringDoorbell = false)
    ∧ (stagedRing.setRingState 0 3).ringState 0 = 3
    ∧ (let s := (holding (descOf 1 64 .running)).aset .pipeAgeLimit 1
       (s.ring 0).descs.find? (fun d => d.phase != .journaled) = some (descOf 1 64 .running)
         ∧ s.af .pipeAgeLimit Fld.pipeAgeLimitLimit ≠ 0 ∧ (descOf 1 64 .running).idx ∉ (s.ring 0).agedSeen
         ∧ s.triggers Cls.ringAge = false) := by decide +kernel

theorem test_admission_hypotheses :
    (match armedRing.arbitrate 9 armedRing.arb with
      | some (r, a) => r == 0 && (({ armedRing with arb := a } : State).winRead
          ⟨Kind.rings, r, 1, some ⟨r, BitVec.ofNat 32 (armedRing.ringHead r), 0⟩⟩ (armedRing.slotAddr r (armedRing.ringHead r)) 64).2.isSome
      | none => false) = true
    ∧ (let d := descOf 1 64 .ended
       (holding d).desc? 0 0 = some d ∧ (holding d).descQuiet 0 d = true ∧ 0 < (holding d).journalRoom 0
         ∧ ((holding d).ring 0).descs.find? (fun d => d.phase == .ended && (holding d).descQuiet 0 d) = some d)
    ∧ (let d := descOf 1 64 .journaled
       ((holding d).ring 0).descs.find? (Desc.isJournaled d.idx) = some d ∧ d.noSignal = true) := by decide +kernel

/-- Admission takes the descriptor at HEAD, and HEAD advances (R209). -/
theorem test_admission :
    let s := after (exec .descriptorAdmission (withBytes 0x4000 [1, 2, 2] armedRing))
    s.ringHead 0 = 1 ∧ (s.ring 0).descs.map (fun d => (d.op, d.ver, d.noSignal)) = [(1, 2, true)] := by decide +kernel

theorem test_peg_hypotheses : upState.rf (.pegMirror 0) Fld.pegMirrorEnable = 0 ∧ pegFaulted (0 : W64) = false
    ∧ ((upState.setTile 0 { Tile.reset with pwait := some ⟨0, 1, 2, false⟩ }).tile 0).pwait = some ⟨0, 1, 2, false⟩ := by
  decide +kernel

/-- A count that passes 2^63 starts again at zero and keeps the fault bit (R221). -/
theorem test_peg_wraps :
    (after (exec (.pegAdd 3 2) (upState.rset (.pegValue 3) (BitVec.allOnes 64)))).peg 3 = 0x8000000000000001 := by decide +kernel

theorem test_start_hypotheses :
    (∀ op ∈ [0x00, 0x01, 0x02, 0x10, 0x30, 0x31, 0x32, 0x33, 0x40, 0x41, 0x42],
      Startable (holding (descOf op 0 .admitted)) 0 0 (descOf op 0 .admitted) ∧ (descOf op 0 .admitted).op = op
        ∧ (descOf op 0 .admitted).count = 0)
    ∧ (∀ op ∈ [0x01, 0x02, 0x10, 0x20, 0x40, 0x41, 0x42],
      Startable (holding (descOf op 64 .admitted)) 0 0 (descOf op 64 .admitted) ∧ (descOf op 64 .admitted).count ≠ 0
        ∧ (descOf op 64 .admitted).blockOk = true) := by
  unfold Startable; decide +kernel

theorem test_start_other_hypotheses :
    (let d := { descOf 0x7F 0 .admitted with headerOk := false }
     (holding d).desc? 0 0 = some d ∧ ((holding d).ring 0).inOrder d = true ∧ d.firstFault ((holding d).jobBound d) = some 0)
    ∧ (let d := { descOf 0 0 .admitted with raw := BitVec.ofNat 512 (2 ^ 9 + 2 ^ 17 + 7 * 2 ^ 64 + 2 ^ 80 + 3 * 2 ^ 128) }
       let s := holding d
       s.desc? 0 0 = some d ∧ d.waitCond ≠ 0 ∧ d.op = 0 ∧ pegFaulted (s.peg d.waitPeg) = false
         ∧ pegCond d.waitCond (s.peg d.waitPeg) (BitVec.ofNat 64 d.waitValue) = false
         ∧ pegCond d.waitCond ((s.rset (.pegValue 7) 3).peg d.waitPeg) (BitVec.ofNat 64 d.waitValue) = true
         ∧ pegFaulted ((s.rset (.pegValue 7) (BitVec.allOnes 64)).peg d.waitPeg) = true)
    ∧ (let s := ((upState.setF .pcieEpStatus Fld.pcieEpStatusLinkUp 1).setF .pcieEpStatus Fld.pcieEpStatusBusMaster 1).setF (.rstUnit 544)
         Fld.rstUnitState 0
       s.hostUp = true) := by decide +kernel

/-- The descriptor of a REDUCE of no element in two segments of none, on the job bound to `twoMembers 0`. -/
def reduceDesc : Desc := { descOf 0x20 8 .admitted with block := BitVec.ofNat 512 (0x40000 * 2 ^ 64 + 2 ^ 176) }

/-- Its segment table: one segment of 8 FP32 elements. -/
def reduceReadyState : State :=
  (withBytes 0x40004 [8] (holding reduceDesc)).setJob 0 { Job.reset with binding := some (twoMembers 0) }

theorem test_reduce_hypotheses :
    let s := reduceReadyState
    let r := s.checkReduce 0 reduceDesc (twoMembers 0) (lineBytes reduceDesc.block) (s.slotAddr 0 0)
    (match r.2 with | .ok _ => true | _ => false) = true ∧ s.reduceReady 0 8 = true ∧ s.jobBroken 0 = false
      ∧ r.1.jobBroken 0 = false ∧ (r.1.job 0).binding = some (twoMembers 0) := by decide +kernel

/-- The descriptor of a STEP of one micro-batch at depth 1, stage 0. -/
def stepDesc : Desc := { descOf 0x10 1 .admitted with block := BitVec.ofNat 512 (11 + 2 ^ 112 + 0x50000 * 2 ^ 320) }

def stepReadyState : State :=
  (((holding stepDesc).setF (.pipeBlock 0) Fld.pipeBlockValid 1).rset (.pipeGroup 0 0) 1).commitReg (.pipeBlock 0) |>.commitReg
    (.pipeGroup 0 0)

theorem test_step_hypotheses :
    let s := stepReadyState
    s.schedFree = true ∧ (match (s.checkStep 0 stepDesc (lineBytes stepDesc.block) (s.slotAddr 0 0)).2 with
      | .ok x => x.tasks == [] && x.order != [] && !x.aborting && x.step == 11
      | .no _ => false) = true := by decide +kernel

/-- The descriptor of a COPY of 192 B from 0x1000 to 0x2000, and of a FILL of 192 B at 0x1000, running. -/
def moving (op : Nat) : Desc :=
  { descOf op 192 .running with block := BitVec.ofNat 512 (0x1000 + (if op = 1 then 0x2000 else 0xAB) * 2 ^ 64) }

theorem test_copy_hypotheses :
    Running (holding (moving 1)) 0 0 (moving 1) ∧ (moving 1).failAt = none ∧ (moving 1).issued < (moving 1).count
    ∧ Running (holding (moving 2)) 0 0 (moving 2) := by
  unfold Running; decide +kernel

theorem test_copy_memory :
    let s := holding (moving 1)
    ∃ u l, s.readRange (descWho 0 (moving 1)) (.desc 0 0) 0x1000 64 = (u, .bytes l) := bytes_of (by decide +kernel)

/-- A line of a COPY is moved; the line after it is not (R229). -/
theorem test_copy_line :
    let s := after (exec (.copy 0 0 1) (withBytes 0x103F [5, 6] (holding (moving 1))))
    s.byteAt 0x203F = 5 ∧ s.byteAt 0x2040 = 0 ∧ (s.desc? 0 0).map (fun d => d.issued) = some 64 := by decide +kernel

/-- A FILL repeats its 8 B pattern (R229). -/
theorem test_fill_line :
    let s := after (exec (.fill 0 0 1) (holding (moving 2)))
    s.byteAt 0x1000 = 0xAB ∧ s.byteAt 0x1001 = 0 ∧ s.byteAt 0x1008 = 0xAB := by decide +kernel

/-- A doorbell beyond the credit with and without its DEFERRED entry sent, one of the current TAIL, one out of range, and a stop. -/
theorem test_doorbell_hypotheses :
    let s := stagedRing.ringCommit 0 true
    let full (sent : Bool) := s.setRing 0 ⟨List.replicate 8 (descOf 1 64 .running), sent, []⟩
    (∀ sent ∈ [true, false], let f := full sent
      f.ringState 0 = 1 ∧ idxSub (f.ringTail 0) (f.ringHead 0) < idxSub 1 (f.ringHead 0) ∧ idxSub 1 (f.ringHead 0) ≤ 2 ^ f.ringRs 0
        ∧ f.af (.ringCfg 0) Fld.ringCfgCredit ≤ (f.ring 0).descs.length ∧ (f.ring 0).deferredSent = sent)
    ∧ ((full false).ring 0).reserved < (full false).journalRoom 0
    ∧ (0 : W32).toNat = s.ringTail 0
    ∧ (s.ringState 0 = 1 ∧ 2 ^ s.ringRs 0 < idxSub 17 (s.ringHead 0) ∧ 17 ≠ s.ringTail 0)
    ∧ (armedRing.ringState 0 = 1 ∧ idxSub 0 (armedRing.ringHead 0) ≤ idxSub (armedRing.ringTail 0) (armedRing.ringHead 0)
        ∧ 0 ≠ armedRing.ringTail 0 ∧ armedRing.triggers Cls.ringDoorbell = false) := by decide +kernel

/-- A doorbell beyond the ring is discarded, and TAIL stays (R208). -/
theorem test_doorbell_out_of_range :
    let s := after (exec (.doorbell 0 17) (stagedRing.ringCommit 0 true))
    s.ringTail 0 = 0 ∧ s.rf (.ringStatus 0) Fld.ringStatusDoorbellError = 1 := by decide +kernel

/-! ## The state engine: states that meet the hypotheses -/

/-- A shard of four elements under rule 1: master at 0x60000, first moment at 0x61000, staged gradient at 0x62000, header at 0x63000,
rule block at 0x64000, no working copy. -/
def shardOf (gate tier : Bool) : ShardDesc :=
  { tensor := 0, rule := 1, gate := gate, tier := tier, digest := false, nesterov := false, count := 4, cols := 4, row0 := 0, col0 := 0
    master := 0x60000, moment1 := 0x61000, moment2 := 0, staging := 0x62000, freeze := 0, header := 0x63000, ruleBlock := 0x64000
    wc0 := ⟨0, 0, 0, false⟩, wc1 := ⟨0, 0, 0, false⟩ }

/-- The engine with shard 0 in force and descriptor `d` in ring 0. -/
def sharding (d : Desc) (gate tier : Bool) : State :=
  let s := (holding d).aset .stateCtrl 1
  { s with engine := { s.engine with shards := [(0, shardOf gate tier)] } }

/-- The header of shard 0 with `n` elements staged of a step. -/
def headerBytes (n step : Nat) : List Byte :=
  Header.bytes { lastStep := none, t := 0, b1t := 0, b2t := 0, stagedStep := step, staged := n, state := 0, digest := 0, digestStep := 0 }

/-- A descriptor of the state engine for `count` shards from 0 that has come to `pos`. -/
def stateDesc (op count pos : Nat) : Desc := { descOf op count .running with pos := pos }

theorem test_state_operation_hypotheses :
    (∀ op ∈ [0x30, 0x31, 0x32, 0x33],
      Running (sharding (stateDesc op 1 1) false false) 0 0 (stateDesc op 1 1) ∧ (stateDesc op 1 1).pos = (stateDesc op 1 1).count
        ∧ (stateDesc op 1 1).op = op ∧ (stateDesc op 1 0).pos < (stateDesc op 1 0).count)
    ∧ (let s := withBytes 0x63000 (leBytes 8 0) (sharding (stateDesc 0x30 1 1) false false)
       s.outcomeDone 0 0 = true)
    ∧ (let s := withBytes 0x63000 (headerBytes 4 0) (sharding (stateDesc 0x30 1 0) true false)
       (s.applyShard 0 0 false).2 = .acted true)
    ∧ (sharding (stateDesc 0x31 1 0) false false).shard? 1 = none := by
  unfold Running; decide +kernel

theorem test_checkpoint_hypotheses :
    let d := stateDesc 0x31 1 0
    let s := withBytes 0x63000 (headerBytes 0 0) (sharding d false false)
    let k := shardOf false false
    s.shard? 0 = some k ∧ (s.readHeader k).2 = some (headerOf (headerBytes 0 0))
      ∧ ((headerOf (headerBytes 0 0)).ready k && decide ((headerOf (headerBytes 0 0)).stagedStep ≤ d.blk 8 8)
        && !s.engine.errored.contains 0) = false
      ∧ ((s.readWords k k.home).2).isSome = true ∧ ((s.engRead (k.header + 64) k.mapBytes).2).isSome = true
      ∧ ((List.range k.ckptBlocks).foldl (fun (c : CkptRun) b =>
          c.block 0 d 0 k (headerOf (headerBytes 0 0)) ⟨[0, 0, 0, 0], [0, 0, 0, 0], []⟩ [0] b) ⟨s, 0, 0, none⟩).stop = none := by
  decide +kernel

theorem test_digest_hypotheses :
    let d := { stateDesc 0x32 1 0 with block := BitVec.ofNat 512 (5 * 2 ^ 32) }
    let s := withBytes 0x63000 (headerBytes 0 0) (sharding d false false)
    let k := shardOf false false
    let l := s.readRange (descWho 0 d) (.desc 0 0) k.header 64
    let m := l.1.readRange (descWho 0 d) (.desc 0 0) (2 ^ 60 + d.blk 4 2 % 4096 * 2 ^ 48 + k.header % 2 ^ 48) 64
    (match l.2, m.2 with
      | .bytes a, .bytes b => (headerOf a).digestStep == d.blk 8 8 && (headerOf b).digestStep == d.blk 8 8
        && (headerOf a).digest == (headerOf b).digest
      | _, _ => false) = true := by decide +kernel

theorem test_rederive_hypotheses :
    let s := withBytes 0x63000 (headerBytes 0 0) (sharding (stateDesc 0x33 1 0) false false)
    let k := shardOf false false
    (match (s.readHeader k).2 with | some h => h.staged == 0 && h.state == 0 | none => false) = true
      ∧ s.engine.updates.any (fun e => e.shard == 0) = false ∧ ((s.readWords k k.home).2).isSome = true ∧ k.digest = false := by
  decide +kernel

/-- The shard table of one active shard at 0x70000. -/
def tableState : State :=
  withBytes 0x70000 (leBytes 4 0 ++ leBytes 4 1 ++ leBytes 4 4 ++ leBytes 4 4 ++ leBytes 8 0 ++ leBytes 8 0x60000 ++ leBytes 8 0x61000
    ++ leBytes 8 0 ++ leBytes 8 0x62000 ++ leBytes 8 0 ++ leBytes 8 0x63000 ++ leBytes 8 0x64000)
    ((withHbm.setF .stateShardBase Fld.stateShardBaseBase (0x70000 / 128)).setF .stateCtrl Fld.stateCtrlShards 1)

def shardTable (s : State) : State × Option (NMap ShardDesc) :=
  s.readTable (s.rf .stateShardBase Fld.stateShardBaseBase * 128) (min (s.rf .stateCtrl Fld.stateCtrlShards) 1048576) 0 []

theorem test_state_commit_hypotheses :
    (shardTable tableState).2 = some [(0, shardOf false false)]
    ∧ ((shardTable tableState).1.stateCommitError [(0, shardOf false false)]).2 = 0
    ∧ ((shardTable tableState).1.stateCommitError [(0, { shardOf false false with rule := 9 })]).2 = 3
    ∧ (sharding (descOf 0 0 .admitted) false false).engine.shards.any (fun e =>
        (sharding (descOf 0 0 .admitted) false false).shardBusy e.1 e.2) = false
    ∧ (let s := withBytes 0x63000 (headerBytes 2 0) (sharding (descOf 0 0 .admitted) false false)
       s.engine.shards.any (fun e => s.shardBusy e.1 e.2) = true) := by decide +kernel

theorem test_state_commit_waits :
    let p : List (Reg × W64) × NMap ShardDesc := (stateStaged.map (fun r => (r, (fun _ : Reg => 0) r)), [])
    let s : State := { upState with engine := { Engine.reset with waiting := some p } }
    s.engine.waiting = some (stateStaged.map (fun r => (r, (fun _ : Reg => 0) r)), []) := rfl

/-- A hand-off of job 0. -/
def handoff0 : Handoff := ⟨0, 4, 6, 1, 30, 8, 0x20000, [], ⟨0, 0, 0⟩, 0, false, false⟩

theorem test_update_hypotheses :
    (let s : State := { upState with engine := { Engine.reset with handoffs := [handoff0] } }
     s.engine.handoffs.find? (fun h => h.job == 0) = some handoff0 ∧ s.engine.waiting = none ∧ handoff0.invalid = false
       ∧ s.af .stateCtrl Fld.stateCtrlEnable = 0)
    ∧ (let s := (sharding (descOf 0 0 .admitted) false false).aset (.stateMap 0) 0x70000
       s.af .stateCtrl Fld.stateCtrlEnable = 1 ∧ s.af (.stateMap 0) Fld.stateMapBase ≠ 0
         ∧ ((s.engRead (s.af (.stateMap 0) Fld.stateMapBase * 16 + 16 * handoff0.bucket) 16).2).isSome = true)
    ∧ (let s := sharding (descOf 0 0 .admitted) false false
       let d := shardOf false false
       ((s.readHeader d).2).isSome = true ∧ (((s.readHeader d).1.readUpdate 0 d).2).isSome = true ∧ d.rule ≠ 6)
    ∧ (let s := (sharding (descOf 0 0 .admitted) false true).aset .statePoolSize 0x1000
       firstFit (s.engine.slots.map (fun p => (p.offset, p.size))) s.poolSize (shardOf false true).slotSize = some 0)
    ∧ (let s := sharding (descOf 0 0 .admitted) false true
       let p : PoolSlot := ⟨0, 0, 128, false⟩
       (s.setSlots [p]).engine.slots.find? (fun p => p.shard == 0 && !p.copied) = some p
         ∧ ((s.readWords (shardOf false true) (shardOf false true).home).2).isSome = true) := by decide +kernel

/-- Elements and a mask that `Obligations.FrozenElementsKeepTheirState` speaks of. -/
theorem test_frozen_hypotheses :
    let d := shardOf false false
    let x : ShardWords := ⟨[1, 2, 3, 4], [0, 0, 0, 0], []⟩
    1 ≤ d.rule ∧ d.rule ≤ 5 ∧ x.w.length = [5, 6, 7, 8].length ∧ (d.has1 = true → x.m.length = [5, 6, 7, 8].length)
      ∧ frozenBy [2] 1 = true := by decide

/-- Two shards that differ in word 1 alone. -/
theorem test_one_word_hypotheses :
    let x : ShardWords := ⟨[1, 2], [3], []⟩
    let y : ShardWords := ⟨[1, 9], [3], []⟩
    (∀ j, j ≠ 1 → (x.w ++ x.m ++ x.v).getD j 0 = (y.w ++ y.m ++ y.v).getD j 0) ∧ (x.w ++ x.m ++ x.v).getD 1 0 ≠ (y.w ++ y.m ++ y.v).getD 1 0
      ∧ (x.w ++ x.m ++ x.v).length = (y.w ++ y.m ++ y.v).length := by
  refine ⟨?_, by decide, rfl⟩
  intro j h
  match j with
  | 0 => rfl
  | 1 => exact absurd rfl h
  | 2 => rfl
  | n + 3 => rfl

/-! ## The memory controllers: states that meet the hypotheses -/

/-- Home 0 with the given state of its controller; the scrub and the repair are enabled. -/
def controller (m : MemCtl) : State :=
  ((withHbm.aset (.hbmcScrubCfg 0) 1).aset (.hbmcRepairCfg 0) (BitVec.allOnes 64)).setMc 0 m

theorem test_memory_controller_hypotheses :
    (upState.setF (.hbmcStatus 16) Fld.hbmcStatusTierOk 1).rf (.hbmcStatus (16 + 0)) Fld.hbmcStatusTierOk = 1
    ∧ ((controller { MemCtl.reset with writeBack := [0] }).mc 0).writeBack = [0]
    ∧ (let s := controller MemCtl.reset
       s.af (.hbmcScrubCfg (mcOf 0)) Fld.hbmcScrubCfgEnable ≠ 0 ∧ (s.mc 0).scrubGroup + 1 < s.groupsOf 0
         ∧ s.markedLines 0 (s.mc 0).scrubChannel (s.mc 0).scrubGroup = [])
    ∧ (let s := { controller MemCtl.reset with ce := [3] }
       s.markedLines 0 0 0 = [0] ∧ s.scrubSkips 0 0 0 = false ∧ s.scrubUe 0 = [] ∧ s.ceIn 0 64 ≠ [])
    ∧ (let r : RowEntry := ⟨5, 0x40, 64, true, false⟩
       let s := controller { MemCtl.reset with rows := [r] }
       (s.mc 0).rows.find? (fun r => r.marked && !r.exhausted) = some r
         ∧ s.af (.hbmcRepairCfg (mcOf 0)) Fld.hbmcRepairCfgAutoRepair ≠ 0 ∧ (s.mc 0).repairing = none
         ∧ s.triggers Cls.memRepairExhausted = false)
    ∧ (let s := controller { MemCtl.reset with repairing := some 5 }
       (s.mc 0).repairing = some 5 ∧ s.triggers Cls.memRepair = false) := by decide +kernel

/-- The decoding example of the spec for HBM offset 0x12345640 (R232, R235). -/
theorem test_check_place :
    hbmHome 0x12345640 = 12 ∧ hbmPc 0x12345640 = 10 ∧ hbmLine 0x12345640 = 9321 ∧ dataUnit 9321 = 11358 ∧ checkByte 9321 = 728510
      ∧ checkUnits 9321 = [39 * 291 + 33, 39 * 291 + 34] ∧ checkUnits 9320 = [39 * 291 + 33]
      ∧ upState.lineAddr 12 10 9321 = 0x12345640 := by decide +kernel

/-- A line read brings its check unit into the check cache, and a write leaves it there newer than DRAM (R233). -/
theorem test_check_cache :
    ((after (exec (.rdNa .host 0x40) withHbm)).mc 0).check = [⟨0, 32, false, 0⟩]
    ∧ ((after (exec (.wrNa .host 0x40 5) withHbm)).mc 0).check = [⟨0, 32, true, 0⟩] := by decide +kernel

/-- A line above the watermark reads as zero whatever DRAM holds, and the first write to its group initialises the group (R239). -/
theorem test_watermark :
    let s := withBytes 0x10000000040 [7] ((upState.rset .hbmcLpSize 0x100000).rset (.lpmcPop 0) 0xFF)
    s.byteAt 0x10000000040 = 7 ∧ s.memByte 0x10000000040 = 0
      ∧ (let t := after (exec (.wrNa .host 0x10000000000 5) s)
         t.memByte 0x10000000000 = 5 ∧ t.memByte 0x10000000040 = 0 ∧ (t.mc 32).inited = [(0, 0)]) := by decide +kernel

/-- A bank with a spare left, and one with none. -/
theorem test_spares (b : Nat) : kget 0 (controller MemCtl.reset |>.mc 0).sparesUsed b < Config.sparesPerBank
    ∧ Config.sparesPerBank ≤ kget 0 [(b, Config.sparesPerBank)] b := by
  refine ⟨Nat.succ_pos _, ?_⟩
  simp [kget]

/-! ## Coherence: states that meet the hypotheses -/

theorem test_quiet_line : QuietLine withHbm 0x40 ∧ withHbm.deviceBias 0x40 = false
    ∧ QuietLine { withHbm with bias := [0] } 0x40 ∧ ({ withHbm with bias := [0] } : State).deviceBias 0x40 = true := by
  unfold QuietLine; decide +kernel

/-- Core 3 runs, with what it holds; a message is on the mesh. -/
def coreHolds (x : HostCore) (l : List Msg) : State := { (withHbm.rset (.rstUnit 387) 0).setCore 3 x with mesh := l }

theorem test_core_request_hypotheses :
    (let s := coreHolds HostCore.reset []
     s.coreRuns 3 = true ∧ s.wbFlying 3 0x40 = false ∧ (s.core 3).misses = [] ∧ (s.core 3).copy 0x40 = none
       ∧ (s.home (s.homeOf 0x40)).entry 0x40 = none ∧ (s.home (s.homeOf 0x40)).pick 0x40 = .free 0)
    ∧ (let s := coreHolds { HostCore.reset with lines := [(0x40, ⟨.shared, 9⟩)] } []
       let t := s.setHome (s.homeOf 0x40) { Home.reset with dir := [⟨0x40, .shared (oneCore 3), 0, false, 0⟩] }
       (t.core 3).copy 0x40 = some ⟨.shared, 9⟩
         ∧ (t.home (t.homeOf 0x40)).entry 0x40 = some ⟨0x40, .shared (oneCore 3), 0, false, 0⟩ ∧ QuietLine t 0x40) := by
  unfold QuietLine; decide +kernel

/-- A message that is alone on the mesh arrives. -/
theorem arrives_alone (s : State) (m : Msg) (h : s.runs m.domain = true) (k : s.mesh = [m]) : Arrives s m { s with mesh := [] } :=
  ⟨h, [], [], k, by simp, rfl⟩

/-- The state with one message on the mesh. -/
def sent (x : HostCore) (m : Msg) : State := coreHolds x [m]

theorem test_arrives (x : HostCore) (m : Msg) : Arrives (sent x m) m { sent x m with mesh := [] } := by
  have h : ∀ d ∈ [4, 5, 6, 7, 8], (coreHolds HostCore.reset []).runs d = true := by decide +kernel
  have e : ∀ d, (sent x m).runs d = (coreHolds HostCore.reset []).runs d := fun _ => rfl
  refine arrives_alone _ _ ((e _).trans (h _ ?_)) rfl
  cases m with
  | data a _ _ => cases a <;> simp [Msg.domain, Agent.domain]
  | _ => simp [Msg.domain]

theorem test_snoop_hypotheses :
    ∀ st ∈ [LineState.shared, .exclusive, .modified],
      (let s := sent { HostCore.reset with lines := [(0x40, ⟨st, 9⟩)] } (.snp .inv 3 0x40 none none)
       (s.core 3).copy 0x40 = some ⟨st, 9⟩ ∧ ({ s with mesh := [] } : State).wbFlying 3 0x40 = false) := by decide +kernel

theorem test_snoop_in_flight :
    let s := coreHolds HostCore.reset [.wbClean 3 0x40, .snp .shared 3 0x40 (some 1) none]
    Arrives s (.snp .shared 3 0x40 (some 1) none) { s with mesh := [.wbClean 3 0x40] }
      ∧ ({ s with mesh := [.wbClean 3 0x40] } : State).wbFlying 3 0x40 = true
      ∧ ({ s with mesh := [] } : State).wbFlying 3 0x40 = false ∧ (s.core 3).copy 0x40 = none :=
  ⟨⟨rfl, [.wbClean 3 0x40], [], rfl, by decide, rfl⟩, by decide +kernel⟩

/-- A miss of core 3. -/
def missOf (grant : Option LineState) (data : Option Line) : Miss := ⟨0x40, false, true, data, false, grant, 0, 0⟩

theorem test_core_response_hypotheses :
    (let s := sent { HostCore.reset with misses := [missOf none (some 9)] } (.cmp .modified 3 0x40)
     (s.core 3).misses = [missOf none (some 9)] ∧ (missOf none (some 9)).line = 0x40 ∧ s.coreRuns 3 = true
       ∧ (missOf none (some 9)).dirty = false ∧ s.triggers Cls.biasHost = false)
    ∧ (missOf none none).grant = none ∧ (missOf (some .shared) none).grant = some .shared := by decide +kernel

theorem test_home_answer_hypotheses :
    (let s := sent HostCore.reset (.snpData 3 0x40 9)
     s.usable 0x40 = true ∧ s.txn? 0x40 = none)
    ∧ lineOf 0x47 = 0x40
    ∧ (let s := coreHolds { HostCore.reset with lines := [(0x40, ⟨.modified, 9⟩)] } []
       (s.core 3).copy 0x40 = some ⟨.modified, 9⟩ ∧ s.wbFlying 3 0x40 = false)
    ∧ (let s := coreHolds { HostCore.reset with lines := [(0x40, ⟨.exclusive, 9⟩)] } []
       (s.core 3).copy 0x40 = some ⟨.exclusive, 9⟩)
    ∧ (let r : HomeReq := ⟨.core 3, 0x40, .rdShared, 0⟩
       let s := withHbm.setHome 0 { Home.reset with retry := [(r, 7)] }
       (s.home 0).retry = [(r, 7)] ∧ (s.home 0).openOn 0x40 = false ∧ (s.home 0).entry 0x40 = none ∧ s.flips 0x40 = false
         ∧ s.deviceBias 0x40 = false ∧ s.bankHeld 0x40 = false ∧ (s.home 0).pickRetry 0x40 = .free 19) := by decide +kernel

/-- A staged bias command for the pages 2 to 4. -/
def biasing (first : Nat) : State :=
  ((withHbm.setF .homeBiasCmd Fld.homeBiasCmdFirst first).setF .homeBiasCmd Fld.homeBiasCmdCount 3).setF .homeBiasCmd
    Fld.homeBiasCmdTarget 0

theorem test_bias_hypotheses :
    (biasing 2).biasError ((biasing 2).rf .homeBiasCmd Fld.homeBiasCmdFirst) ((biasing 2).rf .homeBiasCmd Fld.homeBiasCmdCount) = 0
    ∧ (biasing 2).rf .homeBiasCmd Fld.homeBiasCmdCount ≠ 0 ∧ (biasing 2).rf .homeBiasCmd Fld.homeBiasCmdTarget = 0
    ∧ (let s := biasing 0xFFFFFF
       s.biasError (s.rf .homeBiasCmd Fld.homeBiasCmdFirst) (s.rf .homeBiasCmd Fld.homeBiasCmdCount) ≠ 0)
    ∧ (let x : Flip := ⟨2, 3, true, false, 0, 0⟩
       let s := { withHbm with flip := some x }
       s.flip = some x ∧ s.flipDone x = true ∧ x.pegEn = false) := by decide +kernel

theorem test_flip_homes (h : Nat) : (({ withHbm with flip := some ⟨2, 3, true, false, 0, 0⟩ } : State).home h).queue = [] := rfl

theorem no_triggers (k : Nat) : upState.triggers k = false := by
  have h : ∀ i, upState.rget (.frzTrigger i) = 0 := fun _ => rfl
  simp [State.triggers, h]

theorem test_core_event_hypotheses :
    (coreHolds HostCore.reset []).frozen = false ∧ (coreHolds HostCore.reset []).coreRuns 3 = true
    ∧ (∀ st ∈ [LineState.shared, .exclusive, .modified],
        ((coreHolds { HostCore.reset with lines := [(0x40, ⟨st, 9⟩)] } []).core 3).copy 0x40 = some ⟨st, 9⟩) := by decide +kernel

/-- A read of a core on a line that nothing holds is granted EXCLUSIVE with the data of memory (R269). -/
theorem test_read_shared :
    (after (exec (.rdShared 3 0x40 true) (withBytes 0x40 [7] (coreHolds HostCore.reset [])))).mesh
      = [.data (.core 3) 0x40 7, .cmp .exclusive 3 0x40] := by decide +kernel

/-- A read at an offset in no row of the local map returns zero, is counted and recorded (R251); a core's takes an access fault (R309). -/
theorem test_absent_line :
    (let s := after (exec (.rdNa .host 0x700000000000) withHbm)
     s.mesh = [.data .host 0x700000000000 0] ∧ s.rf .homeAddrFaults Fld.homeAddrFaultsCount = 1 ∧ s.flt.net.length = 1)
    ∧ ((after (exec (.rdShared 3 0x700000000000 true) (coreHolds HostCore.reset []))).core 3).accessFaults
      = [0x700000000000] := by decide +kernel

/-- A unit's write to a line that a core owns dirty takes the copy, is merged into its data and counts one snoop (R269). -/
theorem test_unit_write :
    let s := coreHolds { HostCore.reset with lines := [(0x40, ⟨.modified, 9⟩)] } []
    let s := s.setHome 0 { Home.reset with dir := [⟨0x40, .owned 3, 0, true, 0⟩] }
    let t := (s.winWrite Who.noOne 0x41 [5]).1
    t.lineAt 0x40 = 0x509 ∧ (t.core 3).lines = [] ∧ (t.home 0).dir = [] ∧ t.rf (.homeSnoops 0) Fld.homeSnoopsCount = 1 := by
  decide +kernel

/-- A unit's access waits for what is open on its line: the grant to core 3 is received first (R259). -/
theorem test_unit_waits :
    let s := after (exec (.rdShared 3 0x40 true) (coreHolds HostCore.reset []))
    let r := s.winRead Who.noOne 0x40 1
    r.2 = some [0] ∧ (r.1.core 3).copy 0x40 = some ⟨.exclusive, 0⟩ ∧ (r.1.home 0).txns = [] ∧ r.1.mesh = [] := by decide +kernel

/-- SnpInv takes a dirty line and sends its data home (R272). -/
theorem test_snoop_invalidates :
    let s := after (exec (.snpInv 3 false) (sent { HostCore.reset with lines := [(0x40, ⟨.modified, 9⟩)] } (.snp .inv 3 0x40 none none)))
    (s.core 3).copy 0x40 = none ∧ s.mesh = [.snpData 3 0x40 9, .snpAck 3 0x40 true true false] := by decide +kernel

/-- Elements and statistics of rule 5, two rows of two. -/
theorem test_factored_hypotheses :
    let d := { shardOf false false with rule := 5, cols := 2, moment2 := 0x65000 }
    let x : ShardWords := ⟨[1, 2, 3, 4], [0, 0, 0, 0], [7, 7, 7, 7]⟩
    d.rule = 5 ∧ x.w.length = [5, 6, 7, 8].length ∧ (d.has1 = true → x.m.length = [5, 6, 7, 8].length)
      ∧ x.v.length = d.rows + d.cols := by decide

/-- A hand-off that a passed commit holds. -/
theorem test_held_hypotheses :
    let s : State := { upState with engine := { Engine.reset with handoffs := [{ handoff0 with held := true }], waiting := some ([], []) } }
    s.engine.handoffs.find? (fun h => h.job == 0) = some { handoff0 with held := true } ∧ s.engine.waiting ≠ none := by decide +kernel

/-- A line to be written back above the watermark, and one below it. -/
theorem test_write_back_hypotheses :
    let s := ((upState.rset .hbmcLpSize 0x100000).rset (.lpmcPop 0) 0xFF).setMc 32 { MemCtl.reset with writeBack := [0x10000000040] }
    (s.mc 32).writeBack = [0x10000000040] ∧ s.above 0x10000000040 = true ∧ withHbm.above 0x40 = false := by decide +kernel

/-- The next command reaches the home too, or does not. -/
theorem test_more_hypotheses :
    withHbm.moreFor (withHbm.homeOf 0x40) = false
    ∧ ({ withHbm with pending := [.rdNa .host 0x40] } : State).moreFor (withHbm.homeOf 0x40) = true
    ∧ withHbm.runs (max 4 (Agent.domain .host)) = true ∧ withHbm.agentActs .host = true
    ∧ (coreHolds HostCore.reset []).agentActs (.core 3) = true := by decide +kernel

/-- Snoop answers of a core with a copy: the owner's to a request of core 5 and to a recall, and a sharer's. -/
theorem test_snoop_answer_hypotheses :
    let open_ (why : TxnWhy) (st : DirState) : State :=
      let s := coreHolds HostCore.reset []
      s.setHome 0 { Home.reset with txns := [⟨0x40, why, [3], false, false, false, none, false, false⟩], dir := [⟨0x40, st, 0, true, 0⟩] }
    (∀ why ∈ [TxnWhy.request ⟨.core 5, 0x40, .rdOwn, 0⟩, .recall none],
      (open_ why (.owned 3)).ownedBy 3 0x40 = true ∧ ((open_ why (.owned 3)).txn? 0x40).map (fun t => t.why) = some why)
    ∧ (open_ (.recall none) (.shared (oneCore 3))).ownedBy 3 0x40 = false
    ∧ (∀ st ∈ [DirState.owned 3, .shared (oneCore 3)], ((open_ (.recall none) st).home ((open_ (.recall none) st).homeOf 0x40)).txns.length = 1) := by
  decide +kernel

/-- A flip to DEVICE with no entry to recall and with one, a commit of count 0, and a flip that signals its peg. -/
theorem test_device_flip_hypotheses :
    let cmd (count : Nat) : State := (((biasing 2).setF .homeBiasCmd Fld.homeBiasCmdCount count).setF .homeBiasCmd Fld.homeBiasCmdTarget 1).setF
      .homeBiasCmd Fld.homeBiasCmdPegEn 1
    let e : DirEntry := ⟨0x2 * 2 ^ 21, .owned 3, 0, false, 0⟩
    let held := (cmd 3).setHome ((cmd 3).homeOf (0x2 * 2 ^ 21)) { Home.reset with dir := [e] }
    let f : State := { held with flip := some ⟨2, 3, true, true, 0, 0⟩ }
    (cmd 3).biasError 2 3 = 0 ∧ (cmd 3).rf .homeBiasCmd Fld.homeBiasCmdFirst = 2 ∧ (cmd 3).rf .homeBiasCmd Fld.homeBiasCmdCount = 3
      ∧ (cmd 3).rf .homeBiasCmd Fld.homeBiasCmdTarget = 1 ∧ (cmd 3).rf .homeBiasCmd Fld.homeBiasCmdPegEn = 1
      ∧ (cmd 0).biasError 2 0 = 0 ∧ (cmd 0).rf .homeBiasCmd Fld.homeBiasCmdCount = 0
      ∧ ((f.home (f.homeOf e.line)).dir.filter (fun e => f.flips e.line && !(f.home (f.homeOf e.line)).pinned e)) = [e]
      ∧ ({ cmd 3 with flip := some ⟨2, 3, true, true, 0, 0⟩ } : State).flipDone ⟨2, 3, true, true, 0, 0⟩ = true := by decide +kernel

/-- The flip that signals its peg completes as the one that does not, and then adds 1 to the peg (R265). -/
theorem test_flip_peg : (after (exec .biasFlipComplete { withHbm with flip := some ⟨2, 3, false, true, 6, 0⟩ })).peg 6 = 1 := by decide +kernel

/-- The accesses of a core that end in an access fault. -/
theorem test_access_fault_hypotheses :
    let s := coreHolds HostCore.reset []
    2 ^ 48 ≤ (0x1000000000000 : W64).toNat ∧ s.up (max 5 (domainAt (Reg.ringCfg 0).addr)) = true ∧ s.runs 6 = true ∧ s.runs 8 = true
      ∧ coreSize 4 8 = false ∧ coreSize 0x1C 8 = false ∧ coreSize 8 8 = true := by decide +kernel

/-! ## The fabric: states that meet the hypotheses -/

/-- Port 2 in a state, with what it holds; the device holds ID 5. -/
def portIn (st : Nat) (x : Port) : State := (withHbm.setPortState 2 st).setPort 2 x

/-! Flits written out byte by byte, the CRC-32 in bytes 252 to 255 computed outside the model (R280): DATA flits of sequence 0 and 9 and an
IDLE flit, each of which acknowledges 6 and carries nothing else. -/
def data0 : BitVec 2048 := 0x6f1e8c1d000000000000000000000000000000000000000000000000000000000000000000000000000000000000000000000000000000000000000000000000000000000000000000000000000000000000000000000000000000000000000000000000000000000000000000000000000000000000000000000000000000000000000000000000000000000000000000000000000000000000000000000000000000000000000000000000000000000000000000000000000000000000000000000000000000000000000000000000000000000000000000000000000000000000000000000000000000000000000000000000000000000000000010061000
def data9 : BitVec 2048 := 0x7328b766000000000000000000000000000000000000000000000000000000000000000000000000000000000000000000000000000000000000000000000000000000000000000000000000000000000000000000000000000000000000000000000000000000000000000000000000000000000000000000000000000000000000000000000000000000000000000000000000000000000000000000000000000000000000000000000000000000000000000000000000000000000000000000000000000000000000000000000000000000000000000000000000000000000000000000000000000000000000000000000000000000000000000010061009
def idle0 : BitVec 2048 := 0x459e61bb000000000000000000000000000000000000000000000000000000000000000000000000000000000000000000000000000000000000000000000000000000000000000000000000000000000000000000000000000000000000000000000000000000000000000000000000000000000000000000000000000000000000000000000000000000000000000000000000000000000000000000000000000000000000000000000000000000000000000000000000000000000000000000000000000000000000000000000000000000000000000000000000000000000000000000000000000000000000000000000000000000000000000010060000

/-- CRC-32 that takes its bytes one by one. -/
def crcBy : List Byte → BitVec 32 → BitVec 32
  | [], c => c
  | b :: l, c => if c.toNat = 2 ^ 32 then 0 else crcBy l (crcByte c b)

theorem crcBy_eq (l : List Byte) : ∀ c, crcBy l c = l.foldl crcByte c := by
  induction l with
  | nil => exact fun _ => rfl
  | cons b l ih => exact fun c => by rw [crcBy, if_neg (Nat.ne_of_lt c.isLt), ih]; rfl

theorem crc_ok (f : BitVec 2048) (h : ~~~crcBy (leBytes 252 f.toNat) 0xFFFFFFFF = f.extractLsb' 2016 32) : flitCrcOk f = true := by
  rw [crcBy_eq] at h
  simpa [flitCrcOk, crc32] using h

theorem flit_crc : flitCrcOk data0 = true ∧ flitCrcOk data9 = true ∧ flitCrcOk idle0 = true :=
  ⟨crc_ok _ (by decide +kernel), crc_ok _ (by decide +kernel), crc_ok _ (by decide +kernel)⟩

/-- A port that holds three flits to replay. -/
def retrying : Port := { Port.reset with retry := [⟨5, 0⟩, ⟨6, 0⟩, ⟨7, 0⟩] }

theorem test_flit_hypotheses :
    (portIn 3 retrying).portUp 2 = true ∧ flitType data0 = 1 ∧ flitType idle0 = 0
    ∧ flitSeq data0 = (((((portIn 3 retrying).countFec 2 0 false).takeHeader 2 data0 true).port 2).lastSeq + 1) % 4096
    ∧ flitSeq data9 ≠ (((((portIn 3 retrying).countFec 2 0 false).takeHeader 2 data9 false).port 2).lastSeq + 1) % 4096
    ∧ flitBits data0 2 12 1 = 1 ∧ flitBits data0 2 0 12 = 6
    ∧ ((portIn 3 retrying).port 2).retry = [⟨5, 0⟩] ++ ⟨6, 0⟩ :: [⟨7, 0⟩] ∧ ((portIn 3 retrying).port 2).replays + 1 < 16
    ∧ ((portIn 3 { Port.reset with nak := true }).port 2).nak = true ∧ ((portIn 3 retrying).port 2).nak = false := by decide +kernel

/-- An acknowledgement frees the flits up to it (R282). -/
theorem test_ack : (((after (exec (.idleFlit 2 idle0 0 false) (portIn 3 retrying))).port 2).retry) = [⟨7, 0⟩] := by
  simp only [exec, execIdleFlit, flit_crc.2.2]
  decide +kernel

theorem test_packet_read_hypotheses :
    let k : Pkt := { vc := 1, hop := 0, typ := 1, dst := 5, src := 7, path := false, gen := 3, tag := 9, off := 0x40, payload := [] }
    k.vc < 8 ∧ k.typ < 256 ∧ k.payload.length % 16 = 0 ∧ k.payload.length < 512 ∧ pktOf k.header (k.slots.drop 1) = k := by
  decide +kernel

theorem test_port_hypotheses :
    (let s := (portIn 5 Port.reset).aset (.fabPortCfg 2) 1; s.portState 2 = 5 ∧ s.portEnabled 2 = true)
    ∧ (portIn 1 Port.reset).portState 2 = 1 ∧ ((portIn 1 Port.reset).port 2).takeover = none ∧ (portIn 2 Port.reset).portState 2 = 2
    ∧ (portIn 4 retrying).portState 2 = 4 ∧ ((portIn 4 retrying).port 2).outQ = []
    ∧ ((portIn 3 retrying).port 2).retrainAt = []
    ∧ (let s := (portIn 4 retrying).setF .fabId Fld.fabIdValid 0; s.idValid = false ∧ s.triggers Cls.fabLinkDown = false)
    ∧ (let s := withHbm.rset (.fabPortCfg 2) 1
       s.portEnabled 2 = false ∧ s.rf (.fabPortCfg 2) Fld.fabPortCfgEnable = 1)
    ∧ (let s := (withHbm.aset (.fabPortCfg 2) 1).rset (.fabPortCfg 2) 0
       s.portEnabled 2 = true ∧ s.rf (.fabPortCfg 2) Fld.fabPortCfgEnable = 0 ∧ s.portUp 2 = false)
    ∧ upState.fabCommitError = 0 ∧ (upState.setF .fabCfg Fld.fabCfgLevels 7).fabCommitError = 1 := by decide +kernel

theorem test_no_port_up (q : Nat) : upState.portState q = 0 ∧ upState.portUp q = false := by
  have h : upState.rget (.fabPortStatus q) = 0 := rfl
  constructor <;> simp [State.portUp, State.portState, State.rf, h, fieldOf, bitsOf]

/-- A request from device 7 has come. -/
def asked (typ off : Nat) (payload : List Byte) : State :=
  received { vc := VC.req, hop := 0, typ := typ, dst := 5, src := 7, path := false, gen := 3, tag := 9, off := off, payload := payload }
    (withHbm.aset .fabInbound (BitVec.allOnes 64))

/-- A packet of a type is there, and a property of it and of the state without it. -/
def takenPkt (s : State) (typ : Nat) (p : Pkt → State → Bool) : Bool := match s.takePkt typ with
  | some (k, u) => p k u
  | none => false

theorem test_request_hypotheses :
    takenPkt (asked PT.rd 0x40 []) PT.rd (fun k u => u.inbound (lineOf k.off) == .window && u.usable (lineOf k.off)
      && (u.winRead (inboundWho k) (lineOf k.off) 64).2.isSome) = true
    ∧ takenPkt (asked PT.rd 0x2000000 []) PT.rd (fun k u => u.inbound (lineOf k.off) == .window && !u.usable (lineOf k.off)) = true
    ∧ takenPkt ((asked PT.rd 0x40 []).aset .fabInbound 0) PT.rd (fun k u => u.inbound (lineOf k.off) == .denied) = true
    ∧ takenPkt (asked PT.rd 0x700000000000 []) PT.rd (fun k u => u.inbound (lineOf k.off) == .refused) = true
    ∧ (∀ typ ∈ [PT.wr, PT.wrp], takenPkt { asked typ 0x40 (List.replicate 80 0) with bias := [0] } typ (fun k u =>
        u.inbound (lineOf k.off) == .window && u.usable (lineOf k.off) && u.deviceBias (lineOf k.off)) = true)
    ∧ takenPkt (asked PT.pegadd (Reg.pegAdd 4).addr (leBytes 16 1)) PT.pegadd (fun k u =>
        Reg.ofAddr k.off == some (.pegAdd 4) && u.inboundOpen Fld.fabInboundPeg) = true
    ∧ Reg.ofAddr 0x40 = none
    ∧ (∀ typ ∈ [PT.rdreg, PT.wrreg], takenPkt (asked typ (Reg.pegValue 4).addr []) typ (fun k u => u.inboundReg k.off == .open) = true)
    ∧ takenPkt ((asked PT.wrreg (Reg.pegValue 4).addr []).aset .fabInbound 0) PT.wrreg (fun k u => u.inboundReg k.off == .denied) = true := by
  decide +kernel

/-- An open request of the peg unit to device 7. -/
def openReq : OpenReq := ⟨9, 3, .peg 0, Who.noOne, 7, 0x40, false, 64, 0⟩

theorem test_answer_hypotheses :
    (∀ typ ∈ [PT.rddata, PT.wrack, PT.err], takenPkt (asked typ 0 (List.replicate 64 0)) typ (fun k u => (u.answered k).isNone) = true)
    ∧ (let s := asked PT.rddata 0 (List.replicate 64 0)
       takenPkt { s with fab := { s.fab with openReqs := [openReq] } } PT.rddata (fun k u =>
         (u.answered k).map (fun x => x.1) == some openReq) = true)
    ∧ popFirst (fun r : OpenReq => r.tag == 9 && r.gen == 3) [openReq] = some (openReq, []) := by decide +kernel

/-- A write of another device stores its line and is acknowledged (R305). -/
theorem test_fabric_write :
    let s := after (exec .wr { asked PT.wr 0x40 (5 :: List.replicate 63 6) with bias := [0] })
    s.byteAt 0x40 = 5 ∧ s.byteAt 0x7F = 6 ∧ s.byteAt 0x80 = 0 := by decide +kernel

/-- The device is the root, or its parent is port 2. -/
def rooted (root : Bool) : State :=
  let s := withHbm.setB .fabId Fld.fabIdRoot root
  { s with fab := { s.fab with parent := if root then none else some 2 } }

theorem test_management_hypotheses :
    (∀ typ ∈ [PT.register, PT.ready], ((rooted true).consume 1 typ).isRoot = true ∧ ((rooted false).consume 1 typ).isRoot = false
      ∧ ((rooted false).consume 1 typ).fab.parent = some 2)
    ∧ (let s := { withHbm with fab := { withHbm.fab with parts := [(1, [])] } }
       ∀ e ∈ (s.consume 1 PT.assign).fab.parts, e.1 ≠ 0)
    ∧ ((withHbm.consume 1 PT.route).fab.pendingId = none ∧ (List.replicate 16 ((0 : W64), (0 : W64))).length = 16)
    ∧ (let s := withHbm.setPort 2 { Port.reset with takeover := some 1 }
       ((s.consume 1 PT.takeoverAck).port 2).takeover = some 1 ∧ ((s.consume 1 PT.takeoverAck).port 2).sent = []
         ∧ ((s.consume 1 PT.takeoverAck).port 2).outQ = [])
    ∧ ((withHbm.setPhase 1).consume 1 PT.reassign).rf .fabStatus Fld.fabStatusPhase = 1
    ∧ ((withHbm.setPhase 3).consume 1 PT.reassign).rf .fabStatus Fld.fabStatusPhase ≠ 1 := by decide +kernel

/-! HELLOs of serial 77, port 4, that offer no root: one that echoes this device's port 2, one that does not, and one of version 1. -/
def helloEcho : BitVec 2048 := 0xe6ddf78700000000000000000000000000000000000000000000000000000000000000000000000000000000000000000000000000000000000000000000000000000000000000000000000000000000000000000000000000000000000000000000000000000000000000000000000000000000000000000000000000000000000000000000000000000000000000000000000000000000000000000000000000000000000000000000000000000000000000000000000000000000000000000000000000000000000000000000000000000102000000000000000000000000000000000000000400000004000000000000004d000000000000000000002000
def helloNew : BitVec 2048 := 0x10b3405500000000000000000000000000000000000000000000000000000000000000000000000000000000000000000000000000000000000000000000000000000000000000000000000000000000000000000000000000000000000000000000000000000000000000000000000000000000000000000000000000000000000000000000000000000000000000000000000000000000000000000000000000000000000000000000000000000000000000000000000000000000000000000000000000000000000000000000000000000002000000000000000000000000000000000000000400000004000000000000004d000000000000000000002000
def helloOld : BitVec 2048 := 0xfc652c0900000000000000000000000000000000000000000000000000000000000000000000000000000000000000000000000000000000000000000000000000000000000000000000000000000000000000000000000000000000000000000000000000000000000000000000000000000000000000000000000000000000000000000000000000000000000000000000000000000000000000000000000000000000000000000000000000000000000000000000000000000000000000000000000000000000000000000000000000000102000000000000000000000000000000000000000300000004000000000000004d000000000000000000002000

theorem hello_crc : flitCrcOk helloEcho = true ∧ flitCrcOk helloNew = true ∧ flitCrcOk helloOld = true :=
  ⟨crc_ok _ (by decide +kernel), crc_ok _ (by decide +kernel), crc_ok _ (by decide +kernel)⟩

/-- Port 2 exchanges HELLOs and has heard serial 77 once with an echo. -/
def greeting : State :=
  ((upState.setPortState 2 2).setPort 2 { Port.reset with helloCount := 1, heard := true, peerSerial := 77, peerPort := 4 })

theorem test_hello_hypotheses :
    greeting.portHears 2 = true ∧ flitType helloEcho = 2
    ∧ bitsOf (helloOf helloOld).versions 2 1 = 0 ∧ bitsOf (helloOf helloEcho).versions 2 1 = 1
    ∧ (helloOf helloEcho).rootValid = false
    ∧ (let u := (greeting.countFec 2 0 false).takeHeader 2 helloEcho
       let i := helloOf helloEcho
       u.portState 2 = 2 ∧ (u.port 2).knownPeer = false ∧ u.idValid = false ∧ (u.port 2).outQ = []
         ∧ (i.echoValid && i.echoSerial == u.serial && i.echoPort == 2) = true
         ∧ ((u.port 2).heard && (u.port 2).peerSerial == i.serial && (u.port 2).peerPort == i.port) = true ∧ 1 ≤ (u.port 2).helloCount)
    ∧ (helloOf helloNew).echoValid = false := by decide +kernel

/-- The second HELLO with an echo brings the port UP (R284). -/
theorem test_hello_up : (after (exec (.hello 2 helloEcho 0 false) greeting)).portState 2 = 3 := by
  simp only [exec, execHello, hello_crc.1]
  decide +kernel

theorem test_election_hypotheses :
    (let s := (upState.setF .fabId Fld.fabIdEligible 1).startElection
     s.eligibleRoot = true ∧ s.fab.candidate = some s.serial ∧ s.rf .fabStatus Fld.fabStatusPhase = 1)
    ∧ (let s := (upState.setF .fabId Fld.fabIdEligible 0).startElection
       s.fab.candidate = none ∧ s.rf .fabStatus Fld.fabStatusPhase = 1 ∧ s.triggers Cls.fabNoRoot = false)
    ∧ (let s := { upState with fab := { upState.fab with candidate := some 7, parent := some 2, changed := true } }
       s.isRoot = false ∧ s.fab.candidate = some 7 ∧ (7 : W64) ≠ s.serial ∧ s.fab.parent = some 2
         ∧ (s.setF .fabId Fld.fabIdRoot 1).isRoot = true ∧ (s.setF .fabId Fld.fabIdRoot 1).fab.changed = true)
    ∧ (rooted true |>.setPhase 2).rf .fabStatus Fld.fabStatusPhase = 2
    ∧ (upState.csr.map Prod.fst).Nodup := by decide +kernel

/-- Of the flits 0 to 7, the first that lie whole in codewords 0, 1 and 2 (R278: 5,140 bits of data each). -/
theorem test_codeword : ((List.range 8).filter firstWhole) = [0, 3, 6] := by decide

/-- A device of lower serial that comes late finds its ID taken; the assigned one stays (R474). -/
theorem test_same_ids : (sameIds [] [⟨2, true, 0, none, [], some 4, true⟩, ⟨1, true, 0, some 4, [], none, false⟩]).map
    (fun r => (r.serial, r.id)) = [(1, some 0), (2, some 4)] := by decide +kernel

/-- Three devices: the second holds the ID of the first, the third none. -/
def threeReps : List RegRep :=
  [⟨1, true, 0, some 4, [], none, false⟩, ⟨2, true, 0, some 4, [], none, false⟩, ⟨3, true, 0, none, [], none, false⟩]

/-- The device of lower serial keeps a disputed ID; the others get the lowest free ones (R301). -/
theorem test_assigned_ids :
    (threeReps.map (fun r => r.serial)).Nodup ∧ (∀ r ∈ threeReps, (∀ i, r.heldId = some i → i < 4096) ∧ (∀ i, r.id = some i → i < 4096))
      ∧ (assignIds [] threeReps).map (fun r => r.id) = [some 4, some 0, some 1] := by
  refine ⟨by decide, ?_, by decide +kernel⟩
  simp [threeReps]

/-- A line that reads no data, an unacknowledged flit of a port that exchanges HELLOs, and a port that is down while others are. -/
theorem test_unreadable_hypotheses :
    takenPkt { asked PT.rd 0x40 [] with ue := [16] } PT.rd (fun k u => u.inbound (lineOf k.off) == .window && u.usable (lineOf k.off)
      && (u.winRead (inboundWho k) (lineOf k.off) 64).2.isNone) = true
    ∧ (portIn 2 { Port.reset with nak := true }).portState 2 = 2 ∧ ((portIn 2 { Port.reset with nak := true }).port 2).nak = true
    ∧ ((portIn 3 retrying).port 2).retry ≠ [] := by decide +kernel

/-- All 256 parts of a table have come, with and without an ID. -/
def allParts (id : Option (Nat × Nat)) : State :=
  { withHbm with fab := { withHbm.fab with pendingId := id, parts := (List.range 256).map (fun k => (k, [])) } }

theorem test_install_hypotheses :
    (∀ id ∈ [none, some (9, 3)], let u := (allParts id).consume 1 PT.assign
      ((allParts id).consume 1 PT.route).fab.pendingId = id ∧ ∀ k ∈ List.range 256, ∃ e ∈ u.fab.parts, e.1 = k)
    ∧ ([] : List (W64 × W64)).length ≠ 16 ∧ (withHbm.consume 1 PT.route).triggers Cls.fabMalformed = false := by decide +kernel

/-- The ASSIGN that follows the 256 parts installs the ID (R302). -/
theorem test_install :
    let s := after (exec (.assign 1 [] 9 3) (allParts none))
    s.devId = 9 ∧ s.rf .fabId Fld.fabIdEpoch = 3 ∧ s.rf .fabStatus Fld.fabStatusPhase = 3 := by decide +kernel

/-! ## The endpoint and the root ports: states that meet the hypotheses -/

/-- The link of the endpoint is in L0, it is released, and it is a bus master. -/
def linked (s : State) : State :=
  (((s.setF .pcieEpStatus Fld.pcieEpStatusLinkUp 1).setF .pcieEpStatus Fld.pcieEpStatusBusMaster 1).setF (.rstUnit 544) Fld.rstUnitState 0).setF
    .rstDomains Fld.rstDomainsReleased 0x1FF

/-- A running I/O operation of 192 B, host address 0x9000, device address 0x5000. -/
def ioDesc (op issued : Nat) : Desc :=
  { descOf op 192 .running with block := BitVec.ofNat 512 (0x9000 + 0x5000 * 2 ^ 64), issued := issued }

theorem test_host_read_hypotheses :
    Running (linked (holding (ioDesc 0x40 0))) 0 0 (ioDesc 0x40 0) ∧ (ioDesc 0x40 0).op = 0x40 ∧ (ioDesc 0x40 0).failAt = none
    ∧ (ioDesc 0x40 0).issued < (ioDesc 0x40 0).count ∧ (linked (holding (ioDesc 0x40 0))).hostUp = true
    ∧ (linked (holding (ioDesc 0x40 0))).epFull = false := by
  unfold Running; decide +kernel

theorem test_host_write_hypotheses :
    let s := linked (holding (ioDesc 0x41 0))
    Running s 0 0 (ioDesc 0x41 0) ∧ (ioDesc 0x41 0).op = 0x41 ∧ s.hostUp = true ∧ s.epFull = false
      ∧ (let x := s.readAt (descWho 0 (ioDesc 0x41 0)) (.desc 0 0) 0x5000 64
         x.2 = .bytes (List.replicate 64 0) ∧ x.1.desc? 0 0 = some (ioDesc 0x41 0)) := by
  unfold Running; decide +kernel

/-- A HOST_WRITE sends its next line, and after the last one a flush read (R320). -/
theorem test_host_write :
    let t := after (exec (.hostWrite 0 0 512) (linked (holding (ioDesc 0x41 128))))
    t.io.out = [(0, .memRead 0 0x90BF 0 false false), (0, .memWrite 0x9080 (List.replicate 64 0) false false)]
      ∧ t.io.flushes = [⟨0, 0, 0, 192⟩] := by decide +kernel

/-- A running HOST_MSIX of vectors 5 and 6. -/
def msixDesc (issued : Nat) : Desc := { descOf 0x42 2 .running with block := 5, issued := issued }

theorem test_host_msix_hypotheses :
    ∀ k ∈ [0, 1], let s := linked (holding (msixDesc k))
      Running s 0 0 (msixDesc k) ∧ (msixDesc k).op = 0x42 ∧ (msixDesc k).issued < (msixDesc k).count ∧ s.hostUp = true ∧ s.epFull = false
        ∧ s.msixOn = false ∧ (s.setF .pcieEpStatus Fld.pcieEpStatusMsixEnable 1).msixOn = true
        ∧ (s.rset (.pcieMsixTable (5 + k) 1) 0).msixMasked (5 + k) = false ∧ (msixDesc k).pos ≤ (msixDesc k).issued := by
  unfold Running; decide +kernel

/-- One read of a HOST_READ is outstanding, of the last 64 B or of all that has been issued. -/
def reading : State :=
  let s := linked (holding (ioDesc 0x40 192))
  { s with io := { s.io with reads := [⟨3, 0, 0, 128, 64, []⟩] } }

theorem test_completion_hypotheses :
    reading.io.reads = [] ++ ⟨3, 0, 0, 128, 64, []⟩ :: [] ∧ reading.desc? 0 0 = some (ioDesc 0x40 192)
    ∧ (let u := { reading with io := { reading.io with reads := [] } }
       let v := u.placeRead 0 (ioDesc 0x40 192) 128 (List.replicate 64 1)
       v.2 = none ∧ v.1.desc? 0 0 = some { ioDesc 0x40 192 with ackTime := some 0 } ∧ v.1.io.reads.any (fun x => x.ring == 0 && x.idx == 0) = false)
    ∧ (ioDesc 0x40 192).issued = (ioDesc 0x40 192).count ∧ (ioDesc 0x40 128).issued ≠ (ioDesc 0x40 128).count := by decide +kernel

/-- The last completion of a HOST_READ ends it (R321). -/
theorem test_read_completion :
    let s := after (exec (.readCompletion 3 .sc (List.replicate 64 1) false) reading)
    s.byteAt 0x5080 = 1 ∧ s.byteAt 0x50C0 = 0 ∧ (s.desc? 0 0).map (fun d => (d.phase, d.status)) = some (.ended, stOk) := by
  decide +kernel

theorem test_flush_hypotheses :
    let s := holding (ioDesc 0x41 192)
    let t := { s with io := { s.io with flushes := [⟨3, 0, 0, 192⟩] } }
    t.io.flushes = [] ++ ⟨3, 0, 0, 192⟩ :: [] ∧ t.desc? 0 0 = some (ioDesc 0x41 192) ∧ (ioDesc 0x41 192).units ≤ 192
      ∧ (ioDesc 0x41 192).count = 192 := by decide +kernel

theorem test_loss_hypotheses :
    (linked upState).lossHappens .recovery = true ∧ (linked upState).lossHappens .hotReset = true
    ∧ ((linked upState).aset .pcieEpCfg 0).lossHappens .perst = true
    ∧ (let s := linked (holding (ioDesc 0x41 192))
       s.unacked 0 (ioDesc 0x41 192) = true ∧ (ioDesc 0x41 192).started = true)
    ∧ reading.io.reads.any (fun x => x.ring == 0 && x.idx == 0) = true
    ∧ (descOf 0x20 8 .running).op < 0x40 ∧ (descOf 0x20 8 .running).isCopy = false := by decide +kernel

/-- A completion of a later read waits for the bytes before it, and is written with them (R319). -/
theorem test_read_order :
    let s := linked (holding (ioDesc 0x40 192))
    let s := { s with io := { s.io with reads := [⟨3, 0, 0, 0, 128, []⟩, ⟨4, 0, 0, 128, 64, []⟩] } }
    let t := after (exec (.readCompletion 4 .sc (List.replicate 64 2) false) s)
    let u := after (exec (.readCompletion 3 .sc (List.replicate 128 1) false) t)
    t.byteAt 0x5080 = 0 ∧ t.io.reads.length = 2 ∧ u.byteAt 0x5000 = 1 ∧ u.byteAt 0x5080 = 2
      ∧ (u.desc? 0 0).map (fun d => (d.phase, d.status)) = some (.ended, stOk) := by decide +kernel

/-- A core's AMO to a root-port window or a register, a misaligned access to an aperture and an address above bit 47 fault (R309, R310);
a single-bit cache error is counted (R312). -/
theorem test_core_faults :
    let s := coreHolds HostCore.reset []
    let faults (i : Instr) : List W64 := ((after (exec i s)).core 3).accessFaults
    s.coreRuns 3 = true ∧ faults (.rdShared 3 0x1000000000000 true) = [0x1000000000000]
      ∧ faults (.registerReadClear (.core 3) 0xF00000000000 ⟨8, true⟩) = [0xF00000000000]
      ∧ faults (.apertureAccess (.core 3) 0 4 ⟨8, false⟩ none) = [0x800000000004] ∧ accessWf 4 8 none = true
      ∧ faults (.rpWindowLoad 3 0 8 ⟨4, true⟩) = [0xF00040800008] := by decide +kernel

theorem linked_csr : (linked upState).csr
    = [(.rstDomains, (linked upState).rget .rstDomains), (.pcieEpStatus, (linked upState).rget .pcieEpStatus)] := by decide +kernel

theorem test_no_pending_vector (v : Nat) : (linked upState).rget (.pcieMsixPba v) = 0 := by
  have h : (Reg.pcieMsixPba v).reset = 0 := rfl
  rw [State.rget, linked_csr]
  simp [kget, h]

theorem test_host_request_hypotheses :
    (linked upState).rf .pcieEpStatus Fld.pcieEpStatusLinkUp = 1 ∧ (linked upState).rf (.rstUnit 544) Fld.rstUnitState = 0
    ∧ ((linked upState).setF (.rstUnit 544) Fld.rstUnitState 2).rf (.rstUnit 544) Fld.rstUnitState ≠ 0
    ∧ csrRefused (csrBar 0x40800000) = true ∧ csrRefused (csrBar 0x2000000) = false ∧ tlpWf 0x2000000 8 none = true
    ∧ tlpWf 0x2000000 8 (some (List.replicate 8 0)) = true ∧ inRegisters 0x40 = false := by decide +kernel

/-- The awning window reaches device memory (R317). -/
theorem test_awning_write :
    let s := after (exec (.tlpPostedWrite (.awning 0x44) [9, 8] false) ((linked withHbm).aset .awnBase 0))
    s.byteAt 0x44 = 9 ∧ s.byteAt 0x45 = 8 := by decide +kernel

/-- Root port 1 is enabled and its link up. -/
def ported : State :=
  ((withHbm.aset (.pcieRpCfg 1) 1).setF (.pcieRpStatus 1) Fld.pcieRpStatusLinkUp 1).setF (.rstUnit 546) Fld.rstUnitState 0

theorem test_root_port_hypotheses :
    linkWidth 16 = true
    ∧ (let s := { ported with io := { ported.io with rpPerst := 0 } }
       s.rpEnabled 1 = true ∧ s.io.rpPerst.getLsbD 1 = false)
    ∧ ported.rpUp 1 = true ∧ ported.rpServes 1 = true ∧ withHbm.rpServes 1 = false ∧ ported.triggers Cls.rpLinkDown = false
    ∧ ported.triggers Cls.rpAccess = false
    ∧ (ported.setF (.pcieRpCfg 1) Fld.pcieRpCfgEnable 1).rf (.pcieRpCfg 1) Fld.pcieRpCfgEnable = 1
    ∧ (ported.setF (.pcieRpCfg 1) Fld.pcieRpCfgEnable 0).rf (.pcieRpCfg 1) Fld.pcieRpCfgEnable ≠ 1
    ∧ (ported.setF .rstDomains Fld.rstDomainsReleased 0x1FF).released 8 = true
    ∧ (ported.rset (.rstUnit 387) 0).coreRuns 3 = true ∧ coreSize 0x14 4 = true ∧ coreSize 0x14 8 = false := by decide +kernel

/-- A root port with 1,024 reads outstanding keeps the next one (R314). -/
theorem test_port_full :
    let e : RpRead := ⟨1, 0, 0, 8, .agent⟩
    let s := { ported with io := { ported.io with rpReads := List.replicate 1024 e } }
    s.rpServes 1 = true ∧ s.rpFull 1 = true ∧ ported.rpFull 1 = false ∧ ported.io.pllLost = 0 := by decide +kernel

theorem test_root_port_read_hypotheses :
    let e : RpRead := ⟨1, 3, 0, 8, .agent⟩
    let s := { ported with io := { ported.io with rpReads := [e] } }
    s.io.rpReads = [] ++ e :: [] ∧ e.port = 1 ∧ e.tag = 3 := by decide +kernel

/-- Region 0 of the table: 4 KiB at 0x8000 for ports 1, read and write, key 9. -/
def placed : State :=
  let s := (ported.setF (.dplRegionBase 0) Fld.dplRegionBaseBase 8).setF (.dplRegionAttr 0) Fld.dplRegionAttrPages 1
  let s := ((s.setF (.dplRegionAttr 0) Fld.dplRegionAttrRead 1).setF (.dplRegionAttr 0) Fld.dplRegionAttrWrite 1).setF (.dplRegionAttr 0)
    Fld.dplRegionAttrPorts 2
  let s := (s.setF (.dplRegionKey 0) Fld.dplRegionKeyKey 9).setF (.dplRegionKey 0) Fld.dplRegionKeyValid 1
  ((s.commitReg (.dplRegionBase 0)).commitReg (.dplRegionAttr 0)).commitReg (.dplRegionKey 0)

theorem test_placement_hypotheses :
    (placements placed.aget).find? (fun y => y.key == 9) = some ⟨0x8000, 4096, true, true, 2, 9⟩
    ∧ (placements upState.aget).find? (fun y => y.key == 9) = none
    ∧ bitsOf 2 1 1 = 1
    ∧ upState.dplError = 0 ∧ (upState.setF (.dplRegionKey 0) Fld.dplRegionKeyValid 1).dplError ≠ 0 := by decide +kernel

/-- A request under a key is placed at its region (R328). -/
theorem test_placement :
    (after (exec (.rpInboundRequest 1 0x900000040 2 (some [7, 6]) false) placed)).bytesAt 0x8040 3 = [7, 6, 0] := by decide +kernel

/-- An endpoint in D3hot, a link of no rate or of no width of the spec, a port whose reads all pass, and the size of a completion. -/
theorem test_link_hypotheses :
    (let s := linked { upState with io := { upState.io with d3hot := true } }; s.io.d3hot = true ∧ s.rf .pcieEpStatus Fld.pcieEpStatusLinkUp = 1)
    ∧ ¬(1 ≤ (0 : BitVec 3).toNat) ∧ ¬((7 : BitVec 3).toNat ≤ 6) ∧ linkWidth 3 = false ∧ ported.io.pllLost = 0
    ∧ ported.agentActs .host = true ∧ 0 < (linked upState).linkPayload 0 ∧ 0 < ported.linkPayload 2
    ∧ ((after (exec .dplCommit upState)).io.dplPending = 1) := by decide +kernel

/-- Data goes back in completions that end at the multiples of the payload size (R314). -/
theorem test_completion_parts :
    cplParts 128 4 100 (List.replicate 200 7) = [List.replicate 28 7, List.replicate 128 7, List.replicate 44 7] := by decide +kernel

/-- A configuration request of an endpoint that is held in reset ends in UR (R375). -/
theorem test_configuration_in_reset :
    let s := (linked upState).setF (.rstUnit 544) Fld.rstUnitState 2
    isNext (exec (.pcieConfigurationRequest .readErrors) s) = true
      ∧ (after (exec (.pcieConfigurationRequest (.power true)) s)).io.d3hot = false := by decide +kernel

/-! ## Boot, reset, faults and the clock: states that meet the hypotheses -/

/-- The domains below D`n` are released. -/
def released (n : Nat) (s : State) : State := s.setF .rstDomains Fld.rstDomainsReleased (2 ^ n - 1)

/-- The straps show a boot mode and an NVM mode. -/
def strapped (mode nvm : Nat) (s : State) : State := s.rset .bootStraps (BitVec.ofNat 64 (mode * 256 + nvm * 64))

/-- The ROM is in a stage. -/
def staged (n : Nat) (s : State) : State := s.setF .bootStatus Fld.bootStatusStage n

theorem test_load_hypotheses :
    (let s := released 3 State.reset
     s.frozen = false ∧ s.stage = 0 ∧ s.loadFailed = false ∧ s.released 2 = true ∧ s.codeLost = false
       ∧ s.sys.fuses.uncorrectable = false ∧ s.sys.loadReply = none)
    ∧ (let s := { released 3 State.reset with sys := { Sys.reset with fuses := { Sys.reset.fuses with uncorrectable := true } } }
       s.stage = 0 ∧ s.loadFailed = false ∧ s.released 2 = true ∧ s.sys.fuses.uncorrectable = true)
    ∧ (∀ m ∈ [0, 1, 2, 3], ∀ n ∈ [0, 3], let s := strapped m n (released 3 State.reset)
       bitsOf (s.rget .bootStraps).toNat 8 2 = m ∧ bitsOf (s.rget .bootStraps).toNat 6 2 = n ∧ s.stage = 0) := by decide +kernel

/-- An erased flash holds no image (R345: code 1). -/
theorem test_erased_flash : (released 3 State.reset).readFuses.judge (flashRead [[]] 0) = 1 := by decide +kernel

theorem test_data_frame_hypotheses :
    (staged 5 State.reset).loadRuns = false ∧ (staged 5 State.reset).romServes = true ∧ (staged 6 State.reset).romServes = true
    ∧ (List.replicate 1024 (7 : Byte)).length ≤ 1024 ∧ (0xFFC00 : W32).toNat + (List.replicate 1024 (7 : Byte)).length ≤ 1048576
    ∧ 1048576 < (0xFFC01 : W32).toNat + (List.replicate 1024 (7 : Byte)).length := by decide +kernel

theorem test_load_frame_hypotheses :
    (let s := { State.reset with sys := { Sys.reset with loadReply := some (1, 2) } }
     s.loadRuns = true)
    ∧ (staged 4 State.reset).loadRuns = false ∧ (staged 4 State.reset).firmwareRuns = true ∧ (staged 5 State.reset).frozen = false
    ∧ (staged 5 State.reset).hears ⟨5, 0, 0x88B5⟩ = true ∧ (staged 4 State.reset).hears ⟨5, 0xFFFFFFFFFFFF, 0x88B5⟩ = true
    ∧ (staged 5 State.reset).hears ⟨5, 0xFFFFFFFFFFFF, 0x88B5⟩ = false ∧ (staged 5 State.reset).sys.bufEcc = ⟨[], []⟩
    ∧ (staged 5 State.reset).judge ((staged 5 State.reset).bufBytes 0 1048576) = 2 := by decide +kernel

/-- The management station is 0x0A, and may write. -/
def peered : State := ((staged 4 State.reset).setF .timeMgmtCfg Fld.timeMgmtCfgPeer 0x0A).setF .timeMgmtCfg Fld.timeMgmtCfgWriteEn 1

theorem test_firmware_hypotheses :
    (let s := { peered with sys := { peered.sys with cert := some (List.replicate 35760 1) } }
     s.firmwareRuns = true ∧ s.sys.cert.isSome = true)
    ∧ peered.sys.cert = none ∧ peered.firmwareRuns = true ∧ peered.hears ⟨0x0A, peered.mac, 0x88B5⟩ = true
    ∧ (let a : W64 := BitVec.ofNat 64 (Reg.timeAdj).addr
       a.toNat < 2 ^ 48 ∧ inMemory a.toNat = false ∧ peered.reachable .basecamp a.toNat = true
         ∧ (peered.csrWrite .basecamp a.toNat 8 5).firmwareRuns = true)
    ∧ peered.mgmtMay 0x0A = true ∧ peered.mgmtMay 0x0B = false := by decide +kernel

theorem test_certificate_length : (List.replicate 35760 (1 : Byte)).length = 35760 := List.length_replicate ..

theorem test_fuse_command_hypotheses :
    State.reset.fuseReady 0x46555345 = true ∧ State.reset.fuseReady 0 = false
    ∧ (let s := { State.reset with sys := { Sys.reset with fuseOp := some (.rollback 3), fuses := { Sys.reset.fuses with rollback := 2 } } }
       s.fuseReady 0x46555345 = false ∧ (1 : BitVec 6).toNat < s.sys.fuses.rollback ∧ s.sys.fuses.rollback ≤ (2 : BitVec 6).toNat)
    ∧ Sys.reset.fuses.programmed.getLsbD (0 : BitVec 2).toNat = true ∧ Sys.reset.fuses.programmed.getLsbD (3 : BitVec 2).toNat = false
    ∧ (let s := { State.reset.setF .bootImage Fld.bootImageKeySlot 1 with sys := { Sys.reset with applied := true } }
       s.sys.applied = true ∧ s.rf .bootImage Fld.bootImageKeySlot = (1 : BitVec 2).toNat
         ∧ s.rf .bootImage Fld.bootImageKeySlot ≠ (2 : BitVec 2).toNat) := by decide +kernel

/-- Fuses are being blown. -/
def blowing (op : FuseOp) : State := { State.reset with sys := { Sys.reset with fuseOp := some op } }

theorem test_fuse_end_hypotheses :
    (∀ op ∈ [FuseOp.rollback 5, .program 3, .revoke 3, .load 5], (blowing op).sys.fuseOp = some op ∧ (blowing op).frozen = false)
    ∧ (3 : Nat) < 4 := by decide +kernel

/-- Two bits of a rollback advance read blown, the third does not (R343). -/
theorem test_fuse_failure :
    (after (exec (.fuseProgComplete (some 2)) (blowing (.rollback 5)))).sys.fuses.rollback = Sys.reset.fuses.rollback + 2 := by
  decide +kernel

/-- A re-pitch in a state. -/
def repitching (n : Nat) : State := State.reset.setRepitch n

theorem test_repitch_hypotheses :
    (∀ n ∈ [0, 1, 2], (repitching n).repitchState = n ∧ (repitching n).frozen = false ∧ (repitching n).fieldIdle = true)
    ∧ (repitching 2).sys.xspi = none ∧ (repitching 2).sys.leaving = false ∧ bitsOf ((repitching 2).rget .bootStraps).toNat 6 2 ≠ 3
    ∧ (let c : XspiCmd := ⟨0xEE, true, false, 256, 0xFFF00, [], none, none⟩
       let s := { repitching 2 with sys := { Sys.reset with xspi := some c } }
       s.sys.xspi = some c ∧ s.repitchState = 2 ∧ (List.replicate 256 (9 : Byte)).length = c.length ∧ c.length ≤ 256
         ∧ c.address % 1048576 + c.length ≤ 1048576 ∧ s.sys.leaving = false)
    ∧ (256 : BitVec 9).toNat ≤ 256 ∧ 256 < (257 : BitVec 9).toNat := by decide +kernel

/-- Bytes that an xSPI read receives go to the load buffer at the flash address (R355). -/
theorem test_xspi_read :
    let s := { repitching 2 with sys := { Sys.reset with xspi := some ⟨0xEE, true, false, 2, 0x40000011, [], none, none⟩ } }
    (after (exec (.xspiCommandComplete [9, 8]) s)).bufBytes 0x10 4 = [0, 9, 8, 0] := by decide +kernel

theorem test_reset_hypotheses :
    (State.reset.aset .pcieEpCfg 0).af .pcieEpCfg Fld.pcieEpCfgPerstScope = 0
    ∧ ((State.reset.setF .pcieEpCfg Fld.pcieEpCfgPerstScope 1).commitReg .pcieEpCfg).af .pcieEpCfg Fld.pcieEpCfgPerstScope = 1
    ∧ (0 : W32) ≠ 0x53575253 ∧ (0 : W32) ≠ 0x4B49434B ∧ (released 1 State.reset).released 0 = true
    ∧ (∀ m ∈ [ClockMonitor.reference, .rootPll, .bclk, .mclk, .memoryPhy, .sclk, .cclk, .aclk],
        (released 9 State.reset).released (monitorScope m).1 = true)
    ∧ (monitorScope .bclk).2 = true ∧ (released 9 State.reset).frozen = false ∧ (released 9 State.reset).released 4 = true
    ∧ State.reset.wdtOn = false ∧ (State.reset.setF .rstWdtCtrl Fld.rstWdtCtrlEnable 1).wdtOn = true := by decide +kernel

/-- Domain D`n` is next, an image has been applied, and memory has been trained. -/
def ladder (n : Nat) : State :=
  let s := (released n State.reset).setF (.hbmcStatus 0) Fld.hbmcStatusTrained 1
  { s with sys := { s.sys with applied := true } }

theorem test_release_hypotheses :
    (∀ n ∈ [0, 1, 2, 3, 4, 5, 6, 7, 8], (ladder n).nextDomain = n ∧ (ladder n).releaseReady n = true ∧ (ladder n).sys.applied = true)
    ∧ (ladder 9).nextDomain = 9 ∧ (released 3 State.reset).releaseReady (released 3 State.reset).nextDomain = false
    ∧ (let s := (released 4 State.reset).setF (.lpmcPop 0) Fld.lpmcPopChannels 3
       s.frozen = false ∧ s.released 3 = true ∧ s.released 4 = false ∧ s.rf (.hbmcStatus 0) Fld.hbmcStatusTrained = 0
         ∧ s.lpPopulated = true) := by decide +kernel

/-- Unit `u` is in a state of its reset; every domain is released. -/
def unitIn (u st : Nat) : State := (released 9 State.reset).setF (.rstUnit u) Fld.rstUnitState st

theorem test_unit_reset_hypotheses :
    (∀ u ∈ [0, 383, 384, 479, 480, 544, 545], State.reset.released (unitOf u).domain = false
      ∧ ∀ st ∈ [0, 1, 2, 3], (unitIn u st).released (unitOf u).domain = true ∧ (unitIn u st).unitState u = st
        ∧ (unitIn u st).frozen = false)
    ∧ unitOf 383 = .tile 383 ∧ unitOf 479 = .core 95 ∧ unitOf 480 = .port 0 ∧ (unitIn 383 1).unitIdle (unitOf 383) = true
    ∧ ((unitIn 383 1).modTile 383 (fun t => { t with seq := .run })).unitIdle (unitOf 383) = false
    ∧ ((unitIn 383 0).tile 383).seq ≠ .run ∧ (unitIn 479 3).released 5 = true ∧ (unitIn 0 2).triggers Cls.unitReset = false := by
  decide +kernel

theorem test_no_group : ∀ g, g < 32 → 383 ∉ (unitIn 383 1).tilesOf g := by decide +kernel

theorem test_unit_kinds : (∀ n, unitOf 545 ≠ .tile n) ∧ (∀ c, unitOf 545 ≠ .core c) ∧ (∀ c, unitOf 383 ≠ .core c) := by
  simp [unitOf]

theorem test_no_image : ∀ e ∈ (unitIn 383 1).image, e.1 ≠ .tileCtrl 383 := by
  have h : (unitIn 383 1).image = [] := by decide +kernel
  simp [h]

/-- Records wait at the collector. -/
def faulty (l : List FaultRec) (s : State) : State := { s with flt := { s.flt with net := l } }

/-- A record of severity 2. -/
def faultOf : FaultRec := mkRec Cls.unitReset 2 Kind.tile 3

/-- The fault ring is at 0x10000, 64 records, in device bias, and `used` of them are not consumed. -/
def fltRing (used : Nat) : State :=
  let s := (withHbm.setF .fltRingBase Fld.fltRingBaseBase 16).setF .fltCtrl Fld.fltCtrlFs 6
  let s := ((s.setF .fltCtrl Fld.fltCtrlEnable 1).setF .fltTail Fld.fltTailTail used).setF .timeMgmtCfg Fld.timeMgmtCfgFaultFwd 0
  { (s.commitReg .fltRingBase).commitReg .fltCtrl with bias := [0] }

theorem test_record_hypotheses :
    (faulty [faultOf] State.reset).frozen = false ∧ (faulty [faultOf] State.reset).flt.net = faultOf :: []
    ∧ State.reset.traceOn Fld.bootTraceRecords = false ∧ State.reset.fltOn = false ∧ State.reset.flt.early.length < 256
    ∧ (let s := { State.reset with flt := { State.reset.flt with early := List.replicate 256 ⟨faultOf, 0⟩ } }
       256 ≤ s.flt.early.length)
    ∧ (fltRing 63).fltOn = true ∧ (fltRing 63).fltUsed < 2 ^ (fltRing 63).fltFs ∧ 2 ^ (fltRing 64).fltFs ≤ (fltRing 64).fltUsed
    ∧ (fltRing 63).rf .fltNotify Fld.fltNotifyHartEn = 0 ∧ (fltRing 63).rf .fltNotify Fld.fltNotifyVectorEn = 0
    ∧ (fltRing 63).faultFwd = false
    ∧ (let a := (fltRing 63).af .fltRingBase Fld.fltRingBaseBase * 4096 + 64 * (63 % 2 ^ (fltRing 63).fltFs)
       a = 0x10FC0 ∧ (fltRing 63).usable a = true ∧ (fltRing 63).deviceBias a = true) := by decide +kernel

/-- The phase of record 63 is 1 and that of record 64, the first of the second lap, is 0 (R394, R399). -/
theorem test_record_phase :
    (after (exec .faultRecord (faulty [faultOf] (fltRing 63)))).byteAt (0x10FC0 + 15) = 0x80
    ∧ (let s := (fltRing 64).setF .fltHead Fld.fltHeadHead 1
       (after (exec .faultRecord (faulty [faultOf] s))).byteAt (0x10000 + 15) = 0
         ∧ (after (exec .faultRecord (faulty [faultOf] s))).byteAt (0x10000 + 14) = 2) := by decide +kernel

theorem test_collector_hypotheses :
    (fltRing 0).fltCommitError ≠ 0 ∧ State.reset.fltCommitError = 0 ∧ State.reset.flt.early = [] ∧ State.reset.loadFailed = false
    ∧ (∀ r ∈ (faulty [faultOf] ((State.reset.setF .fltCtrl Fld.fltCtrlPinLevel 3).commitReg .fltCtrl)).flt.net,
        ((State.reset.setF .fltCtrl Fld.fltCtrlPinLevel 3).commitReg .fltCtrl).pinLevel r.sev = false)
    ∧ ((State.reset.setF .fltCtrl Fld.fltCtrlPinLevel 2).commitReg .fltCtrl).pinLevel faultOf.sev = true
    ∧ (released 2 State.reset).released 1 = true ∧ (State.reset.freeze 1 0).frozen = true
    ∧ (let s := State.reset.setF (.frzTrigger (faultOf.cls / 64)) ⟨faultOf.cls % 64, 1⟩ 1
       s.frozen = false ∧ s.triggers faultOf.cls = true) := by decide +kernel

theorem test_clock_hypotheses :
    State.reset.now ≤ 5 ∧ (4 : W64) < ({ State.reset with stn := 5 * 2 ^ 40 } : State).now
    ∧ (sgn 32 ((State.reset.setF .timeAdj Fld.timeAdjRate 549755813).rf .timeAdj Fld.timeAdjRate)).natAbs ≤ 549755813
    ∧ 549755813 < (sgn 32 ((State.reset.setF .timeAdj Fld.timeAdjRate 549755814).rf .timeAdj Fld.timeAdjRate)).natAbs
    ∧ (repitching 2).repitchState = 2 ∧ State.reset.repitchState ≠ 2 ∧ State.reset.glLoad.loadPhase = true
    ∧ State.reset.glLoad.repitchState ≠ 2 ∧ (State.reset.setF .timeStatus Fld.timeStatusState 2).clockState = 2 ∧ State.reset.clockState ≠ 2
    ∧ State.reset.sys.slew.natAbs ≤ State.reset.slewStep ∧ (List.replicate 56 (0 : W16)).length = 56 := by decide +kernel

/-- The guyline pins are in run phase. -/
def inRun : State := State.reset.setF .bootGlPhase Fld.bootGlPhaseLow 2

theorem test_pin_hypotheses :
    inRun.runPhase = true ∧ inRun.frozen = false ∧ inRun.sys.ppsSeen = false
    ∧ (let s := { (inRun.setF .timeCfg Fld.timeCfgPpsInEn 1).commitReg .timeCfg with sys := { Sys.reset with ppsSeen := true } }
       s.runPhase = true ∧ s.af .timeCfg Fld.timeCfgPpsInEn = 1 ∧ s.sys.ppsSeen = true
         ∧ s.now.toNat < (s.rget .timePpsIn).toNat + 500000000)
    ∧ ((inRun.setF .timeCfg Fld.timeCfgPpsOutEn 1).commitReg .timeCfg).af .timeCfg Fld.timeCfgPpsOutEn = 1
    ∧ ((State.reset.setF .bootTrace Fld.bootTraceEnable 1).setF .bootTrace Fld.bootTraceMarks 1).traceOn Fld.bootTraceMarks = true
    ∧ State.reset.sys.traceQ.length < 16 ∧ (List.replicate 1518 (0 : Byte)).length ≤ 1518
    ∧ State.reset.acceptsPtp [0x01, 0x1B, 0x19, 0, 0, 0] = true ∧ State.reset.acceptsPtp [0x01, 0x1B, 0x19, 0, 0, 1] = false := by decide +kernel

theorem test_tap_hypotheses :
    State.reset.released 0 = false
    ∧ (let s := { State.reset.setF .frzCfg Fld.frzCfgJtagRead 1 with frozen := true }
       s.frozen = true ∧ s.rf .frzCfg Fld.frzCfgJtagRead = 1)
    ∧ State.reset.frozen = false := by decide +kernel

/-- IDCODE of stepping 0 (R444). -/
theorem test_idcode : (after (exec .idcode State.reset)).sys.tap.captured = 0x0296B4A7 := by decide +kernel

/-! ## Invariants: states that meet the hypotheses -/

theorem test_tick_hypotheses :
    (let s := released 3 State.reset
     s.released 0 = true ∧ s.stn < 2 ^ 104 ∧ s.pending = [] ∧ isNext (step s) = true)
    ∧ (let s := { released 3 State.reset with pending := [.timeSet 5] }
       s.pending ≠ [] ∧ isNext (step s) = true ∧ (after (step s)).stn = 5 * 2 ^ 40) := by decide +kernel

theorem test_freeze_holds_hypotheses :
    (let s := { State.reset.freeze 1 0 with pending := [.timeSet 5] }
     s.frozen = true ∧ isNext (step s) = true)
    ∧ isNext (step (State.reset.freeze 1 0)) = true := by decide +kernel

/-- The queue is first in, first out. -/
theorem test_fifo :
    let s := { State.reset with pending := [.timeSet 5, .timeSet 9] }
    (after (step s)).now = 5 ∧ (after (step (after (step s)))).now = 9 := by decide +kernel

/-- A unit's aligned 8 B access to a register waits, is performed, and gives the register's value (R6, R221); a line is no such access. -/
theorem test_unit_register_access :
    let o : Owner := .desc 0 0
    let w : Who := ⟨Kind.rings, 0, 1, none⟩
    let s := (State.reset.writeAt w o VC.bulk (Reg.addr (.pegAdd 4)) (leBytes 8 5)).1
    let u := (s.unitAccesses.readAt w o (Reg.addr (.pegValue 4)) 8).1
    s.hasOpen o = true ∧ s.peg 4 = 0 ∧ s.unitAccesses.hasOpen o = false ∧ s.unitAccesses.peg 4 = 5
    ∧ u.hasOpen o = true ∧ (u.unitAccesses.readAt w o (Reg.addr (.pegValue 4)) 8).2 = .bytes (leBytes 8 5)
    ∧ (State.reset.writeAt w o VC.bulk (Reg.addr (.pegAdd 4)) (leBytes 2 5)).1.fab = State.reset.fab := by decide +kernel

/-- The fuses cannot be read, at every boot mode, and the ROM's own code is whole (R335). -/
theorem test_lost_fuse_hypotheses :
    ∀ m ∈ [0, 1, 2, 3], let s := strapped m 0 { released 3 State.reset with sys := { Sys.reset with fuses := { Sys.reset.fuses with uncorrectable := true } } }
      s.frozen = false ∧ s.stage = 0 ∧ s.loadFailed = false ∧ s.released 2 = true ∧ s.codeLost = false ∧ s.sys.fuses.uncorrectable = true
        ∧ bitsOf (s.rget .bootStraps).toNat 8 2 = m := by decide +kernel

/-- The firmware sends an earlier answer, or none (R422). -/
theorem test_sending_hypotheses :
    let f : MgmtFrame := ⟨some 0x0A, 19, 0, 1, 0, 0, [], 0, 0x88B5⟩
    let s := { peered with sys := { peered.sys with sendQ := [f] } }
    peered.sys.sendQ = [] ∧ s.sys.sendQ = f :: [] ∧ s.firmwareRuns = true ∧ s.hears ⟨0x0A, s.mac, 0x88B5⟩ = true := by decide +kernel

/-- The POR cause lasts after power-on and has ended once D0 is released; the watchdog has counted to its limit, or not (R373, R451). -/
theorem test_cause_hypotheses :
    let wd (n : Nat) : State := let s := State.reset.wdtWrite true 1; { s with sys := { s.sys with wdtCount := n } }
    State.reset.sys.porHolds = true ∧ (after (exec (.domainRelease 0) State.reset)).sys.porHolds = false
      ∧ ((wd 174999).wdtOn = true ∧ 175000 * (wd 174999).wdtLimit ≤ (wd 174999).sys.wdtCount + 1)
      ∧ (wd 174998).sys.wdtCount + 1 < 175000 * (wd 174998).wdtLimit
      ∧ (let s := { ladder 1 with frozen := true }; s.nextDomain = 1 ∧ s.frozen = true)
      ∧ (let s := { ladder 2 with frozen := true }; s.nextDomain = 2 ∧ s.frozen = true) := by decide +kernel

/-- The cycle that ends the watchdog's limit resets the device (R373). -/
theorem test_watchdog_limit :
    let s := State.reset.wdtWrite true 1
    (after (step { s with sys := { s.sys with wdtCount := 174999 } })).rf .rstLastCause Fld.rstLastCauseCause = 4
      ∧ (after (step { s with sys := { s.sys with wdtCount := 174998 } })).sys.wdtCount = 174999 := by decide +kernel

/-- D2 is next in hold mode, D8 with an image that advances the rollback counter and one that does not, and a channel of LPDDR5X fails. -/
theorem test_ladder_hypotheses :
    (let s := strapped 2 0 (ladder 2); s.bootMode = 2 ∧ s.nextDomain = 2 ∧ s.releaseReady 2 = true ∧ (ladder 2).bootMode ≠ 2)
    ∧ (let s := { (ladder 8).setF .bootImage Fld.bootImageSvn 5 with sys := { (ladder 8).sys with imageFlags := 1 } }
       s.sys.imageFlags % 2 = 1 ∧ s.sys.fuses.rollback < s.rf .bootImage Fld.bootImageSvn ∧ (ladder 8).sys.imageFlags % 2 = 0
         ∧ (ladder 8).sys.secretLocked = false)
    ∧ (let s := (released 4 State.reset).setF (.lpmcPop 0) Fld.lpmcPopChannels 3; s.lpHas 1 = true ∧ s.lpHas 2 = false) := by decide +kernel

/-- A core that runs is asked to reset (R375). -/
theorem test_core_reset_hypotheses :
    unitOf 387 = .core 3 ∧ (unitIn 387 0).coreRuns 3 = true ∧ (unitIn 387 0).unitState 387 = 0 ∧ (unitIn 387 0).triggers Cls.coreStopped = false := by
  decide +kernel

/-- FREEZE_N with the root PLL locked, not locked after D1's release, and before it (R404, R441). -/
theorem test_freeze_pin_hypotheses :
    ((released 2 State.reset).setF .clkStatus Fld.clkStatusRootLock 1).rf .clkStatus Fld.clkStatusRootLock = 1
    ∧ (let s := released 2 State.reset; s.rf .clkStatus Fld.clkStatusRootLock ≠ 1 ∧ s.released 1 = true ∧ s.frozen = false)
    ∧ (State.reset.rf .clkStatus Fld.clkStatusRootLock ≠ 1 ∧ State.reset.released 1 = false) := by decide +kernel

/-- A clock that has been LOCKED for a second without a commit, and for less; a second that passes at the next edge, has just passed, or does
neither; a slew committed in the same BCLK; fewer temperatures than sensors (R415, R416, R417, R420). -/
theorem test_second_hypotheses :
    let locked (n : Nat) : State := let s := (State.reset.setF .timeStatus Fld.timeStatusState 2).aset .timeCfg 0; { s with sys := { s.sys with sinceCommit := n } }
    (locked 174999999).clockState = 2
      ∧ 175000000 * max 1 ((locked 174999999).af .timeCfg Fld.timeCfgHoldoverS) ≤ (locked 174999999).sys.sinceCommit + 1
      ∧ (locked 174999998).sys.sinceCommit + 1 < 175000000 * max 1 ((locked 174999998).af .timeCfg Fld.timeCfgHoldoverS)
      ∧ ({ inRun with stn := 10 ^ 9 * 2 ^ 40 - 1 } : State).ppsNear = true ∧ ({ inRun with stn := 10 ^ 9 * 2 ^ 40 } : State).ppsNear = true
      ∧ inRun.ppsNear = false ∧ (after (exec .timeCommit State.reset)).sys.slewNew = true ∧ State.reset.sys.slewNew = false
      ∧ ([] : List W16).length ≤ 55 ∧ [(3 : W16)][0]? = some 3
      ∧ inRun.second < (2000000000 : W64).toNat / 10 ^ 9 := by decide +kernel

/-- The boundary register has a cell for each contact that R444 gives one. -/
theorem test_boundary_length : boundaryCells.length = boundaryLength := by decide +kernel

end Sys2Proof.Tests
end

section
/-! Registers: the bits of a register by the access codes of its fields (R4, R7), what one access reads and writes of them (R6, R9, R11),
and the accesses that are discarded with a record (R383). -/

namespace Sys2Proof.Machine

/-! ## The fields of a register -/

/-- A field holds bit `j`. -/
def holdsBit (j : Nat) (f : FieldDesc) : Bool := f.lo ≤ j && j < f.lo + f.width

/-- The fields of a list lie one above the other, from bit `b` on. -/
def fieldsRise : Nat → List FieldDesc → Bool
  | _, [] => true
  | b, f :: l => b ≤ f.lo && fieldsRise (f.lo + f.width) l

/-- The fields of every register lie one above the other. -/
theorem fieldsRise_fields (r : Reg) : fieldsRise 0 r.fields = true := by cases r <;> rfl

/-- No field of a rising list holds a bit below its first. -/
theorem holdsBit_eq_false_of_lt {b j : Nat} {l : List FieldDesc} (h : fieldsRise b l = true) (hj : j < b) : ∀ f ∈ l, holdsBit j f = false := by
  induction l generalizing b with
  | nil => simp
  | cons g l ih =>
    simp only [fieldsRise, Bool.and_eq_true, decide_eq_true_eq] at h
    intro f hf
    rcases List.mem_cons.1 hf with rfl | hf
    · simp only [holdsBit, Bool.and_eq_false_iff, decide_eq_false_iff_not]; omega
    · exact ih h.2 (by omega) f hf

/-- Where the fields rise, at most one holds a bit: some field that holds it satisfies `p` exactly if the first one does. -/
theorem any_holdsBit_eq_find? (p : Access → Bool) (j b : Nat) (l : List FieldDesc) (h : fieldsRise b l = true) :
    l.any (fun f => p f.acc && holdsBit j f) = ((l.find? (holdsBit j)).map (fun f => f.acc)).any p := by
  induction l generalizing b with
  | nil => rfl
  | cons f l ih =>
    simp only [fieldsRise, Bool.and_eq_true, decide_eq_true_eq] at h
    cases hf : holdsBit j f with
    | false => simp [hf, ih _ h.2]
    | true =>
      have hlt : j < f.lo + f.width := by
        simp only [holdsBit, Bool.and_eq_true, decide_eq_true_eq] at hf; exact hf.2
      have hrest : l.any (fun g => p g.acc && holdsBit j g) = false := by
        simp only [List.any_eq_false]
        intro g hg
        simp [holdsBit_eq_false_of_lt h.2 hlt g hg]
      simp [hf, hrest]

/-- A field's mask has the bits that the field holds. -/
theorem getLsbD_fieldMask (f : FieldDesc) {j : Nat} (hj : j < 64) :
    (BitVec.ofNat 64 ((2 ^ f.width - 1) * 2 ^ f.lo)).getLsbD j = holdsBit j f := by
  simp only [BitVec.getLsbD_ofNat, hj, decide_true, Bool.true_and, Nat.testBit_mul_two_pow, Nat.testBit_two_pow_sub_one, holdsBit]
  by_cases h : f.lo ≤ j
  · simp only [h, decide_true, Bool.true_and, decide_eq_decide]; omega
  · simp [h]

/-- A mask of fields has the bits of the fields that satisfy `p`, beside those that it started with. -/
theorem getLsbD_foldl_mask (p : FieldDesc → Bool) {j : Nat} (hj : j < 64) (l : List FieldDesc) (m : BitVec 64) :
    (l.foldl (fun m f => if p f then m ||| BitVec.ofNat 64 ((2 ^ f.width - 1) * 2 ^ f.lo) else m) m).getLsbD j
      = (m.getLsbD j || l.any (fun f => p f && holdsBit j f)) := by
  induction l generalizing m with
  | nil => simp
  | cons f l ih =>
    rw [List.foldl_cons, ih, List.any_cons]
    cases hp : p f with
    | false => simp
    | true => simp only [if_true, BitVec.getLsbD_or, getLsbD_fieldMask f hj, Bool.true_and, Bool.or_assoc]

/-- The access code of a bit is that of the first field that holds it. -/
theorem regBit_eq (r : Reg) (j : Nat) : regBit r j = (r.fields.find? (holdsBit j)).map (fun f => f.acc) := rfl

/-- The mask of the fields with certain access codes has the bits whose access code is one of them. -/
theorem getLsbD_maskWhere (r : Reg) (p : Access → Bool) {j : Nat} (hj : j < 64) :
    (r.maskWhere (fun f => p f.acc)).getLsbD j = (regBit r j).any p := by
  unfold Reg.maskWhere
  rw [getLsbD_foldl_mask _ hj, any_holdsBit_eq_find? p j 0 _ (fieldsRise_fields r), ← regBit_eq]
  simp

theorem getLsbD_rwMask (r : Reg) {j : Nat} (hj : j < 64) : r.rwMask.getLsbD j = (regBit r j).any (· == .rw) :=
  getLsbD_maskWhere r (· == .rw) hj

theorem getLsbD_w1cMask (r : Reg) {j : Nat} (hj : j < 64) : r.w1cMask.getLsbD j = (regBit r j).any (· == .w1c) :=
  getLsbD_maskWhere r (· == .w1c) hj

/-! ## The bits that one access carries (R6) -/

/-- A regular access is of 8 bytes at a register, or of 4 bytes at one of its halves. -/
theorem regular_cases {addr size : Nat} (h : irregularSize addr size = false) :
    size = 8 ∨ (size = 4 ∧ addr % 8 = 0) ∨ (size = 4 ∧ addr % 8 = 4) := by
  simp only [irregularSize, Bool.not_eq_false', Bool.or_eq_true, Bool.and_eq_true, beq_iff_eq] at h
  omega

theorem getLsbD_lowHalf : ∀ j < 64, (0xFFFFFFFF#64).getLsbD j = decide (j < 32) := by decide

theorem getLsbD_highHalf : ∀ j < 64, (0xFFFFFFFF00000000#64).getLsbD j = decide (32 ≤ j) := by decide

theorem getLsbD_whole : ∀ j < 64, (0xFFFFFFFFFFFFFFFF#64).getLsbD j = true := by decide

/-- The mask of an access has the bits that the access carries. -/
theorem getLsbD_halfMask {addr size j : Nat} (h : irregularSize addr size = false) (hj : j < 64) :
    (halfMask addr size).getLsbD j = carries addr size j := by
  unfold halfMask carries
  rcases regular_cases h with rfl | ⟨rfl, ha⟩ | ⟨rfl, ha⟩
  · simp [getLsbD_whole j hj]
  · rw [if_neg (by decide), if_pos ha, getLsbD_lowHalf j hj, show addr / 4 % 2 = 0 by omega]
    simp only [Nat.reduceBEq, Bool.false_or]
    rw [Bool.eq_iff_iff]; simp only [decide_eq_true_eq, beq_iff_eq]; omega
  · rw [if_neg (by decide), if_neg (by omega), getLsbD_highHalf j hj, show addr / 4 % 2 = 1 by omega]
    simp only [Nat.reduceBEq, Bool.false_or]
    rw [Bool.eq_iff_iff]; simp only [decide_eq_true_eq, beq_iff_eq]; omega

/-- The data of a write of a half come to lie in that half. -/
theorem getLsbD_placed {addr size j : Nat} (data : W64) (h : irregularSize addr size = false) (hj : j < 64)
    (hc : carries addr size j = true) : (placed addr size data).getLsbD j = data.getLsbD (if size = 8 then j else j % 32) := by
  unfold placed
  unfold carries at hc
  rcases regular_cases h with rfl | ⟨rfl, ha⟩ | ⟨rfl, ha⟩
  · simp
  · simp only [show addr / 4 % 2 = 0 by omega, Nat.reduceBEq, Bool.false_or, beq_iff_eq] at hc
    have hlt : j < 32 := by omega
    simp [ha, getLsbD_lowHalf j hj, hlt, Nat.mod_eq_of_lt hlt]
  · simp only [show addr / 4 % 2 = 1 by omega, Nat.reduceBEq, Bool.false_or, beq_iff_eq] at hc
    have hge : ¬ j < 32 := by omega
    rw [if_neg (by decide), if_neg (by omega), if_neg (by decide), BitVec.getLsbD_shiftLeft, show j % 32 = j - 32 by omega]
    simp [hj, hge]

/-! ## A plain write (R7) -/

/-- A bit of a register after a plain write of the bits `m` with `v`. -/
theorem getLsbD_plainValue (r : Reg) (old m v : W64) {j : Nat} (hj : j < 64) :
    (plainValue r old m v).getLsbD j =
      if m.getLsbD j = false then old.getLsbD j
      else if regBit r j = some .rw then v.getLsbD j
      else if regBit r j = some .w1c then old.getLsbD j && !v.getLsbD j
      else old.getLsbD j := by
  simp only [plainValue, BitVec.getLsbD_and, BitVec.getLsbD_or, BitVec.getLsbD_not, hj, decide_true, Bool.true_and,
    getLsbD_rwMask r hj, getLsbD_w1cMask r hj]
  cases m.getLsbD j with
  | false => simp
  | true =>
    cases regBit r j with
    | none => simp
    | some c => cases c <;> simp [beq_eq_decide]

/-- A write of a register that starts no action is a plain write. -/
theorem writeAction_plain (s : State) (w : Who) (r : Reg) (addr size : Nat) (data : W64) (h : startsAction r = false) :
    s.writeAction w r addr size data = s.plainWrite r addr size data := by
  cases r <;> cases h <;> rfl

/-! ## Accesses to places of the register regions -/

/-- An offset of a register region is in a row of the local map (R251). -/
theorem isAbsent_of_regPlace {addr : Nat} (h : (∃ r, regPlace addr = .reg r) ∨ regPlace addr = .reserved) : isAbsent addr = false := by
  unfold isAbsent
  unfold regPlace at h
  cases hr : regionOf addr <;> simp_all

/-- An access to an offset of the local map gives its core no exception (R309). -/
theorem coreAbsent_of_present {addr : Nat} (s : State) (a : Agent) (h : isAbsent addr = false) : s.coreAbsent a addr = s := by
  cases a <;> simp [State.coreAbsent, h]

/-- No agent's plain access is an atomic one. -/
theorem coreAtomic_false (a : Agent) : coreAtomic a false = none := by cases a <;> rfl

/-- A write of an agent that acts, at an offset of the register regions. -/
theorem exec_registerWrite {s : State} {a : Agent} {addr : BitVec 48} (size : BitVec 4) (data : W64)
    (hs : s.reachable a addr.toNat = true) (hp : (∃ r, regPlace addr.toNat = .reg r) ∨ regPlace addr.toNat = .reserved) :
    exec (.registerWrite a addr ⟨size, false⟩ data) s = .next (s.csrWrite a addr.toNat size.toNat data) := by
  change execRegisterWrite a addr ⟨size, false⟩ data s = _
  simp only [execRegisterWrite, hs, Bool.not_true, Bool.false_eq_true, if_false, coreAtomic_false,
    coreAbsent_of_present _ a (isAbsent_of_regPlace hp)]

/-- A read of an agent that acts, at an offset of the register regions. -/
theorem exec_registerReadClear {s : State} {a : Agent} {addr : BitVec 48} (size : BitVec 4)
    (hs : s.reachable a addr.toNat = true) (hp : (∃ r, regPlace addr.toNat = .reg r) ∨ regPlace addr.toNat = .reserved) :
    exec (.registerReadClear a addr ⟨size, false⟩) s = .next (s.readTo (Agent.who a) addr.toNat size.toNat .agent) := by
  change execRegisterReadClear a addr ⟨size, false⟩ s = _
  simp only [execRegisterReadClear, hs, Bool.not_true, Bool.false_eq_true, if_false, coreAtomic_false,
    coreAbsent_of_present _ a (isAbsent_of_regPlace hp)]

/-- A regular write of a register, of a block that the agent may write, has the effect of the register's own row. -/
theorem csrWrite_reg {s : State} {a : Agent} {addr size : Nat} {r : Reg} (data : W64) (hp : regPlace addr = .reg r)
    (hz : irregularSize addr size = false) (hb : basecampOnly addr = false ∨ a = .basecamp) :
    s.csrWrite a addr size data = s.writeAction (Agent.who a) r addr size data := by
  have hb' : (basecampOnly addr && !(a == .basecamp)) = false := by rcases hb with hb | hb <;> simp [hb]
  simp [State.csrWrite, State.regWrite, hp, hz, hb']

/-- A write is discarded with a record: of another width or alignment, of a reserved offset, or of a block that only the basecamp controller
writes (R6, R383). -/
theorem csrWrite_discarded {s : State} {a : Agent} {addr size : Nat} (data : W64)
    (h : (∃ r, regPlace addr = .reg r ∧ (irregularSize addr size = true ∨ (basecampOnly addr = true ∧ a ≠ .basecamp)))
      ∨ regPlace addr = .reserved) :
    s.csrWrite a addr size data = s.report (csrRec (Agent.who a) addr) := by
  unfold State.csrWrite State.regWrite
  rcases h with ⟨r, hp, hz | ⟨hb, ha⟩⟩ | hp
  · simp [hp, hz]
  · simp [hp, hb, ha]
  · simp [hp]

/-- A read of another width or alignment, or of a reserved offset, reads as zero and leaves a record (R6). -/
theorem readReg_discarded {s : State} {w : Who} {addr size : Nat} (reply : Reply)
    (h : (∃ r, regPlace addr = .reg r ∧ irregularSize addr size = true) ∨ regPlace addr = .reserved) :
    s.readReg w addr size reply = (s.report (csrRec w addr), .value 0) := by
  unfold State.readReg
  rcases h with ⟨r, hp, hz⟩ | hp
  · simp [hp, hz]
  · simp [hp]

/-- A record of a class that freezes nothing is under way to the collector, stamped with the station time (R394). -/
theorem report_noted {s : State} {x : FaultRec} (hf : s.frozen = false) (ht : s.triggers x.cls = false) :
    s.report x = { s with flt := { s.flt with net := s.flt.net ++ [{ x with time := s.now }] } } := by
  simp [State.report, hf, ht]

/-- Settles O17: a plain write changes a register bit by bit as the masks of its fields say, and a discarded access leaves its record alone. -/
theorem registerWritesComplete : Obligations.RegisterWritesComplete := by
  unfold Obligations.RegisterWritesComplete
  refine ⟨?_, ?_⟩
  · intro s a addr size data r hs hp hz hb hr
    refine ⟨_, exec_registerWrite size data hs (.inl ⟨r, hp⟩), ?_⟩
    rw [csrWrite_reg data hp hz hb, writeAction_plain _ _ _ _ _ _ hr, State.plainWrite]
    refine ⟨fun j hj => ?_, fun r' hr' => rget_rset_ne _ _ _ _ hr', fun r' => rfl, rfl⟩
    rw [rget_rset_same, getLsbD_plainValue r _ _ _ hj, getLsbD_halfMask hz hj]
    cases hc : carries addr.toNat size.toNat j with
    | false => rfl
    | true =>
      rw [getLsbD_placed data hz hj hc]
      cases regBit r j with
      | none => rfl
      | some c => cases c <;> rfl
  · intro s a addr size data hs hf ht hd hp noted
    have hrec (w : Who) : s.report (csrRec w addr.toNat)
        = { s with flt := { s.flt with net := s.flt.net ++ [{ csrRec w addr.toNat with time := s.now }] } } := report_noted hf ht
    refine ⟨⟨_, exec_registerWrite size data hs hp, ?_⟩, fun hr => ⟨_, exec_registerReadClear size hs hp, ?_⟩⟩
    · rw [csrWrite_discarded data (hp.imp_left (fun ⟨r, h⟩ => ⟨r, h, hd r h⟩)), hrec]
      exact ⟨⟨_, rfl, rfl, rfl, rfl⟩, rfl⟩
    · have hdis : (∃ r, regPlace addr.toNat = .reg r ∧ irregularSize addr.toNat size.toNat = true) ∨ regPlace addr.toNat = .reserved := by
        rcases hp with ⟨r, h⟩ | h
        · exact .inl ⟨r, h, hr.resolve_right (by simp [h])⟩
        · exact .inr h
      rw [State.readTo, readReg_discarded .agent hdis, hrec]
      exact ⟨⟨_, rfl, rfl, rfl, rfl⟩, rfl, rfl⟩

/-- Tile 0 with D0 to D8 released and a word of v0 in which a single bit is wrong (R34). -/
def correctableLane : State :=
  { State.reset with csr := [(.rstDomains, 0x1FF)], tiles := [(0, { Tile.reset with vecCe := [0] })] }

/-- Refutes O18: a read of VEC.VREG_DATA over a word with a single-bit error is no plain read (R34, R384): it counts the error in
TILE.SRAM_CE_COUNT and corrects the word, so that more changes than the register that is read. -/
theorem not_registerReadsComplete : ¬ Obligations.RegisterReadsComplete := by
  unfold Obligations.RegisterReadsComplete
  intro h
  have hp : regPlace (0xF0002000E400#48).toNat = .reg (.vecVregData 0 0) := by decide +kernel
  have hs : correctableLane.reachable .basecamp (0xF0002000E400#48).toNat = true := by decide +kernel
  obtain ⟨t, ht, -, -, hother, -⟩ := h correctableLane .basecamp 0xF0002000E400 8 (.vecVregData 0 0) hs hp (by decide)
    (by simp) (by simp)
  obtain rfl : _ = t := Host.Outcome.next.inj ((exec_registerReadClear 8 hs (.inl ⟨_, hp⟩)).symm.trans ht)
  exact absurd (hother (.tileSramCeCount 0) (by simp)) (by decide +kernel)

end Sys2Proof.Machine
end

section
/-! The state after reset, and the commits of the governor and of a reduction job (R11, R115, R141, R142). -/

namespace Sys2Proof.Machine

/-- Settles O58: every table of the reset state is empty, so that each entry reads as its default; the cause in the latch is its reset value. -/
theorem resetState : Obligations.ResetState := by
  unfold Obligations.ResetState
  refine ⟨by decide +kernel, rfl, rfl, fun _ => rfl, fun _ => ⟨rfl, rfl⟩, rfl, rfl, fun _ => rfl, fun _ => rfl, rfl⟩

/-! ## Commits -/

@[simp] theorem rget_aset (s : State) (r r' : Reg) (v : W64) : (s.aset r v).rget r' = s.rget r' := rfl

@[simp] theorem rget_commitReg (s : State) (r r' : Reg) : (s.commitReg r).rget r' = s.rget r' := rfl

@[simp] theorem aget_rset (s : State) (r r' : Reg) (v : W64) : (s.rset r v).aget r' = s.aget r' := rfl

@[simp] theorem aget_setF (s : State) (r r' : Reg) (f : Fld) (x : Nat) : (s.setF r f x).aget r' = s.aget r' := rfl

/-- A commit puts a register's staged value in force, and no other register's (R11). -/
theorem aget_commitReg (s : State) (r r' : Reg) : (s.commitReg r).aget r' = if r' = r then s.rget r else s.aget r' := aget_aset _ _ _ _

/-- A field of a register that has just been given a value. -/
@[simp] theorem rf_rset_same (s : State) (r : Reg) (f : Fld) (v : W64) : (s.rset r v).rf r f = fieldOf v f := by
  simp [State.rf]

/-! ## Jobs -/

/-- Job `i` after one is stored. -/
theorem job_setJob (s : State) (i j : Nat) (x : Job) : (s.setJob j x).job i = if i = j then x else s.job i := kget_nset _ _ _ _ _

@[simp] theorem rget_setJob (s : State) (j : Nat) (x : Job) (r : Reg) : (s.setJob j x).rget r = s.rget r := rfl

@[simp] theorem rf_setJob (s : State) (j : Nat) (x : Job) (r : Reg) (f : Fld) : (s.setJob j x).rf r f = s.rf r f := rfl

@[simp] theorem aget_setJob (s : State) (j : Nat) (x : Job) (r : Reg) : (s.setJob j x).aget r = s.aget r := rfl

/-- Every code of R141 fits in bind_error. -/
theorem bindError_lt (s : State) (g : Binding) : s.bindError g < 16 := by
  unfold State.bindError
  repeat' split
  all_goals decide

/-- A commit that is refused changes bind_error alone (R141). -/
theorem setBindError_spec (s : State) (j code : Nat) (h : code < 16) :
    (s.setBindError j code).rf (.redJobStatus j) Fld.redJobStatusBindError = code
      ∧ (∀ r, r ≠ .redJobStatus j → (s.setBindError j code).rget r = s.rget r) ∧ SameButCsr s (s.setBindError j code) :=
  ⟨(rf_setF_same _ _ _ _ (by decide)).trans (Nat.mod_eq_of_lt h), fun _ hr => rget_setF_ne _ _ _ _ _ hr, rfl⟩

/-- A commit with buckets open is refused with error 7. -/
theorem jobCommit_open {s : State} {j : Nat} (h : (s.job j).buckets ≠ []) : s.jobCommit j = s.setBindError j 7 := by
  simp [State.jobCommit, h]

/-- A commit with valid = 0 unbinds a job without open buckets. -/
theorem jobCommit_unbind {s : State} {j : Nat} (hb : (s.job j).buckets = []) (hv : s.rf (.redJobCfg j) Fld.redJobCfgValid = 0) :
    s.jobCommit j = s.unbindJob j := by
  simp [State.jobCommit, hb, hv]

/-- A commit with valid = 1, whose block could be read, binds the job if the block passes the checks. -/
theorem jobCommit_bind {s u : State} {j : Nat} {g : Binding} (hb : (s.job j).buckets = [])
    (hv : s.rf (.redJobCfg j) Fld.redJobCfgValid ≠ 0) (hr : s.readJobBlock j (s.rf (.redJobCfg j) Fld.redJobCfgBlock * 64) = (u, some g)) :
    s.jobCommit j = if u.bindError g ≠ 0 then u.setBindError j (u.bindError g) else u.bindJob j g := by
  simp [State.jobCommit, hb, hv, hr]

/-- RED.JOB_STATUS of a bound job: bound and epoch, every other field zero. -/
theorem rget_bindJob_status (s : State) (j : Nat) (g : Binding) : (s.bindJob j g).rget (.redJobStatus j)
    = withField (withField 0 Fld.redJobStatusBound 1) Fld.redJobStatusEpoch g.epoch := by
  simp [State.bindJob, rget_rset, rget_setF]

/-- What a passing bind shows (R141, R142). -/
theorem bindJob_shows (s : State) (j : Nat) (g : Binding) (hg : g.epoch < 256) :
    (s.bindJob j g).rf (.redJobStatus j) Fld.redJobStatusBound = 1 ∧ (s.bindJob j g).rf (.redJobStatus j) Fld.redJobStatusEpoch = g.epoch
      ∧ (s.bindJob j g).rf (.redJobStatus j) Fld.redJobStatusNextSequence = 0
      ∧ (s.bindJob j g).rf (.redJobStatus j) Fld.redJobStatusBroken = 0
      ∧ (s.bindJob j g).rf (.redJobStatus j) Fld.redJobStatusBindError = 0 := by
  have hother (f : Fld) (hd : f.lo + f.width ≤ 8 ∨ 16 ≤ f.lo) :
      (s.bindJob j g).rf (.redJobStatus j) f = fieldOf (withField 0 Fld.redJobStatusBound 1) f := by
    rw [State.rf, rget_bindJob_status]
    exact fieldOf_withField_ne _ _ _ _ (by decide) hd
  refine ⟨(hother _ (by decide)).trans (by decide +kernel), ?_, (hother _ (by decide)).trans (by decide +kernel),
    (hother _ (by decide)).trans (by decide +kernel), (hother _ (by decide)).trans (by decide +kernel)⟩
  rw [State.rf, rget_bindJob_status, fieldOf_withField _ _ _ (by decide)]
  exact Nat.mod_eq_of_lt hg

/-- RED.JOB_STATUS of a job that has been unbound is zero (R141). -/
theorem rget_unbindJob_status (s : State) (j : Nat) : (s.unbindJob j).rget (.redJobStatus j) = 0 := by
  simp [State.unbindJob, rget_setF]

/-- A command of a unit that runs completes with its effect. -/
theorem completes_clocked {i : Instr} {s : State} {d : Nat} {f : State → State} {p : State → Prop} (hi : exec i s = clocked d s f)
    (hs : s.runs d = true) (h : p (f s)) : Completes i s p :=
  ⟨_, hi.trans (clocked_runs hs f), h⟩

/-- A write of JOB_COMMIT while the engines of D4 run. -/
theorem completes_jobCommit {s : State} {j : JobId} {p : State → Prop} (hs : s.runs 4 = true) (h : p (s.jobCommit j)) :
    Completes (.jobCommit j) s p := completes_clocked (f := fun s => s.jobCommit j) rfl hs h

/-- Settles O19: GOV_COMMIT is three commits of registers, and the outcomes of JOB_COMMIT are those of `jobCommit_open`, `jobCommit_unbind`
and `jobCommit_bind`. -/
theorem reductionCommitsComplete : Obligations.ReductionCommitsComplete := by
  unfold Obligations.ReductionCommitsComplete
  refine ⟨fun s hs => ?_, fun s j hs hv => ⟨fun hb => ?_, fun hb => ?_⟩, fun s j hs _ hb => ?_, fun s u j g hs hv hb hr =>
    ⟨fun he => ?_, fun he hg => ?_⟩⟩
  · refine completes_clocked rfl hs ⟨?_, fun r hr => ?_, rfl⟩
    · simp [State.govCommit, aget_commitReg]
    · simp only [List.mem_cons, List.not_mem_nil, or_false, not_or] at hr
      simp [State.govCommit, aget_commitReg, hr]
  · refine completes_jobCommit hs ?_
    rw [jobCommit_open hb]
    exact setBindError_spec s j 7 (by decide)
  · refine completes_jobCommit hs ?_
    rw [jobCommit_unbind hb hv]
    have hfield (f : Fld) : (s.unbindJob j).rf (.redJobStatus j) f = 0 := by simp [State.rf, rget_unbindJob_status, fieldOf, bitsOf]
    refine ⟨?_, hfield _, hfield _, hfield _, hfield _, ?_, fun i hi => ?_, rfl⟩
    · exact congrArg Job.binding ((job_setJob _ j j Job.reset).trans (if_pos rfl))
    · simp [State.unbindJob, aget_commitReg]
    · exact (job_setJob _ i j _).trans (if_neg hi)
  · refine completes_jobCommit hs ?_
    rw [jobCommit_open hb]
    exact setBindError_spec s j 7 (by decide)
  · refine completes_jobCommit hs ?_
    rw [jobCommit_bind hb hv hr, if_pos he]
    exact setBindError_spec u j _ (bindError_lt u g)
  · refine completes_jobCommit hs ?_
    rw [jobCommit_bind hb hv hr, if_neg (by simp [he])]
    obtain ⟨hbound, hepoch, hnext, hbroken, herror⟩ := bindJob_shows u j g hg
    refine ⟨?_, hbound, hepoch, hnext, hbroken, herror, ?_, ?_, fun i hi => ?_, rfl⟩
    · simp [State.bindJob, job_setJob]
    · simp [State.bindJob]
    · simp [State.bindJob, aget_commitReg]
    · exact (job_setJob _ i j _).trans (if_neg hi)

end Sys2Proof.Machine
end

section
/-! Discovery: HELLOs, the election of a root, the commit of the staged routes and the reassignment (R296 to R303). -/

namespace Sys2Proof

section
variable {κ β : Type} [DecidableEq κ]

/-- A key that no entry has reads as the default. -/
theorem kget_of_notMem_keys (d : β) (m : List (κ × β)) (k : κ) (h : k ∉ m.map Prod.fst) : kget d m k = d := by
  induction m with
  | nil => rfl
  | cons e m ih =>
    simp only [List.map_cons, List.mem_cons, not_or] at h
    rw [kget, if_neg (Ne.symm h.1), ih h.2]

/-- What a key holds in the entries whose keys pass a test: what it held, if it passes. -/
theorem kget_filter_keys (d : β) (p : κ → Bool) (m : List (κ × β)) (k : κ) :
    kget d (m.filter (fun e => p e.1)) k = if p k then kget d m k else d := by
  induction m with
  | nil => simp [kget]
  | cons e m ih =>
    obtain ⟨a, v⟩ := e
    rw [List.filter_cons]
    by_cases hk : a = k
    · subst hk; cases hp : p a <;> simp [kget, ih, hp]
    · cases p a <;> simp [kget, hk, ih]

end

namespace Machine

/-! ## Fields of registers -/

/-- A counting field that was added to. -/
theorem rf_bumpF_same (s : State) (r : Reg) (f : Fld) (k : Nat) (h : f.lo + f.width ≤ 64) :
    (s.bumpF r f k).rf r f = satAdd f.width (s.rf r f) k := by
  rw [State.bumpF, rf_setF_same _ _ _ _ h]
  refine Nat.mod_eq_of_lt ?_
  have : 0 < 2 ^ f.width := by positivity
  unfold satAdd; omega

/-! What does not write registers leaves them. -/
theorem rget_setPort (s : State) (p : Nat) (x : Port) (r : Reg) : (s.setPort p x).rget r = s.rget r := rfl
theorem rget_withFab (s : State) (x : Fabric) (r : Reg) : ({ s with fab := x } : State).rget r = s.rget r := rfl
theorem rget_withFlt (s : State) (x : Collector) (r : Reg) : ({ s with flt := x } : State).rget r = s.rget r := rfl
theorem port_setF (s : State) (r : Reg) (f : Fld) (x p : Nat) : (s.setF r f x).port p = s.port p := rfl
theorem port_rset (s : State) (r : Reg) (v : W64) (p : Nat) : (s.rset r v).port p = s.port p := rfl

/-- A field of a register that is left as it was. -/
theorem rf_congr {s t : State} {r : Reg} (h : t.rget r = s.rget r) (f : Fld) : t.rf r f = s.rf r f := by rw [State.rf, h, State.rf]

/-! ## HELLO (R297) -/

/-- The times in a row that a port has heard one neighbour echo it, with a HELLO that says `i`. -/
def State.echoCount (s : State) (p : Nat) (i : HelloInfo) : Nat :=
  let x := s.port p
  if i.echoValid && i.echoSerial == s.serial && i.echoPort == p then
    (if x.heard && x.peerSerial == i.serial && x.peerPort == i.port then x.helloCount + 1 else 1)
  else 0

/-- A port has noted what a HELLO says of its neighbour. -/
def State.noteHello (s : State) (p : Nat) (i : HelloInfo) : State :=
  (s.setPort p { s.port p with
    heard := true, peerSerial := i.serial, peerPort := i.port, helloCount := s.echoCount p i
    peerRoot := i.root, peerDist := i.dist, peerRootValid := i.rootValid }).showPeer p i

/-- A HELLO at a port that hears has the effect of what it says. -/
theorem exec_hello {s : State} {p : PortId} {flit : BitVec 2048} (corrected : W16) (hs : s.runs 7 = true) (hh : s.portHears p = true)
    (hc : flitCrcOk flit = true) (ht : flitType flit = 2) :
    exec (.hello p flit corrected false) s
      = .next (((s.countFec p corrected.toNat false).takeHeader p flit).hello p (helloOf flit)) := by
  change execHello p flit corrected false s = _
  rw [execHello, clocked_runs hs]
  simp [hh, hc, ht]

/-- What shows the neighbour leaves every register but PORT_PEER and PORT_STATUS of the port. -/
theorem rget_showPeer_ne (s : State) (p : Nat) (i : HelloInfo) {r : Reg} (hp : r ≠ .fabPortPeer p) (hs : r ≠ .fabPortStatus p) :
    (s.showPeer p i).rget r = s.rget r := by
  simp [State.showPeer, State.setB, rget_setF, rget_rset, hp, hs]

/-- FAB.PORT_PEER shows the neighbour's serial number. -/
theorem rget_showPeer_peer (s : State) (p : Nat) (i : HelloInfo) : (s.showPeer p i).rget (.fabPortPeer p) = i.serial := by
  simp [State.showPeer, State.setB, rget_setF]

/-- What shows the neighbour leaves the state of every port. -/
theorem portState_showPeer (s : State) (p q : Nat) (i : HelloInfo) : (s.showPeer p i).portState q = s.portState q := by
  unfold State.portState State.showPeer State.setB
  rw [rf_setF_ne _ _ _ _ _ _ (by decide) (.inr (by decide)), rf_setF_ne _ _ _ _ _ _ (by decide) (.inr (by decide)),
    rf_setF_ne _ _ _ _ _ _ (by decide) (.inr (by decide))]
  rw [rf_congr (rget_rset_ne _ _ _ _ (by simp))]

theorem port_showPeer (s : State) (p q : Nat) (i : HelloInfo) : (s.showPeer p i).port q = s.port q := by
  rw [State.showPeer, State.setB, port_setF, port_setF, port_setF, port_rset]

/-- Noting a HELLO leaves the state of every port. -/
theorem portState_noteHello (s : State) (p q : Nat) (i : HelloInfo) : (s.noteHello p i).portState q = s.portState q := by
  rw [State.noteHello, portState_showPeer, State.portState, rf_congr (rget_setPort _ _ _ _), State.portState]

/-- Noting a HELLO leaves the other ports. -/
theorem port_noteHello_ne (s : State) {p q : Nat} (i : HelloInfo) (h : q ≠ p) : (s.noteHello p i).port q = s.port q := by
  rw [State.noteHello, port_showPeer, port_setPort_ne _ _ _ _ h]

/-- What a port knows once it has noted a HELLO. -/
theorem port_noteHello_same (s : State) (p : Nat) (i : HelloInfo) : (s.noteHello p i).port p = { s.port p with
    heard := true, peerSerial := i.serial, peerPort := i.port, helloCount := s.echoCount p i
    peerRoot := i.root, peerDist := i.dist, peerRootValid := i.rootValid } := by
  rw [State.noteHello, port_showPeer, port_setPort_same]

/-- Noting a HELLO leaves the device ID. -/
theorem idValid_noteHello (s : State) (p : Nat) (i : HelloInfo) : (s.noteHello p i).idValid = s.idValid := by
  unfold State.idValid
  rw [State.noteHello, rf_congr (rget_showPeer_ne _ _ _ (by simp) (by simp)), rf_congr (rget_setPort _ _ _ _)]

/-- A HELLO without version 2 isolates the port (R298). -/
theorem hello_oldVersion (s : State) (p : Nat) {i : HelloInfo} (h : bitsOf i.versions 2 1 = 0) :
    s.hello p i = s.isolate p Cls.fabVersion := by simp [State.hello, h]

/-- A HELLO that offers no root, at a port in state HELLO that knows no neighbour yet, is noted, and the second echo brings the port UP. -/
theorem hello_unknownPeer {s : State} {p : Nat} {i : HelloInfo} (hv : bitsOf i.versions 2 1 = 1) (hr : i.rootValid = false)
    (hs : s.portState p = 2) (hk : (s.port p).knownPeer = false) :
    s.hello p i = if 2 ≤ s.echoCount p i then ((s.noteHello p i).comeUp p i).pumpPort p else s.noteHello p i := by
  have hs' : (s.noteHello p i).portState p = 2 := (portState_noteHello s p p i).trans hs
  have hunfold : s.hello p i = if (s.noteHello p i).portState p = 2 then
      (if (s.port p).knownPeer && !((s.port p).firstPeer == i.serial && (s.port p).firstPort == i.port) then
        (s.noteHello p i).isolate p Cls.fabTopology
      else if 2 ≤ s.echoCount p i then ((s.noteHello p i).comeUp p i).pumpPort p else s.noteHello p i)
      else s.noteHello p i := by
    simp [State.hello, hv, hr, State.noteHello, State.echoCount]
  rw [hunfold, if_pos hs', hk, Bool.false_and, if_neg (by decide)]

/-- A port that has nothing to send sends nothing. -/
theorem pumpPort_of_empty {s : State} {p : Nat} (h : (s.port p).outQ = []) : s.pumpPort p = s := by simp [State.pumpPort, h, State.pump]

/-- A port that comes UP at a device without an ID, next to a neighbour that offers no root (R297). -/
def State.portComesUp (s : State) (p : Nat) (i : HelloInfo) : State :=
  ((s.setPortState p 3).setF (.fabPortStatus p) Fld.fabPortStatusVersion 2).setPort p
    { s.port p with knownPeer := true, firstPeer := i.serial, firstPort := i.port, replays := 0 }

/-- A port that comes UP leaves the other registers. -/
theorem rget_portComesUp_ne (s : State) (p : Nat) (i : HelloInfo) {r : Reg} (h : r ≠ .fabPortStatus p) :
    (s.portComesUp p i).rget r = s.rget r := by
  rw [State.portComesUp, rget_setPort, rget_setF_ne _ _ _ _ _ h, State.setPortState, rget_setF_ne _ _ _ _ _ h]

/-- A device without an ID, next to a neighbour that offers no root, only brings the port UP. -/
theorem comeUp_noRoot {s : State} {p : Nat} {i : HelloInfo} (hr : i.rootValid = false) (hi : s.idValid = false) :
    s.comeUp p i = s.portComesUp p i := by
  have hi' : (s.portComesUp p i).idValid = false := by
    rw [← hi, State.idValid, rf_congr (rget_portComesUp_ne _ _ _ (by simp)), State.idValid]
  unfold State.portComesUp at *
  simp [State.comeUp, hr, hi']

/-- A port that comes UP is in state UP. -/
theorem portState_portComesUp (s : State) (p : Nat) (i : HelloInfo) : (s.portComesUp p i).portState p = 3 := by
  rw [State.portComesUp, State.portState, rf_congr (rget_setPort _ _ _ _), rf_setF_ne _ _ _ _ _ _ (by decide) (.inr (by decide)),
    State.setPortState]
  exact (rf_setF_same _ _ _ _ (by decide)).trans (by decide)

/-- A port that comes UP runs version 2. -/
theorem version_portComesUp (s : State) (p : Nat) (i : HelloInfo) :
    (s.portComesUp p i).rf (.fabPortStatus p) Fld.fabPortStatusVersion = 2 := by
  rw [State.portComesUp, rf_congr (rget_setPort _ _ _ _)]
  exact (rf_setF_same _ _ _ _ (by decide)).trans (by decide)

/-- The second HELLO that echoes the port brings it UP with its first neighbour (R297). -/
theorem hello_comesUp {s : State} {p : Nat} {i : HelloInfo} (hv : bitsOf i.versions 2 1 = 1) (hr : i.rootValid = false)
    (hs : s.portState p = 2) (hk : (s.port p).knownPeer = false) (hi : s.idValid = false) (ho : (s.port p).outQ = [])
    (hc : 2 ≤ s.echoCount p i) : s.hello p i = (s.noteHello p i).portComesUp p i := by
  rw [hello_unknownPeer hv hr hs hk, if_pos hc, comeUp_noRoot hr ((idValid_noteHello s p i).trans hi)]
  apply pumpPort_of_empty
  rw [State.portComesUp, port_setPort_same, port_noteHello_same]
  exact ho

/-- A HELLO with an echo from the neighbour heard before counts. -/
theorem two_le_echoCount {s : State} {p : Nat} {i : HelloInfo} (he : (i.echoValid && i.echoSerial == s.serial && i.echoPort == p) = true)
    (ha : ((s.port p).heard && (s.port p).peerSerial == i.serial && (s.port p).peerPort == i.port) = true) (h1 : 1 ≤ (s.port p).helloCount) :
    2 ≤ s.echoCount p i := by
  rw [State.echoCount]; simp only [he, ha, if_true]; omega

/-- A HELLO without an echo starts the count again. -/
theorem echoCount_of_noEcho {s : State} {p : Nat} {i : HelloInfo}
    (he : (i.echoValid && i.echoSerial == s.serial && i.echoPort == p) = false) : s.echoCount p i = 0 := by
  rw [State.echoCount]; simp only [he, Bool.false_eq_true, if_false]

/-! ## The root (R299, R300) -/

/-- The first report that a root records is the only one. -/
theorem registered_record_first (s : State) (r : RegRep) (h : s.fab.registered = []) : (s.record r).fab.registered = [r] := by
  simp [State.record, h]

theorem rget_record (s : State) (r : RegRep) (x : Reg) : (s.record r).rget x = s.rget x := rfl

/-- The report of a device depends on its registers and ports, but of FAB.ID on what is beside `root`, and not on FAB.STATUS. -/
theorem ownRep_congr {s t : State} (hr : ∀ r, r ≠ .fabId → r ≠ .fabStatus → t.rget r = s.rget r) (hp : t.fab.ports = s.fab.ports)
    (hi : ∀ f : Fld, f.lo + f.width ≤ Fld.fabIdRoot.lo ∨ Fld.fabIdRoot.lo + Fld.fabIdRoot.width ≤ f.lo → t.rf .fabId f = s.rf .fabId f) :
    t.ownRep = s.ownRep := by
  have hserial : t.serial = s.serial := hr _ (by simp) (by simp)
  have hslot : t.boardSlot = s.boardSlot := congrArg (· % 64) (rf_congr (hr _ (by simp) (by simp)) _)
  have hport : t.port = s.port := by unfold State.port; rw [hp]
  have hup : t.portUp = s.portUp := funext fun p => congrArg (· == 3) (rf_congr (hr (.fabPortStatus p) (by simp) (by simp)) _)
  have hel : t.eligibleRoot = s.eligibleRoot := congrArg (· == 1) (hi _ (by decide))
  have hval : t.idValid = s.idValid := congrArg (· == 1) (hi _ (by decide))
  have hdev : t.devId = s.devId := hi _ (by decide)
  unfold State.ownRep State.ownLinks State.ports3
  rw [hserial, hslot, hport, hup, hel, hval, hdev]

/-- The device has declared itself root and has recorded no report yet (R299). -/
def State.declared (s : State) : State :=
  let t := (s.setF .fabId Fld.fabIdRoot 1).setPhase 2
  { t with fab := { t.fab with registered := [] } }

/-- An eligible device that is its own candidate declares itself root and records its own report. -/
theorem exec_rootDeclare {s : State} (hs : s.runs 7 = true) (he : s.eligibleRoot = true) (hc : s.fab.candidate = some s.serial)
    (hp : s.rf .fabStatus Fld.fabStatusPhase = 1) : exec .rootDeclare s = .next (s.declared.record s.declared.ownRep) := by
  change execRootDeclare s = _
  rw [execRootDeclare, clocked_runs hs]
  simp only [he, hc, hp, and_self, if_true]
  rfl

theorem rget_declared_ne (s : State) {r : Reg} (hi : r ≠ .fabId) (hs : r ≠ .fabStatus) : s.declared.rget r = s.rget r := by
  rw [State.declared, rget_withFab, State.setPhase, rget_setF_ne _ _ _ _ _ hs, rget_setF_ne _ _ _ _ _ hi]

/-- A field of FAB.ID of a device that has declared itself root. -/
theorem rf_declared_fabId (s : State) (f : Fld) : s.declared.rf .fabId f = (s.setF .fabId Fld.fabIdRoot 1).rf .fabId f := by
  rw [State.declared, rf_congr (rget_withFab _ _ _), State.setPhase, rf_congr (rget_setF_ne _ _ _ _ _ (by simp))]

theorem ownRep_declared (s : State) : s.declared.ownRep = s.ownRep :=
  ownRep_congr (fun _ hi hs => rget_declared_ne s hi hs) rfl
    (fun f hf => (rf_declared_fabId s f).trans (rf_setF_ne _ _ _ _ _ _ (by decide) (.inr hf)))

/-- Setting a field changes registers alone. -/
theorem setF_eq (s : State) (r : Reg) (f : Fld) (x : Nat) : s.setF r f x = { s with csr := (s.setF r f x).csr } := rfl

/-- Beside the fabric unit, recording a report changes nothing. -/
theorem record_frame (s : State) (r : RegRep) (c : List (Reg × W64)) (y : Fabric) :
    ({ s.record r with csr := c, fab := y } : State) = { s with csr := c, fab := y } := rfl

theorem registered_declared (s : State) : s.declared.fab.registered = [] := by rw [State.declared]

/-- Declaring itself root changes nothing but FAB.ID, FAB.STATUS and the reports. -/
theorem declared_frame (s : State) : ({ s.declared with csr := s.csr, fab := s.fab } : State) = s := by
  rw [State.declared, State.setPhase, setF_eq, setF_eq s]

/-- A device that has declared itself root shows it. -/
theorem isRoot_declared (s : State) : s.declared.isRoot = true := by
  rw [State.isRoot, rf_declared_fabId, rf_setF_same _ _ _ _ (by decide)]
  decide

/-- A device that has declared itself root is in the phase of registration. -/
theorem phase_declared (s : State) : s.declared.rf .fabStatus Fld.fabStatusPhase = 2 := by
  rw [State.declared, rf_congr (rget_withFab _ _ _), State.setPhase]
  exact (rf_setF_same _ _ _ _ (by decide)).trans (by decide)

/-- A device that saw no candidate reports that there is no root (R299). -/
theorem exec_noRootTimeout {s : State} (hs : s.runs 7 = true) (hc : s.fab.candidate = none)
    (hp : s.rf .fabStatus Fld.fabStatusPhase = 1) :
    exec .noRootTimeout s = .next ((s.setPhase 4).report (mkRec Cls.fabNoRoot 0 Kind.device 0)) := by
  change execNoRootTimeout s = _
  rw [execNoRootTimeout, clocked_runs hs]
  simp [hc, hp]

/-- The phase of discovery decides no trigger of a freeze. -/
theorem triggers_setPhase (s : State) (ph cls : Nat) : (s.setPhase ph).triggers cls = s.triggers cls := by
  rw [State.triggers, State.setPhase, rget_setF_ne _ _ _ _ _ (by simp), State.triggers]

/-- A device with a candidate at its parent port registers there (R300). -/
theorem exec_candidateStable {s : State} {c : W64} {q : Nat} (hs : s.runs 7 = true) (hr : s.isRoot = false)
    (hc : s.fab.candidate = some c) (hn : c ≠ s.serial) (hp : s.fab.parent = some q) :
    exec .candidateStable s = .next ((s.setPhase 2).sendMgmt q (.register s.ownRep)) := by
  change execCandidateStable s = _
  rw [execCandidateStable, clocked_runs hs]
  simp [hr, hc, hn, hp]

/-! ## The commit of the routes (R296) -/

/-- Values put in force one after the other, at most one for each register. -/
theorem aget_foldl_aset (l : List (Reg × W64)) (s : State) (h : (l.map Prod.fst).Nodup) (r : Reg) :
    (l.foldl (fun s e => s.aset e.1 e.2) s).aget r = kget (s.aget r) l r := by
  induction l generalizing s with
  | nil => rfl
  | cons e l ih =>
    obtain ⟨a, v⟩ := e
    simp only [List.map_cons, List.nodup_cons] at h
    rw [List.foldl_cons, ih _ h.2, aget_aset, kget]
    by_cases ha : a = r
    · subst ha; rw [if_pos rfl, if_pos rfl]; exact kget_of_notMem_keys v l a h.1
    · rw [if_neg ha, if_neg (Ne.symm ha)]

/-- Putting values in force changes nothing else. -/
theorem foldl_aset_frame (l : List (Reg × W64)) (s : State) :
    l.foldl (fun s e => s.aset e.1 e.2) s = { s with act := (l.foldl (fun s e => s.aset e.1 e.2) s).act } := by
  induction l generalizing s with
  | nil => rfl
  | cons e l ih => rw [List.foldl_cons, ih]; rfl

/-- The staged routes are in force together, and no other entry of the routing table is. -/
def State.routesInForce (s : State) : State :=
  (s.csr.filter (fun e => isRoute e.1)).foldl (fun s e => s.aset e.1 e.2) { s with act := s.act.filter (fun e => !isRoute e.1) }

theorem routeCommit_eq (s : State) : s.routeCommit = s.routesInForce.bumpF .fabStatus Fld.fabStatusRouteGen 1 := rfl

theorem routesInForce_frame (s : State) : s.routesInForce = { s with act := s.routesInForce.act } := foldl_aset_frame _ _

/-- What is in force after the commit: the staged value of a routing register, and of every other register what was. -/
theorem aget_routesInForce (s : State) (h : (s.csr.map Prod.fst).Nodup) (r : Reg) :
    s.routesInForce.aget r = if isRoute r then s.rget r else s.aget r := by
  have hn : ((s.csr.filter (fun e => isRoute e.1)).map Prod.fst).Nodup := h.sublist (List.filter_sublist.map _)
  have hact : kget r.reset (s.act.filter (fun e => !isRoute e.1)) r = if !isRoute r then s.aget r else r.reset :=
    kget_filter_keys r.reset (fun x => !isRoute x) s.act r
  rw [State.routesInForce, aget_foldl_aset _ _ hn, kget_filter_keys, State.aget, hact]
  cases isRoute r <;> rfl

theorem aget_bumpF (s : State) (r r' : Reg) (f : Fld) (k : Nat) : (s.bumpF r f k).aget r' = s.aget r' := rfl

/-- Beside registers and values in force, counting changes nothing. -/
theorem bumpF_frame (s : State) (r : Reg) (f : Fld) (k : Nat) (c a : List (Reg × W64)) :
    ({ s.bumpF r f k with csr := c, act := a } : State) = { s with csr := c, act := a } := rfl

/-- The commit changes nothing but registers and values in force. -/
theorem routeCommit_frame (s : State) : ({ s.routeCommit with csr := s.csr, act := s.act } : State) = s := by
  rw [routeCommit_eq, bumpF_frame, routesInForce_frame]

/-- The commit counts in FAB.STATUS.route_gen. -/
theorem routeGen_routeCommit (s : State) :
    s.routeCommit.rf .fabStatus Fld.fabStatusRouteGen = satAdd Fld.fabStatusRouteGen.width (s.rf .fabStatus Fld.fabStatusRouteGen) 1 := by
  rw [routeCommit_eq, rf_bumpF_same _ _ _ _ (by decide), routesInForce_frame]
  rfl

/-! ## Reassignment (R303) -/

/-- Without a parent, no port's status shows one; the other registers stay. -/
theorem rget_setParent_none (s : State) {r : Reg} (hp : ∀ q, r ≠ .fabPortStatus q) : (s.setParent none).rget r = s.rget r := by
  unfold State.setParent
  cases s.fab.parent with
  | none => rfl
  | some q => exact (rget_withFab _ _ _).trans (rget_setF_ne _ _ _ _ _ (hp q))

/-- Showing a candidate without a parent leaves the registers but FAB.ROOT, FAB.STATUS and the ports' status. -/
theorem rget_setCandidate_ne (s : State) (c : Option W64) (dist : Nat) {r : Reg} (hr : r ≠ .fabRoot) (hs : r ≠ .fabStatus)
    (hp : ∀ q, r ≠ .fabPortStatus q) : (s.setCandidate c dist none).rget r = s.rget r := by
  unfold State.setCandidate
  rw [rget_withFab, rget_setParent_none _ hp, rget_setF_ne _ _ _ _ _ hs, rget_rset_ne _ _ _ _ hr]

/-- Where no port is UP a flood sends nothing. -/
theorem flood_noPortUp {s : State} (h : ∀ p, s.portState p ≠ 3) (but : Option Nat) : s.flood but = s := by
  have hnone : s.ports3 = [] := by simp [State.ports3, State.portUp, h]
  simp [State.flood, hnone]

/-- Where no port is isolated none trains anew. -/
theorem restartElection_noneIsolated {s : State} (h : ∀ p, s.portState p ≠ 6) : s.restartElection = s.startElection := by
  unfold State.restartElection
  simp only []
  rw [List.foldl_fixed' (fun p => by simp [h])]

/-- The device is not root and has no reports and no tables (R303). -/
def State.unrooted (s : State) : State :=
  let t := s.setF .fabId Fld.fabIdRoot 0
  { t with fab := { t.fab with registered := [], changed := false, parts := [], pendingId := none } }

theorem startElection_eq (s : State) : s.startElection
    = (s.unrooted.setCandidate (if s.unrooted.eligibleRoot then some s.unrooted.serial else none) 0 none).setPhase 1 := rfl

/-- Clearing the parent changes registers and the parent alone. -/
theorem setParent_none_eq (s : State) :
    s.setParent none = { s with csr := (s.setParent none).csr, fab := { s.fab with parent := none } } := by
  dsimp only [State.setParent]
  cases s.fab.parent with
  | none => rfl
  | some q => dsimp only; rw [setF_eq s]

/-- What the fabric unit holds once a candidate without a parent is shown. -/
theorem fab_setCandidate (s : State) (c : Option W64) (dist : Nat) :
    (s.setCandidate c dist none).fab = { s.fab with parent := none, candidate := c, distance := dist } := by
  dsimp only [State.setCandidate]
  rw [setParent_none_eq, setF_fab, rset_fab]

/-- Showing a candidate changes no value in force and no memory. -/
theorem act_mem_setCandidate (s : State) (c : Option W64) (dist : Nat) :
    (s.setCandidate c dist none).act = s.act ∧ (s.setCandidate c dist none).mem = s.mem := by
  dsimp only [State.setCandidate]
  rw [setParent_none_eq, setF_act, setF_mem, rset_act, rset_mem]
  exact ⟨rfl, rfl⟩

/-- An election leaves the registers but FAB.ID, FAB.ROOT, FAB.STATUS and the ports' status, and of FAB.ID it clears `root`. -/
theorem rf_startElection_fabId (s : State) (f : Fld) : s.startElection.rf .fabId f = (s.setF .fabId Fld.fabIdRoot 0).rf .fabId f := by
  rw [startElection_eq, State.setPhase, rf_congr (rget_setF_ne _ _ _ _ _ (by simp)),
    rf_congr (rget_setCandidate_ne _ _ _ (by simp) (by simp) (by simp)), State.unrooted, rf_congr (rget_withFab _ _ _)]

/-- A field of FAB.ID beside `root` is kept by an election. -/
theorem rf_startElection_keeps (s : State) (f : Fld) (hf : f.lo + f.width ≤ Fld.fabIdRoot.lo ∨ Fld.fabIdRoot.lo + Fld.fabIdRoot.width ≤ f.lo) :
    s.startElection.rf .fabId f = s.rf .fabId f :=
  (rf_startElection_fabId s f).trans (rf_setF_ne _ _ _ _ _ _ (by decide) (.inr hf))

/-- The candidate of a new election is the device itself, if it is eligible. -/
theorem candidate_startElection (s : State) : s.startElection.fab.candidate = if s.eligibleRoot then some s.serial else none := by
  have helig : s.unrooted.eligibleRoot = s.eligibleRoot := by
    rw [State.eligibleRoot, State.unrooted, rf_congr (rget_withFab _ _ _), rf_setF_ne _ _ _ _ _ _ (by decide) (.inr (by decide)),
      State.eligibleRoot]
  have hserial : s.unrooted.serial = s.serial := by
    rw [State.serial, State.unrooted, rget_withFab, rget_setF_ne _ _ _ _ _ (by simp), State.serial]
  rw [startElection_eq, State.setPhase, setF_fab, fab_setCandidate, helig, hserial]

theorem registered_startElection (s : State) : s.startElection.fab.registered = [] := by
  rw [startElection_eq, State.setPhase, setF_fab, fab_setCandidate]
  rfl

theorem phase_startElection (s : State) : s.startElection.rf .fabStatus Fld.fabStatusPhase = 1 := by
  rw [startElection_eq, State.setPhase]
  exact (rf_setF_same _ _ _ _ (by decide)).trans (by decide)

theorem act_mem_startElection (s : State) : s.startElection.act = s.act ∧ s.startElection.mem = s.mem := by
  rw [startElection_eq, State.setPhase, setF_act, setF_mem]
  exact act_mem_setCandidate s.unrooted _ _

/-- Settles O46: each HELLO and each timer of discovery by the lemma that says what it does. -/
theorem discoveryComplete : Obligations.DiscoveryComplete := by
  unfold Obligations.DiscoveryComplete
  intro s hs
  refine ⟨fun p hh => ?_, fun p flit corrected hh hc ht => ⟨fun hv => ?_, fun hv hr hp hk hi ho => ⟨fun he ha h1 => ?_, fun he => ?_⟩⟩,
    fun he hc hp => ?_, fun hc hp ht => ?_, fun c q hr hc hn hp => exec_candidateStable hs hr hc hn hp, fun hr hp => ?_, fun hr hc => ?_,
    fun hn => ?_, fun hp => ?_⟩
  · change execHelloTimer p s = _
    rw [execHelloTimer, clocked_runs hs, if_pos hh]
  · rw [exec_hello corrected hs hh hc ht, hello_oldVersion _ _ hv]
  · refine ⟨_, exec_hello corrected hs hh hc ht, ?_⟩
    rw [hello_comesUp hv hr hp hk hi ho (two_le_echoCount he ha h1)]
    refine ⟨portState_portComesUp _ _ _, version_portComesUp _ _ _, ?_, ?_, ?_, fun q hq => ?_⟩
    · rw [State.portComesUp, port_setPort_same]
    · rw [State.portComesUp, port_setPort_same]
    · rw [rget_portComesUp_ne _ _ _ (by simp), State.noteHello, rget_showPeer_peer]
    · rw [State.portComesUp, port_setPort_ne _ _ _ _ hq, port_setF, State.setPortState, port_setF, port_noteHello_ne _ _ hq]
  · refine ⟨_, exec_hello corrected hs hh hc ht, ?_⟩
    have h0 := echoCount_of_noEcho he
    rw [hello_unknownPeer hv hr hp hk, if_neg (by omega)]
    refine ⟨(portState_noteHello _ _ _ _).trans hp, ?_, ?_, ?_, fun q hq => port_noteHello_ne _ _ hq⟩
    · rw [port_noteHello_same]; exact h0
    · rw [port_noteHello_same]
    · rw [State.noteHello, rget_showPeer_peer]
  · refine ⟨_, exec_rootDeclare hs he hc hp, ?_, ?_, ?_, fun r hi hst => ?_, ?_⟩
    · rw [State.isRoot, rf_congr (rget_record _ _ _), ← State.isRoot, isRoot_declared]
    · rw [rf_congr (rget_record _ _ _), phase_declared]
    · rw [registered_record_first _ _ (registered_declared s), ownRep_declared]
    · rw [rget_record, rget_declared_ne s hi hst]
    · rw [record_frame, declared_frame]
  · refine ⟨_, exec_noRootTimeout hs hc hp, ?_⟩
    have hf : (s.setPhase 4).frozen = false := by rw [State.setPhase, setF_frozen, not_frozen_of_runs hs]
    rw [report_noted hf ((triggers_setPhase s _ _).trans ht)]
    refine ⟨?_, ?_, ?_⟩
    · rw [rf_congr (rget_withFlt _ _ _), State.setPhase]
      exact (rf_setF_same _ _ _ _ (by decide)).trans (by decide)
    · rw [State.setPhase, setF_eq s]; rfl
    · rw [State.setPhase, setF_eq s]
  · change execRegistrationSettle s = _
    rw [execRegistrationSettle, clocked_runs hs, if_pos ⟨hr, hp⟩]
    dsimp only
    rw [rf_congr (rget_record s s.ownRep .fabId)]
  · change execTableRedistribution s = _
    rw [execTableRedistribution, clocked_runs hs, if_pos ⟨hr, hc⟩]
  · refine completes_clocked (f := State.routeCommit) rfl hs ⟨fun d => ⟨?_, ?_⟩, fun r hr => ?_, routeGen_routeCommit s, routeCommit_frame s⟩
    · rw [routeCommit_eq, aget_bumpF, aget_routesInForce s hn, isRoute, if_pos rfl]
    · rw [routeCommit_eq, aget_bumpF, aget_routesInForce s hn, isRoute, if_pos rfl]
    · rw [routeCommit_eq, aget_bumpF, aget_routesInForce s hn, hr, if_neg (by decide)]
  · refine completes_clocked (f := State.discReassign) rfl hs ?_
    rw [State.discReassign, flood_noPortUp (fun p => (hp p).1), restartElection_noneIsolated (fun p => (hp p).2)]
    obtain ⟨hact, hmem⟩ := act_mem_startElection s
    refine ⟨phase_startElection s, ?_, registered_startElection s, candidate_startElection s, rf_startElection_keeps s _ (by decide), ?_,
      hact, hmem⟩
    · rw [State.isRoot, rf_startElection_fabId, rf_setF_same _ _ _ _ (by decide)]; decide
    · rw [State.idValid, rf_startElection_keeps s _ (by decide), State.idValid]

end Machine
end Sys2Proof
end

section
/-! The sequencer of a tile: stops, and the commands START, HALT and RESUME (R36 to R39, R47, R475). -/

namespace Sys2Proof

section
variable {κ β : Type} [DecidableEq κ]

/-- A table without an entry of a key has nothing to lose there. -/
theorem kdel_of_absent (m : List (κ × β)) (k : κ) (h : ∀ e ∈ m, e.1 ≠ k) : kdel m k = m := by
  induction m with
  | nil => rfl
  | cons e m ih =>
    rw [List.forall_mem_cons] at h
    rw [kdel, if_neg h.1, ih h.2]

/-- The entry put in for a key is what the key loses. -/
theorem kdel_kins (rank : κ → Nat) (k : κ) (v : β) (m : List (κ × β)) : kdel (kins rank k v m) k = kdel m k := by
  induction m with
  | nil => simp [kins, kdel]
  | cons e m ih =>
    obtain ⟨a, w⟩ := e
    rw [kins]
    split
    · rw [kdel, if_pos rfl]
    · rw [kdel, kdel, ih]

/-- Of two values set for a key the later one stands. -/
theorem kset_kset [DecidableEq β] (rank : κ → Nat) (d : β) (m : List (κ × β)) (k : κ) (v w : β) :
    kset rank d (kset rank d m k v) k w = kset rank d m k w := by
  have hdel : kdel (kset rank d m k v) k = kdel m k := by
    unfold kset
    split
    · exact kdel_of_absent _ _ (kdel_ne m k)
    · rw [kdel_kins, kdel_of_absent _ _ (kdel_ne m k)]
  rw [kset, hdel, kset]

end

namespace Machine

/-! ## Changing a tile -/

/-- Two changes of a tile are one. -/
theorem modTile_modTile (s : State) (n : Nat) (f g : Tile → Tile) : (s.modTile n f).modTile n g = s.modTile n (fun t => g (f t)) := by
  have htiles : nset Tile.reset (nset Tile.reset s.tiles n (f (s.tile n))) n (g (f (s.tile n)))
      = nset Tile.reset s.tiles n (g (f (s.tile n))) := kset_kset ..
  rw [State.modTile, tile_modTile_same]
  simp only [State.modTile, State.setTile, htiles]

/-- Changing a tile leaves everything but the tiles. -/
theorem modTile_frame (s : State) (n : Nat) (f : Tile → Tile) : { s.modTile n f with tiles := s.tiles } = s := rfl

/-! ## Stops (R38) -/

/-- A tile whose sequencer has stopped with a halt_cause (R38). -/
def Tile.stopped (t : Tile) (c : BitVec 4) : Tile :=
  { t with seq := if c = 1 ∨ c = 2 then .halted else .faulted, stopping := none, wait := 0, cause := c, pwait := none,
           pc := if t.pc = 0x10000#17 ∧ ¬(c = 1 ∨ c = 2) then 0xFFF8#17 else t.pc }

/-- A stop without a record changes the tile alone. -/
theorem stopNow_silent (s : State) (n : Nat) (c : BitVec 4) : s.stopNow n ⟨c, none⟩ = s.modTile n (fun t => t.stopped c) := rfl

/-- A stop with a record changes the tile and reports the record. -/
theorem stopNow_record (s : State) (n : Nat) (c : BitVec 4) (r : FaultRec) :
    s.stopNow n ⟨c, some r⟩ = (s.modTile n (fun t => t.stopped c)).report r := rfl

/-- A stop whose record freezes nothing sends the record to the collector (R394). -/
theorem stopNow_noted {s : State} (n : Nat) (c : BitVec 4) {r : FaultRec} (hf : s.frozen = false) (ht : s.triggers r.cls = false) :
    let u := s.stopNow n ⟨c, some r⟩
    u.tile n = (s.tile n).stopped c ∧ (∀ m, m ≠ n → u.tile m = s.tile m)
      ∧ u.flt.net = s.flt.net ++ [{ r with time := s.now }] ∧ u.csr = s.csr ∧ u.mem = s.mem := by
  rw [stopNow_record, report_noted (s := s.modTile n (fun t => t.stopped c)) hf ht]
  exact ⟨tile_modTile_same s n (fun t => t.stopped c), fun m hm => tile_modTile_ne s n m (fun t => t.stopped c) hm, rfl, rfl, rfl⟩

/-- With nothing launched a stop takes effect at once (R38). -/
theorem stopTile_unlaunched {s : State} {n : Nat} (x : Stop) (h : (s.tile n).launched = false) : s.stopTile n x = s.stopNow n x := by
  have hnow : s.stopTile n x = (s.modTile n (fun t => { t with stopping := some x, wait := 0 })).stopNow n x := by
    rw [State.stopTile, State.settle, tile_modTile_same]
    exact if_neg (ne_true_of_eq_false h)
  obtain ⟨c, r⟩ := x
  cases r with
  | none => rw [hnow, stopNow_silent, stopNow_silent, modTile_modTile]; rfl
  | some r => rw [hnow, stopNow_record, stopNow_record, modTile_modTile]; rfl

/-- A sequencer that is halted keeps its program counter (R38). -/
theorem pc_stopped_halt (t : Tile) : (t.stopped 1).pc = t.pc := by simp [Tile.stopped]

/-! ## The commands (R37, R39, R475) -/

/-- START of an idle sequencer that may start. -/
theorem seqStart_idle {s : State} {n : Nat} (ho : s.schedOwned n = false) (hh : s.startHeld n = false) (hi : (s.tile n).seq = .idle) :
    s.seqStart n = s.startAt n (s.rf (.seqEntry n) Fld.seqEntryEntryPc) [] := by simp [State.seqStart, ho, hh, hi]

/-- RESUME of a halted sequencer that may start. -/
theorem seqResume_halted {s : State} {n : Nat} (ho : s.schedOwned n = false) (hh : s.startHeld n = false)
    (hi : (s.tile n).seq = .halted) : s.seqResume n = s.modTile n (fun t => { t with seq := .run, cause := 0 }) := by
  simp [State.seqResume, ho, hh, hi]

/-- The watchdog of a running sequencer that waits for nothing. -/
theorem watchdogExpires_running {s : State} {n : Nat} (hr : (s.tile n).seq = .run) (hst : (s.tile n).stopping = none)
    (hlim : s.rf (.seqWatchdog n) Fld.seqWatchdogLimit ≠ 0) (hw : (s.tile n).wait = 0) : s.watchdogExpires n
      = (s.setF (.tileFault n) Fld.tileFaultWatchdog 1).stopNow n ⟨4, some (mkRec Cls.tileWatchdog 2 Kind.tile n)⟩ := by
  simp [State.watchdogExpires, hr, hst, hlim, hw]

/-- FRZ.TRIGGER does not change with another register. -/
theorem triggers_setF (s : State) {r : Reg} (f : Fld) (x cls : Nat) (h : r ≠ .frzTrigger (cls / 64)) :
    (s.setF r f x).triggers cls = s.triggers cls := by
  rw [State.triggers, State.triggers, rget_setF_ne _ _ _ _ _ h.symm]

/-- A field depends on the registers alone. -/
theorem rf_of_csr {s u : State} (h : u.csr = s.csr) (r : Reg) (f : Fld) : u.rf r f = s.rf r f := by
  rw [State.rf, State.rget, h, State.rf, State.rget]

/-- Settles O2: each command is taken by its branch, and a stop is `stopNow_silent` or `stopNow_noted`. -/
theorem sequencerCommandsComplete : Obligations.SequencerCommandsComplete := by
  unfold Obligations.SequencerCommandsComplete
  refine ⟨fun s n hs ho hh hi => ?_, fun s n hs hr hst hl => ?_, fun s n hs ho hh hi => ?_, fun s n hs hr hst hlim hw ht => ?_,
    fun s n hs hr hst hpc hl ht => ?_⟩
  · refine completes_clocked (f := fun s => s.seqStart n) rfl hs ?_
    rw [seqStart_idle ho hh hi, State.startAt, tile_modTile_same]
    refine ⟨rfl, ?_, fun k => ?_, rfl, rfl, fun m hm => tile_modTile_ne _ _ _ _ hm, modTile_frame ..⟩
    · rw [BitVec.toNat_ofNat]; omega
    · simp [Tile.sreg, kget]
  · refine completes_clocked (f := fun s => s.seqHalt n) rfl hs ?_
    rw [State.seqHalt, if_pos ⟨hr, hst⟩, stopTile_unlaunched _ hl, stopNow_silent, tile_modTile_same]
    exact ⟨rfl, rfl, pc_stopped_halt _, rfl, fun m hm => tile_modTile_ne _ _ _ _ hm, modTile_frame ..⟩
  · refine completes_clocked (f := fun s => s.seqResume n) rfl hs ?_
    rw [seqResume_halted ho hh hi, tile_modTile_same]
    exact ⟨rfl, fun m hm => tile_modTile_ne _ _ _ _ hm, modTile_frame ..⟩
  · refine completes_clocked (f := fun s => s.watchdogExpires n) rfl hs ?_
    rw [watchdogExpires_running hr hst hlim hw]
    have htrig := triggers_setF s (r := .tileFault n) Fld.tileFaultWatchdog 1 Cls.tileWatchdog (by simp)
    obtain ⟨htile, hothers, hnet, hcsr, hmem⟩ := stopNow_noted (s := s.setF (.tileFault n) Fld.tileFaultWatchdog 1)
      (r := mkRec Cls.tileWatchdog 2 Kind.tile n) n 4 (not_frozen_of_runs (s := s) hs) (htrig.trans ht)
    refine ⟨(congrArg Tile.seq htile :), (congrArg Tile.cause htile :), ?_, hnet, hothers, hmem⟩
    rw [rf_of_csr hcsr, rf_setF_same _ _ _ _ (by decide)]
    decide
  · refine completes_clocked (f := fun s => s.fetchPastEnd n) rfl hs ?_
    rw [State.fetchPastEnd, if_pos ⟨hr, hst, hpc⟩, State.malformed, stopTile_unlaunched _ hl]
    obtain ⟨htile, hothers, hnet, hcsr, hmem⟩ := stopNow_noted (r := mkRec Cls.tileIllegal 2 Kind.tile n) n 3 (not_frozen_of_runs hs) ht
    exact ⟨(congrArg Tile.seq htile :), (congrArg Tile.cause htile :), hnet, hothers, hcsr, hmem⟩

end Machine
end Sys2Proof
end

section
/-! The instructions that move rows of accumulator sets (R31, R71, R391). -/

namespace Sys2Proof.Machine

/-! ## Packed elements (R46) -/

/-- A number made of elements of `w` bits has at most their bits. -/
theorem packElems_lt (w : Nat) (l : List Nat) : packElems w l < 2 ^ (w * l.length) := by
  induction l with
  | nil => simp [packElems]
  | cons x l ih =>
    have hx : x % 2 ^ w < 2 ^ w := Nat.mod_lt _ (by positivity)
    have := Nat.mul_le_mul_left (2 ^ w) (Nat.succ_le_of_lt ih)
    rw [packElems, List.length_cons, Nat.mul_succ, Nat.add_comm (w * _), pow_add]
    rw [Nat.mul_succ] at this
    omega

/-- An element of the number that a list of elements makes. -/
theorem elemAt_packElems (w : Nat) (l : List Nat) (j : Nat) (h : j < l.length) : elemAt w j (packElems w l) = l[j] % 2 ^ w := by
  induction l generalizing j with
  | nil => simp at h
  | cons x l ih =>
    have hx : x % 2 ^ w < 2 ^ w := Nat.mod_lt _ (by positivity)
    cases j with
    | zero => simp [elemAt, bitsOf, packElems]
    | succ j =>
      rw [List.getElem_cons_succ, ← ih j (by simpa using h)]
      unfold elemAt bitsOf
      rw [packElems, Nat.mul_succ, Nat.add_comm (w * j), pow_add, ← Nat.div_div_eq_div_mul, Nat.add_mul_div_left _ _ (by positivity),
        Nat.div_eq_of_lt hx, Nat.zero_add]

/-- An element of the register that a list of elements fills at most. -/
theorem elemAt_ofNat_packElems {W w : Nat} {l : List Nat} (hW : w * l.length ≤ W) {j : Nat} (h : j < l.length) :
    elemAt w j (BitVec.ofNat W (packElems w l)).toNat = l[j] % 2 ^ w := by
  rw [BitVec.toNat_ofNat, Nat.mod_eq_of_lt ((packElems_lt w l).trans_le (Nat.pow_le_pow_right (by decide) hW)), elemAt_packElems _ _ _ h]

/-! ## Executing -/

/-- A command of an instruction, on a tile that is ready to execute a word of its opcode, completes as the instruction does on that word. -/
theorem completes_ready {i : Instr} {s : State} {n op : Nat} {w : W64} {k : W64 → State → State} {p : State → Prop}
    (hi : exec i s = clocked 6 s (tisStep n op k)) (h : Ready s n w) (hl : listedOp op = true) (ho : opc w = op) (hp : p (k w s)) :
    Completes i s p := ⟨_, hi.trans (clocked_ready h hl ho k), hp⟩

/-! ## VRACC and VWACC (R71) -/

/-- Reading an accumulator set without errors changes nothing (R34). -/
theorem accErrors_clean {s : State} {n : Nat} (m k : Nat) (rows : List Nat) (cols : W64) (hu : (s.tile n).accUe = [])
    (hc : (s.tile n).accCe = []) : s.accErrors n m k rows cols = (s, true) := by
  simp [State.accErrors, hu, hc]

/-- Rows of a set have keys of their own. -/
theorem accKey_inj {m m' k k' row row' : Nat} (hk : k < 2) (hk' : k' < 2) (hr : row < 64) (hr' : row' < 64) :
    accKey m' k' row' = accKey m k row ↔ m' = m ∧ k' = k ∧ row' = row := by unfold accKey; omega

/-- Row `r` of four with the lanes of a vector that a guard names (R71). -/
@[irreducible] def accMerge (g : BitVec 256) (data r : Nat) (old : BitVec 2048) : BitVec 2048 :=
  BitVec.ofNat 2048 (packElems 32 ((List.range 64).map (fun j =>
    if g.getLsbD (64 * r + j) then elemAt 32 (64 * r + j) data else elemAt 32 j old.toNat)))

/-- VWACC writes row `r` of four, from row `row` on. -/
def Tile.mergeAccRow (g : BitVec 256) (data m k row : Nat) : Tile → Nat → Tile := fun t r =>
  let written (x : Nat) : Bool := x / 64 == accKey m k (row + r) && g.getLsbD (64 * r + x % 64)
  { t with
    acc := nset 0 t.acc (accKey m k (row + r)) (accMerge g data r (t.accRow m k (row + r)))
    accUe := t.accUe.filter (fun x => !written x)
    accCe := t.accCe.filter (fun x => !written x) }

theorem elemAt_lt (w i v : Nat) : elemAt w i v < 2 ^ w := bitsOf_lt _ _ _

/-- A column of a merged row. -/
theorem elemAt_accMerge (g : BitVec 256) (data r : Nat) (old : BitVec 2048) {j : Nat} (hj : j < 64) :
    elemAt 32 j (accMerge g data r old).toNat
      = if g.getLsbD (64 * r + j) then elemAt 32 (64 * r + j) data else elemAt 32 j old.toNat := by
  unfold accMerge
  rw [elemAt_ofNat_packElems (by simp) (by simpa using hj), List.getElem_map, List.getElem_range]
  split <;> exact Nat.mod_eq_of_lt (elemAt_lt ..)

/-- Row keys after one row is merged. -/
theorem kget_mergeAccRow (g : BitVec 256) (data m k row r : Nat) (t : Tile) (key : Nat) :
    kget 0 (Tile.mergeAccRow g data m k row t r).acc key
      = if key = accKey m k (row + r) then accMerge g data r (t.accRow m k (row + r)) else kget 0 t.acc key := by
  unfold Tile.mergeAccRow; exact kget_nset _ _ _ _ _

/-- A row outside those that are merged stays. -/
theorem kget_foldl_mergeAccRow_ne (g : BitVec 256) (data m k row key : Nat) (l : List Nat) (t : Tile)
    (h : ∀ r ∈ l, key ≠ accKey m k (row + r)) : kget 0 (l.foldl (Tile.mergeAccRow g data m k row) t).acc key = kget 0 t.acc key := by
  induction l generalizing t with
  | nil => rfl
  | cons r l ih =>
    rw [List.foldl_cons, ih _ (fun x hx => h x (List.mem_cons_of_mem _ hx)), kget_mergeAccRow, if_neg (h r List.mem_cons_self)]

/-- A row that is merged once holds what it held with the lanes laid over it. -/
theorem accRow_foldl_mergeAccRow (g : BitVec 256) (data m k row : Nat) (l : List Nat) (t : Tile) (hl : l.Nodup) {r : Nat} (hr : r ∈ l) :
    (l.foldl (Tile.mergeAccRow g data m k row) t).accRow m k (row + r) = accMerge g data r (t.accRow m k (row + r)) := by
  have hkey {a b : Nat} (h : a ≠ b) : accKey m k (row + a) ≠ accKey m k (row + b) := by unfold accKey; omega
  induction l generalizing t with
  | nil => simp at hr
  | cons a l ih =>
    obtain ⟨ha, hl⟩ := List.nodup_cons.mp hl
    rw [List.foldl_cons]
    rcases List.mem_cons.mp hr with rfl | hr
    · rw [Tile.accRow, kget_foldl_mergeAccRow_ne _ _ _ _ _ _ _ _ (fun x hx => hkey (ne_of_mem_of_not_mem hx ha).symm), kget_mergeAccRow, if_pos rfl]
    · rw [ih _ hl hr, Tile.accRow, kget_mergeAccRow, if_neg (hkey (ne_of_mem_of_not_mem hr ha)), Tile.accRow]

/-- Merging rows leaves the registers of the tile. -/
theorem foldl_mergeAccRow_registers (g : BitVec 256) (data m k row : Nat) (l : List Nat) (t : Tile) :
    let u := l.foldl (Tile.mergeAccRow g data m k row) t
    u.v = t.v ∧ u.s = t.s ∧ u.pc = t.pc := by
  induction l generalizing t with
  | nil => exact ⟨rfl, rfl, rfl⟩
  | cons r l ih => exact ih (Tile.mergeAccRow g data m k row t r)

/-- VWACC writes four rows from row `row` on. -/
def Tile.mergeAcc (g : BitVec 256) (data m k row : Nat) (t : Tile) : Tile := (List.range 4).foldl (Tile.mergeAccRow g data m k row) t

/-- Merging four rows leaves the registers of the tile. -/
theorem mergeAcc_registers (g : BitVec 256) (data m k row : Nat) (t : Tile) :
    (t.mergeAcc g data m k row).v = t.v ∧ (t.mergeAcc g data m k row).s = t.s ∧ (t.mergeAcc g data m k row).pc = t.pc :=
  foldl_mergeAccRow_registers g data m k row (List.range 4) t

/-- Each of the four rows holds what it held with the lanes laid over it. -/
theorem accRow_mergeAcc (g : BitVec 256) (data m k row : Nat) (t : Tile) {r : Nat} (hr : r < 4) :
    (t.mergeAcc g data m k row).accRow m k (row + r) = accMerge g data r (t.accRow m k (row + r)) :=
  accRow_foldl_mergeAccRow g data m k row (List.range 4) t List.nodup_range (List.mem_range.mpr hr)

/-- Every other row stays. -/
theorem accRow_mergeAcc_ne (g : BitVec 256) (data : Nat) {m m' k k' q row : Nat} (t : Tile) (hk : k < 2) (hk' : k' < 2) (hq : q < 16)
    (hrow : row < 64) (h : m' ≠ m ∨ k' ≠ k ∨ row / 4 ≠ q) : (t.mergeAcc g data m k (4 * q)).accRow m' k' row = t.accRow m' k' row := by
  refine kget_foldl_mergeAccRow_ne g data m k (4 * q) _ (List.range 4) t (fun r hr => ?_)
  have hr := List.mem_range.mp hr
  rw [ne_eq, accKey_inj hk hk' (by omega) hrow]
  omega

/-- A row of an accumulator depends on the accumulators alone. -/
theorem accRow_congr {t u : Tile} (h : u.acc = t.acc) (m k row : Nat) : u.accRow m k row = t.accRow m k row := by
  rw [Tile.accRow, h, Tile.accRow]

/-- The tile once VWACC has written (R71). -/
def Tile.vwacc (w : W64) (t : Tile) : Tile :=
  t.mergeAcc (t.preg (vG w)) (t.vreg (vC w)).toNat (vImm w % 4) (bitsOf (vImm w) 2 1) (4 * bitsOf (vImm w) 3 4)

/-- VWACC leaves the registers of the tile. -/
theorem vwacc_registers (w : W64) (t : Tile) : (t.vwacc w).v = t.v ∧ (t.vwacc w).s = t.s ∧ (t.vwacc w).pc = t.pc :=
  mergeAcc_registers ..

/-- VWACC on a set that nothing holds and that has not failed. -/
theorem vwaccOp_writes {s : State} {n : Nat} {w : W64} (hc : CleanTile (s.tile n))
    (hh : accHeld (s.tile n) (vImm w % 4) (bitsOf (vImm w) 2 1) true = 0)
    (hf : (s.tile n).setFailed (vImm w % 4) (bitsOf (vImm w) 2 1) = false) :
    vwaccOp n w s = (s.modTile n (Tile.vwacc w)).retire n := by
  unfold vwaccOp
  simp only [hh, hf, ne_eq, not_true_eq_false, if_false, Bool.false_eq_true]
  rw [readVecs_clean _ _ _ _ hc]
  unfold Tile.vwacc Tile.mergeAcc Tile.mergeAccRow accMerge
  with_reducible rfl

/-- VRACC on a set that nothing holds and that has not failed. -/
theorem vraccOp_reads {s : State} {n : Nat} {w : W64} (hc : CleanTile (s.tile n))
    (hh : accHeld (s.tile n) (vImm w % 4) (bitsOf (vImm w) 2 1) false = 0)
    (hf : (s.tile n).setFailed (vImm w % 4) (bitsOf (vImm w) 2 1) = false) :
    vraccOp n w s = s.writeLanes n w ((List.range 256).map (fun i => elemAt 32 (i % 64)
      ((s.tile n).accRow (vImm w % 4) (bitsOf (vImm w) 2 1) (4 * bitsOf (vImm w) 3 4 + i / 64)).toNat)) := by
  obtain ⟨-, -, hu, he⟩ := hc
  unfold vraccOp
  simp only [hh, hf, ne_eq, not_true_eq_false, if_false, Bool.false_eq_true, State.readAcc, accErrors_clean _ _ _ _ hu he]

/-- VRACC on a failed set that nothing holds goes on (R391). -/
theorem vraccOp_failed {s : State} {n : Nat} {w : W64} (hh : accHeld (s.tile n) (vImm w % 4) (bitsOf (vImm w) 2 1) false = 0)
    (hf : (s.tile n).setFailed (vImm w % 4) (bitsOf (vImm w) 2 1) = true) : vraccOp n w s = s.retire n := by
  unfold vraccOp
  simp only [hh, hf, ne_eq, not_true_eq_false, if_false, if_true]

/-- VWACC on a failed set that nothing holds goes on (R391). -/
theorem vwaccOp_failed {s : State} {n : Nat} {w : W64} (hh : accHeld (s.tile n) (vImm w % 4) (bitsOf (vImm w) 2 1) true = 0)
    (hf : (s.tile n).setFailed (vImm w % 4) (bitsOf (vImm w) 2 1) = true) : vwaccOp n w s = s.retire n := by
  unfold vwaccOp
  simp only [hh, hf, ne_eq, not_true_eq_false, if_false, if_true]

/-- Settles O13: a set that nothing holds is read by `writeLanes_ret` and written as `accRow_mergeAcc` and `accRow_mergeAcc_ne` say. -/
theorem accumulatorAccessCompletes : Obligations.AccumulatorAccessCompletes := by
  unfold Obligations.AccumulatorAccessCompletes
  intro s n w hw hc
  have hk : bitsOf (vImm w) 2 1 < 2 := bitsOf_lt _ _ _
  have hq : bitsOf (vImm w) 3 4 < 16 := bitsOf_lt _ _ _
  dsimp only
  refine ⟨fun ho hh hf => ?_, fun ho hh hf => ?_, fun ho hh hf => ?_, fun ho hh hf => ?_⟩
  · refine completes_ready rfl hw (by decide) ho ?_
    rw [vraccOp_reads hc hh hf]
    exact retired_congr (writeLanes_ret s n w _ hc) (by rfl)
  · refine completes_ready rfl hw (by decide) ho ?_
    rw [vraccOp_failed hh hf]
    exact retired_retireTo_id ..
  · refine completes_ready rfl hw (by decide) ho ?_
    rw [vwaccOp_failed hh hf]
    exact retired_retireTo_id ..
  · refine completes_ready rfl hw (by decide) ho ?_
    rw [vwaccOp_writes hc hh hf]
    obtain ⟨hv, hs, hpc⟩ := vwacc_registers w (s.tile n)
    obtain ⟨htile, hothers, -, -, hrest⟩ := retired_retire s n (Tile.vwacc w) hpc
    generalize (s.modTile n (Tile.vwacc w)).retire n = u at *
    have hrow := accRow_congr (u := u.tile n) (t := (s.tile n).vwacc w) (congrArg Tile.acc htile :)
    refine ⟨fun r j hr hj => ?_, fun m' k' row hk' hrow' hne => ?_, (congrArg Tile.v htile).trans hv, (congrArg Tile.s htile).trans hs,
      (congrArg Tile.pc htile :), hothers, hrest⟩
    · rw [hrow, Tile.vwacc, accRow_mergeAcc _ _ _ _ _ _ hr, elemAt_accMerge _ _ _ _ hj]
    · rw [hrow, Tile.vwacc, accRow_mergeAcc_ne _ _ _ hk hk' hq hrow' hne]

end Sys2Proof.Machine
end

section
/-! The instructions that start array work, load set-ups and start transfers (R27, R29, R58 to R62, R83, R84, R94). -/

namespace Sys2Proof.Machine

/-- Changing a tile in two steps that leave the program counter, and retiring. -/
theorem retired_retire_two (s : State) (n : Nat) (f g : Tile → Tile) (h : (g (f (s.tile n))).pc = (s.tile n).pc) :
    Retired s (((s.modTile n f).modTile n g).retire n) n ((s.tile n).pc + 8) (fun t => g (f t)) := by
  rw [modTile_modTile]; exact retired_retire s n _ h

/-- A register that counts does not change with a tile. -/
theorem bumpF_modTile (s : State) (n : Nat) (f : Tile → Tile) (r : Reg) (g : Fld) (k : Nat) :
    (s.modTile n f).bumpF r g k = (s.bumpF r g k).modTile n f := rfl

/-! ## What the array instructions leave of a tile -/

@[simp] theorem pc_setArray (t : Tile) (m : Nat) (x : MatArray) : (t.setArray m x).pc = t.pc := rfl
@[simp] theorem pc_setAgen (t : Tile) (a : Nat) (x : Agen) : (t.setAgen a x).pc = t.pc := rfl
@[simp] theorem pc_noteMasks (t : Tile) (m k : Nat) (rows cols : W64) : (t.noteMasks m k rows cols).pc = t.pc := rfl
@[simp] theorem pc_startPass (t : Tile) (m : Nat) (p : Pass) : (t.startPass m p).pc = t.pc := rfl
@[simp] theorem pc_queuePass (t : Tile) (m : Nat) (p : Pass) : (t.queuePass m p).pc = t.pc := rfl
@[simp] theorem pc_emptyPass (t : Tile) (m k : Nat) : (t.emptyPass m k).pc = t.pc := by
  unfold Tile.emptyPass; split <;> rfl

/-- Array `m` of a tile after one is stored. -/
theorem array_setArray (t : Tile) (m m' : Nat) (x : MatArray) : (t.setArray m x).array m' = if m' = m then x else t.array m' :=
  kget_nset ..

/-! ## LAUNCH (R58 to R62) -/

/-- The row mask of a LAUNCH: the array's, the register's, and that of the extent (R58, R82). -/
def launchRows (s : State) (n : Nat) (w : W64) : W64 :=
  s.rget (.maRowMask n (vImm w % 4)) &&& (s.tile n).sreg (vA w % 32) &&& extentMask ((s.tile n).agen (2 * (vImm w % 4))).loaded

/-- The column mask of a LAUNCH. -/
def launchCols (s : State) (n : Nat) (w : W64) : W64 :=
  s.rget (.maColMask n (vImm w % 4)) &&& (s.tile n).sreg (vB w % 32) &&& extentMask ((s.tile n).agen (2 * (vImm w % 4) + 1)).loaded

/-- The pass of a LAUNCH (R59). -/
def launchPass (s : State) (n : Nat) (w : W64) : Pass :=
  { rows := launchRows s n w, cols := launchCols s n w, set := bitsOf (vImm w) 2 1, fresh := (vImm w).testBit 3,
    fmtA := bitsOf (vImm w) 4 4, fmtB := bitsOf (vImm w) 8 4, srKey := (s.tile n).srKey,
    setA := ((s.tile n).agen (2 * (vImm w % 4))).loaded, setB := ((s.tile n).agen (2 * (vImm w % 4) + 1)).loaded, chunk := 0, checks := [] }

/-- A LAUNCH is accepted: its format pair is one of R60, its set-ups are valid and walk as far as each other (R84), and nothing holds it. -/
def launchAccepted (t : Tile) (w : W64) : Prop :=
  let m := vImm w % 4
  let xa := (t.agen (2 * m)).loaded
  let xb := (t.agen (2 * m + 1)).loaded
  pairOk (bitsOf (vImm w) 4 4) (bitsOf (vImm w) 8 4) = true ∧ setupBad xa (bitsOf (vImm w) 4 4) = false
    ∧ setupBad xb (bitsOf (vImm w) 8 4) = false ∧ walkLen xa = walkLen xb ∧ launchHeld t m (bitsOf (vImm w) 2 1) = 0

/-- An accepted LAUNCH with array cycles starts its pass or queues it. -/
theorem launchOp_pass {s : State} {n : Nat} {w : W64} (h : launchAccepted (s.tile n) w) (hr : launchRows s n w ≠ 0)
    (hc : launchCols s n w ≠ 0) (hl : walkLen ((s.tile n).agen (2 * (vImm w % 4))).loaded ≠ 0) :
    launchOp n w s = ((s.modTile n (fun t => t.noteMasks (vImm w % 4) (bitsOf (vImm w) 2 1) (launchRows s n w) (launchCols s n w))).modTile n
      (fun t => if t.arrayFree (vImm w % 4) then t.startPass (vImm w % 4) (launchPass s n w)
        else t.queuePass (vImm w % 4) (launchPass s n w))).retire n := by
  obtain ⟨hp, ha, hb, hw, hh⟩ := h
  unfold launchRows at hr; unfold launchCols at hc
  rw [hw] at hl
  simp only [launchOp, hp, ha, hb, hw, hh, hr, hc, hl, bne_self_eq_false, Bool.not_true, Bool.or_self, Bool.false_eq_true,
    ne_eq, not_true_eq_false, or_self, if_false, launchRows, launchCols, launchPass]

/-- An accepted LAUNCH without array cycles completes at once (R29, R82). -/
theorem launchOp_empty {s : State} {n : Nat} {w : W64} (h : launchAccepted (s.tile n) w)
    (he : launchRows s n w = 0 ∨ launchCols s n w = 0 ∨ walkLen ((s.tile n).agen (2 * (vImm w % 4))).loaded = 0) :
    launchOp n w s = ((((s.bumpF (.maPassCount n (vImm w % 4)) Fld.maPassCountPasses 1).modTile n (fun t =>
      t.noteMasks (vImm w % 4) (bitsOf (vImm w) 2 1) (launchRows s n w) (launchCols s n w))).modTile n
      (fun t => t.emptyPass (vImm w % 4) (bitsOf (vImm w) 2 1))).retire n) := by
  obtain ⟨hp, ha, hb, hw, hh⟩ := h
  unfold launchRows launchCols at he
  rw [hw] at he
  simp only [launchOp, hp, ha, hb, hw, hh, he, bne_self_eq_false, Bool.not_true, Bool.or_self, Bool.false_eq_true,
    ne_eq, not_true_eq_false, if_true, if_false, launchRows, launchCols, bumpF_modTile]

/-! ## DRAIN (R61) -/

/-- The drain of a DRAIN: the masks of the set's most recent LAUNCH, and its operands as they stand (R61, R70). -/
def drainOf (t : Tile) (w : W64) : DrainOp :=
  let masks := kget (BitVec.allOnes 128) t.setMask (2 * (vImm w % 4) + bitsOf (vImm w) 2 1)
  { set := bitsOf (vImm w) 2 1, fmt := bitsOf (vImm w) 3 4, health := (vX w).testBit 0, packed6 := (vX w).testBit 1,
    sat := (vX w).testBit 2, rm := vRm w, dest := t.sreg (vA w % 32), pitch := t.sreg (vB w % 32),
    tensor := (t.sreg (vC w % 32)).setWidth 32, rows := masks.extractLsb' 0 64, cols := masks.extractLsb' 64 64,
    srKey := t.srKey, srIndex := t.srIndex, started := false }

/-- The tile once DRAIN has latched a drain; with stochastic rounding it takes its 4,096 words of the stream (R70). -/
def Tile.latchDrain (w : W64) (d : DrainOp) (t : Tile) : Tile :=
  let t := t.setArray (vImm w % 4) { t.array (vImm w % 4) with drains := (t.array (vImm w % 4)).drains ++ [d] }
  if vRm w = 4 then { t with srIndex := t.srIndex + 4096 } else t

/-- A DRAIN whose format and rounding mode are listed, where the queue of its array has room. -/
theorem drainOp_latches {s : State} {n : Nat} {w : W64} (hf : bitsOf (vImm w) 3 4 ≠ 15) (hrm : vRm w < 5)
    (hd : ((s.tile n).array (vImm w % 4)).drains.length < 2) :
    drainOp n w s = (s.modTile n (Tile.latchDrain w (drainOf (s.tile n) w))).retire n := by
  have h2 : ¬ 2 ≤ ((s.tile n).array (vImm w % 4)).drains.length := by omega
  have h1 : ¬ (bitsOf (vImm w) 3 4 = 15 ∨ 5 ≤ vRm w) := by omega
  exact (if_neg h1).trans (if_neg h2)

theorem pc_latchDrain (w : W64) (d : DrainOp) (t : Tile) : (t.latchDrain w d).pc = t.pc := by
  unfold Tile.latchDrain; split <;> rfl

theorem array_latchDrain (w : W64) (d : DrainOp) (t : Tile) :
    (t.latchDrain w d).array (vImm w % 4) = { t.array (vImm w % 4) with drains := (t.array (vImm w % 4)).drains ++ [d] } := by
  have harrays : (t.latchDrain w d).arrays = (t.setArray (vImm w % 4)
      { t.array (vImm w % 4) with drains := (t.array (vImm w % 4)).drains ++ [d] }).arrays := by
    unfold Tile.latchDrain; split <;> rfl
  rw [Tile.array, harrays]
  exact (array_setArray t _ _ _).trans (if_pos rfl)

theorem srIndex_latchDrain (w : W64) (d : DrainOp) (t : Tile) :
    (t.latchDrain w d).srIndex = if vRm w = 4 then t.srIndex + 4096 else t.srIndex := by
  unfold Tile.latchDrain; split <;> rfl

/-! ## AGLD and XFER (R62, R94) -/

/-- AGLD of 64 clean bytes loads them. -/
theorem agldOp_loads {s : State} {n : Nat} {w : W64} (h : CleanBank s n (((s.tile n).sreg (vA w % 32)).toNat % 2 ^ 23 / 64 * 64) 64) :
    agldOp n w s = (s.modTile n (fun t => t.setAgen (vImm w % 8) { t.agen (vImm w % 8) with
      loaded := BitVec.ofNat 512 (leNat (s.bytesAt (apBase n + ((s.tile n).sreg (vA w % 32)).toNat % 2 ^ 23 / 64 * 64) 64)) })).retire n := by
  simp only [agldOp, sramRead_clean s _ n _ 64 h]

/-- XFER of a valid set-up on an AGEN with nothing queued: nothing to move, or a transfer that starts or is queued. -/
theorem xferOp_valid {s : State} {n : Nat} {w : W64} (hv : xferBad ((s.tile n).agen (vImm w % 8)).loaded = false)
    (hq : ((s.tile n).agen (vImm w % 8)).queued = none) :
    let y := (s.tile n).agen (vImm w % 8)
    xferOp n w s = if walkLen y.loaded = 0 then s.retire n
      else if y.run.isNone then (s.modTile n (fun t => t.setAgen (vImm w % 8)
        { y with run := some ⟨y.loaded, false, false⟩, slice := 0, staged := [], taken := [], elems := [], scales := [] })).retire n
      else (s.modTile n (fun t => t.setAgen (vImm w % 8) { y with queued := some ⟨y.loaded, false, false⟩ })).retire n := by
  simp only [xferOp, hv, hq, Option.isSome_none, Bool.false_eq_true, if_false]

/-- Settles O14: each instruction is one change of the tile and retires. -/
theorem arrayInstructionsComplete : Obligations.ArrayInstructionsComplete := by
  unfold Obligations.ArrayInstructionsComplete
  intro s n w hw
  dsimp only
  refine ⟨fun ho hp ha hb hl hh => ⟨fun hr hc hn => ?_, fun he => ?_⟩, fun ho hf hrm hd => ?_, fun ho hc => ?_, fun ho hv hl hr hq => ?_,
    fun ho hv hl hq => ?_, fun ho hv hl hr hq => ?_⟩
  · refine completes_ready rfl hw (by decide) ho ?_
    rw [launchOp_pass ⟨hp, ha, hb, hl, hh⟩ hr hc hn]
    exact retired_retire_two s n _ _ (by split <;> simp)
  · refine completes_ready rfl hw (by decide) ho ?_
    rw [launchOp_empty ⟨hp, ha, hb, hl, hh⟩ he]
    exact retired_retire_two (s.bumpF (.maPassCount n (vImm w % 4)) Fld.maPassCountPasses 1) n _ _ (by simp)
  · refine completes_ready rfl hw (by decide) ho ?_
    rw [drainOp_latches hf hrm hd]
    obtain ⟨htile, hothers, -, -, hrest⟩ := retired_retire s n (Tile.latchDrain w (drainOf (s.tile n) w)) (pc_latchDrain _ _ _)
    generalize (s.modTile n (Tile.latchDrain w (drainOf (s.tile n) w))).retire n = u at *
    have harray : (u.tile n).array (vImm w % 4) = ((s.tile n).latchDrain w (drainOf (s.tile n) w)).array (vImm w % 4) := by
      rw [htile]; rfl
    refine ⟨drainOf (s.tile n) w, ?_, rfl, rfl, rfl, rfl, rfl, rfl, rfl, rfl, ?_, (congrArg Tile.pc htile :), hothers, hrest⟩
    · rw [harray, array_latchDrain]
    · exact (congrArg Tile.srIndex htile :).trans (srIndex_latchDrain _ _ _)
  · refine completes_ready rfl hw (by decide) ho ?_
    rw [agldOp_loads hc]
    exact retired_retire s n _ (pc_setAgen ..)
  · refine completes_ready rfl hw (by decide) ho ?_
    rw [xferOp_valid hv hq, if_neg hl, if_pos (by rw [hr]; rfl)]
    exact retired_retire s n _ (pc_setAgen ..)
  · refine completes_ready rfl hw (by decide) ho ?_
    rw [xferOp_valid hv hq, if_pos hl]
    exact retired_retireTo_id ..
  · refine completes_ready rfl hw (by decide) ho ?_
    rw [xferOp_valid hv hq, if_neg hl, if_neg (by rwa [Option.isNone_iff_eq_none])]
    exact retired_retire s n _ (pc_setAgen ..)

end Sys2Proof.Machine
end

section
/-! What other agents do to a tile: program memory, VEC state, AGEN set-up and the aperture (R34 to R36, R44, R77, R95). -/

namespace Sys2Proof

/-! ## A word of a longer value -/

/-- A 64-bit word of a value in which one word was replaced: the new word there, and any other as it was. -/
theorem extractLsb'_replaceWord {W : Nat} (v : BitVec W) (x : BitVec 64) (w w' : Nat) (hw : 64 * w + 64 ≤ W) (hw' : 64 * w' + 64 ≤ W) :
    (BitVec.ofNat W (v.toNat - bitsOf v.toNat (64 * w) 64 * 2 ^ (64 * w) + x.toNat * 2 ^ (64 * w))).extractLsb' (64 * w') 64
      = if w' = w then x else v.extractLsb' (64 * w') 64 := by
  have hsplit := bitsOf_split v.toNat (64 * w) 64
  have hlow : v.toNat % 2 ^ (64 * w) < 2 ^ (64 * w) := Nat.mod_lt _ (by positivity)
  have hhigh (i : Nat) : (v.toNat / 2 ^ (64 * w + 64)).testBit i = v.toNat.testBit (i + (64 * w + 64)) := Nat.testBit_div_two_pow ..
  have hmod (i : Nat) : (v.toNat % 2 ^ (64 * w)).testBit i = (decide (i < 64 * w) && v.toNat.testBit i) := Nat.testBit_mod_two_pow ..
  have hvalue : v.toNat - bitsOf v.toNat (64 * w) 64 * 2 ^ (64 * w) + x.toNat * 2 ^ (64 * w)
      = 2 ^ (64 * w) * (2 ^ 64 * (v.toNat / 2 ^ (64 * w + 64)) + x.toNat) + v.toNat % 2 ^ (64 * w) := by
    rw [Nat.mul_add, ← Nat.mul_assoc, ← pow_add, Nat.mul_comm (2 ^ (64 * w)) x.toNat, Nat.mul_comm (2 ^ (64 * w + 64))]
    omega
  rw [hvalue]
  apply BitVec.eq_of_getLsbD_eq
  intro i hi
  have hin : 64 * w' + i < W := by omega
  rw [BitVec.getLsbD_extractLsb', BitVec.getLsbD_ofNat, Nat.testBit_two_pow_mul_add _ hlow, Nat.testBit_two_pow_mul_add _ x.isLt,
    hmod, hhigh]
  simp only [hin, decide_true, Bool.true_and]
  rcases lt_trichotomy w' w with h | rfl | h
  · rw [if_pos (by omega), if_neg (by omega), BitVec.getLsbD_extractLsb']
    simp [hi, show 64 * w' + i < 64 * w by omega, BitVec.getLsbD]
  · rw [if_neg (by omega), if_pos rfl, if_pos (by omega), Nat.add_sub_cancel_left, BitVec.getLsbD, decide_eq_true hi, Bool.true_and]
  · rw [if_neg (by omega), if_neg (by omega), if_neg (by omega), BitVec.getLsbD_extractLsb',
      show 64 * w' + i - 64 * w - 64 + (64 * w + 64) = 64 * w' + i by omega]
    simp [hi, BitVec.getLsbD]

namespace Machine

/-! ## The program registers of a tile (R45) -/

theorem sreg_setS (t : Tile) {k : Nat} (k' : Nat) (v : W64) (h : k ≠ 0) : (t.setS k v).sreg k' = if k' = k then v else t.sreg k' := by
  unfold Tile.setS Tile.sreg
  rw [if_neg h, kget_nset]
  by_cases hk : k' = 0
  · rw [if_pos hk, if_pos hk, if_neg (by omega)]
  · rw [if_neg hk, if_neg hk]

theorem preg_setP (t : Tile) {k : Nat} (k' : Nat) (v : BitVec 256) (f : Nat → Bool) (h : k ≠ 0) :
    (t.setP k v f).preg k' = if k' = k then v else t.preg k' := by
  unfold Tile.setP Tile.preg
  rw [if_neg h, kget_nset]
  by_cases hk : k' = 0
  · rw [if_pos hk, if_pos hk, if_neg (by omega)]
  · rw [if_neg hk, if_neg hk]

theorem vreg_setV (t : Tile) (k k' : Nat) (v : BitVec 8192) (f : Nat → Bool) :
    (t.setV k v f).vreg k' = if k' = k then v else t.vreg k' := kget_nset ..

/-! ## The VEC block (R44, R77) -/

/-- The registers of the VEC block of a tile. -/
theorem inVec_cases {n o : Nat} {r : Reg} (h : Reg.inVec n o = some r) :
    r = .vecSrKey n ∨ r = .vecSrIndex n ∨ r = .vecRetired n ∨ r = .vecVregSel n ∨ (∃ k, r = .vecSreg n k)
      ∨ (∃ k w, w < 4 ∧ r = .vecPreg n k w) ∨ (∃ w, w < 128 ∧ r = .vecVregData n w) := by
  unfold Reg.inVec at h
  split_ifs at h with _ _ _ _ _ hp hv <;> cases h
  · simp
  · simp
  · simp
  · simp
  · simp
  · exact .inr (.inr (.inr (.inr (.inr (.inl ⟨_, _, Nat.lt_succ_of_le hp.2.2.1, rfl⟩)))))
  · exact .inr (.inr (.inr (.inr (.inr (.inr ⟨_, Nat.lt_succ_of_le hv.2.1, rfl⟩)))))

/-- A word of a predicate register in which one was replaced. -/
theorem extractLsb'_setWord64 (v : BitVec 256) (x : W64) {w w' : Nat} (hw : w < 4) (hw' : w' < 4) :
    (setWord64 v w x).extractLsb' (64 * w') 64 = if w' = w then x else v.extractLsb' (64 * w') 64 :=
  extractLsb'_replaceWord v x w w' (by omega) (by omega)

/-- A word of a vector register in which one was replaced. -/
theorem extractLsb'_setWord8192 (v : BitVec 8192) (x : W64) {w w' : Nat} (hw : w < 128) (hw' : w' < 128) :
    (setWord8192 v w x).extractLsb' (64 * w') 64 = if w' = w then x else v.extractLsb' (64 * w') 64 :=
  extractLsb'_replaceWord v x w w' (by omega) (by omega)

section
variable {s : State} {n o : Nat} {r : Reg}

/-- What the VEC block shows after a write of SREG. -/
theorem vecView_setSreg (h : Reg.inVec n o = some r) {k : Nat} (hk : k ≠ 0) (x : W64) :
    (s.modTile n (fun t => t.setS k x)).vecView n r = if r = .vecSreg n k then x else s.vecView n r := by
  rcases inVec_cases h with rfl | rfl | rfl | rfl | ⟨k', rfl⟩ | ⟨k', w', -, rfl⟩ | ⟨w', -, rfl⟩
  case inr.inr.inr.inr.inl => simp [State.vecView, sreg_setS _ _ _ hk]
  all_goals simp [State.vecView, Tile.setS, hk, Tile.preg, Tile.vreg]

/-- What the VEC block shows after a write of PREG. -/
theorem vecView_setPreg (h : Reg.inVec n o = some r) {k w : Nat} (hk : k ≠ 0) (hw : w < 4) (x : W64) (f : Nat → Bool) :
    (s.modTile n (fun t => t.setP k (setWord64 (t.preg k) w x) f)).vecView n r = if r = .vecPreg n k w then x else s.vecView n r := by
  rcases inVec_cases h with rfl | rfl | rfl | rfl | ⟨k', rfl⟩ | ⟨k', w', hw', rfl⟩ | ⟨w', -, rfl⟩
  case inr.inr.inr.inr.inr.inl =>
    simp only [State.vecView, tile_modTile_same, preg_setP _ _ _ _ hk, Reg.vecPreg.injEq, true_and]
    by_cases hkk : k' = k
    · subst hkk; simp [extractLsb'_setWord64 _ _ hw hw']
    · simp [hkk]
  all_goals simp [State.vecView, Tile.setP, hk, Tile.sreg, Tile.vreg]

/-- What the VEC block shows after a write of VREG_DATA. -/
theorem vecView_setVreg (h : Reg.inVec n o = some r) {w : Nat} (hw : w < 128) (x : W64) (f : Nat → Bool) :
    (s.modTile n (fun t => t.setV (s.rf (.vecVregSel n) Fld.vecVregSelReg)
      (setWord8192 (t.vreg (s.rf (.vecVregSel n) Fld.vecVregSelReg)) w x) f)).vecView n r
      = if r = .vecVregData n w then x else s.vecView n r := by
  rcases inVec_cases h with rfl | rfl | rfl | rfl | ⟨k', rfl⟩ | ⟨k', w', -, rfl⟩ | ⟨w', hw', rfl⟩
  case inr.inr.inr.inr.inr.inr => simp [State.vecView, vreg_setV, extractLsb'_setWord8192 _ _ hw hw']
  all_goals simp [State.vecView, Tile.setV, Tile.sreg, Tile.preg]

/-- What the VEC block shows after a write of one of its registers of program state. -/
theorem vecView_setVecView {r' : Reg} {o' : Nat} (h : Reg.inVec n o = some r) (h' : Reg.inVec n o' = some r') (hv : isVecState r = true)
    (hs : r ≠ .vecSreg n 0) (hp : ∀ w, r ≠ .vecPreg n 0 w) (addr size : Nat) (x : W64) :
    (s.setVecView n r addr size x).vecView n r' = if r' = r then x else s.vecView n r' := by
  rcases inVec_cases h with rfl | rfl | rfl | rfl | ⟨k, rfl⟩ | ⟨k, w, hw, rfl⟩ | ⟨w, hw, rfl⟩
  · rcases inVec_cases h' with rfl | rfl | rfl | rfl | ⟨k', rfl⟩ | ⟨k', w', -, rfl⟩ | ⟨w', -, rfl⟩ <;>
      simp [State.setVecView, State.vecView, Tile.sreg, Tile.preg, Tile.vreg]
  · rcases inVec_cases h' with rfl | rfl | rfl | rfl | ⟨k', rfl⟩ | ⟨k', w', -, rfl⟩ | ⟨w', -, rfl⟩ <;>
      simp [State.setVecView, State.vecView, Tile.sreg, Tile.preg, Tile.vreg]
  · exact absurd hv (by simp [isVecState])
  · exact absurd hv (by simp [isVecState])
  · exact vecView_setSreg h' (fun hk => hs (by rw [hk])) x
  · exact vecView_setPreg h' (fun hk => hp w (by rw [hk])) hw x _
  · exact vecView_setVreg h' hw x _

end

/-- A write of program state changes the tile alone. -/
theorem setVecView_eq_modTile (s : State) {n o : Nat} {r : Reg} (h : Reg.inVec n o = some r) (hv : isVecState r = true) (addr size : Nat)
    (x : W64) : ∃ f, s.setVecView n r addr size x = s.modTile n f := by
  unfold State.setVecView
  rcases inVec_cases h with rfl | rfl | rfl | rfl | ⟨k, rfl⟩ | ⟨k, w, -, rfl⟩ | ⟨w, -, rfl⟩
  · exact ⟨_, rfl⟩
  · exact ⟨_, rfl⟩
  · exact absurd hv (by simp [isVecState])
  · exact absurd hv (by simp [isVecState])
  · exact ⟨_, rfl⟩
  · exact ⟨_, rfl⟩
  · exact ⟨_, rfl⟩

/-- A register of the VEC block of a tile by its local offset (R44, R254). -/
theorem ofAddr_vec {a n o : Nat} (hn : n < 384) (ho : o < 8192) (ha : a = 0xF0002000E000 + n * 0x100000 + o) :
    Reg.ofAddr a = Reg.inVec n o := by
  have hdiv : (a - 0xF00020000000) / 0x100000 = n := by omega
  have hmod : (a - 0xF00020000000) % 0x100000 = 0xE000 + o := by omega
  unfold Reg.ofAddr
  iterate 25 rw [if_neg (by omega)]
  rw [if_pos (by omega), hdiv, hmod]
  unfold Reg.inTileWindow
  iterate 4 rw [if_neg (by omega)]
  rw [if_pos (by omega), Nat.add_sub_cancel_left]

/-- What an offset of the VEC block of a tile names (R44). -/
theorem regPlace_vec {a n off : Nat} {r : Reg} (hn : n < 384) (ho : off < 8192) (ha : a = 0xF0002000E000 + n * 0x100000 + off)
    (h : Reg.inVec n (off / 8 * 8) = some r) : regPlace a = .reg r := by
  have hrow : registerRows.any (fun r => r.1 ≤ a && a < r.1 + r.2) = true :=
    List.any_eq_true.mpr ⟨(0xF00020000000, 0x20000000), by simp [registerRows], by simp; omega⟩
  have hregion : regionOf a = .registers := by
    unfold regionOf
    rw [if_neg (by omega), if_neg (by omega), if_neg (by omega), if_pos hrow]
  have hprog : progAt a = none := by
    unfold progAt
    rw [if_pos (by omega)]
    exact if_neg (by omega)
  have hwin : inRpWindow a = false := by simp [inRpWindow]; omega
  have hreg : Reg.ofAddr (a / 8 * 8) = some r := (ofAddr_vec hn (by omega) (by omega)).trans h
  simp only [regPlace, hregion, hwin, hprog, hreg, Bool.false_eq_true, if_false]

/-! ## Accesses of other agents -/

/-- An access of an agent that acts, to a unit that runs, has its effect. -/
theorem exec_agentActs {i : Instr} {s : State} {d : Nat} {a : Agent} {f : State → State} (hi : exec i s = agentDo d a s f)
    (hs : s.runs (max d (Agent.domain a)) = true) (ha : s.agentActs a = true) : exec i s = .next (f s) := by
  rw [hi, agentDo, clocked_runs hs, if_pos ha]

/-- An agent that does not act has no effect. -/
theorem exec_agentIdle {i : Instr} {s : State} {d : Nat} {a : Agent} {f : State → State} (hi : exec i s = agentDo d a s f)
    (ha : s.agentActs a = false) : exec i s = .next s := by
  rw [hi, agentDo, clocked]
  simp [ha]

/-! What the commands of other agents to a tile are. -/
theorem exec_programMemoryWrite (a : Agent) (n : TileId) (off : W16) (size : Nat) (data : W64) (s : State) :
    exec (.programMemoryWrite a n off size data) s = agentDo 6 a s (fun s => s.progWrite (Agent.who a) n off.toNat size data) := rfl

theorem exec_vecRegisterWrite (a : Agent) (n : TileId) (off : BitVec 13) (size : Nat) (data : W64) (s : State) :
    exec (.vecRegisterWrite a n off size data) s
      = agentDo 6 a s (fun s => s.csrWrite a (0xF0002000E000 + n.val * 0x100000 + off.toNat) size data) := rfl

theorem exec_agenSetupWrite (a : Agent) (n : TileId) (g w : Fin 8) (data : W64) (s : State) :
    exec (.agenSetupWrite a n g w data) s
      = agentDo 6 a s (fun s => s.agenWrite (Agent.who a) n g w (Reg.agenSetup n g w).addr 8 data) := rfl

theorem exec_apertureAccess (a : Agent) (n : TileId) (off : BitVec 23) (access : SizedAccess Nat) (write : Option (List Byte)) (s : State) :
    exec (.apertureAccess a n off access write) s = agentDo 6 a s (fun s => match apertureFault a off.toNat access with
      | some c => s.accessFault c (apBase n + off.toNat)
      | none =>
        let (s, r) := s.apertureAccess (Agent.who a) n off.toNat access.size write
        (s.observe r).coreLost a (apBase n + off.toNat) r.isNone) := by rfl

/-- A write of program state has the effect of its row (R77). -/
theorem writeAction_vec (s : State) (w : Who) {n o : Nat} {r : Reg} (h : Reg.inVec n o = some r) (hv : isVecState r = true)
    (addr size : Nat) (data : W64) : s.writeAction w r addr size data = s.vecWrite w n r addr size data := by
  rcases inVec_cases h with rfl | rfl | rfl | rfl | ⟨k, rfl⟩ | ⟨k, w, -, rfl⟩ | ⟨w, -, rfl⟩
  · rfl
  · rfl
  · exact absurd hv (by simp [isVecState])
  · exact absurd hv (by simp [isVecState])
  · rfl
  · rfl
  · rfl

/-- A regular write of program state of an open sequencer sets it. -/
theorem csrWrite_vec {s : State} {a : Agent} {addr n off size : Nat} {r : Reg} (data : W64) (hn : n < 384) (ho : off < 8192)
    (ha : addr = 0xF0002000E000 + n * 0x100000 + off) (h : Reg.inVec n (off / 8 * 8) = some r) (hv : isVecState r = true)
    (hz : irregularSize addr size = false) (hopen : s.seqOpen n = true) :
    s.csrWrite a addr size data = s.setVecView n r addr size (mergeHalf (s.vecView n r) addr size data) := by
  have hb : basecampOnly addr = false := by simp [basecampOnly]; omega
  rw [csrWrite_reg data (regPlace_vec hn ho ha h) hz (.inl hb), writeAction_vec s _ h hv, State.vecWrite, if_pos hopen]

/-! ## AGEN.SETUP (R83, R95) -/

theorem agen_setAgen (t : Tile) (a a' : Nat) (x : Agen) : (t.setAgen a x).agen a' = if a' = a then x else t.agen a' := kget_nset ..

/-- An AGEN with a word of its loaded set-up replaced. -/
def Agen.setWord (y : Agen) (w : Nat) (x : W64) : Agen :=
  { y with loaded := BitVec.ofNat 512 (y.loaded.toNat - bitsOf y.loaded.toNat (64 * w) 64 * 2 ^ (64 * w) + x.toNat * 2 ^ (64 * w)) }

/-- The words of a loaded set-up after one of them was replaced. -/
theorem setupWord_setWord (s : State) (n : Nat) (g g' w w' : Fin 8) (x : W64) :
    (s.modTile n (fun t => t.setAgen g ((t.agen g).setWord w x))).setupWord n g' w'
      = if (g', w') = (g, w) then x else s.setupWord n g' w' := by
  rw [State.setupWord, tile_modTile_same, agen_setAgen]
  by_cases hg : g' = g
  · subst hg
    rw [if_pos rfl, Agen.setWord, extractLsb'_replaceWord _ _ _ _ (by omega) (by omega)]
    simp [Fin.ext_iff, State.setupWord]
  · rw [if_neg (fun h => hg (Fin.ext h)), if_neg (fun h => hg (congrArg Prod.fst h)), State.setupWord]

/-- A write of a word of AGEN.SETUP of an open sequencer. -/
theorem agenWrite_open {s : State} (who : Who) {n : Nat} (a w addr : Nat) (data : W64) (h : s.seqOpen n = true) :
    s.agenWrite who n a w addr 8 data = s.modTile n (fun t => t.setAgen a ((t.agen a).setWord w data)) := by
  rw [State.agenWrite, if_pos h]; rfl

/-! ## The aperture (R35) -/

/-- Bytes within one line are one piece. -/
theorem pieces_oneLine {a n : Nat} (hn : 0 < n) (h : a % 64 + n ≤ 64) : pieces a n = [(a, n)] := by
  have hlast : (a + n - 1) / 64 - a / 64 + 1 = 1 := by omega
  have hlo : max a (64 * (a / 64)) = a := by omega
  have hhi : min (a + n) (64 * (a / 64) + 64) - a = n := by omega
  rw [pieces, if_neg (by omega), hlast]
  simp only [List.range'_one, List.map_cons, List.map_nil, hlo, hhi]

/-- A core whose access lost nothing takes no exception. -/
theorem coreLost_false (s : State) (a : Agent) (addr : Nat) : s.coreLost a addr false = s := by cases a <;> rfl

/-- A read of clean bytes within one line returns them. -/
theorem apertureAccess_read {s : State} (w : Who) {n off size : Nat} (hn : 0 < size) (h : off % 64 + size ≤ 64) (hc : CleanBank s n off size) :
    s.apertureAccess w n off size none = (s, some (s.bytesAt (apBase n + off) size)) := by
  simp [State.apertureAccess, pieces_oneLine hn h, sramRead_clean s w n off size hc]

/-- A write of bytes within one clean line stores them. -/
theorem apertureAccess_write {s : State} (w : Who) {n off : Nat} (size : Nat) {l : List Byte} (hl : l ≠ []) (h : off % 64 + l.length ≤ 64)
    (hc : CleanBank s n off l.length) : s.apertureAccess w n off size (some l) = (s.store (apBase n + off) l, some []) := by
  simp [State.apertureAccess, pieces_oneLine (List.length_pos_iff.mpr hl) h, sramWrite_clean s w n off l hl hc]

/-- The write-back of a corrected word that still decodes (R34). -/
theorem sramWriteBack_decodes {s : State} {n w : Nat} {rest : List Nat} (h : (s.tile n).writeBack = w :: rest) (hu : w ∉ s.ue) :
    s.sramWriteBack n = { s.modTile n (fun t => { t with writeBack := rest }) with ce := s.ce.filter (· != w) } := by
  simp [State.sramWriteBack, h, hu]

/-- Settles O3: an access that is taken is one change of the tile or one access of its memory, and a core that does not run makes none. -/
theorem tileIsWrittenFromOutside : Obligations.TileIsWrittenFromOutside := by
  unfold Obligations.TileIsWrittenFromOutside
  refine ⟨fun s a n off size data hs ha ho hz => ?_, fun s a n off size data r hs ha ho hz hr hv h0 hp => ?_,
    fun s a n g w data hs ha ho => ?_, fun s a n off size hs ha h1 h2 hc hf => ?_, fun s a n off l hs ha h2 hc hl hf => ?_,
    fun s n w rest hs hw hu => ?_, fun s c n off o v g w size access write data hc => ⟨?_, ?_, ?_, ?_⟩⟩
  · refine (exec_agentActs (exec_programMemoryWrite ..) hs ha).trans ?_
    rw [State.progWrite, if_neg (ne_true_of_eq_false hz), if_pos ho]
  · refine ⟨_, exec_agentActs (exec_vecRegisterWrite ..) hs ha, ?_⟩
    rw [csrWrite_vec data n.isLt off.isLt rfl hr hv hz ho]
    refine ⟨(vecView_setVecView hr hr hv h0 hp _ _ _).trans (if_pos rfl), fun o r' hr' hne =>
      (vecView_setVecView hr hr' hv h0 hp _ _ _).trans (if_neg hne), ?_⟩
    obtain ⟨f, hf⟩ := setVecView_eq_modTile s hr hv (0xF0002000E000 + n.val * 0x100000 + off.toNat) size
      (mergeHalf (s.vecView n r) (0xF0002000E000 + n.val * 0x100000 + off.toNat) size data)
    rw [hf]
    exact ⟨fun m hm => tile_modTile_ne _ _ _ _ hm, modTile_frame ..⟩
  · refine ⟨_, exec_agentActs (exec_agenSetupWrite ..) hs ha, ?_⟩
    rw [agenWrite_open _ _ _ _ _ ho]
    exact ⟨(setupWord_setWord ..).trans (if_pos rfl), fun g' w' hne => (setupWord_setWord ..).trans (if_neg hne),
      fun m hm => tile_modTile_ne _ _ _ _ hm, modTile_frame ..⟩
  · refine (exec_agentActs (exec_apertureAccess ..) hs ha).trans ?_
    simp only [hf, apertureAccess_read _ h1 h2 hc, State.observe, Option.isNone_some, coreLost_false]
  · refine (exec_agentActs (exec_apertureAccess ..) hs ha).trans ?_
    simp only [hf, apertureAccess_write _ _ hl h2 hc, State.observe, Option.isNone_some, coreLost_false]
    rfl
  · refine completes_clocked (f := fun s => s.sramWriteBack n) rfl hs ?_
    rw [sramWriteBack_decodes hw hu]
    refine ⟨by simp, fun x hx => by simp [hx], ?_, rfl, rfl, fun m hm => ?_, rfl⟩
    · exact congrArg Tile.writeBack (tile_modTile_same s n (fun t => { t with writeBack := rest }))
    · exact tile_modTile_ne s n m (fun t => { t with writeBack := rest }) hm
  · exact exec_agentIdle (exec_programMemoryWrite ..) hc
  · exact exec_agentIdle (exec_vecRegisterWrite ..) hc
  · exact exec_agentIdle (exec_agenSetupWrite ..) hc
  · exact exec_agentIdle (exec_apertureAccess ..) hc

end Machine
end Sys2Proof
end

section
/-! What the memory side, the homes and the router leave of the tiles: all of them. An access of a unit to a memory window or to another device
changes caches, directories, messages, ports and registers, and no tile (R250 to R306). -/

namespace Sys2Proof.Machine

/-! ## Folds and pairs -/

/-- A fold of steps that leave the tiles leaves the tiles. -/
theorem foldl_tiles {α : Type} {f : State → α → State} (hf : ∀ s a, (f s a).tiles = s.tiles) (l : List α) (s : State) :
    (l.foldl f s).tiles = s.tiles := by
  induction l generalizing s with
  | nil => rfl
  | cons a l ih => exact (ih _).trans (hf s a)

/-- The state of a pair that an operation gives. -/
theorem tiles_of_eq {β : Type} {p : State × β} {s t : State} {b : β} (h : p = (t, b)) (hp : p.1.tiles = s.tiles) : t.tiles = s.tiles := by
  rw [h] at hp; exact hp

/-! ## Records and the freeze (R394, R404) -/

@[simp] theorem setRing_tiles (s : State) (r : Nat) (x : Ring) : (s.setRing r x).tiles = s.tiles := rfl

@[simp] theorem frozenFrames_tiles (s : State) : s.frozenFrames.tiles = s.tiles := by
  unfold State.frozenFrames; dsimp only; split_ifs <;> rfl

@[simp] theorem freeze_tiles (s : State) (source cls : Nat) : (s.freeze source cls).tiles = s.tiles := by
  unfold State.freeze; split
  · rfl
  · exact frozenFrames_tiles _

@[simp] theorem holdRecord_tiles (s : State) (l : List Byte) : (s.holdRecord l).tiles = s.tiles := by
  unfold State.holdRecord; exact foldl_tiles (fun s w => rset_tiles s (.frzRecord w) _) _ _

@[simp] theorem report_tiles (s : State) (r : FaultRec) : (s.report r).tiles = s.tiles := by
  unfold State.report; dsimp only; split
  · rfl
  · split
    · rw [freeze_tiles, holdRecord_tiles]
    · rfl

@[simp] theorem outOfRange_tiles (s : State) (w : Who) (a : Nat) : (s.outOfRange w a).tiles = s.tiles := by
  simp [State.outOfRange]
@[simp] theorem undecoded_tiles (s : State) (w : Who) (a : Nat) : (s.undecoded w a).tiles = s.tiles := by
  simp [State.undecoded]
@[simp] theorem irregular_tiles (s : State) (w : Who) (a : Nat) : (s.irregular w a).tiles = s.tiles := by
  simp [State.irregular]

/-! ## The memory side (R232 to R245, R260) -/

@[simp] theorem loseWords_tiles (s : State) (l : List Nat) : (s.loseWords l).tiles = s.tiles := rfl

@[simp] theorem checkEvict_tiles (s : State) (h : Nat) (e : CheckUnit) : (s.checkEvict h e).tiles = s.tiles := by
  unfold State.checkEvict; split <;> rfl

@[simp] theorem checkUse_tiles (s : State) (h ch j : Nat) (w : Bool) (u : Nat) : (s.checkUse h ch j w u).tiles = s.tiles := by
  unfold State.checkUse; dsimp only
  rw [foldl_tiles (fun s e => checkEvict_tiles s h e), setMc_tiles]

@[simp] theorem checkAccess_tiles (s : State) (la : Nat) (w : Bool) : (s.checkAccess la w).tiles = s.tiles := by
  unfold State.checkAccess; exact foldl_tiles (fun _ _ => checkUse_tiles ..) _ _

@[simp] theorem checkRewrite_tiles (s : State) (la : Nat) : (s.checkRewrite la).tiles = s.tiles := rfl
@[simp] theorem zeroGroup_tiles (s : State) (h ch g : Nat) : (s.zeroGroup h ch g).tiles = s.tiles := rfl

@[simp] theorem initGroup_tiles (s : State) (la : Nat) : (s.initGroup la).tiles = s.tiles := by
  unfold State.initGroup; split <;> rfl

@[simp] theorem modSlc_tiles (s : State) (la : Nat) (f : SlcLine → SlcLine) : (s.modSlc la f).tiles = s.tiles := rfl
@[simp] theorem dropWriteBack_tiles (s : State) (la : Nat) : (s.dropWriteBack la).tiles = s.tiles := rfl
@[simp] theorem freshLine_tiles (s : State) (la : Nat) : (s.freshLine la).tiles = s.tiles := by
  unfold State.freshLine; simp

@[simp] theorem storeLine_tiles (s : State) (a : Nat) (l : List Byte) : (s.storeLine a l).tiles = s.tiles := by
  unfold State.storeLine; dsimp only; split <;> simp

@[simp] theorem noteRow_tiles (s : State) (h la words : Nat) (u : Bool) : (s.noteRow h la words u).tiles = s.tiles := by
  unfold State.noteRow
  extract_lets m row old cnt new low rest rest s2
  have h2 : s2.tiles = s.tiles := rfl
  split
  · rw [bumpF_tiles, h2]
  · exact h2

@[simp] theorem countCorrected_tiles (s : State) (la words : Nat) : (s.countCorrected la words).tiles = s.tiles := rfl
@[simp] theorem correctedDram_tiles (s : State) (la words : Nat) : (s.correctedDram la words).tiles = s.tiles := by
  simp [State.correctedDram]

@[simp] theorem correctedLine_tiles (s : State) (la words : Nat) : (s.correctedLine la words).tiles = s.tiles := by
  unfold State.correctedLine; split <;> simp

@[simp] theorem slcCount_tiles (s : State) (la : Nat) : (s.slcCount la).tiles = s.tiles := by
  unfold State.slcCount; dsimp only; split <;> rfl

@[simp] theorem lineErrors_tiles (s : State) (w : Who) (a : Nat) : (s.lineErrors w a).1.tiles = s.tiles := by
  unfold State.lineErrors; dsimp only; split
  · split <;> simp
  · split <;> simp

@[simp] theorem mergeRead_tiles (s : State) (la words : Nat) : (s.mergeRead la words).tiles = s.tiles := by
  unfold State.mergeRead; dsimp only; split
  · rfl
  · split <;> simp

@[simp] theorem keepUe_tiles (s : State) (w : Who) (la : Nat) (keep : List Nat) (c : Nat) : (s.keepUe w la keep c).tiles = s.tiles := by
  unfold State.keepUe; dsimp only; split
  · rfl
  · rw [report_tiles]; split <;> simp

@[simp] theorem homeWrite_tiles (s : State) (w : Who) (la : Nat) (m : W64) (d : Line) : (s.homeWrite w la m d).tiles = s.tiles := by
  simp [State.homeWrite]

@[simp] theorem slcEvict_tiles (s : State) (e : SlcLine) : (s.slcEvict e).tiles = s.tiles := by
  unfold State.slcEvict; split <;> simp

@[simp] theorem slcFill_tiles (s : State) (la : Nat) : (s.slcFill la).tiles = s.tiles := by
  unfold State.slcFill
  extract_lets h x s2 e l
  have h2 : s2.tiles = s.tiles := by unfold s2; split <;> rfl
  rw [foldl_tiles slcEvict_tiles, setHome_tiles, h2]

@[simp] theorem readLine_tiles (s : State) (w : Who) (la : Nat) : (s.readLine w la).1.tiles = s.tiles := by
  unfold State.readLine
  split
  next t ok h =>
    have ht := (tiles_of_eq h (lineErrors_tiles ..)).trans (slcCount_tiles s la)
    dsimp only; split
    · exact ht
    · rw [checkAccess_tiles, ht]

@[simp] theorem homeRead_tiles (s : State) (w : Who) (la : Nat) : (s.homeRead w la).1.tiles = s.tiles := by
  unfold State.homeRead; split
  next t ok h => exact tiles_of_eq h (readLine_tiles ..)

/-! ## Cores (R273, R275) -/

@[simp] theorem makeRoom_tiles (s : State) (c la : Nat) : (s.makeRoom c la).tiles = s.tiles := by
  unfold State.makeRoom; dsimp only; split
  · rfl
  · split
    · split <;> simp
    · rfl

@[simp] theorem missFails_tiles (s : State) (c la : Nat) : (s.missFails c la).tiles = s.tiles := rfl
@[simp] theorem modMiss_tiles (s : State) (c la : Nat) (f : Miss → Miss) : (s.modMiss c la f).tiles = s.tiles := rfl

@[simp] theorem fillCore_tiles (s : State) (c la : Nat) : (s.fillCore c la).tiles = s.tiles := by
  unfold State.fillCore; dsimp only; split
  · split
    · rw [mesh_tiles, setCore_tiles]; split <;> simp
    · rfl
  · rfl

@[simp] theorem answer_tiles (s : State) (k : SnpKind) (c la : Nat) (fwd : Option Nat) (a : Option Agent) (e : Bool) :
    (s.answer k c la fwd a e).tiles = s.tiles := by
  unfold State.answer; dsimp only; split
  · simp
  · split
    · simp
    · split
      · simp
      · cases k with
        | shared => cases fwd <;> dsimp only <;> split <;> simp
        | inv => cases fwd <;> dsimp only <;> [split <;> simp; simp]
        | cur => cases a <;> simp

@[simp] theorem onGrant_tiles (s : State) (g : LineState) (c la : Nat) (m : W64) (d : Line) : (s.onGrant g c la m d).tiles = s.tiles := by
  unfold State.onGrant; split <;> simp

@[simp] theorem onDeny_tiles (s : State) (c la : Nat) : (s.onDeny c la).tiles = s.tiles := by
  unfold State.onDeny; dsimp only; split <;> simp

@[simp] theorem onData_tiles (s : State) (c la : Nat) (d : Line) : (s.onData c la d).tiles = s.tiles := by
  unfold State.onData; dsimp only; split <;> simp

@[simp] theorem spoilDram_tiles (s : State) (la : Nat) : (s.spoilDram la).tiles = s.tiles := by simp [State.spoilDram]
@[simp] theorem spoilLine_tiles (s : State) (la : Nat) : (s.spoilLine la).tiles = s.tiles := by simp [State.spoilLine]

@[simp] theorem onFwdData_tiles (s : State) (c la : Nat) (d : Line) (x : Bool) : (s.onFwdData c la d x).tiles = s.tiles := by
  unfold State.onFwdData; split
  · simp
  · split <;> simp

/-! ## Homes (R259 to R276) -/

@[simp] theorem snoop_tiles (s : State) (k : SnpKind) (c la : Nat) (fwd : Option Nat) (a : Option Agent) :
    (s.snoop k c la fwd a).tiles = s.tiles := rfl
@[simp] theorem openTxn_tiles (s : State) (la : Nat) (why : TxnWhy) (w : List Nat) (g : Bool) : (s.openTxn la why w g).tiles = s.tiles := rfl
@[simp] theorem modTxn_tiles (s : State) (la : Nat) (f : Txn → Txn) : (s.modTxn la f).tiles = s.tiles := rfl
@[simp] theorem closeTxn_tiles (s : State) (la : Nat) : (s.closeTxn la).tiles = s.tiles := rfl

/-- Snoops to cores leave the tiles. -/
theorem snoops_tiles (k : SnpKind) (la : Nat) (l : List Nat) (s : State) :
    (l.foldl (fun s c => s.snoop k c la none none) s).tiles = s.tiles := foldl_tiles (fun s c => snoop_tiles s k c la none none) _ _

@[simp] theorem recall_tiles (s : State) (e : DirEntry) (b : Option Nat) : (s.recall e b).tiles = s.tiles := by
  unfold State.recall; dsimp only; rw [snoops_tiles, openTxn_tiles]

/-- A home fills its system-level cache and sends two messages. -/
theorem fillSend_tiles (s : State) (h : Nat) (x : Home) (la : Nat) (m n : Msg) (f : Txn → Txn) :
    ((((s.setHome h x).slcFill la |>.mesh! m).mesh! n).modTxn la f).tiles = s.tiles := by
  rw [modTxn_tiles, mesh_tiles, mesh_tiles, slcFill_tiles, setHome_tiles]

/-- A home gives up a miss. -/
theorem giveUp_tiles (s : State) (h : Nat) (x : Home) (c la : Nat) : (((s.setHome h x).closeTxn la).missFails c la).tiles = s.tiles := rfl

@[simp] theorem grantData_tiles (s : State) (c la : Nat) (st : DirState) (g : LineState) (way : Nat) (f : Option DirState) :
    (s.grantData c la st g way f).tiles = s.tiles := by
  have hr := homeRead_tiles s (coreWho c) la
  unfold State.grantData
  extract_lets h
  generalize s.homeRead (coreWho c) la = p at hr ⊢
  obtain ⟨t, _ | d⟩ := p
  · exact (giveUp_tiles ..).trans hr
  · exact (fillSend_tiles ..).trans hr

@[simp] theorem grant_tiles (s : State) (r : HomeReq) (c : Nat) (had : Bool) (way : Nat) : (s.grant r c had way).tiles = s.tiles := by
  unfold State.grant; dsimp only; split
  · split
    · split <;> simp
    · split <;> simp
    · simp
  · split <;> split <;> simp

@[simp] theorem finishWrite_tiles (s : State) (r : HomeReq) (m : W64) (d : Line) : (s.finishWrite r m d).tiles = s.tiles := by
  simp [State.finishWrite]

@[simp] theorem advance_tiles (s : State) (la : Nat) : (s.advance la).tiles = s.tiles := by
  unfold State.advance
  split
  · rfl
  next t _ =>
    extract_lets dataOk
    split
    · rfl
    · split
      · split
        · split
          · split
            · exact (setHome_tiles ..).trans (closeTxn_tiles ..)
            · exact closeTxn_tiles ..
          · exact closeTxn_tiles ..
        · rfl
      · split
        · split
          · exact (setHome_tiles ..).trans (closeTxn_tiles ..)
          · rfl
        next r _ =>
          generalize r.kind = k, r.agent = g
          cases k with
          | wrNA d =>
            dsimp only; split
            · exact finishWrite_tiles ..
            · rfl
          | wrPart m d =>
            dsimp only; split
            · exact finishWrite_tiles ..
            · rfl
          | rdNA =>
            dsimp only; split
            · exact closeTxn_tiles ..
            · have hr := (homeRead_tiles (s.closeTxn la) (Agent.who g) la).trans (closeTxn_tiles ..)
              generalize (s.closeTxn la).homeRead (Agent.who g) la = p at hr ⊢
              obtain ⟨u, _ | d⟩ := p
              · exact hr
              · exact (mesh_tiles ..).trans hr
          | rdShared | rdOwn | upgrade =>
            cases g with
            | core c => exact grant_tiles ..
            | _ => exact closeTxn_tiles ..

@[simp] theorem serveNew_tiles (s : State) (r : HomeReq) (c : Nat) (p : WayPick) : (s.serveNew r c p).1.tiles = s.tiles := by
  cases p with
  | free w => exact grant_tiles ..
  | evict e b => exact (grant_tiles ..).trans ((openTxn_tiles ..).trans ((bumpF_tiles ..).trans ((recall_tiles ..).trans (setHome_tiles ..))))
  | none => rfl

@[simp] theorem serveCore_tiles (s : State) (r : HomeReq) (c : Nat) : (s.serveCore r c).1.tiles = s.tiles := by
  unfold State.serveCore
  extract_lets la h
  split
  · rfl
  · split
    · exact (mesh_tiles ..).trans (bumpF_tiles ..)
    · split
      · exact (mesh_tiles ..).trans (outOfRange_tiles ..)
      · split
        · split
          · exact (bumpF_tiles ..).trans (setHome_tiles ..)
          · exact serveNew_tiles ..
        next e _ =>
          split
          · split
            · extract_lets s2 s3
              have h3 : s3.tiles = s.tiles := (openTxn_tiles ..).trans (setHome_tiles ..)
              rw [grantData_tiles]; exact h3
            · split
              · rfl
              · exact (snoop_tiles ..).trans (openTxn_tiles ..)
          · extract_lets others s2
            have h2 : s2.tiles = s.tiles := openTxn_tiles ..
            split
            · exact (grant_tiles ..).trans h2
            · exact (snoops_tiles ..).trans h2

@[simp] theorem serveAgent_tiles (s : State) (r : HomeReq) : (s.serveAgent r).1.tiles = s.tiles := by
  unfold State.serveAgent
  extract_lets la h w
  split
  · dsimp only
    split
    · exact (mesh_tiles ..).trans (outOfRange_tiles ..)
    · exact outOfRange_tiles ..
  · split
    · exact (snoop_tiles ..).trans (openTxn_tiles ..)
    · have hr := homeRead_tiles s w la
      generalize s.homeRead w la = p at hr ⊢
      obtain ⟨t, _ | d⟩ := p
      · exact hr
      · exact (mesh_tiles ..).trans hr
    next e _ _ =>
      split
      · rfl
      · extract_lets s2 s3
        have h3 : s3.tiles = s.tiles := (snoops_tiles .inv la _ _).trans (openTxn_tiles ..)
        dsimp only
        split
        · exact (advance_tiles ..).trans h3
        · exact h3
    · exact (mesh_tiles ..).trans (homeWrite_tiles ..)
    · exact (mesh_tiles ..).trans (homeWrite_tiles ..)
    · rfl

@[simp] theorem serve_tiles (s : State) (r : HomeReq) : (s.serve r).1.tiles = s.tiles := by
  unfold State.serve
  split
  · exact serveCore_tiles ..
  · exact serveCore_tiles ..
  · exact serveCore_tiles ..
  · exact serveAgent_tiles ..

@[simp] theorem serveQueue_tiles (h : Nat) (l : List HomeReq) (s : State) (kept : List HomeReq) :
    (s.serveQueue h kept l).tiles = s.tiles := by
  induction l generalizing s kept with
  | nil => rfl
  | cons r l ih =>
    unfold State.serveQueue
    split
    · exact ih ..
    · split
      next t hs => exact (ih ..).trans (tiles_of_eq hs (serve_tiles ..))
      · exact ih ..

@[simp] theorem drainHome_tiles (s : State) (h : Nat) : (s.drainHome h).tiles = s.tiles := serveQueue_tiles ..

@[simp] theorem flipRecall_tiles (s : State) : s.flipRecall.tiles = s.tiles := by
  unfold State.flipRecall
  split
  · split
    · exact foldl_tiles (fun s h => foldl_tiles (fun s e => recall_tiles s e none) _ s) _ _
    · rfl
  · rfl

@[simp] theorem settleLine_tiles (s : State) (la : Nat) : (s.settleLine la).tiles = s.tiles :=
  (drainHome_tiles ..).trans ((flipRecall_tiles _).trans (advance_tiles ..))

/-! ## Messages (R272 to R275) -/

@[simp] theorem onCompAck_tiles (s : State) (la : Nat) : (s.onCompAck la).tiles = s.tiles := settleLine_tiles ..

@[simp] theorem onSnpAck_tiles (s : State) (c la : Nat) (had dirty wb : Bool) : (s.onSnpAck c la had dirty wb).tiles = s.tiles := by
  unfold State.onSnpAck
  extract_lets owner forCore s2
  have h2 : s2.tiles = s.tiles := by unfold s2; split <;> rfl
  exact (settleLine_tiles ..).trans h2

@[simp] theorem onSnpData_tiles (s : State) (la : Nat) (d : Line) : (s.onSnpData la d).tiles = s.tiles := by
  unfold State.onSnpData
  extract_lets discard s2
  have h2 : s2.tiles = s.tiles := by
    unfold s2; split
    · rfl
    · exact storeLine_tiles ..
  exact (settleLine_tiles ..).trans h2

@[simp] theorem absorb_tiles (s : State) (c la : Nat) (d : Option Line) : (s.absorb c la d).tiles = s.tiles := by
  unfold State.absorb
  extract_lets h s2 s3 x s4
  have h2 : s2.tiles = s.tiles := by
    unfold s2; split
    · split
      · exact (storeLine_tiles ..).trans (slcFill_tiles ..)
      · rfl
    · rfl
  have h4 : s4.tiles = s3.tiles := by unfold s4; split <;> rfl
  exact (settleLine_tiles ..).trans (h4.trans h2)

@[simp] theorem expireHold_tiles (s : State) (la : Nat) : (s.expireHold la).tiles = s.tiles := settleLine_tiles ..

@[simp] theorem onMsg_tiles (s : State) (m : Msg) : (s.onMsg m).tiles = s.tiles := by
  unfold State.onMsg
  split
  · exact answer_tiles ..
  · exact onGrant_tiles ..
  · exact onGrant_tiles ..
  · exact onCompAck_tiles ..
  · exact onSnpAck_tiles ..
  · exact onDeny_tiles ..
  · exact onData_tiles ..
  · exact onFwdData_tiles ..
  · exact onSnpData_tiles ..
  · exact absorb_tiles ..
  · exact absorb_tiles ..
  · rfl
  · rfl
  · rfl

/-! ## Row repair (R245) -/

@[simp] theorem repairRow_tiles (s : State) (h row : Nat) : (s.repairRow h row).tiles = s.tiles := by
  unfold State.repairRow
  extract_lets inRow cached bad s2
  exact (foldl_tiles spoilDram_tiles ..).trans (foldl_tiles checkRewrite_tiles ..)

@[simp] theorem repairDone_tiles (s : State) (h : Nat) : (s.repairDone h).tiles = s.tiles := by
  unfold State.repairDone
  extract_lets m
  split
  · rfl
  · extract_lets line used s2 s3 s4 s5 busy
    have h3 : s3.tiles = s.tiles := (repairRow_tiles ..).trans (setMc_tiles ..)
    have h5 : s5.tiles = s3.tiles := (setF_tiles ..).trans ((setF_tiles ..).trans (bumpF_tiles ..))
    exact (report_tiles ..).trans ((setB_tiles ..).trans (h5.trans h3))

@[simp] theorem repairEnd_tiles (s : State) (h : Nat) : (s.repairEnd h).tiles = s.tiles := (drainHome_tiles ..).trans (repairDone_tiles ..)

/-! ## Accesses to the memory windows (R256, R269) -/

@[simp] theorem clearLine_tiles (la : Nat) (write : Bool) (n : Nat) (s : State) : (s.clearLine la write n).tiles = s.tiles := by
  induction n generalizing s with
  | zero => rfl
  | succ n ih =>
    unfold State.clearLine
    extract_lets x held
    split
    · exact (ih _).trans (repairEnd_tiles ..)
    · split
      · split
        · exact (ih _).trans (expireHold_tiles ..)
        · rfl
      · split
        · exact (ih _).trans (onMsg_tiles ..)
        · split
          · exact (ih _).trans (expireHold_tiles ..)
          · rfl

@[simp] theorem lineTurn_tiles (s : State) (la : Nat) (write : Bool) : (s.lineTurn la write).tiles = s.tiles := by
  unfold State.lineTurn
  split
  · split
    · exact repairEnd_tiles ..
    · rfl
  · exact clearLine_tiles ..

@[simp] theorem takeCopies_tiles (s : State) (la : Nat) (whole : Bool) : (s.takeCopies la whole).tiles = s.tiles := by
  unfold State.takeCopies
  split
  · rfl
  · split
    · rfl
    next e _ =>
      extract_lets s2 s3 h
      have h2 : s2.tiles = s.tiles := bumpF_tiles ..
      have h3 : s3.tiles = s2.tiles := by
        refine foldl_tiles (fun s c => ?_) _ _
        refine (setCore_tiles ..).trans ?_
        split
        · split
          · rfl
          · exact storeLine_tiles ..
        · rfl
      exact (setHome_tiles ..).trans (h3.trans h2)

@[simp] theorem winWrite_tiles (s : State) (w : Who) (a : Nat) (l : List Byte) : (s.winWrite w a l).1.tiles = s.tiles := by
  unfold State.winWrite
  split
  · exact outOfRange_tiles ..
  · extract_lets la s2 keep corrected
    have h2 : s2.tiles = s.tiles := (takeCopies_tiles ..).trans (lineTurn_tiles ..)
    exact (keepUe_tiles ..).trans ((storeLine_tiles ..).trans ((mergeRead_tiles ..).trans h2))

/-! ## The router (R280 to R294) and the health counters (R114) -/

@[simp] theorem putFlit_tiles (s : State) (p seq typ start : Nat) (slots : List (BitVec 128)) (nak : Bool) :
    (s.putFlit p seq typ start slots nak).1.tiles = s.tiles := rfl

@[simp] theorem putSlots_tiles (p n start : Nat) (l : List (BitVec 128)) (s : State) : (s.putSlots p n start l).tiles = s.tiles := by
  induction n generalizing s start l with
  | zero => rfl
  | succ n ih =>
    unfold State.putSlots
    extract_lets x
    split
    next t f hf =>
      have ht : t.tiles = s.tiles := tiles_of_eq hf (putFlit_tiles ..)
      extract_lets x' s2 s3
      have h3 : s3.tiles = s.tiles := (bumpF_tiles ..).trans ht
      split
      · exact h3
      · exact (ih ..).trans h3

@[simp] theorem pump_tiles (p n : Nat) (s : State) : (s.pump p n).tiles = s.tiles := by
  induction n generalizing s with
  | zero => rfl
  | succ n ih =>
    unfold State.pump
    split
    · rfl
    · split
      · rfl
      · extract_lets x key s2 s3 x' s4
        have h3 : s3.tiles = s.tiles := (putSlots_tiles ..).trans (setPort_tiles ..)
        exact (ih _).trans ((setPort_tiles ..).trans h3)

@[simp] theorem enqueue_tiles (s : State) (p : Nat) (k : Pkt) : (s.enqueue p k).tiles = s.tiles := (pump_tiles ..).trans (setPort_tiles ..)

@[simp] theorem routed_tiles (s : State) (w : Who) (k : Pkt) : (s.routed w k).1.tiles = s.tiles := by
  unfold State.routed
  split
  · dsimp only; split
    · exact bumpF_tiles ..
    · rfl
  · exact (report_tiles ..).trans (bumpF_tiles ..)

@[simp] theorem sendPkt_tiles (s : State) (w : Who) (k : Pkt) : (s.sendPkt w k).1.tiles = s.tiles := by
  unfold State.sendPkt
  split
  next t p h => exact (enqueue_tiles ..).trans (tiles_of_eq h (routed_tiles ..))
  next t h => exact tiles_of_eq h (routed_tiles ..)

@[simp] theorem request_tiles (s : State) (w : Who) (o : Owner) (vc typ dev off : Nat) (payload : List Byte) (write : Bool) (n pos : Nat) :
    (s.request w o vc typ dev off payload write n pos).1.tiles = s.tiles := by
  unfold State.request
  extract_lets t k
  split
  next u ok h =>
    have hu : u.tiles = s.tiles := tiles_of_eq h (sendPkt_tiles ..)
    split <;> exact hu

@[simp] theorem writeHereReg_tiles (s : State) (w : Who) (o : Owner) (off : Nat) (l : List Byte) :
    (s.writeHereReg w o off l).tiles = s.tiles := by
  unfold State.writeHereReg
  split
  · exact irregular_tiles ..
  · rfl

@[simp] theorem ackDesc_tiles (s : State) (o : Owner) : (s.ackDesc o).tiles = s.tiles := by
  unfold State.ackDesc
  split <;> rfl

@[simp] theorem dropFetched_tiles (s : State) (o : Owner) : (s.dropFetched o).tiles = s.tiles := rfl

@[simp] theorem health_tiles (s : State) (n tensor : Nat) (ev : List HealthEvent) : (s.health n tensor ev).tiles = s.tiles := by
  unfold State.health
  split
  · rfl
  · extract_lets k add s2 s3 s4
    have hadd : ∀ (s : State) (c m : Nat), (add s c m).tiles = s.tiles := by
      intro s c m; unfold add; split
      · rfl
      · exact bumpF_tiles ..
    exact (hadd ..).trans ((hadd ..).trans ((hadd ..).trans (hadd ..)))

end Sys2Proof.Machine
end

section
/-! What drains and transfers do when they start and complete (R30, R61, R62, R92, R94). -/

namespace Sys2Proof.Machine

/-! ## The arrays of tiles under writes of a drained row -/

/-- The arrays of every tile are as they were. -/
structure SameArrays (s t : State) : Prop where
  arrays : ∀ k, (t.tile k).arrays = (s.tile k).arrays

theorem SameArrays.refl (s : State) : SameArrays s s := ⟨fun _ => rfl⟩

theorem SameArrays.trans {s t u : State} (h : SameArrays s t) (h' : SameArrays t u) : SameArrays s u :=
  ⟨fun k => (h'.arrays k).trans (h.arrays k)⟩

/-- What leaves the tiles leaves their arrays. -/
theorem SameArrays.of_tiles {s t : State} (h : t.tiles = s.tiles) : SameArrays s t :=
  ⟨fun k => by rw [State.tile, State.tile, h]⟩

/-- A change of a tile that leaves its arrays. -/
theorem SameArrays.modTile (s : State) (n : Nat) {f : Tile → Tile} (h : (f (s.tile n)).arrays = (s.tile n).arrays) :
    SameArrays s (s.modTile n f) := by
  constructor
  intro k
  by_cases hk : k = n
  · rw [hk, tile_modTile_same, h]
  · rw [tile_modTile_ne s n k f hk]

/-- A fold that stops at the first failure leaves the arrays where each of its steps does. -/
theorem SameArrays.foldl {α : Type} {f : State → α → State × Bool} (hf : ∀ s a, SameArrays s (f s a).1) (l : List α) (x : State × Bool) :
    SameArrays x.1 (l.foldl (fun acc a => if acc.2 then f acc.1 a else acc) x).1 := by
  induction l generalizing x with
  | nil => exact .refl _
  | cons a l ih =>
    refine SameArrays.trans ?_ (ih _)
    dsimp only
    split
    · exact hf ..
    · exact .refl _

/-- An array of a tile that keeps its arrays. -/
theorem SameArrays.array {s t : State} (h : SameArrays s t) (n m : Nat) : (t.tile n).array m = (s.tile n).array m := by
  rw [Tile.array, Tile.array, h.arrays]

theorem sameArrays_sramUe (s : State) (n : Nat) (r : FaultRec) : SameArrays s (s.sramUe n r) :=
  .of_tiles ((report_tiles ..).trans (setF_tiles ..))

theorem sameArrays_sramCorrected (s : State) (n : Nat) (ws : List Nat) : SameArrays s (s.sramCorrected n ws) := by
  unfold State.sramCorrected
  split
  · exact .refl _
  · exact .trans (.of_tiles ((bumpF_tiles ..).trans (setF_tiles ..))) (.modTile _ _ rfl)

theorem sameArrays_sramWrite (s : State) (w : Who) (n o : Nat) (l : List Byte) : SameArrays s (s.sramWrite w n o l).1 := by
  unfold State.sramWrite
  split
  · exact .refl _
  · split
    · exact .of_tiles (report_tiles ..)
    · split
      · exact sameArrays_sramUe ..
      · exact .trans (sameArrays_sramCorrected ..) (.of_tiles (store_tiles ..))

/-- A write that its home here performs and acknowledges. -/
theorem sameArrays_homed {s : State} {x : State × Bool} (o : Owner) (h : SameArrays s x.1) :
    SameArrays s (if x.2 then x.1.ackDesc o else x.1, x.2).1 := by
  dsimp only
  split
  · exact h.trans (.of_tiles (ackDesc_tiles ..))
  · exact h

theorem sameArrays_request (s : State) (w : Who) (o : Owner) (vc typ dev off : Nat) (l : List Byte) (write : Bool) (n pos : Nat) :
    SameArrays s (s.request w o vc typ dev off l write n pos).1 := .of_tiles (request_tiles ..)

theorem sameArrays_writeAt (s : State) (w : Who) (o : Owner) (vc a : Nat) (l : List Byte) (pos : Nat) :
    SameArrays s (s.writeAt w o vc a l pos).1 := by
  unfold State.writeAt
  split
  · exact .refl _
  · split
    · exact .of_tiles (undecoded_tiles ..)
    · split
      · extract_lets body
        split
        · exact sameArrays_request ..
        · exact sameArrays_request ..
      · split
        · exact sameArrays_request ..
        · exact sameArrays_request ..
    · extract_lets homed
      split
      · exact sameArrays_homed o (.of_tiles (winWrite_tiles ..))
      · exact sameArrays_homed o (.of_tiles (winWrite_tiles ..))
      · exact sameArrays_homed o (sameArrays_sramWrite ..)
      · exact .of_tiles (writeHereReg_tiles ..)
      · exact .of_tiles (undecoded_tiles ..)

theorem sameArrays_writeRange (s : State) (w : Who) (o : Owner) (vc a : Nat) (l : List Byte) : SameArrays s (s.writeRange w o vc a l).1 := by
  unfold State.writeRange
  exact SameArrays.foldl (f := fun s (p : Nat × Nat) => s.writeAt w o vc p.1 ((l.drop (p.1 - a)).take p.2))
    (fun s p => sameArrays_writeAt s w o vc p.1 _ 0) _ (s, true)

theorem sameArrays_writeSram (s : State) (n : Nat) (ps : List (Nat × List Byte)) : SameArrays s (s.writeSram n ps).1 := by
  unfold State.writeSram
  extract_lets parts s2
  have h2 : SameArrays s s2 := by
    unfold s2; split
    · exact sameArrays_sramWrite ..
    · exact .refl _
  exact h2.trans (SameArrays.foldl (fun s (p : Nat × List Byte) => sameArrays_sramWrite s _ n p.1 p.2) _ (s2, true))

theorem sameArrays_tileWrites (s : State) (n : Nat) (o : Owner) (ps : List (Nat × List Byte)) : SameArrays s (s.tileWrites n o ps).1 := by
  unfold State.tileWrites
  exact (sameArrays_writeSram ..).trans
    (SameArrays.foldl (fun s (p : Nat × List Byte) => sameArrays_writeRange s (Who.tile n) o VC.bulk p.1 p.2) _ _)

/-- Writing a drained row leaves the arrays of every tile (R92). -/
theorem sameArrays_drainRow (s : State) (n m : Nat) (d : DrainOp) (i : Nat) : SameArrays s (s.drainRow n m d i).1 := by
  unfold State.drainRow
  split
  next scales conv _ =>
    extract_lets s2
    have h2 : SameArrays s s2 := by
      unfold s2; split
      · exact .of_tiles (health_tiles ..)
      · exact .refl _
    exact h2.trans (sameArrays_tileWrites ..)

/-! ## Drains (R30, R92) -/

/-- The oldest drain of an array starts. -/
theorem drains_drainStarted {s : State} {n m : Nat} {d : DrainOp} {ds : List DrainOp} (h : ((s.tile n).array m).drains = d :: ds) :
    (((s.drainStarted n m).tile n).array m).drains = { d with started := true } :: ds := by
  simp [State.drainStarted, array_setArray, h]

/-- A drain that shares no byte with a masked element reads nothing first. -/
theorem drainReads_none (s : State) (n m : Nat) {d : DrainOp} (h : d.sharedBytes = []) : s.drainReads n m d = (s, .bytes []) := by
  have hneed : ∀ f : Nat → Nat → Nat, (maskBits d.rows).flatMap (fun i => d.sharedBytes.map (f i)) = [] := by simp [h]
  rw [State.drainReads, hneed fun i b => ((d.dest + BitVec.ofNat 64 i * d.pitch).toNat + b) % 2 ^ 64]
  rfl

/-- A drain that may read its set, without errors, and whose rows are all written starts. -/
theorem drainStartOp_written {s s' : State} {n m : Nat} {d : DrainOp} {ds : List DrainOp} (hd : ((s.tile n).array m).drains = d :: ds)
    (hst : d.started = false) (hp : (s.tile n).setInPass m d.set = false) (hf : (s.tile n).setFailed m d.set = false)
    (hu : (s.tile n).accUe = []) (hc : (s.tile n).accCe = []) (hb : d.sharedBytes = [])
    (hw : (maskBits d.rows).foldl (fun acc i => if acc.2 then acc.1.drainRow n m d i else acc) (s, true) = (s', true)) :
    drainStartOp n m s = (s'.dropFetched (.drain n m)).drainStarted n m := by
  simp only [drainStartOp, hd, hst, hp, hf, drainReads_none s n m hb, accErrors_clean m d.set _ _ hu hc, hw, Bool.or_self,
    Bool.false_eq_true, if_false]

/-- A tile that is not asked to stop goes on (R38). -/
theorem settle_going {s : State} {n : Nat} (h : (s.tile n).stopping = none) : s.settle n = s := by simp [State.settle, h]

/-- A started drain whose writes are acknowledged leaves its array. -/
theorem drainCompleteOp_acknowledged {s : State} {n m : Nat} {d : DrainOp} {ds : List DrainOp} (hd : ((s.tile n).array m).drains = d :: ds)
    (hst : d.started = true) (ha : s.ownAcks (.drain n m) = false) (hg : (s.tile n).stopping = none) :
    drainCompleteOp n m s = s.modTile n (fun t => t.setArray m { (s.tile n).array m with drains := ds }) := by
  rw [drainCompleteOp, hd]
  simp only [hst, ha, Bool.not_false, Bool.and_self, if_true]
  exact settle_going (by rw [tile_modTile_same]; exact hg)

/-! ## Transfers (R62, R94) -/

@[simp] theorem tile_dropFetched (s : State) (o : Owner) (n : Nat) : (s.dropFetched o).tile n = s.tile n := rfl

theorem tile_endWalk_same (s : State) (n a : Nat) : (s.endWalk n a).tile n = (s.tile n).endWalk a := by
  rw [State.endWalk, tile_dropFetched, tile_modTile_same]

theorem tile_endWalk_ne (s : State) {n j : Nat} (a : Nat) (h : j ≠ n) : (s.endWalk n a).tile j = s.tile j := by
  rw [State.endWalk, tile_dropFetched, tile_modTile_ne _ _ _ _ h]

/-- The end of a walk changes tiles and what reads have fetched. -/
theorem endWalk_frame (s : State) (n a : Nat) : { s.endWalk n a with tiles := s.tiles, fab := s.fab } = s := by rfl

/-- What runs on an AGEN after its walk ends is a queued transfer, and no walk of a pass (R62). -/
theorem endWalk_run {t : Tile} {a : Nat} {w : Walk} (h : ((t.endWalk a).agen a).run = some w) : w.forPass = false := by
  unfold Tile.endWalk at h
  extract_lets y y' at h
  split at h
  next v hv =>
    rw [agen_setAgen, if_pos rfl] at h
    split at h
    · cases h
    next hp =>
      cases h; simpa using hp
  next =>
    rw [agen_setAgen, if_pos rfl] at h
    cases h

/-- A transfer whose writes are acknowledged ends. -/
theorem xferEnd_acknowledged {s : State} {n a : Nat} (h : s.ownAcks (.agen n a) = false) : s.xferEnd n a = s.endWalk n a := by
  rw [State.xferEnd, h, if_neg Bool.false_ne_true]

/-- A transfer whose slices are all moved and acknowledged ends. -/
theorem xferCompleteOp_moved {s s' : State} {n a : Nat} {w : Walk} {l : List Byte} (hr : ((s.tile n).agen a).run = some w) (hp : w.forPass = false)
    (hi : w.issued = false) (hm : s.xferMove n a w.setup (walkLen w.setup - ((s.tile n).agen a).slice) = (s', .bytes l))
    (ha : (s'.modTile n (fun x => x.setAgen a { x.agen a with run := some { w with issued := true } })).ownAcks (.agen n a) = false) :
    xferCompleteOp n a s
      = (s'.modTile n (fun x => x.setAgen a { x.agen a with run := some { w with issued := true } })).endWalk n a := by
  rw [xferCompleteOp, hr]
  dsimp only
  rw [if_neg (by simp [hp]), if_neg (by simp [hi]), hm]
  exact xferEnd_acknowledged ha

/-- A transfer that has moved all its slices ends once they are acknowledged. -/
theorem xferCompleteOp_issued {s : State} {n a : Nat} {w : Walk} (hr : ((s.tile n).agen a).run = some w) (hp : w.forPass = false)
    (hi : w.issued = true) (ha : s.ownAcks (.agen n a) = false) : xferCompleteOp n a s = s.endWalk n a := by
  rw [xferCompleteOp, hr]
  simp only [hp, hi, Bool.false_eq_true, if_false, if_true]
  exact xferEnd_acknowledged ha

/-- Settles O16: each event is its operation under the conditions stated; a drain's writes leave the arrays of the tiles (`sameArrays_drainRow`),
so the drain that starts is still the oldest of its array. -/
theorem drainAndTransferEventsComplete : Obligations.DrainAndTransferEventsComplete := by
  unfold Obligations.DrainAndTransferEventsComplete
  intro s n hs
  refine ⟨fun m d ds s' hd hst hp hf hu hc hb hw => ?_, fun m d ds hd hst ha hg => ?_, fun a w s' l hr hp hi hm => ?_, fun a w hr hp hi ha => ?_⟩
  · refine completes_clocked (f := drainStartOp n m) rfl hs ?_
    rw [drainStartOp_written hd hst hp hf hu hc hb hw]
    have hkeep : SameArrays s s' := by
      have h := SameArrays.foldl (fun s i => sameArrays_drainRow s n m d i) (maskBits d.rows) (s, true)
      rwa [hw] at h
    refine ⟨rfl, drains_drainStarted ?_⟩
    rw [tile_dropFetched, hkeep.array, hd]
  · refine completes_clocked (f := drainCompleteOp n m) rfl hs ?_
    rw [drainCompleteOp_acknowledged hd hst ha hg]
    exact ⟨tile_modTile_same .., fun j hj => tile_modTile_ne _ _ _ _ hj, modTile_frame ..⟩
  · intro v ha
    refine completes_clocked (f := xferCompleteOp n a) rfl hs ?_
    rw [xferCompleteOp_moved hr hp hi hm ha]
    refine ⟨rfl, fun w' hw' => endWalk_run (t := v.tile n) (a := a) ?_⟩
    rwa [tile_endWalk_same] at hw'
  · refine completes_clocked (f := xferCompleteOp n a) rfl hs ?_
    rw [xferCompleteOp_issued hr hp hi ha]
    exact ⟨tile_endWalk_same .., fun j hj => tile_endWalk_ne s a hj, rfl, endWalk_frame s n a⟩

end Sys2Proof.Machine
end

section
/-! Registers of a tile under writes: the constant registers s0 and p0 (R45), and the lanes that a guard selects (R52). -/

namespace Sys2Proof.Machine

/-! ## The guard rule (R52) -/

@[simp] theorem length_laneList (v : BitVec 8192) : (laneList v).length = 256 := by simp [laneList]

theorem getElem_laneList (v : BitVec 8192) {i : Nat} (h : i < (laneList v).length) : (laneList v)[i] = elemAt 32 i v.toNat := by
  simp [laneList]

@[simp] theorem length_guarded (g : BitVec 256) (z : Bool) (old new : List Nat) :
    (guarded g z old new).length = min old.length new.length := by
  simp [guarded]

/-- A lane under the guard: the new value, zero, or the old value. -/
theorem getElem_guarded (g : BitVec 256) (z : Bool) {old new : List Nat} {i : Nat} (h : i < (guarded g z old new).length)
    (ho : i < old.length) (hn : i < new.length) :
    (guarded g z old new)[i] = if g.getLsbD i then new[i] else if z then 0 else old[i] := by
  simp [guarded]

/-- A lane of the register that a list of 256 lanes makes. -/
theorem elemAt_ofLanes {l : List Nat} (hl : l.length = 256) {i : Nat} (h : i < l.length) : elemAt 32 i (ofLanes l).toNat = l[i] % 2 ^ 32 :=
  elemAt_ofNat_packElems (by omega) h

/-- A lane of v[d] after a write under the guard. -/
theorem elemAt_guardedWrite (t : Tile) (w : W64) {new : List Nat} (hl : new.length = 256) {i : Nat} (hi : i < 256) :
    elemAt 32 i ((t.guardedWrite w new).vreg (vD w)).toNat
      = if (t.preg (vG w)).getLsbD i then new.getD i 0 % 2 ^ 32 else if vZ w then 0 else elemAt 32 i (t.vreg (vD w)).toNat := by
  rw [Tile.guardedWrite, vreg_setV, if_pos rfl, elemAt_ofLanes (by simp [hl]) (by simp [hl, hi]),
    getElem_guarded _ _ _ (by simpa) (by omega), getElem_laneList, List.getD_eq_getElem _ _ (by omega)]
  split_ifs
  · rfl
  · rfl
  · exact Nat.mod_eq_of_lt (elemAt_lt ..)

/-- A bit of p[d] after a write under the guard. -/
theorem getLsbD_guardedPred (t : Tile) (w : W64) (p : BitVec 256) (hd : vD w % 16 ≠ 0) {i : Nat} (hi : i < 256) :
    ((t.guardedPred w p).preg (vD w % 16)).getLsbD i
      = if (t.preg (vG w)).getLsbD i then p.getLsbD i else if vZ w then false else (t.preg (vD w % 16)).getLsbD i := by
  rw [Tile.guardedPred, preg_setP _ _ _ _ hd, if_pos rfl]
  simp only [BitVec.getLsbD_or, BitVec.getLsbD_and, BitVec.getLsbD_not, hi, decide_true, Bool.true_and]
  cases (t.preg (vG w)).getLsbD i
  · cases vZ w
    · simp
    · simp
  · simp

/-- Settles O5: the reads after writes of R45, and the guard rule lane by lane (`elemAt_guardedWrite`, `getLsbD_guardedPred`). -/
theorem constantRegistersAndGuards : Obligations.ConstantRegistersAndGuards := by
  unfold Obligations.ConstantRegistersAndGuards
  refine ⟨fun t => ⟨fun _ => rfl, rfl, fun _ => rfl, rfl, fun k v j hk => ?s, fun k v j hk => ?p, fun k v f j => vreg_setV t k j v f⟩,
    fun t w new i hl hi => ⟨?lane, fun hd p => ?bit⟩⟩
  case s => exact sreg_setS t j v hk
  case p => exact preg_setP t j v _ hk
  case lane => exact elemAt_guardedWrite t w hl hi
  case bit => exact getLsbD_guardedPred t w p hd hi

end Sys2Proof.Machine
end

section
/-! The scalar instructions and branches of a tile (R48, R50, R54, R72). -/

namespace Sys2Proof.Machine

/-! ## What instructions leave of a tile -/

@[simp] theorem pc_setS (t : Tile) (k : Nat) (v : W64) : (t.setS k v).pc = t.pc := by
  unfold Tile.setS; split <;> rfl

@[simp] theorem pc_setV (t : Tile) (k : Nat) (v : BitVec 8192) (f : Nat → Bool) : (t.setV k v f).pc = t.pc := rfl

/-- A command of an instruction, on a tile that is ready to execute a word of its opcode, executes as the instruction retires. -/
theorem executes_ready {i : Instr} {s : State} {n op : Nat} {w : W64} {k : W64 → State → State} {f : Tile → Tile}
    (hi : exec i s = clocked 6 s (tisStep n op k)) (h : Ready s n w) (hl : listedOp op = true) (ho : opc w = op)
    (hp : Retired s (k w s) n ((s.tile n).pc + 8) f) : Executes s i n f := completes_ready hi h hl ho hp

/-! ## Scalar instructions (R54) -/

/-- An instruction that writes a scalar register and goes on. -/
theorem setS_ret (s : State) (n k : Nat) (v : Tile → W64) :
    Retired s ((s.modTile n (fun t => t.setS k (v t))).retire n) n ((s.tile n).pc + 8) (fun t => t.setS k (v t)) :=
  retired_retire s n _ (pc_setS ..)

/-- An instruction that writes s[d] from s[a] and s[b]. -/
theorem scalarOp_ret (s : State) (n : Nat) (f : W64 → W64 → W64) (w : W64) :
    Retired s (scalarOp n f w s) n ((s.tile n).pc + 8) (fun t => t.setS (fD w) (f (t.sreg (fA w)) (t.sreg (fB w)))) :=
  setS_ret s n _ _

/-- A command whose instruction writes s[d] from s[a] and s[b]. -/
theorem executes_scalarOp {i : Instr} {s : State} {n : Nat} {w : W64} (op : Nat) (f : W64 → W64 → W64) (h : Ready s n w)
    (hi : exec i s = clocked 6 s (tisStep n op (scalarOp n f))) (hl : listedOp op = true) (ho : opc w = op) :
    Executes s i n (fun t => t.setS (fD w) (f (t.sreg (fA w)) (t.sreg (fB w)))) := executes_ready hi h hl ho (scalarOp_ret s n f w)

/-- RDSYS of selector 0 reads the logical tile ID. -/
theorem rdsysOp_id {w : W64} (n : Nat) (s : State) (h : fImm w = 0) :
    rdsysOp n w s = (s.modTile n (fun t => t.setS (fD w) (BitVec.ofNat 64 n))).retire n := by
  rw [rdsysOp, h]; rfl

/-- RDSYS of selector 1 reads the ACLK cycles since the tile's last reset. -/
theorem rdsysOp_cycles {w : W64} (n : Nat) (s : State) (h : fImm w = 1) :
    rdsysOp n w s = (s.modTile n (fun t => t.setS (fD w) (BitVec.ofNat 64 (s.aclk - max (s.tile n).since s.aclk6)))).retire n := by
  rw [rdsysOp, h]; rfl

/-- RDSYS of selector 2 reads the station time. -/
theorem rdsysOp_time {w : W64} (n : Nat) (s : State) (h : fImm w = 2) :
    rdsysOp n w s = (s.modTile n (fun t => t.setS (fD w) s.now)).retire n := by
  rw [rdsysOp, h]; rfl

/-- PCNT of a predicate register without errors. -/
theorem pcntOp_ret {s : State} {n : Nat} (w : W64) (hc : CleanTile (s.tile n)) :
    Retired s (pcntOp n w s) n ((s.tile n).pc + 8) (fun t => t.setS (fD w) (BitVec.ofNat 64 (popcount (t.preg (fA w % 16))))) := by
  rw [pcntOp, readVecs_clean _ _ _ _ hc]
  exact setS_ret s n _ _

/-- LD of clean bytes. -/
theorem ldOp_clean {s : State} {n : Nat} {w : W64} (h : CleanBank s n (ldAddr (s.tile n) w) 8) :
    Retired s (ldOp n w s) n ((s.tile n).pc + 8)
      (fun t => t.setS (fD w) (BitVec.ofNat 64 (leNat (s.bytesAt (apBase n + ldAddr (s.tile n) w) 8)))) := by
  rw [ldOp, sramRead_clean _ _ _ _ _ h]
  exact setS_ret s n _ _

/-- ST to clean bytes stores s[b] and goes on. -/
theorem stOp_clean {s : State} {n : Nat} {w : W64} (h : CleanBank s n (ldAddr (s.tile n) w) 8) :
    stOp n w s = (s.store (apBase n + ldAddr (s.tile n) w) (leBytes 8 ((s.tile n).sreg (fB w)).toNat)).retire n := by
  rw [stOp, sramWrite_clean s (Who.tile n) n _ (leBytes 8 _) (by simp [leBytes]) (by rwa [length_leBytes])]

/-- What the tile's SRAM reads as after 8 bytes have been stored and an instruction has retired. -/
theorem store_retire_bytes (s : State) (n a : Nat) (v : W64) :
    let t := (s.store a (leBytes 8 v.toNat)).retire n
    (∀ x, ¬(a ≤ x ∧ x < a + 8) → t.byteAt x = s.byteAt x) ∧ leNat (t.bytesAt a 8) = v.toNat := by
  have hlen : (leBytes 8 v.toNat).length = 8 := length_leBytes ..
  have hback := bytesAt_store s a (leBytes 8 v.toNat)
  rw [hlen] at hback
  refine ⟨fun x hx => ?_, ?_⟩
  · have := byteAt_store s a (leBytes 8 v.toNat) x
    rwa [hlen, if_neg hx] at this
  · refine (congrArg leNat hback).trans ?_
    rw [leNat_leBytes]
    exact Nat.mod_eq_of_lt v.isLt

/-- Settles O4: every scalar instruction is `scalarOp_ret` or `setS_ret` of its value; LD and ST access clean bytes (`ldOp_clean`,
`stOp_clean`). -/
theorem scalarInstructionsComplete : Obligations.ScalarInstructionsComplete := by
  unfold Obligations.ScalarInstructionsComplete
  refine ⟨fun s n w hw => ?_, fun s n w hw => ?_⟩
  · dsimp only
    refine ⟨fun ho => executes_ready rfl hw (by decide) ho (retired_retireTo_id ..), executes_scalarOp 0x20 (· + ·) hw rfl (by decide),
      executes_scalarOp 0x21 (· - ·) hw rfl (by decide), executes_scalarOp 0x22 (· * ·) hw rfl (by decide),
      executes_scalarOp 0x23 (· &&& ·) hw rfl (by decide), executes_scalarOp 0x24 (· ||| ·) hw rfl (by decide),
      executes_scalarOp 0x25 (· ^^^ ·) hw rfl (by decide), executes_scalarOp 0x26 (fun a b => a <<< (b.toNat % 64)) hw rfl (by decide),
      executes_scalarOp 0x27 (fun a b => a >>> (b.toNat % 64)) hw rfl (by decide),
      executes_scalarOp 0x28 (fun a b => a.sshiftRight (b.toNat % 64)) hw rfl (by decide), fun ho => ?slt, fun ho => ?sltu,
      fun ho => ?addi, fun ho => ?li, fun ho => ?lih, fun ho h => ?id, fun ho h => ?cycles, fun ho h => ?time, fun ho hc => ?pcnt,
      fun ho => ?srkey⟩
    case slt => exact executes_ready rfl hw (by decide) ho (retired_congr (scalarOp_ret ..) (by simp [ofBool64, BitVec.slt]))
    case sltu => exact executes_ready rfl hw (by decide) ho (retired_congr (scalarOp_ret ..) (by simp [ofBool64, BitVec.ult]))
    case addi => exact executes_ready rfl hw (by decide) ho (scalarOp_ret ..)
    case li => exact executes_ready rfl hw (by decide) ho (scalarOp_ret ..)
    case lih => exact executes_ready rfl hw (by decide) ho (setS_ret s n _ _)
    case id => exact executes_ready rfl hw (by decide) ho (rdsysOp_id n s h ▸ setS_ret s n _ _)
    case cycles => exact executes_ready rfl hw (by decide) ho (rdsysOp_cycles n s h ▸ retired_congr (setS_ret s n _ _) rfl)
    case time => exact executes_ready rfl hw (by decide) ho (rdsysOp_time n s h ▸ setS_ret s n _ _)
    case pcnt => exact executes_ready rfl hw (by decide) ho (pcntOp_ret w hc)
    case srkey => exact executes_ready rfl hw (by decide) ho (retired_retire s n _ rfl)
  · intro o hb
    refine ⟨fun ho => executes_ready rfl hw (by decide) ho (ldOp_clean hb), fun ho => completes_ready rfl hw (by decide) ho ?_⟩
    rw [stOp_clean hb]
    exact ⟨retired_retireTo_id .., store_retire_bytes ..⟩

/-! ## Branches (R54) -/

/-- A branch that does nothing else, with a target in the program memory. -/
theorem plainBranch_ret {s : State} {n : Nat} {taken : Tile → W64 → Bool} {w : W64} (b : Bool) (hb : taken (s.tile n) w = b)
    (ht : (branchTarget (s.tile n) w).toNat ≤ 0xFFF8) :
    Retired s (plainBranch n taken w s) n (if b then (branchTarget (s.tile n) w).setWidth 17 else (s.tile n).pc + 8) id :=
  branchIf_taken rfl b hb ht

/-- A branch on a predicate register without errors. -/
theorem predBranch_clean {s : State} {n : Nat} (taken : BitVec 256 → Bool) (w : W64) (hc : CleanTile (s.tile n)) :
    predBranch n taken w s = plainBranch n (fun t w => taken (t.preg (fA w % 16))) w s := by
  rw [predBranch, readVecs_clean _ _ _ _ hc]

/-- Settles O6: each branch is `branchIf_taken` of its condition. -/
theorem branchesComplete : Obligations.BranchesComplete := by
  unfold Obligations.BranchesComplete
  intro s n w hw
  dsimp only
  intro ht
  refine ⟨fun ho => ?_, fun ho => ?_, fun ho => ?_, fun ho => ?_, fun ho => ?_, fun ho => ?_, fun ho hc => ?_, fun ho hc => ?_⟩
  · exact completes_ready rfl hw (by decide) ho (plainBranch_ret true rfl ht)
  · exact completes_ready rfl hw (by decide) ho (plainBranch_ret _ (by simp [beq_eq_decide]) ht)
  · exact completes_ready rfl hw (by decide) ho (plainBranch_ret _ (by simp [bne, beq_eq_decide]) ht)
  · exact completes_ready rfl hw (by decide) ho (plainBranch_ret _ rfl ht)
  · exact completes_ready rfl hw (by decide) ho (plainBranch_ret _ rfl ht)
  · exact completes_ready rfl hw (by decide) ho (branchIf_taken (f := fun w t => t.setS (fD w) (t.sreg (fD w) - 1)) (pc_setS ..) _
      (by simp [bne, beq_eq_decide]) ht)
  · refine completes_ready rfl hw (by decide) ho ?_
    rw [predBranch_clean _ _ hc]
    exact plainBranch_ret _ (by simp [bne, beq_eq_decide]) ht
  · refine completes_ready rfl hw (by decide) ho ?_
    rw [predBranch_clean _ _ hc]
    exact plainBranch_ret _ (by simp [beq_eq_decide]) ht

end Sys2Proof.Machine
end

section
/-! The element operations of the vector engine (R52, R63, R64, R98). -/

namespace Sys2Proof.Machine

/-- A command whose instruction is an element operation executes as any `g` that writes the same lanes under the guard. -/
theorem executes_lane3 {i : Instr} {s : State} {n op : Nat} {w : W64} {types : List Nat} {ff : FloatFmt → Nat → Nat → Nat → Nat → Nat}
    {fi : Nat → Nat → Nat → Nat → Nat} {srcs : W64 → List Nat} {g : Tile → Tile} (h : Ready s n w) (hc : CleanTile (s.tile n))
    (hi : exec i s = clocked 6 s (tisStep n op (lane3 n types ff fi srcs))) (hl : listedOp op = true) (ho : opc w = op)
    (ht : typeOk types w = true)
    (hg : (s.tile n).guardedWrite w (lanesOf (s.tile n) w (match typeFmt (vT w) with | some f => ff f (vRm w) | none => fi (vT w)))
      = g (s.tile n)) : Executes s i n g :=
  executes_ready hi h hl ho (retired_congr (lane3_ret hc ht) hg)

/-- The magnitude of an integer element: the sign is judged on its 32 bits (R64). -/
theorem intOp_abs : intOp (fun a _ => if a < 2 ^ 31 then a else -a)
    = fun _ a _ _ => if a < 2 ^ 31 then ((a : Int) % 2 ^ 32).toNat else (-(a : Int) % 2 ^ 32).toNat := by
  funext _ a _ _
  have hcast : ((a : Int) < 2 ^ 31) = (a < 2 ^ 31) := by norm_cast
  simp only [intOp, hcast]
  split <;> rfl

/-- Settles O8: each of these instructions is a `lane3` of its operation on the elements. -/
theorem vectorArithmeticCompletes : Obligations.VectorArithmeticCompletes := by
  unfold Obligations.VectorArithmeticCompletes
  intro s n w hw hc
  dsimp only
  refine ⟨fun ho ht => ?vadd, fun ho ht => ?vsub, fun ho ht => ?vmul, fun ho ht => ?vfma, fun ho ht => ?vmax, fun ho ht => ?vmin,
    fun ho ht => ?vabs, fun ho ht => ?vneg, fun ho ht => ?vrcp, fun ho ht => ?vrsqrt, fun ho ht => ?vexp2, fun ho ht => ?vlog2,
    fun ho ht => ?vand, fun ho ht => ?vor, fun ho ht => ?vxor, fun ho ht => ?vshl, fun ho ht => ?vshr, fun ho ht => ?vsra,
    fun ho ht => ?vadds, fun ho ht => ?vmov⟩
  case vabs => exact executes_lane3 hw hc rfl (by decide) ho ht (by rw [intOp_abs]; rfl)
  all_goals exact executes_lane3 hw hc rfl (by decide) ho ht rfl

end Sys2Proof.Machine
end

section
/-! The predicate instructions, VCMP, VSEL, VBCAST and VIOTA (R52, R63, R64, R74). -/

namespace Sys2Proof.Machine

/-- The lanes of a register under the guard, lane by lane (R52). -/
theorem guarded_laneList (g : BitVec 256) (z : Bool) (old new : BitVec 8192) :
    guarded g z (laneList old) (laneList new)
      = (List.range 256).map (fun i => if g.getLsbD i then elemAt 32 i new.toNat else if z then 0 else elemAt 32 i old.toNat) := by
  refine List.ext_getElem (by simp) (fun i h1 h2 => ?_)
  rw [getElem_guarded _ _ _ (by simpa using h1) (by simpa using h1), getElem_laneList, getElem_laneList, List.getElem_map,
    List.getElem_range]

/-- The bits that VCMP determines: lane by lane the comparison of v[a] with v[b]. -/
def vcmpBits (w : W64) (t : Tile) : BitVec 256 := ofBits256 (fun i =>
  let a := elemAt 32 i (t.vreg (vA w)).toNat
  let b := elemAt 32 i (t.vreg (vB w)).toNat
  if vT w = 0 then compareFp (vX w % 8) (fp32.decode a) (fp32.decode b) else compareInt (vX w % 8) (intKey (vT w) a) (intKey (vT w) b))

section
variable {s : State} {n : Nat} {w : W64} (hc : CleanTile (s.tile n))
include hc

/-- VCMP of an accepted type and condition. -/
theorem vcmpOp_ret (ht : typeOk [0, 3, 4] w = true) (hx : vX w % 8 ≠ 7) :
    Retired s (vcmpOp n w s) n ((s.tile n).pc + 8) (fun t => t.guardedPred w (vcmpBits w t)) := by
  unfold vcmpOp
  simp only [ht, hx, Bool.not_true, Bool.false_eq_true, or_self, if_false]
  rw [readVecs_clean _ _ _ _ hc]
  exact retired_congr (writePred_ret _ _ _ _ hc) rfl

/-- VSEL of an accepted type: lane by lane v[a] where the guard is 1, else v[b]. -/
theorem vselOp_ret (ht : typeOk allTypes w = true) :
    Retired s (vselOp n w s) n ((s.tile n).pc + 8) (fun t => t.setV (vD w) (ofLanes ((List.range 256).map (fun i =>
      if (t.preg (vG w)).getLsbD i then elemAt 32 i (t.vreg (vA w)).toNat else elemAt 32 i (t.vreg (vB w)).toNat)))) := by
  unfold vselOp
  rw [ht, readVecs_clean _ _ _ _ hc]
  simp only [guarded_laneList, Bool.not_true, Bool.false_eq_true, if_false]
  exact retired_retire s n _ (pc_setV ..)

/-- VBCAST of an accepted type. -/
theorem vbcastOp_ret (ht : typeOk allTypes w = true) :
    Retired s (vbcastOp n w s) n ((s.tile n).pc + 8) (fun t => t.guardedWrite w (List.replicate 256
      (if typeBits (vT w) = 16 then (t.sreg (vA w % 32)).toNat % 2 ^ 16 * (2 ^ 16 + 1) else (t.sreg (vA w % 32)).toNat % 2 ^ 32))) := by
  unfold vbcastOp
  rw [ht]
  exact retired_congr (writeLanes_ret _ _ _ _ hc) rfl

/-- VIOTA of an accepted type. -/
theorem viotaOp_ret (ht : typeOk [3, 4] w = true) :
    Retired s (viotaOp n w s) n ((s.tile n).pc + 8) (fun t => t.guardedWrite w ((List.range 256).map (fun i =>
      ((t.sreg (vA w % 32)).toNat + i) % 2 ^ 32))) := by
  unfold viotaOp
  rw [ht]
  exact retired_congr (writeLanes_ret _ _ _ _ hc) rfl

/-- A predicate instruction. -/
theorem predOp_ret (two : Bool) (f : BitVec 256 → BitVec 256 → BitVec 256) :
    Retired s (predOp n two f w s) n ((s.tile n).pc + 8)
      (fun t => t.guardedPred w (f (t.preg (vA w % 16)) (t.preg (vB w % 16)))) := by
  rw [predOp, readVecs_clean _ _ _ _ hc]
  exact retired_congr (writePred_ret _ _ _ _ hc) rfl

end

/-- Settles O9: each instruction reads registers without errors and writes under the guard (`writePred_ret`, `writeLanes_ret`). -/
theorem vectorPredicatesComplete : Obligations.VectorPredicatesComplete := by
  unfold Obligations.VectorPredicatesComplete
  intro s n w hw hc
  refine ⟨fun ho ht hx => executes_ready rfl hw (by decide) ho (vcmpOp_ret hc ht hx),
    fun ho ht => executes_ready rfl hw (by decide) ho (vselOp_ret hc ht),
    fun ho ht => executes_ready rfl hw (by decide) ho (vbcastOp_ret hc ht),
    fun ho ht => executes_ready rfl hw (by decide) ho (viotaOp_ret hc ht),
    fun ho => executes_ready rfl hw (by decide) ho (predOp_ret hc true (fun a b => a &&& b)),
    fun ho => executes_ready rfl hw (by decide) ho (predOp_ret hc true (fun a b => a ||| b)),
    fun ho => executes_ready rfl hw (by decide) ho (predOp_ret hc true (fun a b => a ^^^ b)),
    fun ho => executes_ready rfl hw (by decide) ho (predOp_ret hc false (fun a _ => ~~~a)), fun ho => ?plt, fun ho => ?pnz⟩
  case plt => exact executes_ready rfl hw (by decide) ho (retired_congr (writePred_ret _ _ _ _ hc) rfl)
  case pnz =>
    refine executes_ready rfl hw (by decide) ho ?_
    rw [readVecs_clean _ _ _ _ hc]
    exact retired_congr (writePred_ret _ _ _ _ hc) rfl

end Sys2Proof.Machine
end

section
/-! The lane movement instructions and the Philox instruction (R52, R65, R66). -/

namespace Sys2Proof.Machine

theorem getD_laneList (v : BitVec 8192) {i : Nat} (h : i < 256) : (laneList v).getD i 0 = elemAt 32 i v.toNat := by
  rw [List.getD_eq_getElem _ _ (by simpa using h), getElem_laneList]

/-- The lanes of a register that a predicate selects, in their order. -/
theorem filter_laneList (v : BitVec 8192) (p : Nat → Bool) :
    ((laneList v).zipIdx.filter (fun x => p x.2)).map Prod.fst = ((List.range 256).filter p).map (fun i => elemAt 32 i v.toNat) := by
  have hzip : (laneList v).zipIdx = (List.range 256).map (fun i => (elemAt 32 i v.toNat, i)) := by
    refine List.ext_getElem (by simp) (fun i h1 h2 => ?_)
    simp [laneList]
  rw [hzip, List.filter_map, List.map_map]
  rfl

section
variable {s : State} {n : Nat} {w : W64} (hc : CleanTile (s.tile n))
include hc

/-- A permutation of the lanes of v[a]. -/
theorem moveOp_ret (srcs : W64 → List Nat) (f : Tile → W64 → Nat → Option Nat) :
    Retired s (moveOp n srcs f w s) n ((s.tile n).pc + 8) (fun t => t.guardedWrite w ((List.range 256).map (fun i =>
      match f t w i with | some j => elemAt 32 j (t.vreg (vA w)).toNat | none => 0))) := by
  rw [moveOp, readVecs_clean _ _ _ _ hc]
  exact retired_congr (writeLanes_ret _ _ _ _ hc) rfl

/-- VEXT. -/
theorem vextOp_ret : Retired s (vextOp n w s) n ((s.tile n).pc + 8) (fun t => t.setS (vD w % 32)
    (BitVec.ofNat 64 (elemAt 32 ((t.sreg (vB w % 32)).toNat % 256) (t.vreg (vA w)).toNat))) := by
  rw [vextOp, readVecs_clean _ _ _ _ hc]
  exact setS_ret s n _ _

/-- VINS. -/
theorem vinsOp_ret : Retired s (vinsOp n w s) n ((s.tile n).pc + 8) (fun t =>
    let i := (t.sreg (vB w % 32)).toNat % 256
    let on := (t.preg (vG w)).getLsbD i
    if on || vZ w then
      t.setV (vD w) (ofLanes ((laneList (t.vreg (vD w))).set i (if on then (t.sreg (vA w % 32)).toNat % 2 ^ 32 else 0))) (fun j => j == i)
    else t) := by
  rw [vinsOp, readVecs_clean _ _ _ _ hc]
  refine retired_retire s n _ ?_
  dsimp only
  split
  · exact pc_setV ..
  · rfl

/-- VCOMP. -/
theorem vcompOp_ret : Retired s (vcompOp n w s) n ((s.tile n).pc + 8) (fun t =>
    let sel := ((List.range 256).filter (fun i => (t.preg (vG w)).getLsbD i)).map (fun i => elemAt 32 i (t.vreg (vA w)).toNat)
    (t.setV (vD w) (ofLanes (sel ++ (if vZ w then List.replicate 256 0 else laneList (t.vreg (vD w))).drop sel.length))
      (fun i => vZ w || i < sel.length)).setS (vC w % 32) (BitVec.ofNat 64 sel.length)) := by
  rw [vcompOp, readVecs_clean _ _ _ _ hc]
  simp only [filter_laneList]
  exact retired_retire s n _ ((pc_setS ..).trans (pc_setV ..))

/-- VEXPN. -/
theorem vexpnOp_ret : Retired s (vexpnOp n w s) n ((s.tile n).pc + 8) (fun t => t.guardedWrite w ((List.range 256).map (fun i =>
    elemAt 32 ((List.range i).countP (fun j => (t.preg (vG w)).getLsbD j)) (t.vreg (vA w)).toNat))) := by
  rw [vexpnOp, readVecs_clean _ _ _ _ hc]
  refine retired_congr (writeLanes_ret _ _ _ _ hc) (congrArg _ (List.map_congr_left (fun i hi => getD_laneList _ ?_)))
  have hcount : (List.range i).countP (fun j => ((s.tile n).preg (vG w)).getLsbD j) ≤ i :=
    List.countP_le_length.trans_eq List.length_range
  exact hcount.trans_lt (List.mem_range.mp hi)

/-- VPHX. -/
theorem vphxOp_ret : Retired s (vphxOp n w s) n ((s.tile n).pc + 8) (fun t => t.guardedWrite w ((List.range 256).map (fun i =>
    let x := ((t.sreg (vB w % 32)).toNat + i / 4) % 2 ^ 64
    let k := (t.sreg (vA w % 32)).toNat
    let c := (t.sreg (vC w % 32)).toNat
    philox (bitsOf x 0 32, bitsOf x 32 32, bitsOf c 0 32, bitsOf c 32 32) (bitsOf k 0 32, bitsOf k 32 32) (i % 4)))) := by
  rw [vphxOp]
  exact retired_congr (writeLanes_ret _ _ _ _ hc) rfl

end

/-- Settles O10: each instruction reads registers without errors and writes lanes or a scalar register. -/
theorem laneMovesComplete : Obligations.LaneMovesComplete := by
  unfold Obligations.LaneMovesComplete
  intro s n w hw hc
  refine ⟨fun ho => ?vperm, fun ho => ?vxswz, fun ho => ?vrot, fun ho => ?vslide, fun ho => ?vext, fun ho => ?vins, fun ho => ?vcomp,
    fun ho => ?vexpn, fun ho => ?vphx⟩
  case vperm => exact executes_ready rfl hw (by decide) ho (moveOp_ret hc _ _)
  case vxswz => exact executes_ready rfl hw (by decide) ho (moveOp_ret hc _ _)
  case vrot => exact executes_ready rfl hw (by decide) ho (moveOp_ret hc _ _)
  case vslide => exact executes_ready rfl hw (by decide) ho (moveOp_ret hc _ _)
  case vext => exact executes_ready rfl hw (by decide) ho (vextOp_ret hc)
  case vins => exact executes_ready rfl hw (by decide) ho (vinsOp_ret hc)
  case vcomp => exact executes_ready rfl hw (by decide) ho (vcompOp_ret hc)
  case vexpn => exact executes_ready rfl hw (by decide) ho (vexpnOp_ret hc)
  case vphx => exact executes_ready rfl hw (by decide) ho (vphxOp_ret hc)

end Sys2Proof.Machine
end

section
/-! The synchronisation instructions of a tile, and what an update of a peg leaves (R54 to R57, R221 to R224). -/

namespace Sys2Proof.Machine

/-! ## Updates of a peg (R221, R222) -/

/-- Between two states neither a peg nor the memory differs. -/
structure PegsKept (s u : State) : Prop where
  peg : ∀ q, u.peg q = s.peg q
  mem : u.mem = s.mem

/-- Between two states no register differs, and a tile in nothing but what it waits for at a peg. -/
structure TilesWoken (s u : State) : Prop where
  rget : ∀ r, u.rget r = s.rget r
  tile : ∀ m, u.tile m = { s.tile m with pwait := (u.tile m).pwait }

theorem TilesWoken.of_eq {s u : State} (hr : u.csr = s.csr) (ht : u.tiles = s.tiles) : TilesWoken s u :=
  ⟨fun r => by rw [State.rget, hr, State.rget], fun m => by rw [State.tile, ht, State.tile]⟩

theorem TilesWoken.trans {s t u : State} (h : TilesWoken s t) (h' : TilesWoken t u) : TilesWoken s u := by
  exact ⟨fun r => (h'.rget r).trans (h.rget r), fun m => by rw [h'.tile m, h.tile m]⟩

theorem PegsKept.trans {s t u : State} (h : PegsKept s t) (h' : PegsKept t u) : PegsKept s u :=
  ⟨fun q => (h'.peg q).trans (h.peg q), h'.mem.trans h.mem⟩

theorem PegsKept.refl (s : State) : PegsKept s s := ⟨fun _ => rfl, rfl⟩

/-- Storing a register that is no peg keeps the pegs. -/
theorem pegsKept_rset (s : State) {r : Reg} (v : W64) (h : ∀ q, .pegValue q ≠ r) : PegsKept s (s.rset r v) :=
  ⟨fun q => rget_rset_ne s r (.pegValue q) v (h q), rfl⟩

/-- The frames of a freeze leave the registers and the memory. -/
theorem pegsKept_frozenFrames (s : State) : PegsKept s s.frozenFrames := by
  unfold State.frozenFrames
  dsimp only
  split_ifs <;> exact ⟨fun _ => rfl, rfl⟩

/-- A freeze sets registers of its own. -/
theorem pegsKept_freeze (s : State) (source cls : Nat) : PegsKept s (s.freeze source cls) := by
  have hstatus (s : State) (f : Fld) (x : Nat) : PegsKept s (s.setF .frzStatus f x) := pegsKept_rset s _ (by simp)
  unfold State.freeze
  split
  · exact .refl s
  · extract_lets sys s1 s2
    have h1 : PegsKept s s1 := ⟨fun _ => rfl, rfl⟩
    have h2 : PegsKept s1 s2 := (hstatus ..).trans ((hstatus ..).trans (hstatus ..))
    exact (h1.trans h2).trans ((pegsKept_rset s2 s.now (by simp)).trans (pegsKept_frozenFrames _))

/-- The held record stands in registers of its own. -/
theorem pegsKept_holdRecord (s : State) (l : List Byte) : PegsKept s (s.holdRecord l) :=
  List.foldlRecOn (motive := PegsKept s) _ _ (.refl s) (fun _ h _ _ => h.trans (pegsKept_rset _ _ (by simp)))

/-- A record leaves the pegs and the memory. -/
theorem pegsKept_report (s : State) (r : FaultRec) : PegsKept s (s.report r) := by
  unfold State.report
  dsimp only
  split
  · exact .refl s
  · split
    · exact (pegsKept_holdRecord ..).trans (pegsKept_freeze ..)
    · exact ⟨fun _ => rfl, rfl⟩

/-- A tile that sees a new value of a peg leaves the pegs and the memory. -/
theorem pegsKept_wakeTile (s : State) (p : Nat) (v : W64) (n : Nat) : PegsKept s (s.wakeTile p v n) := by
  unfold State.wakeTile
  split
  · split
    · exact ⟨fun _ => rfl, rfl⟩
    · split
      · rw [State.faultTile, stopNow_record]
        exact PegsKept.trans (t := s.modTile n _) ⟨fun _ => rfl, rfl⟩ (pegsKept_report ..)
      · split <;> exact ⟨fun _ => rfl, rfl⟩
  · exact ⟨fun _ => rfl, rfl⟩

/-- A value without the fault bit stops no tile. -/
theorem tilesWoken_wakeTile (s : State) (p n : Nat) {v : W64} (hv : pegFaulted v = false) : TilesWoken s (s.wakeTile p v n) := by
  unfold State.wakeTile
  split
  next x _ =>
    rw [hv]
    split
    · exact .of_eq rfl rfl
    · rw [if_neg Bool.false_ne_true]
      split
      · refine ⟨fun _ => rfl, fun m => ?_⟩
        by_cases hm : m = n
        · subst hm; rw [tile_modTile_same]
        · rw [tile_modTile_ne _ _ _ _ hm]
      · exact .of_eq rfl rfl
  · exact .of_eq rfl rfl

/-- The waiters of a peg, once its mirror has been served. -/
def State.wakeAll (s : State) (p : Nat) (v : W64) : State :=
  let s := (s.wakeSched p v).wakeEngine p v
  let s := (s.tiles.map Prod.fst).foldl (fun s n => s.wakeTile p v n) s
  (s.rings.map Prod.fst).foldl (fun s r => s.wakeRing p v r) s

/-- A peg without a mirror takes its value, and its waiters see it (R222). -/
theorem pegApply_unmirrored {s : State} {p : Nat} (u : PegUpd) (h : s.rf (.pegMirror p) Fld.pegMirrorEnable = 0) :
    s.pegApply p u = (s.rset (.pegValue p) (u.apply (s.peg p))).wakeAll p (u.apply (s.peg p)) := by
  have hoff : (s.rset (.pegValue p) (u.apply (s.peg p))).rf (.pegMirror p) Fld.pegMirrorEnable ≠ 1 := by
    rw [State.rf, rget_rset_ne _ _ _ _ (by simp), ← State.rf, h]
    decide
  rw [State.pegApply, State.mirror, if_neg hoff, State.wakeAll]

/-- The scheduler and the state engine see a value in state of their own. -/
theorem wakeEngine_wakeSched_frame (s : State) (p : Nat) (v : W64) :
    let u := (s.wakeSched p v).wakeEngine p v
    u.csr = s.csr ∧ u.tiles = s.tiles ∧ u.mem = s.mem := by
  unfold State.wakeEngine State.wakeSched
  split
  · split <;> exact ⟨rfl, rfl, rfl⟩
  · exact ⟨rfl, rfl, rfl⟩

/-- The waiters of a peg leave the pegs and the memory. -/
theorem pegsKept_wakeAll (s : State) (p : Nat) (v : W64) : PegsKept s (s.wakeAll p v) := by
  obtain ⟨hcsr, -, hmem⟩ := wakeEngine_wakeSched_frame s p v
  unfold State.wakeAll
  extract_lets s1 s2
  have h1 : PegsKept s s1 := ⟨fun q => by rw [State.peg, State.rget, hcsr]; rfl, hmem⟩
  have h2 : PegsKept s1 s2 := List.foldlRecOn (motive := PegsKept s1) _ _ (.refl s1) (fun _ h n _ => h.trans (pegsKept_wakeTile ..))
  exact (h1.trans h2).trans
    (List.foldlRecOn (motive := PegsKept s2) _ _ (.refl s2) (fun _ h r _ => h.trans ⟨fun _ => rfl, rfl⟩))

/-- A value without the fault bit leaves every register, and of the tiles all but what they wait for. -/
theorem tilesWoken_wakeAll (s : State) (p : Nat) {v : W64} (hv : pegFaulted v = false) : TilesWoken s (s.wakeAll p v) := by
  obtain ⟨hcsr, htiles, -⟩ := wakeEngine_wakeSched_frame s p v
  unfold State.wakeAll
  extract_lets s1 s2
  have h1 : TilesWoken s s1 := .of_eq hcsr htiles
  have h2 : TilesWoken s1 s2 :=
    List.foldlRecOn (motive := TilesWoken s1) _ _ (.of_eq rfl rfl) (fun _ h n _ => h.trans (tilesWoken_wakeTile _ _ _ hv))
  exact (h1.trans h2).trans (List.foldlRecOn (motive := TilesWoken s2) _ _ (.of_eq rfl rfl) (fun _ h r _ => h.trans (.of_eq rfl rfl)))

/-! ## PSIG (R57) -/

/-- An addition adds to the count modulo 2^63 and leaves the fault bit (R221). -/
theorem apply_add (k : BitVec 63) (v : W64) :
    ((PegUpd.add k false).apply v).toNat % 2 ^ 63 = (v.toNat + k.toNat) % 2 ^ 63
      ∧ ((PegUpd.add k false).apply v).getLsbD 63 = v.getLsbD 63 := by
  have hcount : (v.toNat % 2 ^ 63 + k.toNat) % 2 ^ 63 < 2 ^ 63 := Nat.mod_lt _ (by positivity)
  rw [PegUpd.apply]
  simp only [Bool.false_eq_true, false_or]
  refine ⟨?_, ?_⟩
  · rw [BitVec.toNat_ofNat]
    split <;> omega
  · rw [BitVec.getLsbD_ofNat]
    cases v.getLsbD 63 with
    | false => simpa using Nat.testBit_lt_two_pow hcount
    | true =>
      have := Nat.testBit_two_pow_add_eq ((v.toNat % 2 ^ 63 + k.toNat) % 2 ^ 63) 63
      rw [Nat.testBit_lt_two_pow hcount] at this
      simpa [Nat.add_comm] using this

/-- Retiring an instruction leaves every register but the count of the retired. -/
theorem rget_retire (s : State) (n : Nat) {r : Reg} (h : r ≠ .vecRetired n) : (s.retire n).rget r = s.rget r := by
  obtain ⟨-, -, -, hreg, -⟩ := retired_retireTo_id s n ((s.tile n).pc + 8)
  exact hreg r h

/-- The tile once it has retired an instruction. -/
theorem tile_retire (s : State) (n : Nat) :
    (s.retire n).tile n = { s.tile n with pc := (s.tile n).pc + 8, wait := 0, pwait := none } :=
  (retired_retireTo_id s n ((s.tile n).pc + 8)).1

/-- PSIG with all work done, to a peg without a mirror: the next instruction, the new value of the peg, and its waiters. -/
theorem psigOp_done {s : State} {n : Nat} {w : W64} (hw : s.waitReason n waitAll = 0) {p : Nat}
    (hp : p = ((s.tile n).sreg (fA w)).toNat % 65536) (hm : s.rf (.pegMirror p) Fld.pegMirrorEnable = 0) :
    let v := (PegUpd.add (BitVec.ofNat 63 ((s.tile n).sreg (fB w)).toNat) false).apply (s.peg p)
    psigOp n w s = ((s.retire n).rset (.pegValue p) v).wakeAll p v := by
  have hmirror : (s.retire n).rf (.pegMirror p) Fld.pegMirrorEnable = 0 := by
    rw [State.rf, rget_retire s n (by simp), ← State.rf, hm]
  have hpeg : (s.retire n).peg p = s.peg p := rget_retire s n (by simp)
  rw [psigOp, hw]
  dsimp only
  rw [if_pos rfl, ← hp, State.pegSignal, pegApply_unmirrored _ hmirror, hpeg]

/-- What PSIG leaves, with all work done and a peg without a mirror. -/
theorem psigOp_effect {s : State} {n : Nat} {w : W64} (hw : s.waitReason n waitAll = 0) {p : Nat}
    (hp : p = ((s.tile n).sreg (fA w)).toNat % 65536) (hm : s.rf (.pegMirror p) Fld.pegMirrorEnable = 0) :
    let u := psigOp n w s
    (u.peg p).toNat % 2 ^ 63 = ((s.peg p).toNat + ((s.tile n).sreg (fB w)).toNat) % 2 ^ 63
      ∧ (u.peg p).getLsbD 63 = (s.peg p).getLsbD 63 ∧ (∀ q, q ≠ p → u.peg q = s.peg q) ∧ u.mem = s.mem
      ∧ (pegFaulted (u.peg p) = false → TilesWoken ((s.retire n).rset (.pegValue p) (u.peg p)) u) := by
  have hop := psigOp_done hw hp hm
  obtain ⟨hcount, hfault⟩ := apply_add (BitVec.ofNat 63 ((s.tile n).sreg (fB w)).toNat) (s.peg p)
  dsimp only at hop ⊢
  generalize (PegUpd.add (BitVec.ofNat 63 ((s.tile n).sreg (fB w)).toNat) false).apply (s.peg p) = v at *
  obtain ⟨hpegs, hmem⟩ := pegsKept_wakeAll ((s.retire n).rset (.pegValue p) v) p v
  rw [hop]
  have hv : (((s.retire n).rset (.pegValue p) v).wakeAll p v).peg p = v := (hpegs p).trans (rget_rset_same ..)
  rw [hv]
  refine ⟨?_, hfault, fun q hq => ?_, hmem, fun hnf => tilesWoken_wakeAll _ p hnf⟩
  · rw [hcount, BitVec.toNat_ofNat, Nat.add_mod_mod]
  · exact (hpegs q).trans ((rget_rset_ne _ _ _ _ (by simpa using hq)).trans (rget_retire s n (by simp)))

/-! ## The other synchronisation instructions (R54 to R56) -/

/-- WAIT with the selected work done goes on (R55). -/
theorem waitOp_done {s : State} {n : Nat} {w : W64} (h : s.waitReason n (fImm w).toNat = 0) : waitOp n w s = s.retire n := by
  rw [waitOp, h]; rfl

/-- PWAIT on a peg without the fault bit that satisfies the condition goes on (R56). -/
theorem pwaitOp_satisfied {s : State} {n : Nat} {w : W64} (hc : fX w % 4 ≠ 3)
    (hf : pegFaulted (s.peg (((s.tile n).sreg (fA w)).toNat % 65536)) = false)
    (hv : pegCond (fX w % 4) (s.peg (((s.tile n).sreg (fA w)).toNat % 65536)) ((s.tile n).sreg (fB w)) = true) :
    pwaitOp n w s = s.retire n := by
  rw [pwaitOp, if_neg hc, if_neg (by simp [hf]), hv, Bool.or_true, if_pos rfl]

/-- END with all work done enters IDLE (R54, R57). -/
theorem endOp_done {s : State} {n : Nat} (h : s.waitReason n waitAll = 0) :
    endOp n s = (s.retire n).modTile n (fun t => { t with seq := .idle, ended := true, cause := 0 }) := by
  rw [endOp, h]; rfl

/-- The halt instruction with nothing launched stops the sequencer behind it (R54). -/
theorem halt_unlaunched {s : State} {n : Nat} (h : (s.tile n).launched = false) :
    (s.retire n).stopTile n ⟨2, none⟩ = (s.retire n).modTile n (fun t => t.stopped 2) := by
  rw [stopTile_unlaunched, stopNow_silent]
  rw [tile_retire]
  exact h

/-- Retiring and then changing a tile leaves the other tiles, and of the rest all but registers. -/
theorem retire_modTile_frame (s : State) (n : Nat) (f : Tile → Tile) :
    (∀ m, m ≠ n → ((s.retire n).modTile n f).tile m = s.tile m) ∧ SameButTiles s ((s.retire n).modTile n f) := by
  obtain ⟨-, hothers, -, -, hrest⟩ := retired_retireTo_id s n ((s.tile n).pc + 8)
  exact ⟨fun m hm => (tile_modTile_ne _ _ _ _ hm).trans (hothers m hm), hrest⟩

/-- Settles O7: with their conditions met WAIT and PWAIT retire, PSIG leaves what `psigOp_effect` says, and the halt instruction and END
retire and change their tile. -/
theorem synchronisationInstructionsComplete : Obligations.SynchronisationInstructionsComplete := by
  unfold Obligations.SynchronisationInstructionsComplete
  intro s n w hw
  obtain ⟨-, hrun, -⟩ := id hw
  refine ⟨fun ho h => ?wait, fun ho hpw hc hf hv => ?pwait, fun ho h hm => ?psig, fun ho h => ?halt, fun ho h => ?endProgram⟩
  case wait => exact executes_ready rfl hw (by decide) ho (waitOp_done h ▸ retired_retireTo_id ..)
  case pwait => exact executes_ready rfl hw (by decide) ho (pwaitOp_satisfied hc hf hv ▸ retired_retireTo_id ..)
  case psig =>
    refine completes_ready rfl hw (by decide) ho ?_
    obtain ⟨hcount, hfault, hothers, hmem, hwoken⟩ := psigOp_effect h rfl hm
    refine ⟨hcount, hfault, hothers, hmem, fun hnf => ?_⟩
    obtain ⟨hreg, htile⟩ := hwoken hnf
    have ht := htile n
    rw [tile_rset, tile_retire] at ht
    refine ⟨by rw [ht], by rw [ht]; exact hrun, by rw [ht], by rw [ht], by rw [ht], fun r hr hret => ?_⟩
    exact (hreg r).trans ((rget_rset_ne _ _ _ _ hr).trans (rget_retire s n hret))
  case halt =>
    refine completes_ready rfl hw (by decide) ho ?_
    rw [halt_unlaunched h, tile_modTile_same, tile_retire]
    exact ⟨rfl, rfl, by simp [Tile.stopped], rfl, retire_modTile_frame ..⟩
  case endProgram =>
    refine completes_ready rfl hw (by decide) ho ?_
    rw [endOp_done h, tile_modTile_same, tile_retire]
    exact ⟨rfl, rfl, rfl, rfl, retire_modTile_frame ..⟩

end Sys2Proof.Machine
end

section
/-! The vector loads and stores (R71 to R73): what they read and write of clean banks. -/

namespace Sys2Proof.Machine

/-! ## Clean bytes (R34, R35) -/

theorem mem_wordsOf {a len x : Nat} : x ∈ wordsOf a len ↔ len ≠ 0 ∧ a / 4 ≤ x ∧ x ≤ (a + len - 1) / 4 := by
  unfold wordsOf
  split
  · simp [*]
  · rw [List.mem_range'_1]; omega

/-- Bytes are clean of a list of words where no word of the list is one that they touch. -/
theorem filter_wordsOf_eq_nil {l : List Nat} {a len : Nat} :
    l.filter (fun x => (wordsOf a len).contains x) = [] ↔ ∀ x ∈ l, x ∉ wordsOf a len := by
  simp [List.filter_eq_nil_iff]

/-- Bytes within clean bytes of the same bank are clean. -/
theorem CleanBank.within {s : State} {n o len o' len' : Nat} (h : CleanBank s n o len) (hb : bankOf o' = bankOf o) (hlo : o ≤ o')
    (hhi : o' + len' ≤ o + len) : CleanBank s n o' len' := by
  obtain ⟨hbank, hu, hc⟩ := h
  have hsub {x : Nat} (hx : x ∈ wordsOf (apBase n + o') len') : x ∈ wordsOf (apBase n + o) len := by
    rw [mem_wordsOf] at hx ⊢; omega
  refine ⟨hb ▸ hbank, filter_wordsOf_eq_nil.mpr fun x hx hw => ?_, filter_wordsOf_eq_nil.mpr fun x hx hw => ?_⟩
  · exact filter_wordsOf_eq_nil.mp hu x hx (hsub hw)
  · exact filter_wordsOf_eq_nil.mp hc x hx (hsub hw)

/-- A store makes no clean byte unclean. -/
theorem CleanBank.store {s : State} {n o len : Nat} (h : CleanBank s n o len) (a : Nat) (l : List Byte) :
    CleanBank (s.store a l) n o len := by
  obtain ⟨hbank, hu, hc⟩ := h
  refine ⟨hbank, filter_wordsOf_eq_nil.mpr fun x hx => ?_, filter_wordsOf_eq_nil.mpr fun x hx => ?_⟩
  · exact filter_wordsOf_eq_nil.mp hu x (List.mem_of_mem_filter hx)
  · exact filter_wordsOf_eq_nil.mp hc x (List.mem_of_mem_filter hx)

/-! ## Loads (R71) -/

/-- A fold whose steps each append bytes and leave the state. -/
theorem foldl_append {α : Type} {f : State × Option (List Byte) → α → State × Option (List Byte)} {s : State} {g : α → List Byte}
    {xs : List α} (h : ∀ x ∈ xs, ∀ l, f (s, some l) x = (s, some (l ++ g x))) (l : List Byte) :
    xs.foldl f (s, some l) = (s, some (l ++ xs.flatMap g)) := by
  induction xs generalizing l with
  | nil => simp
  | cons x xs ih =>
    rw [List.foldl_cons, h x List.mem_cons_self, ih (fun y hy => h y (List.mem_cons_of_mem _ hy)), List.flatMap_cons, List.append_assoc]

/-- A bank access to clean bytes reads them and changes nothing. -/
theorem bankRead_clean {s : State} {n : Nat} {ps : List (Nat × Nat)} (h : ∀ p ∈ ps, CleanBank s n p.1 p.2) :
    s.bankRead n ps = (s, some (ps.flatMap (fun p => s.bytesAt (apBase n + p.1) p.2))) := by
  cases ps with
  | nil => rfl
  | cons p ps =>
    obtain ⟨hbank, -⟩ := h p List.mem_cons_self
    rw [State.bankRead, if_neg (by omega)]
    refine (foldl_append (fun q hq l => ?_) []).trans (by rw [List.nil_append])
    simp only [sramRead_clean _ _ _ _ _ (h q hq)]

/-- The lanes that a load takes from the bytes of its chunks. -/
def State.loadLanes (s : State) (n : Nat) (cs : Chunks) (post : List Byte → List Byte) : List Nat :=
  (List.range 256).map (fun i =>
    leNat (((cs.flatMap (fun c => post (c.flatMap (fun p => s.bytesAt (apBase n + p.1) p.2)))).drop (4 * i)).take 4))

/-- A load of clean bytes fills v[d] from them, lane by lane under the guard. -/
theorem loadChunks_ret {s : State} {n : Nat} {cs : Chunks} (post : List Byte → List Byte) (w : W64) (hc : CleanTile (s.tile n))
    (h : ∀ c ∈ cs, ∀ p ∈ c, CleanBank s n p.1 p.2) :
    Retired s (loadChunks n cs post w s) n ((s.tile n).pc + 8) (fun t => t.guardedWrite w (s.loadLanes n cs post)) := by
  rw [loadChunks, foldl_append (s := s) (g := fun c => post (c.flatMap (fun p => s.bytesAt (apBase n + p.1) p.2))) (fun c hcs l => ?_) []]
  · exact writeLanes_ret _ _ _ _ hc
  · simp only [bankRead_clean (h c hcs)]

/-- VLDC of a column that the width has. -/
theorem vldcOp_ret {s : State} {n : Nat} {w : W64} (hc : CleanTile (s.tile n)) (hcol : colIndex w < 1024 / colWidth w)
    (h : ∀ c ∈ colChunks (s.tile n) w, ∀ p ∈ c, CleanBank s n p.1 p.2) :
    Retired s (vldcOp n w s) n ((s.tile n).pc + 8)
      (fun t => t.guardedWrite w (s.loadLanes n (colChunks (s.tile n) w) (colPack (colWidth w) (colIndex w)))) := by
  rw [vldcOp, if_neg (by omega)]
  exact loadChunks_ret _ w hc h

/-! ## Stores (R71) -/

/-- The state once pieces have been stored in the SRAM of a tile, one after the other. -/
def State.storeAll (s : State) (n : Nat) (ps : List (Nat × List Byte)) : State := ps.foldl (fun s p => s.store (apBase n + p.1) p.2) s

theorem storeAll_cons (s : State) (n : Nat) (p : Nat × List Byte) (ps : List (Nat × List Byte)) :
    s.storeAll n (p :: ps) = (s.store (apBase n + p.1) p.2).storeAll n ps := rfl

theorem storeAll_append (s : State) (n : Nat) (ps qs : List (Nat × List Byte)) :
    s.storeAll n (ps ++ qs) = (s.storeAll n ps).storeAll n qs := List.foldl_append ..

@[simp] theorem tile_storeAll (s : State) (n : Nat) (ps : List (Nat × List Byte)) (m : Nat) : (s.storeAll n ps).tile m = s.tile m :=
  List.foldlRecOn (motive := fun u : State => u.tile m = s.tile m) ps _ rfl (fun _ h _ _ => h)

/-- Pieces to store are clean: each names bytes, which lie in a populated bank and hold no error. -/
def CleanPieces (s : State) (n : Nat) (ps : List (Nat × List Byte)) : Prop := ∀ p ∈ ps, p.2 ≠ [] ∧ CleanBank s n p.1 p.2.length

/-- A store makes no clean piece unclean. -/
theorem CleanPieces.storeAll {s : State} {n : Nat} {qs : List (Nat × List Byte)} (h : CleanPieces s n qs) (ps : List (Nat × List Byte)) :
    CleanPieces (s.storeAll n ps) n qs :=
  List.foldlRecOn (motive := fun u => CleanPieces u n qs) ps _ h (fun _ hu _ _ q hq => ⟨(hu q hq).1, (hu q hq).2.store ..⟩)

/-- Bytes outside all pieces stay. -/
theorem byteAt_storeAll (s : State) (n : Nat) (ps : List (Nat × List Byte)) {x : Nat}
    (h : ∀ p ∈ ps, ¬(apBase n + p.1 ≤ x ∧ x < apBase n + p.1 + p.2.length)) : (s.storeAll n ps).byteAt x = s.byteAt x :=
  List.foldlRecOn (motive := fun u : State => u.byteAt x = s.byteAt x) ps _ rfl
    (fun u hu p hp => by rw [byteAt_store, if_neg (h p hp), hu])

/-- Writing clean pieces one after the other stores them. -/
theorem foldl_sramWrite_clean {s : State} {n : Nat} (ps : List (Nat × List Byte)) (h : CleanPieces s n ps) :
    ps.foldl (fun acc p => if acc.2 then acc.1.sramWrite (Who.tile n) n p.1 p.2 else acc) (s, true) = (s.storeAll n ps, true) := by
  induction ps generalizing s with
  | nil => rfl
  | cons p ps ih =>
    obtain ⟨hp, hps⟩ := List.forall_mem_cons.mp h
    rw [List.foldl_cons, if_pos rfl, sramWrite_clean _ _ _ _ _ hp.1 hp.2]
    exact ih (CleanPieces.storeAll hps [p])

/-- A bank access to clean pieces stores them. -/
theorem bankWrite_clean {s : State} {n : Nat} {ps : List (Nat × List Byte)} (h : CleanPieces s n ps) :
    s.bankWrite n ps = (s.storeAll n ps, true) := by
  cases ps with
  | nil => rfl
  | cons p ps =>
    obtain ⟨-, hbank, -⟩ := h p List.mem_cons_self
    rw [State.bankWrite, if_neg (by omega)]
    exact foldl_sramWrite_clean _ h

/-- Bank accesses to clean pieces, one after the other, store them all. -/
theorem foldl_bankWrite_clean {s : State} {n : Nat} (cs : List (List (Nat × List Byte))) (h : CleanPieces s n cs.flatten) :
    cs.foldl (fun acc c => if acc.2 then acc.1.bankWrite n c else acc) (s, true) = (s.storeAll n cs.flatten, true) := by
  induction cs generalizing s with
  | nil => rfl
  | cons c cs ih =>
    obtain ⟨hc, hcs⟩ := List.forall_mem_append.mp h
    rw [List.foldl_cons, if_pos rfl, bankWrite_clean hc, ih (CleanPieces.storeAll hcs c), List.flatten_cons, storeAll_append]

/-- A store of clean pieces stores them and goes on. -/
theorem storeChunks_clean {s : State} {n : Nat} {cs : List (List (Nat × List Byte))} (h : CleanPieces s n cs.flatten) :
    storeChunks n cs s = (s.storeAll n cs.flatten).retire n := by
  rw [storeChunks, foldl_bankWrite_clean _ h]

/-- What a store of pieces leaves. -/
theorem storeAll_retire (s : State) (n : Nat) (ps : List (Nat × List Byte)) :
    Retired (s.storeAll n ps) ((s.storeAll n ps).retire n) n ((s.tile n).pc + 8) id
      ∧ ∀ x, (∀ p ∈ ps, ¬(apBase n + p.1 ≤ x ∧ x < apBase n + p.1 + p.2.length)) →
        ((s.storeAll n ps).retire n).byteAt x = s.byteAt x := by
  refine ⟨?_, fun x hx => byteAt_storeAll s n ps hx⟩
  rw [State.retire, tile_storeAll]
  exact retired_retireTo_id ..

/-! ## Stores of rows (R71) -/

/-- Every chunk is one row of a bank. -/
def RowChunks (cs : Chunks) : Prop := cs.length = 8 ∧ ∀ c ∈ cs, ∃ r, c = [(128 * r, 128)]

theorem rowChunks_bankChunks (t : Tile) (w : W64) : RowChunks (bankChunks t w) := by
  refine ⟨by simp [bankChunks], fun c hc => ?_⟩
  simp only [bankChunks, List.mem_map] at hc
  obtain ⟨k, -, rfl⟩ := hc
  generalize bankOf _ + k = b, bitsOf _ 7 10 = r
  have hoff : rowOff b r = 128 * (min b 63 * 1024 + r) := by unfold rowOff; ring
  exact ⟨_, by rw [hoff]⟩

theorem rowChunks_linearChunks (t : Tile) (w : W64) : RowChunks (linearChunks t w) := by
  refine ⟨by simp [linearChunks], fun c hc => ?_⟩
  simp only [linearChunks, List.mem_map] at hc
  obtain ⟨k, -, rfl⟩ := hc
  generalize _ % 2 ^ 23 / 1024 = a
  exact ⟨a * 8 + k, by rw [Nat.mul_add, Nat.mul_left_comm]⟩

/-- The guarded lanes of a clean row are clean pieces. -/
theorem cleanPieces_rowStores {s : State} {n r k : Nat} (g : BitVec 256) {data : List Byte} (hd : data.length = 1024) (hk : k < 8)
    (h : CleanBank s n (128 * r) 128) : CleanPieces s n (rowStores g data k (128 * r)) := by
  intro p hp
  simp only [rowStores, List.mem_map, List.mem_filter, List.mem_range] at hp
  obtain ⟨i, ⟨hi, -⟩, rfl⟩ := hp
  have hlen : ((data.drop (128 * k + 4 * i)).take 4).length = 4 := by simp [hd]; omega
  refine ⟨List.ne_nil_of_length_pos (by rw [hlen]; decide), h.within ?_ (by omega) (by dsimp only; omega)⟩
  rw [bankOf, bankOf, bitsOf, bitsOf]
  omega

/-- VST and VSTL of clean rows store the guarded lanes of v[c]. -/
theorem rowStoreOp_clean {s : State} {n : Nat} {chunks : Tile → W64 → Chunks} {w : W64} (hc : CleanTile (s.tile n))
    (hr : RowChunks (chunks (s.tile n) w)) (h : ∀ c ∈ chunks (s.tile n) w, ∀ p ∈ c, CleanBank s n p.1 p.2) :
    rowStoreOp n chunks w s = (s.storeAll n ((chunks (s.tile n) w).zipIdx.map (fun x =>
      rowStores ((s.tile n).preg (vG w)) (leBytes 1024 ((s.tile n).vreg (vC w)).toNat) x.2 ((x.1.headD (0, 0)).1))).flatten).retire n := by
  obtain ⟨hlen, hrows⟩ := hr
  rw [rowStoreOp, readVecs_clean _ _ _ _ hc]
  refine storeChunks_clean (fun p hp => ?_)
  obtain ⟨ps, hps, hp⟩ := List.mem_flatten.mp hp
  obtain ⟨⟨c, k⟩, hck, rfl⟩ := List.mem_map.mp hps
  have hcs : c ∈ chunks (s.tile n) w := List.fst_mem_of_mem_zipIdx hck
  have hk : k < 8 := hlen ▸ List.snd_lt_of_mem_zipIdx hck
  obtain ⟨r, rfl⟩ := hrows c hcs
  exact cleanPieces_rowStores _ (length_leBytes ..) hk (h _ hcs _ List.mem_cons_self) p hp

/-! ## Stores of columns (R32, R71) -/

/-- Each stored piece of a column lies in the bytes of an element. -/
theorem mem_colStores {s : State} {n k ew col data : Nat} {g : BitVec 256} {ps : List (Nat × Nat)} (h4 : ew = 4 → ∀ p ∈ ps, p.2 = 1)
    {q : Nat × List Byte} (hq : q ∈ colStores s n g data k ew col ps) : (q.1, q.2.length) ∈ ps := by
  simp only [colStores, List.mem_map, List.mem_filter] at hq
  obtain ⟨⟨p, i⟩, ⟨hp, -⟩, rfl⟩ := hq
  have hp : p ∈ ps := List.fst_mem_of_mem_zipIdx hp
  split
  next h => simpa [← h4 h p hp] using hp
  · simpa [length_leBytes] using hp

/-- VSTC of clean bytes, to a column that the width has, stores the guarded elements of v[c]. -/
theorem vstcOp_clean {s : State} {n : Nat} {w : W64} (hc : CleanTile (s.tile n)) (hcol : colIndex w < 1024 / colWidth w)
    (h : ∀ c ∈ colChunks (s.tile n) w, ∀ p ∈ c, CleanBank s n p.1 p.2) :
    vstcOp n w s = (s.storeAll n ((colChunks (s.tile n) w).zipIdx.map (fun x => colStores s n ((s.tile n).preg (vG w))
      ((s.tile n).vreg (vC w)).toNat x.2 (colWidth w) (colIndex w) x.1)).flatten).retire n := by
  rw [vstcOp, if_neg (by omega), readVecs_clean _ _ _ _ hc]
  refine storeChunks_clean (fun q hq => ?_)
  obtain ⟨qs, hqs, hq⟩ := List.mem_flatten.mp hq
  obtain ⟨⟨c, k⟩, hck, rfl⟩ := List.mem_map.mp hqs
  have hcs : c ∈ colChunks (s.tile n) w := List.fst_mem_of_mem_zipIdx hck
  have hwidth : ∀ p ∈ c, p.2 = max 1 (colWidth w / 8) := by
    simp only [colChunks, List.mem_map] at hcs
    obtain ⟨_, -, rfl⟩ := hcs
    simp only [colPieces, List.mem_map]
    rintro _ ⟨_, -, rfl⟩
    rfl
  have hp := mem_colStores (fun h4 p hp => by rw [hwidth p hp, h4]; rfl) hq
  have hlen : q.2.length = max 1 (colWidth w / 8) := hwidth _ hp
  exact ⟨List.ne_nil_of_length_pos (by omega), h c hcs _ hp⟩

/-- Settles O12: the loads are `loadChunks_ret`, the stores `storeAll_retire` of the guarded pieces. -/
theorem vectorLoadsAndStoresComplete : Obligations.VectorLoadsAndStoresComplete := by
  unfold Obligations.VectorLoadsAndStoresComplete
  intro s n w hw hc
  refine ⟨fun ho h => ?vld, fun ho h => ?vldl, fun ho hcol h => ?vldc, fun ho h => ?vst, fun ho h => ?vstl, fun ho hcol h => ?vstc⟩
  case vld => exact executes_ready rfl hw (by decide) ho (loadChunks_ret id w hc h)
  case vldl => exact executes_ready rfl hw (by decide) ho (loadChunks_ret id w hc h)
  case vldc => exact executes_ready rfl hw (by decide) ho (vldcOp_ret hc hcol h)
  case vst => exact completes_ready rfl hw (by decide) ho (rowStoreOp_clean hc (rowChunks_bankChunks ..) h ▸ storeAll_retire ..)
  case vstl => exact completes_ready rfl hw (by decide) ho (rowStoreOp_clean hc (rowChunks_linearChunks ..) h ▸ storeAll_retire ..)
  case vstc => exact completes_ready rfl hw (by decide) ho (vstcOp_clean hc hcol h ▸ storeAll_retire ..)

end Sys2Proof.Machine
end

section
/-! VCVT (R67 to R70, R101, R104). -/

namespace Sys2Proof.Machine

/-! ## What a conversion computes -/

/-- The scale codes that VCVT determines: those of an MX destination. -/
def vcvtScales (w : W64) (t : Tile) : List Nat :=
  if isMx (bitsOf (vImm w) 4 4) then blockScales (bitsOf (vImm w) 4 4) (vcvtSource w (t.vreg (vA w)) (t.sreg (vB w % 32))) else []

/-- The 256 converted elements, and what each counts. -/
def vcvtConv (n : Nat) (w : W64) (t : Tile) : List (Nat × HealthEvent) :=
  (vcvtSource w (t.vreg (vA w)) (t.sreg (vB w % 32))).zipIdx.map (fun x =>
    let r := if vRm w = 4 then srWord t.srKey n (t.srIndex.toNat + x.2) else 0
    let v := if isMx (bitsOf (vImm w) 4 4) then x.1.scale (mxFactor ((vcvtScales w t).getD (x.2 / 32) 0x7F)) else x.1
    convert (bitsOf (vImm w) 4 4) (vRm w) r ((vImm w).testBit 15) v)

/-- The elements of the destination register after VCVT. -/
def vcvtElems (n : Nat) (w : W64) (t : Tile) : List Nat :=
  let eb := elemBits (bitsOf (vImm w) 4 4)
  let qd := bitsOf (vImm w) 11 3
  (List.range (8192 / eb)).map (fun i =>
    if 256 * qd ≤ i ∧ i < 256 * qd + 256 then
      (if (t.preg (vG w)).getLsbD (i - 256 * qd) then ((vcvtConv n w t).getD (i - 256 * qd) (0, .none)).1
        else if vZ w then 0 else elemAt eb i (t.vreg (vD w)).toNat)
    else elemAt eb i (t.vreg (vD w)).toNat)

/-- What VCVT of the operands of `src` makes of a tile; the lanes that `written` names take fresh check bits. -/
def Tile.vcvt (n : Nat) (w : W64) (src : Tile) (written : Nat → Bool) (t : Tile) : Tile :=
  { t.setV (vD w) (BitVec.ofNat 8192 (packElems (elemBits (bitsOf (vImm w) 4 4)) (vcvtElems n w src))) written with
    s := if isMx (bitsOf (vImm w) 4 4) then (t.setS (vB w % 32) (BitVec.ofNat 64 (packElems 8 (vcvtScales w src)))).s else t.s
    srIndex := if vRm w = 4 then t.srIndex + 256 else t.srIndex }

/-- The three writes of VCVT, one after the other. -/
theorem vcvt_writes (n : Nat) (w : W64) (src : Tile) (written : Nat → Bool) (t : Tile) :
    (let t := t.setV (vD w) (BitVec.ofNat 8192 (packElems (elemBits (bitsOf (vImm w) 4 4)) (vcvtElems n w src))) written
     let t := if isMx (bitsOf (vImm w) 4 4) then t.setS (vB w % 32) (BitVec.ofNat 64 (packElems 8 (vcvtScales w src))) else t
     if vRm w = 4 then { t with srIndex := t.srIndex + 256 } else t) = Tile.vcvt n w src written t := by
  have hset (x : BitVec 8192) (k : Nat) (v : W64) :
      (t.setV (vD w) x written).setS k v = { t.setV (vD w) x written with s := (t.setS k v).s } := by
    unfold Tile.setS; split <;> rfl
  simp only [hset, Tile.vcvt]
  split_ifs <;> rfl

theorem SameButCsr.trans {s t u : State} (h : SameButCsr s t) (h' : SameButCsr t u) : SameButCsr s u := by
  unfold SameButCsr at *
  rw [← h, ← h']

/-- Registers are no tiles. -/
theorem SameButCsr.tile {s v : State} (h : SameButCsr s v) (m : Nat) : v.tile m = s.tile m := (congrArg (fun x : State => x.tile m) h :)

/-- A state that differs in registers, and then in registers and tiles. -/
theorem SameButCsr.sameButTiles {s v u : State} (h : SameButCsr s v) (h' : SameButTiles v u) : SameButTiles s u :=
  calc { u with csr := s.csr, tiles := s.tiles }
      = { ({ u with csr := v.csr, tiles := v.tiles } : State) with csr := s.csr, tiles := s.tiles } := rfl
    _ = { ({ v with csr := s.csr } : State) with tiles := s.tiles } := by rw [h']
    _ = s := by rw [h]

/-- Counting converted elements changes registers alone (R114). -/
theorem sameButCsr_health (s : State) (n tensor : Nat) (ev : List HealthEvent) : SameButCsr s (s.health n tensor ev) := by
  unfold State.health
  split
  · rfl
  · extract_lets k add s2 s3 s4
    have hadd (s : State) (c m : Nat) : SameButCsr s (add s c m) := by unfold add; split <;> rfl
    exact ((hadd ..).trans (hadd ..)).trans ((hadd ..).trans (hadd ..))

/-- VCVT on registers without errors counts, if at all, in registers, and then changes its tile and goes on. -/
theorem vcvtOp_clean {s : State} {n : Nat} {w : W64} (hc : CleanTile (s.tile n)) (hb : vcvtBad w = false) :
    ∃ v written, SameButCsr s v ∧ vcvtOp n w s = (v.modTile n (Tile.vcvt n w (s.tile n) written)).retire n := by
  rw [vcvtOp, hb, if_neg Bool.false_ne_true, readVecs_clean _ _ _ _ hc, readWords32_clean _ _ _ _ hc]
  by_cases hh : (vImm w).testBit 14
  · exact ⟨_, _, sameButCsr_health .., by rw [← funext (vcvt_writes n w (s.tile n) _)]; simp only [hh, if_true]; rfl⟩
  · exact ⟨s, _, rfl, by rw [← funext (vcvt_writes n w (s.tile n) _)]; simp only [hh]; rfl⟩

/-! ## The elements and the scales -/

theorem length_vcvtSource (w : W64) (src : BitVec 8192) (sb : W64) : (vcvtSource w src sb).length = 256 := by simp [vcvtSource]

/-- Element `j` of the conversion. -/
theorem getD_vcvtConv (n : Nat) (w : W64) (t : Tile) {j : Nat} (hj : j < 256) :
    let df := bitsOf (vImm w) 4 4
    let vs := vcvtSource w (t.vreg (vA w)) (t.sreg (vB w % 32))
    (vcvtConv n w t).getD j (0, .none) = convert df (vRm w) (if vRm w = 4 then srWord t.srKey n (t.srIndex.toNat + j) else 0)
      ((vImm w).testBit 15) (if isMx df then (vs.getD j .nan).scale (mxFactor ((blockScales df vs).getD (j / 32) 0x7F)) else vs.getD j .nan) := by
  have hlen := length_vcvtSource w (t.vreg (vA w)) (t.sreg (vB w % 32))
  dsimp only
  rw [vcvtConv, List.getD_eq_getElem _ _ (by simpa [hlen]), List.getElem_map, List.getElem_zipIdx, Nat.zero_add, vcvtScales,
    List.getD_eq_getElem _ Num.nan (by rwa [hlen])]
  dsimp only
  cases isMx (bitsOf (vImm w) 4 4) <;> rfl

/-- An element of the destination register. -/
theorem elemAt_vcvtElems (n : Nat) (w : W64) (t : Tile) {i : Nat} (hi : i < 8192 / elemBits (bitsOf (vImm w) 4 4)) :
    let eb := elemBits (bitsOf (vImm w) 4 4)
    let qd := bitsOf (vImm w) 11 3
    elemAt eb i (BitVec.ofNat 8192 (packElems eb (vcvtElems n w t))).toNat
      = (if 256 * qd ≤ i ∧ i < 256 * qd + 256 then
          (if (t.preg (vG w)).getLsbD (i - 256 * qd) then ((vcvtConv n w t).getD (i - 256 * qd) (0, .none)).1 % 2 ^ eb
            else if vZ w then 0 else elemAt eb i (t.vreg (vD w)).toNat)
        else elemAt eb i (t.vreg (vD w)).toNat) := by
  have hlen : (vcvtElems n w t).length = 8192 / elemBits (bitsOf (vImm w) 4 4) := by simp [vcvtElems]
  have hold := Nat.mod_eq_of_lt (elemAt_lt (elemBits (bitsOf (vImm w) 4 4)) i (t.vreg (vD w)).toNat)
  dsimp only
  rw [elemAt_ofNat_packElems (by rw [hlen]; exact Nat.mul_div_le ..) (by rwa [hlen])]
  simp only [vcvtElems, List.getElem_map, List.getElem_range]
  split_ifs
  · rfl
  · exact Nat.zero_mod _
  · exact hold
  · exact hold

/-- A scale code is a byte (R104). -/
theorem mxScale_lt (c : Nat) (vs : List Num) : mxScale c vs < 2 ^ 8 := by
  unfold mxScale
  split
  · decide
  · split
    · decide
    · omega

/-- A scale code in the register that holds those of the eight blocks. -/
theorem elemAt_blockScales (c : Nat) (vs : List Num) {k : Nat} (hk : k < 8) :
    elemAt 8 k (BitVec.ofNat 64 (packElems 8 (blockScales c vs))).toNat = (blockScales c vs).getD k 0 := by
  have hlen : (blockScales c vs).length = 8 := by simp [blockScales]
  rw [elemAt_ofNat_packElems (by rw [hlen]) (by rwa [hlen]), List.getD_eq_getElem _ _ (by rwa [hlen])]
  refine Nat.mod_eq_of_lt ?_
  simp only [blockScales, List.getElem_map]
  exact mxScale_lt ..

/-! ## The tile after VCVT -/

/-- Writing a vector register of a tile without errors changes the vector registers alone. -/
theorem setV_clean {t : Tile} (hc : CleanTile t) (k : Nat) (x : BitVec 8192) (f : Nat → Bool) :
    t.setV k x f = { t with v := (t.setV k x f).v } := by
  obtain ⟨hu, he, -⟩ := hc
  cases t
  cases hu
  cases he
  rfl

/-- The scalar registers depend on their table alone. -/
theorem sreg_congr {t u : Tile} (h : u.s = t.s) (k : Nat) : u.sreg k = t.sreg k := by rw [Tile.sreg, h, Tile.sreg]

/-- Writing a scalar register leaves every other. -/
theorem sreg_setS_ne (t : Tile) {k k' : Nat} (x : W64) (h : k' ≠ k) : (t.setS k x).sreg k' = t.sreg k' := by
  by_cases hk : k = 0
  · subst hk; rfl
  · rw [sreg_setS _ _ _ hk, if_neg h]

section
variable (n : Nat) (w : W64) (src t : Tile) (written : Nat → Bool)

/-- Of the vector registers VCVT writes v[d]. -/
theorem vreg_vcvt (k : Nat) : (Tile.vcvt n w src written t).vreg k = if k = vD w then
    BitVec.ofNat 8192 (packElems (elemBits (bitsOf (vImm w) 4 4)) (vcvtElems n w src)) else t.vreg k :=
  vreg_setV t (vD w) k _ written

/-- Of the scalar registers VCVT writes s[b], and that for an MX destination. -/
theorem s_vcvt : (Tile.vcvt n w src written t).s = if isMx (bitsOf (vImm w) 4 4) then
    (t.setS (vB w % 32) (BitVec.ofNat 64 (packElems 8 (vcvtScales w src)))).s else t.s := rfl

/-- VCVT leaves all else of a tile without errors but VEC.SR_INDEX, which stochastic rounding advances (R101). -/
theorem vcvt_frame (hc : CleanTile t) : Tile.vcvt n w src written t =
    { t with v := (Tile.vcvt n w src written t).v, s := (Tile.vcvt n w src written t).s,
             srIndex := if vRm w = 4 then t.srIndex + 256 else t.srIndex } := by
  unfold Tile.vcvt
  rw [setV_clean hc]

end

/-- Settles O11: VCVT changes its tile as `vreg_vcvt`, `sreg_vcvt` and `vcvt_frame` say, and beside it registers alone. -/
theorem conversionCompletes : Obligations.ConversionCompletes := by
  unfold Obligations.ConversionCompletes
  intro s n w hw hc ho hb
  dsimp only
  refine completes_ready rfl hw (by decide) ho ?_
  obtain ⟨v, written, hv, hop⟩ := vcvtOp_clean hc hb
  have htiles (m : Nat) : v.tile m = s.tile m := hv.tile m
  have hframe := vcvt_frame n w (s.tile n) (s.tile n) written hc
  have hvreg := vreg_vcvt n w (s.tile n) (s.tile n) written
  have hs := s_vcvt n w (s.tile n) (s.tile n) written
  obtain ⟨htile, hothers, -, -, hrest⟩ := retired_retire v n (Tile.vcvt n w (s.tile n) written)
    (by rw [htiles]; exact (congrArg Tile.pc hframe :))
  rw [← hop, htiles] at htile
  rw [← hop] at hothers hrest
  generalize vcvtOp n w s = u at *
  generalize Tile.vcvt n w (s.tile n) written (s.tile n) = x at *
  have hxv (k : Nat) : (u.tile n).vreg k = x.vreg k := by rw [htile]; rfl
  have hxs (k : Nat) : (u.tile n).sreg k = x.sreg k := by rw [htile]; rfl
  refine ⟨fun i hi => ?elements, fun k hk => ?vectors, fun k hk => ?scalars, fun hmx hk0 k hk => ?scales, ?tile,
    fun m hm => (hothers m hm).trans (htiles m), hv.sameButTiles hrest⟩
  case elements =>
    rw [hxv, hvreg, if_pos rfl, elemAt_vcvtElems _ _ _ hi]
    split
    next h => rw [getD_vcvtConv _ _ _ (by omega)]
    next => rfl
  case vectors => rw [hxv, hvreg, if_neg hk]
  case scalars =>
    rw [hxs]
    cases hmx : isMx (bitsOf (vImm w) 4 4) with
    | false => exact sreg_congr (hs.trans (if_neg (by simp [hmx]))) k
    | true => exact (sreg_congr (hs.trans (if_pos hmx)) k).trans (sreg_setS_ne _ _ (hk.resolve_left (by simp [hmx])))
  case scales =>
    rw [hxs, sreg_congr (hs.trans (if_pos hmx)), sreg_setS _ _ _ hk0, if_pos rfl, vcvtScales, if_pos hmx, elemAt_blockScales _ _ hk]
  case tile =>
    rw [htile]
    exact congrArg (fun y : Tile => { y with pc := (s.tile n).pc + 8, wait := 0, pwait := none }) hframe

end Sys2Proof.Machine
end

section
/-! The events of an array: queued passes, hand-offs, check points and the end of passes (R59, R88 to R91, R107, R386 to R391). -/

namespace Sys2Proof.Machine

/-! ## The end of walks (R62, R86, R391) -/

/-- Nothing but tiles and the requests to other places differs between two states. -/
def SameButTilesFab (s u : State) : Prop := { u with tiles := s.tiles, fab := s.fab } = s

theorem SameButTilesFab.trans {s t u : State} (h : SameButTilesFab s t) (h' : SameButTilesFab t u) : SameButTilesFab s u := by
  unfold SameButTilesFab at *
  calc { u with tiles := s.tiles, fab := s.fab }
      = { ({ u with tiles := t.tiles, fab := t.fab } : State) with tiles := s.tiles, fab := s.fab } := rfl
    _ = s := by rw [h', h]

theorem SameButTilesFab.rest {s u : State} (h : SameButTilesFab s u) :
    u.csr = s.csr ∧ u.frozen = s.frozen ∧ u.flt = s.flt ∧ u.mem = s.mem :=
  ⟨(congrArg State.csr h :), (congrArg State.frozen h :), (congrArg State.flt h :), (congrArg State.mem h :)⟩

theorem sameButTilesFab_modTile (s : State) (n : Nat) (f : Tile → Tile) : SameButTilesFab s (s.modTile n f) := rfl

/-- Walks of tile `n` have ended: the tile differs in its address generators alone, and beside it no more than what reads have fetched. -/
structure WalksEnd (n : Nat) (s u : State) : Prop where
  frame : SameButTilesFab s u
  others : ∀ j, j ≠ n → u.tile j = s.tile j
  tile : u.tile n = { s.tile n with agens := (u.tile n).agens }

theorem WalksEnd.refl (n : Nat) (s : State) : WalksEnd n s s := ⟨rfl, fun _ _ => rfl, rfl⟩

theorem WalksEnd.trans {n : Nat} {s t u : State} (h : WalksEnd n s t) (h' : WalksEnd n t u) : WalksEnd n s u where
  frame := h.frame.trans h'.frame
  others j hj := (h'.others j hj).trans (h.others j hj)
  tile := by rw [h'.tile, h.tile]

/-- A change of the address generators of a tile. -/
theorem WalksEnd.modTile (n : Nat) (s : State) {f : Tile → Tile} (h : f (s.tile n) = { s.tile n with agens := (f (s.tile n)).agens }) :
    WalksEnd n s (s.modTile n f) where
  frame := rfl
  others j hj := tile_modTile_ne s n j f hj
  tile := by rw [tile_modTile_same]; exact h

theorem endWalk_agens (t : Tile) (a : Nat) : t.endWalk a = { t with agens := (t.endWalk a).agens } := by
  unfold Tile.endWalk
  extract_lets y y'
  split <;> rfl

theorem walksEnd_endWalk (s : State) (n a : Nat) : WalksEnd n s (s.endWalk n a) where
  frame := endWalk_frame s n a
  others j hj := tile_endWalk_ne s a hj
  tile := by rw [tile_endWalk_same]; exact endWalk_agens ..

theorem walksEnd_endPassWalk (s : State) (n a : Nat) : WalksEnd n s (s.endPassWalk n a) := by
  unfold State.endPassWalk
  extract_lets s1
  have h1 : WalksEnd n s s1 := .modTile n s rfl
  split
  · split
    · exact h1.trans (walksEnd_endWalk ..)
    · exact h1
  · exact h1

/-- The end of walks leaves the arrays of the tile. -/
theorem WalksEnd.array {n : Nat} {s u : State} (h : WalksEnd n s u) (m : Nat) : (u.tile n).array m = (s.tile n).array m := by
  rw [h.tile]; rfl

/-! ## Queued passes (R91) -/

@[simp] theorem array_setAgen (t : Tile) (a : Nat) (x : Agen) (m : Nat) : (t.setAgen a x).array m = t.array m := rfl

/-- A queued pass starts on a free array. -/
theorem queuedPassStart_free {s : State} {n m : Nat} {p : Pass} (hq : ((s.tile n).array m).queued = some p)
    (hf : (s.tile n).arrayFree m = true) : queuedPassStart n m s = s.modTile n (fun t => t.startPass m p) := by
  rw [queuedPassStart, hq]
  exact if_pos hf

/-- The array on which a pass starts. -/
theorem array_startPass (t : Tile) (m : Nat) (p : Pass) :
    (t.startPass m p).array m = { t.array m with run := some p, queued := none, lastSet := p.set == 1 } := by
  simp [Tile.startPass, array_setArray]

/-! ## The set addition (R28, R89, R110) -/

theorem mem_maskBits {x : W64} {i : Nat} : i ∈ maskBits x ↔ i < 64 ∧ x.getLsbD i = true := by simp [maskBits]

/-- Row `i` of a set with the hand-off sums added into its unmasked entries. -/
@[irreducible] def addRow (n : Nat) (p : Pass) (x : Nat → Nat → HandOff) (i : Nat) (old : BitVec 2048) : BitVec 2048 :=
  BitVec.ofNat 2048 (packElems 32 ((List.range 64).map (fun j =>
    if p.cols.getLsbD j then setEntry n p (elemAt 32 j old.toNat) (x i j) else elemAt 32 j old.toNat)))

/-- An entry of such a row. -/
theorem elemAt_addRow (n : Nat) (p : Pass) (x : Nat → Nat → HandOff) (i : Nat) (old : BitVec 2048) {j : Nat} (hj : j < 64) :
    elemAt 32 j (addRow n p x i old).toNat
      = if p.cols.getLsbD j then setEntry n p (elemAt 32 j old.toNat) (x i j) % 2 ^ 32 else elemAt 32 j old.toNat := by
  unfold addRow
  rw [elemAt_ofNat_packElems (by simp) (by simpa using hj), List.getElem_map, List.getElem_range]
  split
  · rfl
  · exact Nat.mod_eq_of_lt (elemAt_lt ..)

/-- The hand-off sums of row `i` are added. -/
def Tile.addSetRow (n m : Nat) (p : Pass) (x : Nat → Nat → HandOff) (t : Tile) (i : Nat) : Tile :=
  let done (y : Nat) : Bool := y / 64 == accKey m p.set i && p.cols.getLsbD (y % 64)
  { t with
    acc := nset 0 t.acc (accKey m p.set i) (addRow n p x i (t.accRow m p.set i))
    accUe := t.accUe.filter (fun y => !done y)
    accCe := t.accCe.filter (fun y => !done y) }

theorem addSet_eq_foldl (t : Tile) (n m : Nat) (p : Pass) (x : Nat → Nat → HandOff) :
    t.addSet n m p x = (maskBits p.rows).foldl (Tile.addSetRow n m p x) t := by
  unfold Tile.addSet Tile.addSetRow addRow
  with_reducible rfl

theorem kget_addSetRow (n m : Nat) (p : Pass) (x : Nat → Nat → HandOff) (t : Tile) (i key : Nat) :
    kget 0 (Tile.addSetRow n m p x t i).acc key
      = if key = accKey m p.set i then addRow n p x i (t.accRow m p.set i) else kget 0 t.acc key := by
  unfold Tile.addSetRow; exact kget_nset ..

/-- A row outside those that are added to stays. -/
theorem kget_foldl_addSetRow_ne (n m : Nat) (p : Pass) (x : Nat → Nat → HandOff) {key : Nat} (l : List Nat) (t : Tile)
    (h : ∀ i ∈ l, key ≠ accKey m p.set i) : kget 0 (l.foldl (Tile.addSetRow n m p x) t).acc key = kget 0 t.acc key :=
  List.foldlRecOn (motive := fun u : Tile => kget 0 u.acc key = kget 0 t.acc key) l _ rfl
    (fun u hu i hi => by rw [kget_addSetRow, if_neg (h i hi), hu])

/-- A row that is added to once. -/
theorem accRow_foldl_addSetRow (n m : Nat) (p : Pass) (x : Nat → Nat → HandOff) (l : List Nat) (t : Tile) (hl : l.Nodup) {i : Nat}
    (hi : i ∈ l) :
    (l.foldl (Tile.addSetRow n m p x) t).accRow m p.set i = addRow n p x i (t.accRow m p.set i) := by
  have hkey {a b : Nat} (h : a ≠ b) : accKey m p.set a ≠ accKey m p.set b := by unfold accKey; omega
  induction l generalizing t with
  | nil => simp at hi
  | cons a l ih =>
    obtain ⟨ha, hl⟩ := List.nodup_cons.mp hl
    rw [List.foldl_cons]
    rcases List.mem_cons.mp hi with rfl | hi
    · rw [Tile.accRow, kget_foldl_addSetRow_ne n m p x l _ (fun y hy => hkey (ne_of_mem_of_not_mem hy ha).symm), kget_addSetRow,
        if_pos rfl]
    · rw [ih _ hl hi, Tile.accRow, kget_addSetRow, if_neg (hkey (ne_of_mem_of_not_mem hi ha)), Tile.accRow]

/-- An entry of the set after a hand-off: new where neither its row nor its column is masked. -/
theorem elemAt_addSet (t : Tile) (n m : Nat) (p : Pass) (x : Nat → Nat → HandOff) {i j : Nat} (hi : i < 64) (hj : j < 64) :
    elemAt 32 j ((t.addSet n m p x).accRow m p.set i).toNat
      = if p.rows.getLsbD i ∧ p.cols.getLsbD j then setEntry n p (elemAt 32 j (t.accRow m p.set i).toNat) (x i j) % 2 ^ 32
        else elemAt 32 j (t.accRow m p.set i).toNat := by
  rw [addSet_eq_foldl]
  by_cases hr : p.rows.getLsbD i = true
  · have hnodup : (maskBits p.rows).Nodup := List.nodup_range.filter _
    rw [accRow_foldl_addSetRow n m p x _ t hnodup (mem_maskBits.mpr ⟨hi, hr⟩), elemAt_addRow _ _ _ _ _ hj]
    simp only [hr, true_and]
  · rw [Tile.accRow, kget_foldl_addSetRow_ne n m p x _ t, if_neg (fun h => hr h.1), Tile.accRow]
    intro k hk hkey
    obtain rfl : i = k := by unfold accKey at hkey; omega
    exact hr (mem_maskBits.mp hk).2

/-- Every other set stays. -/
theorem accRow_addSet_ne (t : Tile) (n : Nat) {m m' k' row : Nat} (p : Pass) (x : Nat → Nat → HandOff) (hk : p.set < 2) (hk' : k' < 2)
    (hrow : row < 64) (h : m' ≠ m ∨ k' ≠ p.set) : (t.addSet n m p x).accRow m' k' row = t.accRow m' k' row := by
  rw [addSet_eq_foldl, Tile.accRow, Tile.accRow]
  refine kget_foldl_addSetRow_ne n m p x _ t (fun i hi => ?_)
  rw [ne_eq, accKey_inj hk hk' (mem_maskBits.mp hi).1 hrow]
  omega

/-- The set addition changes accumulators alone. -/
theorem addSet_frame (t : Tile) (n m : Nat) (p : Pass) (x : Nat → Nat → HandOff) :
    ∃ acc ue ce, t.addSet n m p x = { t with acc := acc, accUe := ue, accCe := ce } := by
  rw [addSet_eq_foldl]
  refine List.foldlRecOn (motive := fun u : Tile => ∃ acc ue ce, u = { t with acc := acc, accUe := ue, accCe := ce }) (maskBits p.rows) _
    ⟨_, _, _, rfl⟩ (fun u hu i _ => ?_)
  obtain ⟨acc, ue, ce, rfl⟩ := hu
  exact ⟨_, _, _, rfl⟩

/-! ## Hand-offs (R89) -/

/-- The state once the sums of a hand-off are added and its operands used up. -/
def State.handedOff (s : State) (n m : Nat) (p : Pass) (x : Nat → Nat → HandOff) : State :=
  s.modTile n (fun t => ((t.addSet n m p x).useOperands (2 * m)).useOperands (2 * m + 1))

/-- The pass after a hand-off, with the check points that it leaves to compare. -/
def Pass.handedOff (p : Pass) (checks : List CheckPoint) : Pass := { p with chunk := p.chunk + 1, checks := p.checks ++ checks }

/-- A hand-off whose data have come: at the last slice the pass finishes and its walks end, else the pass goes on. -/
theorem handOffOp_delivered {s v s' : State} {n m : Nat} {p : Pass} {l : List Byte} (hr : ((s.tile n).array m).run = some p)
    (hs : s.stagePass n m p p.span.1 p.span.2 = (v, .bytes l)) (ho : v.readOldSums n m p = (s', true)) :
    let sums := (s'.tile n).handOff m p ((s'.tile n).operands m p) p.span.1
    let q := p.handedOff (if s'.rf (.tileCtrl n) Fld.tileCtrlChecksumEn = 1 then sums.2 else [])
    let u := s'.handedOff n m p sums.1
    handOffOp n m s = if walkLen p.setA ≤ p.span.1 + p.span.2 then
      ((u.modTile n (fun t => t.setArray m { t.array m with run := none, finishing := (t.array m).finishing ++ [q] })).endWalk n
        (2 * m)).endWalk n (2 * m + 1)
      else u.modTile n (fun t => t.setArray m { t.array m with run := some q }) := by
  rw [handOffOp, hr]
  dsimp only
  rw [hs]
  dsimp only
  rw [ho]
  rfl

/-- The arrays and the address generators of a tile aside, it is another tile. -/
def SameButUnits (t u : Tile) : Prop := u = { t with arrays := u.arrays, agens := u.agens }

theorem SameButUnits.trans {t u v : Tile} (h : SameButUnits t u) (h' : SameButUnits u v) : SameButUnits t v := by
  unfold SameButUnits at *
  rw [h', h]

theorem WalksEnd.sameButUnits {n : Nat} {s u : State} (h : WalksEnd n s u) : SameButUnits (s.tile n) (u.tile n) := by
  unfold SameButUnits
  rw [h.tile]

/-- Storing an array changes no more than its tile's arrays. -/
theorem sameButUnits_setArray (t : Tile) (m : Nat) (x : MatArray) : SameButUnits t (t.setArray m x) := rfl

/-- What has been delivered to a feeder is state of its address generator. -/
theorem sameButUnits_useOperands (t : Tile) (a : Nat) : SameButUnits t (t.useOperands a) := rfl

/-- What a hand-off whose data have come leaves: the sums in the set, the pass finished or gone on, and all else but what its walks held. -/
theorem handOffOp_effect {s v s' : State} {n m : Nat} {p : Pass} {l : List Byte} (hr : ((s.tile n).array m).run = some p)
    (hs : s.stagePass n m p p.span.1 p.span.2 = (v, .bytes l)) (ho : v.readOldSums n m p = (s', true)) :
    let u := handOffOp n m s
    SameButUnits ((s'.tile n).addSet n m p ((s'.tile n).handOff m p ((s'.tile n).operands m p) p.span.1).1) (u.tile n)
      ∧ (walkLen p.setA ≤ p.span.1 + p.span.2 → ((u.tile n).array m).run = none)
      ∧ (p.span.1 + p.span.2 < walkLen p.setA → ∃ q, ((u.tile n).array m).run = some q ∧ q.chunk = p.chunk + 1)
      ∧ (∀ j, j ≠ n → u.tile j = s'.tile j) ∧ { u with tiles := s'.tiles, fab := s'.fab } = s' := by
  have hop := handOffOp_delivered hr hs ho
  dsimp only at hop ⊢
  rw [hop]
  generalize (s'.tile n).handOff m p ((s'.tile n).operands m p) p.span.1 = sums
  have hadded : SameButUnits ((s'.tile n).addSet n m p sums.1) ((s'.handedOff n m p sums.1).tile n) := by
    rw [State.handedOff, tile_modTile_same]
    exact (sameButUnits_useOperands ..).trans (sameButUnits_useOperands ..)
  have hothers (f : Tile → Tile) (j : Nat) (hj : j ≠ n) : ((s'.handedOff n m p sums.1).modTile n f).tile j = s'.tile j :=
    (tile_modTile_ne _ _ _ _ hj).trans (tile_modTile_ne _ _ _ _ hj)
  have hframe (f : Tile → Tile) : SameButTilesFab s' ((s'.handedOff n m p sums.1).modTile n f) :=
    (sameButTilesFab_modTile s' n _).trans (sameButTilesFab_modTile _ n f)
  generalize s'.handedOff n m p sums.1 = u at *
  split
  next hlast =>
    generalize hx : (fun t : Tile => t.setArray m { t.array m with run := none, finishing := (t.array m).finishing ++
      [p.handedOff (if s'.rf (.tileCtrl n) Fld.tileCtrlChecksumEn = 1 then sums.2 else [])] }) = f at *
    have hends := (walksEnd_endWalk (u.modTile n f) n (2 * m)).trans (walksEnd_endWalk _ n (2 * m + 1))
    have htile : (u.modTile n f).tile n = f (u.tile n) := tile_modTile_same ..
    refine ⟨?_, fun _ => ?_, fun h => absurd hlast (by omega), fun j hj => (hends.others j hj).trans (hothers f j hj),
      SameButTilesFab.trans (hframe f) hends.frame⟩
    · refine hadded.trans (.trans ?_ hends.sameButUnits)
      rw [htile, ← hx]
      exact sameButUnits_setArray ..
    · rw [hends.array, htile, ← hx, array_setArray, if_pos rfl]
  next hmore =>
    rw [tile_modTile_same]
    exact ⟨hadded.trans (sameButUnits_setArray ..), fun h => absurd h hmore, fun _ => ⟨_, by rw [array_setArray, if_pos rfl], rfl⟩,
      hothers _, hframe _⟩

/-! ## Check points (R388 to R391) -/

/-- The oldest check point of an array, of a pass that has run its last array cycle, holds. -/
theorem checkPointOp_holds {s : State} {n m : Nat} {p : Pass} {ps : List Pass} {c : CheckPoint} {cs : List CheckPoint}
    (hf : ((s.tile n).array m).finishing = p :: ps) (hc : p.checks = c :: cs) (hrow : firstFail c p.rows c.rows = 0xFF)
    (hcol : firstFail c p.cols c.cols = 0xFF) :
    checkPointOp n m s = s.modTile n (fun t => t.setArray m { (s.tile n).array m with finishing := { p with checks := cs } :: ps }) := by
  simp [checkPointOp, hf, hc, hrow, hcol, modifyFirst]

/-- The oldest check point of an array, of a pass that has run its last array cycle, fails in a row: with the pass all later
ones are given up. -/
theorem checkPointOp_fails {s : State} {n m : Nat} {p : Pass} {ps : List Pass} {c : CheckPoint} {cs : List CheckPoint}
    (hf : ((s.tile n).array m).finishing = p :: ps) (hc : p.checks = c :: cs) (hrow : firstFail c p.rows c.rows ≠ 0xFF) :
    checkPointOp n m s = s.checkFails n m (firstFail c p.rows c.rows) (firstFail c p.cols c.cols) c.last
      (((s.tile n).array m).finishing ++ ((s.tile n).array m).run.toList) := by
  simp [checkPointOp, hf, hc, hrow]

/-- The tile once its array stops at a failing check point: the sets of `ps` are marked failed. -/
def Tile.stopArray (m : Nat) (ps : List Pass) (t : Tile) : Tile :=
  { t with failed := ps.foldl (fun (f : BitVec 8) (p : Pass) => f ||| BitVec.ofNat 8 (2 ^ (2 * m + p.set))) t.failed }.setArray m
    { t.array m with run := none, queued := none, finishing :=
        (t.array m).finishing.take ((t.array m).finishing.length + (t.array m).run.toList.length - ps.length) }

/-- The set of the first pass that is given up is marked failed. -/
theorem setFailed_stopArray (t : Tile) {m : Nat} (hm : m < 4) {p : Pass} (hp : p.set < 2) (ps : List Pass) :
    (t.stopArray m (p :: ps)).setFailed m p.set = true := by
  have hone : (BitVec.ofNat 8 (2 ^ (2 * m + p.set))).getLsbD (2 * m + p.set) = true := by
    rw [BitVec.getLsbD_ofNat, Nat.testBit_two_pow_self]
    simp; omega
  refine List.foldlRecOn (motive := fun f : BitVec 8 => f.getLsbD (2 * m + p.set) = true) ps _ ?_ (fun f hf q _ => ?_)
  · rw [BitVec.getLsbD_or, hone, Bool.or_true]
  · rw [BitVec.getLsbD_or, hf, Bool.true_or]

/-- The array that stops with all its passes given up. -/
theorem array_stopArray (t : Tile) (m : Nat) :
    let y := (t.stopArray m ((t.array m).finishing ++ (t.array m).run.toList)).array m
    y.run = none ∧ y.queued = none ∧ y.finishing = [] := by
  simp [Tile.stopArray, array_setArray]

/-- Whether a class freezes the device depends on the registers alone. -/
theorem triggers_of_csr {s u : State} (h : u.csr = s.csr) (cls : Nat) : u.triggers cls = s.triggers cls := by
  rw [State.triggers, State.rget, h, State.triggers, State.rget]

/-- A failing check point is noted in TILE.FAULT and counted. -/
def State.failNoted (s : State) (n m : Nat) : State :=
  (s.setF (.tileFault n) Fld.tileFaultCheckMismatch 1).bumpF (.maCheckFail n m) Fld.maCheckFailCount 1

theorem triggers_failNoted (s : State) (n m cls : Nat) : (s.failNoted n m).triggers cls = s.triggers cls := by
  rw [State.failNoted, State.bumpF, triggers_setF _ _ _ _ (by simp), triggers_setF _ _ _ _ (by simp)]

theorem rf_failNoted (s : State) (n m : Nat) : (s.failNoted n m).rf (.tileFault n) Fld.tileFaultCheckMismatch = 1 := by
  rw [State.failNoted, State.bumpF, rf_setF_ne _ _ _ _ _ _ (by decide) (.inl (by simp)), rf_setF_same _ _ _ _ (by decide)]
  decide

/-- The state once the array of a failing check point has stopped, and the walks of its passes with it. -/
def State.arrayStopped (s : State) (n m : Nat) (ps : List Pass) : State :=
  (((s.failNoted n m).modTile n (Tile.stopArray m ps)).endPassWalk n (2 * m)).endPassWalk n (2 * m + 1)

theorem walksEnd_arrayStopped (s : State) (n m : Nat) (ps : List Pass) :
    WalksEnd n ((s.failNoted n m).modTile n (Tile.stopArray m ps)) (s.arrayStopped n m ps) :=
  (walksEnd_endPassWalk ..).trans (walksEnd_endPassWalk ..)

/-- The TILE_CHECK record of a failing check point (R391). -/
def checkRec (s : State) (n m row col last : Nat) : FaultRec :=
  { mkRec Cls.tileCheck 2 Kind.tile n with
    detail0 := BitVec.ofNat 64 (m + row * 2 ^ 8 + col * 2 ^ 16 + last * 2 ^ 32)
    detail1 := (s.tile n).pc.setWidth 16 |>.zeroExtend 48 }

/-- A failing check point stops its array, and then the sequencer with a record. -/
theorem checkFails_eq (s : State) (n m row col last : Nat) (ps : List Pass) : s.checkFails n m row col last ps
    = ((s.arrayStopped n m ps).stopNow n ⟨3, some (checkRec (s.arrayStopped n m ps) n m row col last)⟩).settle n := rfl

/-- Noting a failing check point writes registers alone. -/
theorem failNoted_rest (s : State) (n m : Nat) :
    (s.failNoted n m).tiles = s.tiles ∧ (s.failNoted n m).frozen = s.frozen ∧ (s.failNoted n m).flt = s.flt
      ∧ (s.failNoted n m).mem = s.mem :=
  ⟨rfl, rfl, rfl, rfl⟩

/-- What a failing check point whose record freezes nothing leaves (R391). -/
theorem checkFails_noted {s : State} {n m : Nat} (row col last : Nat) (ps : List Pass) (hf : s.frozen = false)
    (ht : s.triggers Cls.tileCheck = false) :
    let u := s.checkFails n m row col last ps
    (∃ agens, u.tile n = ({ (s.tile n).stopArray m ps with agens := agens } : Tile).stopped 3) ∧ (∀ j, j ≠ n → u.tile j = s.tile j)
      ∧ u.csr = (s.failNoted n m).csr ∧ u.flt.net.length = s.flt.net.length + 1 ∧ u.mem = s.mem := by
  have hends := walksEnd_arrayStopped s n m ps
  obtain ⟨hnoted, hfrozen, hflt, hmem⟩ := failNoted_rest s n m
  have hnotedtile (j : Nat) : (s.failNoted n m).tile j = s.tile j := by rw [State.tile, hnoted, State.tile]
  have htrig := triggers_failNoted s n m Cls.tileCheck
  rw [checkFails_eq]
  generalize s.arrayStopped n m ps = v at *
  generalize s.failNoted n m = f at *
  obtain ⟨hcsr, hfrozen', hflt', hmem'⟩ := (SameButTilesFab.trans (sameButTilesFab_modTile f n _) hends.frame).rest
  have htile := hends.tile
  rw [tile_modTile_same, hnotedtile] at htile
  have hothers (j : Nat) (hj : j ≠ n) : v.tile j = s.tile j :=
    (hends.others j hj).trans ((tile_modTile_ne _ _ _ _ hj).trans (hnotedtile j))
  obtain ⟨hstop, hstopothers, hnet, hstopcsr, hstopmem⟩ := stopNow_noted (r := checkRec v n m row col last) n 3
    (hfrozen'.trans (hfrozen.trans hf)) ((triggers_of_csr hcsr _).trans (htrig.trans ht))
  rw [settle_going (by rw [hstop]; rfl)]
  refine ⟨⟨(v.tile n).agens, ?_⟩, ?_, ?_, ?_, ?_⟩
  · exact hstop.trans (congrArg (Tile.stopped · 3) htile)
  · exact fun j hj => (hstopothers j hj).trans (hothers j hj)
  · exact hstopcsr.trans hcsr
  · rw [hnet, List.length_append, hflt', hflt]
    rfl
  · exact hstopmem.trans (hmem'.trans hmem)

/-! ## The end of a pass (R90) -/

/-- A pass without check points completes. -/
theorem passCompleteOp_checked {s : State} {n m : Nat} {p : Pass} {ps : List Pass} (hf : ((s.tile n).array m).finishing = p :: ps)
    (hc : p.checks = []) (hg : (s.tile n).stopping = none) :
    passCompleteOp n m s = (s.bumpF (.maPassCount n m) Fld.maPassCountPasses 1).modTile n
      (fun t => t.setArray m { (s.tile n).array m with finishing := ps }) := by
  rw [passCompleteOp, hf]
  simp only [hc, List.isEmpty_nil, if_true]
  exact settle_going (by rw [tile_modTile_same]; exact hg)

/-- Settles O15: each event is its operation under the conditions stated; a hand-off leaves what `handOffOp_effect` says, a failing check
point what `checkFails_noted` says. -/
theorem passEventsComplete : Obligations.PassEventsComplete := by
  unfold Obligations.PassEventsComplete
  intro s n m hs
  refine ⟨fun p hq hfree => ?queued, fun p v s' l hr hst ho => ?handOff, fun p c cs ps hf hc hrow hcol => ?holds,
    fun p c cs ps hf hc hset hrow ht => ?fails, fun p ps hf hc hg => ?complete⟩
  case queued =>
    refine completes_clocked (f := queuedPassStart n m) rfl hs ?_
    rw [queuedPassStart_free hq hfree, tile_modTile_same, array_startPass]
    exact ⟨rfl, rfl, rfl, ⟨fun j hj => tile_modTile_ne _ _ _ _ hj, rfl⟩, modTile_frame ..⟩
  case handOff =>
    refine completes_clocked (f := handOffOp n m) rfl hs ?_
    obtain ⟨htile, hlast, hmore, hothers, hframe⟩ := handOffOp_effect hr hst ho
    generalize handOffOp n m s = u at *
    dsimp only
    generalize ((s'.tile n).handOff m p ((s'.tile n).operands m p) p.span.1).1 = sums at *
    have hrow (m' k' row : Nat) : (u.tile n).accRow m' k' row = ((s'.tile n).addSet n m p sums).accRow m' k' row :=
      accRow_congr (congrArg Tile.acc htile :) m' k' row
    obtain ⟨acc, ue, ce, hadd⟩ := addSet_frame (s'.tile n) n m p sums
    refine ⟨fun i j hi hj => ?_, hlast, hmore, fun hset m' k' row hk' hrow' hne => ?_, ?_, ?_, ?_, ?_, hothers, hframe⟩
    · rw [hrow, elemAt_addSet _ _ _ _ _ hi hj]
    · rw [hrow, accRow_addSet_ne _ _ _ _ hset hk' hrow' hne]
    · exact (congrArg Tile.s htile :).trans (congrArg Tile.s hadd :)
    · exact (congrArg Tile.v htile :).trans (congrArg Tile.v hadd :)
    · exact (congrArg Tile.p htile :).trans (congrArg Tile.p hadd :)
    · exact (congrArg Tile.pc htile :).trans (congrArg Tile.pc hadd :)
  case holds =>
    refine completes_clocked (f := checkPointOp n m) rfl hs ?_
    rw [checkPointOp_holds hf hc hrow hcol]
    exact ⟨tile_modTile_same .., ⟨fun j hj => tile_modTile_ne _ _ _ _ hj, rfl⟩, modTile_frame ..⟩
  case fails =>
    refine completes_clocked (f := checkPointOp n m) rfl hs ?_
    rw [checkPointOp_fails hf hc hrow]
    obtain ⟨⟨agens, htile⟩, hothers, hcsr, hnet, hmem⟩ := checkFails_noted (m := m) (firstFail c p.rows c.rows)
      (firstFail c p.cols c.cols) c.last (((s.tile n).array m).finishing ++ ((s.tile n).array m).run.toList) (not_frozen_of_runs hs) ht
    obtain ⟨hrun, hqueued, hfinishing⟩ := array_stopArray (s.tile n) m
    have hfailed := setFailed_stopArray (s.tile n) m.isLt hset (ps ++ ((s.tile n).array m).run.toList)
    rw [← List.cons_append, ← hf] at hfailed
    generalize (s.tile n).stopArray m (((s.tile n).array m).finishing ++ ((s.tile n).array m).run.toList) = x at *
    generalize s.checkFails n m _ _ _ _ = u at *
    have harray : (u.tile n).array m = x.array m := by rw [htile]; rfl
    refine ⟨(congrArg Tile.seq htile :), (congrArg Tile.cause htile :), ?_, harray ▸ hrun, harray ▸ hqueued, harray ▸ hfinishing, ?_, hnet,
      ⟨hothers, hmem⟩⟩
    · rw [htile]; exact hfailed
    · rw [rf_of_csr hcsr, rf_failNoted]
  case complete =>
    refine completes_clocked (f := passCompleteOp n m) rfl hs ?_
    rw [passCompleteOp_checked hf hc hg, tile_modTile_same]
    refine ⟨rfl, ?_, fun r hr => ?_, ⟨fun j hj => tile_modTile_ne _ _ _ _ hj, rfl⟩, rfl⟩
    · rw [rf_modTile, rf_bumpF_same _ _ _ _ (by decide)]
    · rw [rget_modTile, State.bumpF, rget_setF_ne _ _ _ _ _ hr]

end Sys2Proof.Machine
end

section
/-! The commits of the stash and of the scheduler, and the life of a task from its release to its end (R127, R133, R193 to R204). -/

namespace Sys2Proof.Machine

/-! ## What the scheduler leaves alone -/

/-- Nothing but registers, values in force and the scheduler differs between two states. -/
def SameButSched (s t : State) : Prop := { t with csr := s.csr, act := s.act, sched := s.sched } = s

theorem SameButSched.trans {s t u : State} (h : SameButSched s t) (h' : SameButSched t u) : SameButSched s u := by
  unfold SameButSched at *
  rw [← h, ← h']

theorem SameButSched.mem {s t : State} (h : SameButSched s t) : t.mem = s.mem := (congrArg State.mem h :)
theorem SameButSched.tiles {s t : State} (h : SameButSched s t) : t.tiles = s.tiles := (congrArg State.tiles h :)

theorem sameButSched_setF (s : State) (r : Reg) (f : Fld) (x : Nat) : SameButSched s (s.setF r f x) := rfl
theorem sameButSched_setRun (s : State) (x : StepRun) : SameButSched s (s.setRun x) := rfl
theorem sameButSched_bumpF (s : State) (r : Reg) (f : Fld) (k : Nat) : SameButSched s (s.bumpF r f k) := rfl

theorem rf_modSched (s : State) (f : Sched → Sched) (r : Reg) (g : Fld) : (s.modSched f).rf r g = s.rf r g := rfl
theorem rget_modSched (s : State) (f : Sched → Sched) (r : Reg) : (s.modSched f).rget r = s.rget r := rfl
theorem rf_setRun (s : State) (x : StepRun) (r : Reg) (g : Fld) : (s.setRun x).rf r g = s.rf r g := rfl
@[simp] theorem modStash_mem (s : State) (f : Stash → Stash) : (s.modStash f).mem = s.mem := rfl
@[simp] theorem modDesc_mem (s : State) (r : Nat) (idx : W32) (f : Desc → Desc) : (s.modDesc r idx f).mem = s.mem := rfl
@[simp] theorem setRun_flt (s : State) (x : StepRun) : (s.setRun x).flt = s.flt := rfl
@[simp] theorem setRun_tiles (s : State) (x : StepRun) : (s.setRun x).tiles = s.tiles := rfl

/-! ## Staged values that take effect together (R11) -/

/-- The values of staged registers put in force one after the other: each register of the list has its value, every other its old one. -/
theorem aget_foldl_staged (l : List Reg) (f : Reg → W64) (s : State) (r : Reg) :
    ((l.map (fun r => (r, f r))).foldl (fun s e => s.aset e.1 e.2) s).aget r = if r ∈ l then f r else s.aget r := by
  induction l generalizing s with
  | nil => rfl
  | cons a l ih =>
    rw [List.map_cons, List.foldl_cons, ih, aget_aset]
    by_cases ha : r = a
    · subst ha; simp
    · simp [ha]

/-- What the registers of a list hold does not change with a field of a register outside it. -/
theorem map_rget_setF {l : List Reg} {r : Reg} (h : r ∉ l) (s : State) (f : Fld) (x : Nat) :
    l.map (fun q => (q, (s.setF r f x).rget q)) = l.map (fun q => (q, s.rget q)) :=
  List.map_congr_left (fun q hq => by rw [rget_setF_ne _ _ _ _ _ (ne_of_mem_of_not_mem hq h)])

theorem pipeStashStatus_notMem_stashStaged : Reg.pipeStashStatus ∉ stashStaged := by simp [stashStaged]
theorem pipeStatus_notMem_pipeStaged : Reg.pipeStatus ∉ pipeStaged := by simp [pipeStaged]

/-! ## Commits of the stash (R127) -/

theorem stashCommitError_lt (s : State) (c : StashCfg) : s.stashCommitError c < 16 := by
  unfold State.stashCommitError; split_ifs <;> decide

/-- A stash commit has passed its checks: its code is shown, and the staged values wait. -/
def State.stashPassed (s : State) : State :=
  (s.setF .pipeStashStatus Fld.pipeStashStatusCommitError 0).modStash
    (fun h => { h with waiting := some (stashStaged.map (fun r => (r, s.rget r))) })

theorem stashCommit_fails {s : State} (h : s.stashCommitError (stashCfgOf s.rget) ≠ 0) :
    s.stashCommit = s.setF .pipeStashStatus Fld.pipeStashStatusCommitError (s.stashCommitError (stashCfgOf s.rget)) := by
  rw [State.stashCommit]; exact if_pos h

theorem stashCommit_passes {s : State} (h : s.stashCommitError (stashCfgOf s.rget) = 0) :
    s.stashCommit = if s.sched.run.isSome then s.stashPassed.setF .pipeStashStatus Fld.pipeStashStatusPending 1
      else s.stashPassed.applyStash := by
  unfold State.stashCommit
  rw [h]
  simp only [ne_eq, not_true_eq_false, if_false, map_rget_setF pipeStashStatus_notMem_stashStaged]
  rfl

/-- What a passed stash commit shows, and what it leaves until it takes effect. -/
theorem setPending_stashPassed_shows (s : State) (x : Nat) :
    let t := s.stashPassed.setF .pipeStashStatus Fld.pipeStashStatusPending x
    t.rf .pipeStashStatus Fld.pipeStashStatusCommitError = 0 ∧ t.rf .pipeStashStatus Fld.pipeStashStatusPending = x % 2
      ∧ ∀ r, r ≠ .pipeStashStatus → t.rget r = s.rget r := by
  refine ⟨?_, rf_setF_same _ _ _ _ (by decide), fun r hr => ?_⟩
  · rw [rf_setF_ne _ _ _ _ _ _ (by decide) (.inr (by decide))]
    exact rf_setF_same _ _ _ _ (by decide)
  · rw [rget_setF_ne _ _ _ _ _ hr]
    exact rget_setF_ne _ _ _ _ _ hr

theorem applyStash_waiting {s : State} {l : List (Reg × W64)} (h : s.sched.stash.waiting = some l) :
    s.applyStash = (l.foldl (fun s e => s.aset e.1 e.2) (s.setF .pipeStashStatus Fld.pipeStashStatusPending 0)).modStash
      (fun h => { h with waiting := none }) := by
  simp only [State.applyStash, h]; rfl

/-- A passed stash commit that waits takes effect: the staged values are in force, and nothing is pending. -/
theorem applyStash_staged {s : State} {f : Reg → W64} (h : s.sched.stash.waiting = some (stashStaged.map (fun r => (r, f r)))) :
    let t := s.applyStash
    t.csr = (s.setF .pipeStashStatus Fld.pipeStashStatusPending 0).csr
      ∧ (∀ r, t.aget r = if r ∈ stashStaged then f r else s.aget r)
      ∧ t.sched = { s.sched with stash := { s.sched.stash with waiting := none } } ∧ SameButSched s t := by
  have haget := aget_foldl_staged stashStaged f (s.setF .pipeStashStatus Fld.pipeStashStatusPending 0)
  rw [applyStash_waiting h]
  rw [foldl_aset_frame] at haget ⊢
  exact ⟨rfl, haget, rfl, rfl⟩

theorem sameButSched_applyStash (s : State) : SameButSched s s.applyStash := by
  cases h : s.sched.stash.waiting with
  | none => simp only [State.applyStash, h]; rfl
  | some l => rw [applyStash_waiting h, foldl_aset_frame]; rfl

/-- A waiting stash commit takes effect when the first task of a step may be released (R127, R134). -/
theorem stashCommitEffect_boundary {s : State} {x : StepRun} {task : Task} (hr : s.sched.run = some x) (ht : x.tasks = [])
    (hn : x.next = some task) (hm : s.mayRelease x task = true) : s.stashCommitEffect = s.applyStash := by
  simp [State.stashCommitEffect, hr, hn, ht, hm]

/-- The oldest switch entry is written to its journal, which has room (R133). -/
theorem stashJournal_oldest {s : State} {d : DescRef} {units : Nat} {rest : List (DescRef × Nat)} (hroom : s.journalRoom d.ring ≠ 0)
    (hj : s.sched.stash.journal = (d, units) :: rest) : s.stashJournal
      = (((s.writeJournal d.ring d.cookie units s.now stOk 0x10 true false d.idx).bumpF (.ringStats d.ring) Fld.ringStatsCompleted
        1).modDesc d.ring d.idx (fun e => { e with stashDone := true })).modStash (fun h => { h with journal := rest }) := by
  simp [State.stashJournal, hj, popFirst, hroom]

/-! ## Commits of the scheduler (R193) -/

theorem pipeCommitError_lt (get : Reg → W64) : pipeCommitError get < 16 := by
  unfold pipeCommitError; dsimp only; split_ifs <;> decide

theorem pipeCommit_fails {s : State} (h : pipeCommitError s.rget ≠ 0) :
    s.pipeCommit = s.setF .pipeStatus Fld.pipeStatusCommitError (pipeCommitError s.rget) := by
  rw [State.pipeCommit]; exact if_pos h

theorem pipeCommit_passes {s : State} (h : pipeCommitError s.rget = 0) :
    s.pipeCommit = ((s.setF .pipeStatus Fld.pipeStatusCommitError 0).setF .pipeStatus Fld.pipeStatusPending 1).modSched
      (fun x => { x with waiting := some (pipeStaged.map (fun r => (r, s.rget r))) }) := by
  unfold State.pipeCommit
  rw [h]
  simp only [ne_eq, not_true_eq_false, if_false, map_rget_setF pipeStatus_notMem_pipeStaged]

theorem pipeCommitEffect_idle {s : State} {l : List (Reg × W64)} (hw : s.sched.waiting = some l) (hr : s.sched.run = none) :
    s.pipeCommitEffect = (l.foldl (fun s e => s.aset e.1 e.2) (s.setF .pipeStatus Fld.pipeStatusPending 0)).modSched
      (fun x => { x with waiting := none }) := by
  simp [State.pipeCommitEffect, hw, hr]

/-- A passed scheduler commit takes effect while no step is in progress. -/
theorem pipeCommitEffect_staged {s : State} {f : Reg → W64} (hw : s.sched.waiting = some (pipeStaged.map (fun r => (r, f r))))
    (hr : s.sched.run = none) :
    let t := s.pipeCommitEffect
    t.csr = (s.setF .pipeStatus Fld.pipeStatusPending 0).csr ∧ (∀ r, t.aget r = if r ∈ pipeStaged then f r else s.aget r)
      ∧ t.sched = { s.sched with waiting := none } ∧ SameButSched s t := by
  have haget := aget_foldl_staged pipeStaged f (s.setF .pipeStatus Fld.pipeStatusPending 0)
  rw [pipeCommitEffect_idle hw hr]
  rw [foldl_aset_frame] at haget ⊢
  exact ⟨rfl, haget, rfl, rfl⟩

/-! ## The release of a task (R129, R199) -/

theorem sameButSched_stashBoundary (s : State) : SameButSched s s.stashBoundary := sameButSched_applyStash s

theorem sameButSched_stashForward (s : State) (c : StashCfg) (x : StepRun) (t : Task) : SameButSched s (s.stashForward c x t).1 := by
  unfold State.stashForward
  split
  case h_1 => rfl
  case h_2 => rfl
  case h_3 =>
    split
    · rfl
    · dsimp only
      split
      · rfl
      · split <;> rfl

theorem sameButSched_stashBackward (s : State) (c : StashCfg) (t : Task) (i : Nat) : SameButSched s (s.stashBackward c t i).1 := by
  unfold State.stashBackward
  split
  case h_1 => rfl
  case h_2 => rfl
  case h_3 => split <;> rfl

theorem sameButSched_stashRelease (s : State) (x : StepRun) (t : Task) : SameButSched s (s.stashRelease x t).1 := by
  unfold State.stashRelease
  dsimp only
  split_ifs
  · rfl
  · exact sameButSched_stashBackward ..
  · exact sameButSched_stashForward ..

theorem sameButSched_countLong (s : State) (x : StepRun) (t : Task) : SameButSched s (s.countLong x t) := by
  unfold State.countLong
  dsimp only
  split_ifs
  · rfl
  · exact (sameButSched_bumpF ..).trans (sameButSched_bumpF ..)

/-- The step after the release of its next task, with the stash's decision (R136, R199). -/
def StepRun.released (x : StepRun) (t : Task) (arg : W64) (holds : List Nat) : StepRun :=
  { x with tasks := x.tasks ++ [⟨t, .released, arg, holds⟩], pegSeen := false, pegFault := false }

/-- A release is the decision of the stash, the progress count and the new place in the release order. -/
theorem doRelease_eq (s : State) (x : StepRun) (t : Task) : ∃ u arg holds, SameButSched s u
    ∧ s.doRelease x t = (u.setF .pipeProgress Fld.pipeProgressReleased (x.tasks.length + 1)).setRun (x.released t arg holds) := by
  have hboundary : SameButSched s (if x.tasks.isEmpty then s.stashBoundary else s) := by
    split_ifs
    · exact sameButSched_stashBoundary s
    · rfl
  exact ⟨_, _, _, (hboundary.trans (sameButSched_stashRelease _ x t)).trans (sameButSched_countLong _ x t), rfl⟩

theorem mayRelease_iff (s : State) (x : StepRun) (t : Task) : s.mayRelease x t = true ↔
    x.aborting = false ∧ s.pegState x t = .open_ ∧ s.stashHolds x t = false ∧ s.queueRoom x (s.groupOf t.block) = true := by
  simp [State.mayRelease, and_assoc]

section
variable {s : State} {x : StepRun} {t : Task} (hr : s.sched.run = some x) (hn : x.next = some t)
include hr hn

theorem releaseTask_released (hm : s.mayRelease x t = true) : s.releaseTask = s.doRelease x t := by
  obtain ⟨hrunning, hopen, -, -⟩ := (mayRelease_iff s x t).mp hm
  simp [State.releaseTask, hr, hn, hrunning, hopen, hm]

/-- A peg wait that does not hold yet keeps the task from its queue. -/
theorem releaseTask_pegHeld (hp : s.pegState x t = .held) : s.releaseTask = s := by
  simp [State.releaseTask, hr, hn, hp]

/-- The stash keeps a task from its queue (R128). -/
theorem releaseTask_stashHeld (hp : s.pegState x t = .open_) (hh : s.stashHolds x t = true) : s.releaseTask = s := by
  have hm : s.mayRelease x t = false := by simp [State.mayRelease, hh]
  simp [State.releaseTask, hr, hn, hp, hm]

end

/-! ## The start of a task (R200, R201) -/

/-- A tile whose sequencer the scheduler has started at `pc` with the arguments of a task. -/
def Tile.taskStarted (pc : Nat) (args : NMap W64) (t : Tile) : Tile :=
  { t with seq := .run, pc := BitVec.ofNat 17 (pc % 65536 / 8 * 8), s := args, cause := 0, wait := 0, pwait := none, ended := false }

theorem startAt_modTile_ended (s : State) (n pc : Nat) (args : NMap W64) :
    (s.startAt n pc args).modTile n (fun t => { t with ended := false }) = s.modTile n (Tile.taskStarted pc args) := by
  rw [State.startAt, modTile_modTile]; rfl

theorem pc_taskStarted (pc : Nat) (args : NMap W64) (t : Tile) : (t.taskStarted pc args).pc.toNat = pc % 65536 / 8 * 8 := by
  exact (BitVec.toNat_ofNat ..).trans (Nat.mod_eq_of_lt (by omega))

/-- Each tile of a list is changed by its place in the list, and no other tile is. -/
theorem tile_foldl_zipIdx (f : Nat → Tile → Tile) (l : List Nat) (hl : l.Nodup) (j : Nat) (s : State) :
    let t := (l.zipIdx j).foldl (fun s e => s.modTile e.1 (f e.2)) s
    (∀ k n, l[k]? = some n → t.tile n = f (j + k) (s.tile n)) ∧ (∀ n, n ∉ l → t.tile n = s.tile n) ∧ { t with tiles := s.tiles } = s := by
  induction l generalizing s j with
  | nil => exact ⟨fun k n h => by simp at h, fun n _ => rfl, rfl⟩
  | cons a l ih =>
    obtain ⟨ha, hl⟩ := List.nodup_cons.mp hl
    obtain ⟨hin, hout, hframe⟩ := ih hl (j + 1) (s.modTile a (f j))
    rw [List.zipIdx_cons, List.foldl_cons]
    refine ⟨fun k n hk => ?_, fun n hn => ?_, (congrArg (fun v : State => { v with tiles := s.tiles }) hframe :)⟩
    · cases k with
      | zero =>
        obtain rfl : a = n := by simpa using hk
        rw [hout a ha, tile_modTile_same, Nat.add_zero]
      | succ k =>
        have hk : l[k]? = some n := by simpa using hk
        have hne : n ≠ a := ne_of_mem_of_not_mem (List.mem_of_getElem? hk) ha
        rw [hin k n hk, tile_modTile_ne _ _ _ _ hne, Nat.add_right_comm, Nat.add_assoc]
    · obtain ⟨hne, hn⟩ := not_or.mp (mt List.mem_cons.mpr hn)
      rw [hout n hn, tile_modTile_ne _ _ _ _ hne]

theorem nodup_tilesOf (s : State) (g : Nat) : (s.tilesOf g).Nodup := List.nodup_range.filter _

theorem startTask_starts {s : State} {g i : Nat} {x : StepRun} {task : ReleasedTask} (hr : s.sched.run = some x)
    (hf : s.firstTask x g .released = some (i, task)) (ha : x.aborting = false) (hm : s.mayStart x task (s.tilesOf g) = true) :
    s.startTask g = ((s.tilesOf g).zipIdx.foldl (fun u e => u.modTile e.1 (Tile.taskStarted
      (blockField s.aget task.task.block (if task.task.bwd then Fld.pipeBlockBwdEntry else Fld.pipeBlockFwdEntry))
      (x.args task e.2 (s.tilesOf g).length))) s).setRun (x.setTask i .started) := by
  simp [State.startTask, hr, hf, ha, hm, startAt_modTile_ended]

/-! ## The end of a task (R200, R204) -/

/-- A step that is not wound down goes on while not every task of its order has been released. -/
theorem settleStep_going {s : State} {x : StepRun} (hr : s.sched.run = some x) (ha : x.aborting = false)
    (hl : x.tasks.length ≠ x.order.length) : s.settleStep = s := by simp [State.settleStep, hr, ha, hl]

/-- A task of a step is noted as done: the step, what the stash frees in accounting, and the counts (R135, R200). -/
def State.noteTaskDone (s : State) (x : StepRun) (i : Nat) : State :=
  (((s.setRun (x.setTask i .done)).modStash (fun h => { h with freed := h.freed.filter (fun f => f.2 != i) })).bumpF
    .pipeProgress Fld.pipeProgressCompleted 1).bumpF .pipeTasks Fld.pipeTasksCount 1

/-- A task that signals no out-peg completes within its step. -/
theorem completeTask_within {s : State} {g i : Nat} {x : StepRun} {task : ReleasedTask} (hr : s.sched.run = some x)
    (hf : s.firstTask x g .started = some (i, task)) (he : s.groupEnded g = true) (ha : x.aborting = false)
    (hp : if task.task.bwd then task.task.block ≠ 0 else task.task.block + 1 ≠ x.blocks)
    (hl : (x.setTask i .done).tasks.length ≠ x.order.length) : s.completeTask g = s.noteTaskDone x i := by
  have hsettle : (s.noteTaskDone x i).settleStep = s.noteTaskDone x i := settleStep_going rfl ha hl
  unfold State.noteTaskDone at *
  cases hb : task.task.bwd with
  | true =>
    rw [hb, if_pos rfl] at hp
    simp [State.completeTask, hr, hf, he, hb, hp, hsettle]
  | false =>
    rw [hb, if_neg (by decide)] at hp
    simp [State.completeTask, hr, hf, he, hb, hp, hsettle]

/-- What noting a task as done leaves: the two counts, and nothing else but the scheduler. -/
theorem noteTaskDone_leaves (s : State) (x : StepRun) (i : Nat) :
    let t := s.noteTaskDone x i
    t.sched.run = some (x.setTask i .done)
      ∧ t.rf .pipeProgress Fld.pipeProgressCompleted
        = satAdd Fld.pipeProgressCompleted.width (s.rf .pipeProgress Fld.pipeProgressCompleted) 1
      ∧ t.rf .pipeTasks Fld.pipeTasksCount = satAdd Fld.pipeTasksCount.width (s.rf .pipeTasks Fld.pipeTasksCount) 1
      ∧ (∀ r, r ≠ .pipeProgress → r ≠ .pipeTasks → t.rget r = s.rget r) ∧ { t with csr := s.csr, sched := s.sched } = s := by
  unfold State.noteTaskDone
  generalize hu : State.modStash _ _ = u
  obtain ⟨hrun, hcsr, hframe⟩ : u.sched.run = some (x.setTask i .done) ∧ u.csr = s.csr ∧ { u with csr := s.csr, sched := s.sched } = s := by
    subst hu; exact ⟨rfl, rfl, rfl⟩
  rw [← rf_of_csr hcsr, ← rf_of_csr hcsr]
  refine ⟨hrun, ?_, ?_, fun r hp hc => ?_, hframe⟩
  · rw [State.bumpF, rf_setF_ne _ _ _ _ _ _ (by decide) (.inl (by simp)), rf_bumpF_same _ _ _ _ (by decide)]
  · rw [rf_bumpF_same _ _ _ _ (by decide), State.bumpF, rf_setF_ne _ _ _ _ _ _ (by decide) (.inl (by simp))]
  · rw [State.bumpF, rget_setF_ne _ _ _ _ _ hc, State.bumpF, rget_setF_ne _ _ _ _ _ hp, State.rget, hcsr, State.rget]

/-- Between two states nothing differs but rings and registers, and of these no other than the STATUS of ring `r`. -/
structure SameButRing (r : Nat) (s t : State) : Prop where
  frame : { t with csr := s.csr, rings := s.rings } = s
  rget : ∀ q, q ≠ .ringStatus r → t.rget q = s.rget q

theorem SameButRing.trans {r : Nat} {s t u : State} (h : SameButRing r s t) (h' : SameButRing r t u) : SameButRing r s u where
  frame := by
    have := h.frame
    rw [← h'.frame] at this
    exact this
  rget q hq := (h'.rget q hq).trans (h.rget q hq)

theorem sameButRing_setF (r : Nat) (s : State) (f : Fld) (x : Nat) : SameButRing r s (s.setF (.ringStatus r) f x) :=
  ⟨rfl, fun _ hq => rget_setF_ne _ _ _ _ _ hq⟩

theorem sameButRing_setRing (r : Nat) (s : State) (q : Nat) (x : Ring) : SameButRing r s (s.setRing q x) := ⟨rfl, fun _ _ => rfl⟩

theorem sameButRing_stopRing (r : Nat) (s : State) (c : Nat) : SameButRing r s (s.stopRing r c) := by
  unfold State.stopRing
  split
  · refine ((sameButRing_setF r s _ _).trans (t := s.setRingState r 2) ?_).trans (sameButRing_setRing ..)
    split
    · exact sameButRing_setF ..
    · exact ⟨rfl, fun _ _ => rfl⟩
  · exact ⟨rfl, fun _ _ => rfl⟩

theorem sameButRing_endDesc (s : State) (r : Nat) (idx : W32) (status units : Nat) :
    SameButRing r s (s.endDesc r idx status units) := by
  have hdesc : SameButRing r s (s.modDesc r idx (fun d => d.endsWith status units s.now)) := sameButRing_setRing ..
  unfold State.endDesc
  split
  · exact hdesc.trans (sameButRing_stopRing ..)
  · exact hdesc

/-- The end of a step leaves the field of its first faulted task, the records under way and the tiles, and no step in progress. -/
theorem endStep_leaves (s : State) (x : StepRun) (status units : Nat) :
    let t := s.endStep x status units
    t.rf .pipeStatus Fld.pipeStatusFaultTask = s.rf .pipeStatus Fld.pipeStatusFaultTask ∧ t.flt = s.flt ∧ t.tiles = s.tiles
      ∧ t.sched.run = none := by
  unfold State.endStep
  dsimp only
  generalize hu : State.modDesc _ _ _ _ = u
  obtain ⟨hframe, hrget⟩ := sameButRing_endDesc u x.ring x.idx status units
  have hflt := (congrArg State.flt hframe :)
  have htiles := (congrArg State.tiles hframe :)
  have hsched := (congrArg State.sched hframe :)
  rw [rf_congr (hrget _ (by simp)), hflt, htiles, hsched, ← hu]
  exact ⟨rf_setF_ne _ _ _ _ _ _ (by decide) (.inr (by decide)), rfl, rfl, rfl⟩

/-- A step that winds down goes on or ends; what a fault has shown of it stays. -/
theorem settleStep_windingDown {s : State} {x : StepRun} (hr : s.sched.run = some x) (ha : x.aborting = true) :
    let t := s.settleStep
    t.rf .pipeStatus Fld.pipeStatusFaultTask = s.rf .pipeStatus Fld.pipeStatusFaultTask ∧ t.flt = s.flt ∧ t.tiles = s.tiles
      ∧ ∀ y, t.sched.run = some y → y.aborting = true := by
  simp only [State.settleStep, hr, ha, if_true]
  split_ifs
  · exact ⟨rfl, rfl, rfl, fun y hy => by rw [hr] at hy; cases hy; exact ha⟩
  · obtain ⟨hfault, hflt, htiles, hrun⟩ := endStep_leaves s x stAborted (x.tasks.takeWhile (fun t => t.phase == .done)).length
    exact ⟨hfault, hflt, htiles, fun y hy => by rw [hrun] at hy; cases hy⟩

/-- The first fault of a step winds it down and names its task in PIPE.STATUS (R204). -/
theorem windDown_first (s : State) {x : StepRun} (i : Nat) (ha : x.aborting = false) :
    let t := s.windDown x i
    t.rf .pipeStatus Fld.pipeStatusFaultTask = i % 2 ^ Fld.pipeStatusFaultTask.width ∧ t.flt = s.flt ∧ t.tiles = s.tiles
      ∧ ∀ y, t.sched.run = some y → y.aborting = true := by
  simp only [State.windDown, ha, Bool.false_eq_true, if_false]
  obtain ⟨hfault, hflt, htiles, hrun⟩ := settleStep_windingDown
    (s := (s.setF .pipeStatus Fld.pipeStatusFaultTask i).setRun { x with aborting := true }) (x := { x with aborting := true }) rfl rfl
  exact ⟨hfault.trans ((rf_setRun ..).trans (rf_setF_same _ _ _ _ (by decide))), by rw [hflt, setRun_flt, setF_flt],
    by rw [htiles, setRun_tiles, setF_tiles], hrun⟩

/-- The record of a task that faults (R204, R397). -/
def StepRun.faultRecord (x : StepRun) (i : Nat) (task : ReleasedTask) : FaultRec :=
  { x.record Cls.pipeTask with detail0 := BitVec.ofNat 64 i, detail1 := BitVec.ofNat 48 (task.task.block + task.task.mb * 256) }

theorem failTask_started {s : State} {g i : Nat} {x : StepRun} {task : ReleasedTask} (hr : s.sched.run = some x)
    (hf : s.firstTask x g .started = some (i, task)) :
    s.failTask g = (s.report (x.faultRecord i task)).windDown (x.setTask i .failed) i := by
  simp [State.failTask, hr, hf, StepRun.faultRecord]

/-! ## The obligation -/

/-- Settles O23: each command is the branch of its operation that the hypotheses select; a commit that takes effect puts the staged
values in force together (`applyStash_staged`, `pipeCommitEffect_staged`), a start changes each tile of the group by its rank
(`tile_foldl_zipIdx`), and a fault winds the step down (`windDown_first`). -/
theorem schedulerCommandsComplete : Obligations.SchedulerCommandsComplete := by
  unfold Obligations.SchedulerCommandsComplete
  refine ⟨⟨fun s hs => ⟨fun he => ?stashFails, fun he hr => ?stashAtOnce, fun he hr => ?stashWaits⟩, fun s hs hr => ?effectIdle,
      fun s f x task hs hr ht hn hm hw => ?effectBoundary, fun s d units hs hroom rest hj => ?journal⟩,
    fun s hs => ⟨fun he => ?pipeFails, fun he => ?pipePasses, fun f hw hr => ?pipeEffect, fun x task hr hn hm => ?released,
      fun x task hr hn hp => ?pegHeld, fun x task hr hn hp hh => ?stashHeld, fun g x i task hr hf ha hm => ?started,
      fun g x i task hr hf he ha hp hl => ?completed, fun g x i task hr hf ha hfault ht => ?faulted⟩⟩
  case stashFails =>
    refine completes_clocked (f := State.stashCommit) rfl hs ?_
    rw [stashCommit_fails he]
    refine ⟨⟨?_, fun r hr => rget_setF_ne _ _ _ _ _ hr⟩, rfl⟩
    rw [rf_setF_same _ _ _ _ (by decide)]
    exact Nat.mod_eq_of_lt (stashCommitError_lt ..)
  case stashAtOnce =>
    refine completes_clocked (f := State.stashCommit) rfl hs ?_
    rw [stashCommit_passes he, hr, if_neg (by simp), he]
    obtain ⟨hcsr, haget, hsched, hframe⟩ := applyStash_staged (s := s.stashPassed) (f := s.rget) rfl
    obtain ⟨herror, hpending, hrest⟩ := setPending_stashPassed_shows s 0
    generalize s.stashPassed.applyStash = t at *
    refine ⟨⟨(rf_of_csr hcsr ..).trans herror, fun r hr => ?_⟩, (rf_of_csr hcsr ..).trans hpending, fun r hr => ?_, fun r hr => ?_,
      (congrArg Sched.stash hsched :), ?_⟩
    · rw [← hrest r hr, State.rget, hcsr, State.rget]
    · rw [haget, if_pos hr]
    · rw [haget, if_neg hr]; rfl
    · exact (show SameButSched s s.stashPassed from rfl).trans hframe
  case stashWaits =>
    refine completes_clocked (f := State.stashCommit) rfl hs ?_
    rw [stashCommit_passes he, if_pos (Option.isSome_iff_ne_none.mpr hr), he]
    obtain ⟨herror, hpending, hrest⟩ := setPending_stashPassed_shows s 1
    exact ⟨⟨herror, hrest⟩, hpending, fun r => rfl, rfl, rfl⟩
  case effectIdle =>
    refine (clocked_runs hs State.stashCommitEffect).trans ?_
    rw [State.stashCommitEffect, hr]
  case effectBoundary =>
    refine completes_clocked (f := State.stashCommitEffect) rfl hs ?_
    rw [stashCommitEffect_boundary hr ht hn hm]
    obtain ⟨hcsr, haget, hsched, hframe⟩ := applyStash_staged hw
    exact ⟨(rf_of_csr hcsr ..).trans (rf_setF_same _ _ _ _ (by decide)), fun r hr => by rw [haget, if_pos hr],
      fun r hr => by rw [haget, if_neg hr], by rw [hsched], hframe⟩
  case journal =>
    refine completes_clocked (f := State.stashJournal) rfl hs ?_
    rw [stashJournal_oldest hroom hj]
    exact ⟨rfl, by rw [modStash_mem, modDesc_mem, bumpF_mem]⟩
  case pipeFails =>
    refine completes_clocked (f := State.pipeCommit) rfl hs ?_
    rw [pipeCommit_fails he]
    refine ⟨?_, fun r hr => rget_setF_ne _ _ _ _ _ hr, rfl⟩
    rw [rf_setF_same _ _ _ _ (by decide)]
    exact Nat.mod_eq_of_lt (pipeCommitError_lt _)
  case pipePasses =>
    refine completes_clocked (f := State.pipeCommit) rfl hs ?_
    rw [pipeCommit_passes he]
    refine ⟨?_, ?_, fun r hr => ?_, rfl, rfl⟩
    · rw [rf_modSched, rf_setF_ne _ _ _ _ _ _ (by decide) (.inr (by decide)), rf_setF_same _ _ _ _ (by decide)]; rfl
    · rw [rf_modSched, rf_setF_same _ _ _ _ (by decide)]; rfl
    · rw [rget_modSched]
      exact (rget_setF_ne _ _ _ _ _ hr).trans (rget_setF_ne _ _ _ _ _ hr)
  case pipeEffect =>
    refine completes_clocked (f := State.pipeCommitEffect) rfl hs ?_
    obtain ⟨hcsr, haget, hsched, hframe⟩ := pipeCommitEffect_staged hw hr
    exact ⟨(rf_of_csr hcsr ..).trans (rf_setF_same _ _ _ _ (by decide)), fun r hr => by rw [haget, if_pos hr],
      fun r hr => by rw [haget, if_neg hr], hsched, hframe⟩
  case released =>
    refine completes_clocked (f := State.releaseTask) rfl hs ?_
    obtain ⟨u, arg, holds, hframe, hrelease⟩ := doRelease_eq s x task
    rw [releaseTask_released hr hn hm, hrelease]
    have hframe := (hframe.trans (sameButSched_setF u .pipeProgress Fld.pipeProgressReleased (x.tasks.length + 1))).trans
      (sameButSched_setRun _ (x.released task arg holds))
    exact ⟨⟨arg, holds, rfl⟩, (rf_setRun ..).trans (rf_setF_same _ _ _ _ (by decide)), hframe.mem, hframe.tiles⟩
  case pegHeld => exact (clocked_runs hs State.releaseTask).trans (congrArg _ (releaseTask_pegHeld hr hn hp))
  case stashHeld => exact (clocked_runs hs State.releaseTask).trans (congrArg _ (releaseTask_stashHeld hr hn hp hh))
  case started =>
    refine completes_clocked (f := fun s => s.startTask g) rfl hs ?_
    rw [startTask_starts hr hf ha hm]
    obtain ⟨hin, hout, hframe⟩ := tile_foldl_zipIdx (fun k => Tile.taskStarted
      (blockField s.aget task.task.block (if task.task.bwd then Fld.pipeBlockBwdEntry else Fld.pipeBlockFwdEntry))
      (x.args task k (s.tilesOf g).length)) (s.tilesOf g) (nodup_tilesOf s g) 0 s
    refine ⟨fun k n hk => ?_, hout, rfl, (congrArg (fun v : State => { v with sched := s.sched }) hframe :)⟩
    have htile := hin k n hk
    rw [Nat.zero_add] at htile
    exact ⟨(congrArg Tile.seq htile :), (congrArg (fun t => t.pc.toNat) htile).trans (pc_taskStarted ..), (congrArg Tile.s htile :),
      (congrArg Tile.v htile :)⟩
  case completed =>
    refine completes_clocked (f := fun s => s.completeTask g) rfl hs ?_
    rw [completeTask_within hr hf he ha hp hl]
    exact noteTaskDone_leaves s x i
  case faulted =>
    refine completes_clocked (f := fun s => if (s.tilesOf g).any (fun n => (s.tile n).seq == .faulted) then s.failTask g else s)
      rfl hs ?_
    rw [if_pos hfault, failTask_started hr hf, report_noted (not_frozen_of_runs hs) ht]
    obtain ⟨hshown, hflt, htiles, hrun⟩ := windDown_first
      { s with flt := { s.flt with net := s.flt.net ++ [{ x.faultRecord i task with time := s.now }] } }
      (x := x.setTask i .failed) i ha
    exact ⟨hshown, ⟨_, rfl, rfl, (congrArg Collector.net hflt :)⟩, hrun, htiles⟩

end Sys2Proof.Machine
end

section
/-! The numbers of a reduction: the exponent word of a bucket (R149), the share of INT32 that a participant has (R150, R151), and the fragments of
a bucket (R153). -/

namespace Sys2Proof.Machine

/-! ## The share of INT32 (R150, R151) -/

theorem le_two_pow_ceilLog2 (p : Nat) : p ≤ 2 ^ ceilLog2 p := by
  unfold ceilLog2
  split
  · assumption
  · have := Nat.lt_log2_self (n := p - 1)
    omega

/-- A job of up to 4,096 participants has at most 12 bits of headroom. -/
theorem ceilLog2_le_twelve {p : Nat} (h : p ≤ 4096) : ceilLog2 p ≤ 12 := by
  unfold ceilLog2
  split
  · decide
  · exact (Nat.log2_lt (by omega)).mpr (by omega)

/-- The conversion of R151 clamps each element at the largest magnitude of its share. -/
theorem natAbs_toInt_le (p : Nat) (e : Int) (v : Num) : (toInt p e v).1.natAbs ≤ 2 ^ (31 - ceilLog2 p) - 1 := by
  cases v with
  | fin neg m x =>
    cases neg <;> simp only [toInt, Bool.false_eq_true, if_false, if_true, Int.natAbs_neg, Int.natAbs_natCast] <;> exact min_le_right ..
  | _ => simp [toInt]

/-- As many shares as there are participants fit in INT32. -/
theorem mul_share_le {p : Nat} (h : p ≤ 4096) : p * (2 ^ (31 - ceilLog2 p) - 1) ≤ 2 ^ 31 - 1 := by
  have hc := ceilLog2_le_twelve h
  calc p * (2 ^ (31 - ceilLog2 p) - 1)
      ≤ 2 ^ ceilLog2 p * (2 ^ (31 - ceilLog2 p) - 1) := Nat.mul_le_mul_right _ (le_two_pow_ceilLog2 p)
    _ = 2 ^ 31 - 2 ^ ceilLog2 p := by rw [Nat.mul_sub, ← pow_add, Nat.add_sub_cancel' (by omega), Nat.mul_one]
    _ ≤ 2 ^ 31 - 1 := Nat.sub_le_sub_left Nat.one_le_two_pow _

/-! ## Fragments (R153) -/

/-- The fragments together are at least as long as the bucket. -/
theorem Binding.le_mul_fragSize {g : Binding} (hp : 1 ≤ g.p) (n : Nat) : n ≤ g.p * g.fragSize n := by
  have hn : n ≤ g.p * ((n + g.p - 1) / g.p) := by
    have hdiv := Nat.div_add_mod (n + g.p - 1) g.p
    have hmod := Nat.mod_lt (n + g.p - 1) hp
    omega
  exact hn.trans (Nat.mul_le_mul_left _ (by unfold Binding.fragSize; omega))

/-- The first fragments of a bucket are its first elements. -/
theorem Binding.sum_fragLen (g : Binding) (n m : Nat) : ((List.range m).map (fun f => g.fragLen n f)).sum = min (m * g.fragSize n) n := by
  induction m with
  | zero => simp
  | succ m ih =>
    rw [List.range_succ, List.map_append, List.sum_append, ih, List.map_singleton, List.sum_singleton, Binding.fragLen, Nat.succ_mul]
    omega

/-- A fragment starts at a packet's boundary. -/
theorem Binding.fragLo_mod (g : Binding) (n f : Nat) : g.fragLo n f % 56 = 0 := by
  rw [Binding.fragLo, Binding.fragSize, Nat.mul_left_comm, Nat.mul_mod_right]

/-- Every element of a bucket lies in a fragment: the one that its index divided by the fragments' size gives. -/
theorem Binding.exists_fragment {g : Binding} (hp : 1 ≤ g.p) {n i : Nat} (hi : i < n) :
    ∃ f, f < g.p ∧ g.fragLo n f ≤ i ∧ i < g.fragLo n f + g.fragLen n f := by
  have hlt : i < g.p * g.fragSize n := hi.trans_le (g.le_mul_fragSize hp n)
  have hlo : i / g.fragSize n * g.fragSize n ≤ i := Nat.div_mul_le_self ..
  have hend : i < (i / g.fragSize n + 1) * g.fragSize n := by
    rw [Nat.mul_comm]; exact Nat.lt_mul_div_succ i (Nat.pos_of_mul_pos_left (Nat.zero_lt_of_lt hlt))
  refine ⟨i / g.fragSize n, Nat.div_lt_of_lt_mul (by rwa [Nat.mul_comm]), hlo, ?_⟩
  rw [Binding.fragLo, Binding.fragLen]
  omega

/-- Settles O20: a share of INT32 is at most 1/P of it (`mul_share_le`), and the sizes of P fragments add up to the bucket. -/
theorem reductionSumsFit : Obligations.ReductionSumsFit := by
  unfold Obligations.ReductionSumsFit
  refine ⟨fun p e v _ hp => ⟨natAbs_toInt_le p e v, ?_⟩, fun g n hp => ⟨?_, g.fragLo_mod n, fun i => Binding.exists_fragment hp⟩⟩
  · exact (Nat.mul_le_mul_left p (natAbs_toInt_le p e v)).trans (mul_share_le hp)
  · rw [g.sum_fragLen, Nat.min_eq_right (g.le_mul_fragSize hp n)]

/-! ## The exponent word (R149) -/

/-- A finite element raises the exponent word to its own exponent; a zero has none. -/
theorem scanValues_concat_fin (l : List Num) (neg : Bool) (m : Nat) (x : Int) :
    (scanValues (l ++ [.fin neg m x])).1 = if m = 0 then (scanValues l).1 else max (scanValues l).1 (floorLog2 m x) := by
  simp [scanValues]

/-- A non-finite element leaves the exponent word. -/
theorem scanValues_concat_nonfinite (l : List Num) {v : Num} (h : v.isFin = false) : (scanValues (l ++ [v])).1 = (scanValues l).1 := by
  cases v with
  | fin => cases h
  | _ => simp [scanValues]

/-- The exponent word is at least the exponent of every non-zero finite element. -/
theorem floorLog2_le_scanValues {l : List Num} {neg : Bool} {m : Nat} {x : Int} (h : .fin neg m x ∈ l) (hm : m ≠ 0) :
    floorLog2 m x ≤ (scanValues l).1 := by
  induction l using List.reverseRecOn with
  | nil => cases h
  | append_singleton l v ih =>
    rcases List.mem_append.mp h with h | h
    · have hl := ih h
      cases v with
      | fin neg' m' x' => rw [scanValues_concat_fin]; split <;> omega
      | _ => rwa [scanValues_concat_nonfinite l rfl]
    · obtain rfl := List.mem_singleton.mp h
      rw [scanValues_concat_fin, if_neg hm]
      exact le_max_right ..

/-- The exponent word is that of an empty bucket, or the exponent of one of the elements. -/
theorem scanValues_attained (l : List Num) :
    (scanValues l).1 = noExp ∨ ∃ neg m x, Num.fin neg m x ∈ l ∧ m ≠ 0 ∧ (scanValues l).1 = floorLog2 m x := by
  induction l using List.reverseRecOn with
  | nil => exact .inl rfl
  | append_singleton l v ih =>
    have kept (h : (scanValues (l ++ [v])).1 = (scanValues l).1) : (scanValues (l ++ [v])).1 = noExp
        ∨ ∃ neg m x, Num.fin neg m x ∈ l ++ [v] ∧ m ≠ 0 ∧ (scanValues (l ++ [v])).1 = floorLog2 m x := by
      rw [h]
      exact ih.imp_right fun ⟨neg, m, x, hx, hl⟩ => ⟨neg, m, x, List.mem_append_left _ hx, hl⟩
    cases v with
    | fin neg m x =>
      have hc := scanValues_concat_fin l neg m x
      by_cases hm : m = 0
      · exact kept (by rw [hc, if_pos hm])
      · rw [if_neg hm] at hc
        rcases max_choice (scanValues l).1 (floorLog2 m x) with he | he
        · exact kept (hc.trans he)
        · exact .inr ⟨neg, m, x, by simp, hm, hc.trans he⟩
    | _ => exact kept (scanValues_concat_nonfinite l rfl)

end Sys2Proof.Machine
end

section
/-! Reduction packets as they come (R142, R150, R154 to R161, R164, R166). -/

namespace Sys2Proof.Machine

/-! ## Jobs and registers -/

theorem bucket?_setJob_same (s : State) (j seq : Nat) (x : Job) :
    (s.setJob j x).bucket? j seq = x.buckets.find? (fun b => b.seq == seq) := by
  rw [State.bucket?, job_setJob, if_pos rfl]

@[simp] theorem job_setF (s : State) (r : Reg) (f : Fld) (x i : Nat) : (s.setF r f x).job i = s.job i := rfl

@[simp] theorem job_bumpF (s : State) (r : Reg) (f : Fld) (k i : Nat) : (s.bumpF r f k).job i = s.job i := rfl

theorem setF_frame (s : State) (r : Reg) (f : Fld) (x : Nat) (c : List (Reg × W64)) (l : NMap Job) :
    ({ s.setF r f x with csr := c, jobs := l } : State) = { s with csr := c, jobs := l } := rfl

theorem setJob_frame (s : State) (j : Nat) (x : Job) (c : List (Reg × W64)) (l : NMap Job) :
    ({ s.setJob j x with csr := c, jobs := l } : State) = { s with csr := c, jobs := l } := rfl

/-- Where no packet of a job waits for a credit, none is sent. -/
theorem pumpJob_idle {s : State} {j : Nat} {g : Binding} (hg : (s.job j).binding = some g) (ho : (s.job j).outQ = []) :
    s.pumpJob j = s.setJob j { s.job j with outQ := [] } := by
  simp only [State.pumpJob, hg, ho, List.foldl_nil]

/-! ## What each kind of packet does to the bucket of its tag -/

section
variable {s : State} {j p : Nat} {g : Binding} {b : Bucket} {k : Pkt}

theorem redHandle_abort (hk : k.redKind = RK.abort) : s.redHandle j g b p k
    = (s.creditBack k).endBucket j b.seq (abortEnd (leNat (k.redBody.take 1))).1 (abortEnd (leNat (k.redBody.take 1))).2 := by
  simp [State.redHandle, hk]

theorem redHandle_scale (hk : k.redKind = RK.scale) : s.redHandle j g b p k = (s.creditBack k).addScale j b.seq
    ⟨k.redSrc, sgn 32 (leNat (k.redBody.take 4)),
      k.redStep == b.op.step && k.redIndex == b.op.index && leNat ((k.redBody.drop 4).take 8) == b.op.n,
      (leNat ((k.redBody.drop 12).take 1)).testBit 0⟩ := by
  simp [State.redHandle, hk]

/-- A packet of another step or bucket index, but for SCALE and ABORT, aborts the bucket with reason 1 (R166). -/
theorem redHandle_untagged (ha : k.redKind ≠ RK.abort) (hs : k.redKind ≠ RK.scale) (ht : ¬ (k.redStep = b.op.step ∧ k.redIndex = b.op.index)) :
    s.redHandle j g b p k = (s.creditBack k).redAbort j b.seq 1 := by
  have htag : (!(k.redStep == b.op.step && k.redIndex == b.op.index)) = true := by simpa [-not_and, not_and_or] using ht
  simp only [State.redHandle, if_neg ha, if_neg hs, if_pos htag]

variable (ht : k.redStep = b.op.step ∧ k.redIndex = b.op.index)
include ht

theorem redHandle_scaleResult (hk : k.redKind = RK.scaleResult) (hf : (leNat ((k.redBody.drop 12).take 1)).testBit 2 = false)
    (ha : b.agreed = none) : s.redHandle j g b p k
      = (s.creditBack k).contribute j b.seq (sgn 32 (leNat (k.redBody.take 4))) ((leNat ((k.redBody.drop 12).take 1)).testBit 1) := by
  simp [State.redHandle, hk, ht, hf, ha]

/-- A packet with lanes waits at the port of a tile in reset (R158). -/
theorem redHandle_waits (hw : s.portHolds g k = true) :
    s.redHandle j g b p k = s.setJob j { s.job j with atPort := (s.job j).atPort ++ [⟨p, k, false⟩] } := by
  have hk : k.redKind = RK.contrib ∨ k.redKind = RK.check ∨ k.redKind = RK.result := by
    simp only [State.portHolds, Bool.and_eq_true, Bool.or_eq_true, beq_iff_eq, or_assoc] at hw
    exact hw.1
  rcases hk with hk | hk | hk <;> simp [State.redHandle, hk, ht, hw]

theorem redHandle_contrib (hk : k.redKind = RK.contrib) (hw : s.portHolds g k = false) :
    s.redHandle j g b p k = s.onContrib j g b k := by
  simp [State.redHandle, hk, ht, hw]

theorem redHandle_check (hk : k.redKind = RK.check) (hw : s.portHolds g k = false) : s.redHandle j g b p k
    = (s.modBucket j b.seq (fun b => { b with held := b.held ++ [⟨p, k, false⟩] })).redAdvance j b.seq := by
  simp [State.redHandle, hk, ht, hw]

theorem redHandle_result {v : State} (hk : k.redKind = RK.result) (hw : s.portHolds g k = false)
    (hv : s.writeSums j b (g.slot b.seq) (g.fragLo b.op.n k.redFrag + k.redOffset) k.redValues = (v, true)) : s.redHandle j g b p k
      = (v.creditBack k).modBucket j b.seq (fun b => { b with results := b.results + 1 }) := by
  simp [State.redHandle, hk, ht, hw, hv]

theorem redHandle_trailer (hk : k.redKind = RK.trailer) : s.redHandle j g b p k
    = ((s.creditBack k).modBucket j b.seq (fun b =>
        { b with trailers := b.trailers ++ [(k.redPath, k.redSrc, k.redFrag, trailerOf k.redBody)] })).redAdvance j b.seq := by
  simp [State.redHandle, hk, ht, State.portHolds]

theorem redHandle_total (hk : k.redKind = RK.total) (hp : k.redPath = false) : s.redHandle j g b p k
    = ((s.creditBack k).modBucket j b.seq (fun b =>
        { b with totals := b.totals ++ [(k.redFrag, trailerOf k.redBody)] })).redAdvance j b.seq := by
  simp [State.redHandle, hk, ht, State.portHolds, hp]

end

/-- A contribution whose lanes were added to the sums counts, and its credit goes back (R142, R156). -/
theorem onContrib_added {s v : State} {j : Nat} {g : Binding} {b : Bucket} {k : Pkt} (hp : k.redPath = false)
    (hv : s.addLanes j b (g.slot b.seq) (g.fragLo b.op.n g.rank + k.redOffset) k.redValues = (v, true)) : s.onContrib j g b k
      = ((v.creditBack k).modBucket j b.seq (fun b => { b with added := b.added + 1 })).redAdvance j b.seq := by
  simp [State.onContrib, hp, hv]

/-- A bucket without its scale result does not advance (R148). -/
theorem redAdvance_unagreed {s : State} {j seq : Nat} {b : Bucket} (hb : s.bucket? j seq = some b) (ha : b.agreed = none) :
    s.redAdvance j seq = s := by
  have stay (f : Binding → Bucket → Bool → State → State) : s.onBucket j seq f = s := by
    rw [State.onBucket, hb]
    cases (s.job j).binding <;> simp [ha]
  simp only [State.redAdvance, stay]

/-! ## A packet is taken from the queue (R142, R155) -/

/-- A packet of a kind leaves the queue, and its job is bound, not broken, and of its epoch. -/
def Accepts (s u : State) (p : Nat) (k : Pkt) (g : Binding) (kind : Nat) : Prop :=
  s.takeRed kind = some (p, k, u) ∧ k.redKind = kind ∧ (u.job k.redJob).binding = some g ∧ u.jobBroken k.redJob = false
    ∧ k.redEpoch = g.epoch

/-- The bucket of a packet is open and runs. -/
def OpenFor (u : State) (k : Pkt) (b : Bucket) : Prop :=
  u.bucket? k.redJob k.redSeq = some b ∧ b.live = true ∧ b.seq = k.redSeq

theorem Accepts.redKind_eq {s u : State} {p kind : Nat} {k : Pkt} {g : Binding} (h : Accepts s u p k g kind) : k.redKind = kind := h.2.1

theorem Accepts.binding_eq {s u : State} {p kind : Nat} {k : Pkt} {g : Binding} (h : Accepts s u p k g kind) :
    (u.job k.redJob).binding = some g := h.2.2.1

theorem OpenFor.seq_eq {u : State} {k : Pkt} {b : Bucket} (h : OpenFor u k b) : b.seq = k.redSeq := h.2.2

/-- The commands that take a packet of a bucket, by its kind. -/
def bucketCommands : List (Nat × Instr) :=
  [(RK.scale, .scale), (RK.scaleResult, .scaleResult), (RK.contrib, .contrib), (RK.check, .check), (RK.result, .result),
   (RK.trailer, .trailer), (RK.total, .total), (RK.abort, .abort)]

theorem ne_credit_of_mem : ∀ x ∈ bucketCommands, x.1 ≠ RK.credit := by decide

/-- SCALE and ABORT are the first and the last of them. -/
theorem ne_abort_scale_of_mem : ∀ x ∈ (bucketCommands.drop 1).take 6, x.1 ≠ RK.abort ∧ x.1 ≠ RK.scale := by decide

section
variable {s u : State} {p kind : Nat} {k : Pkt} {g : Binding} {b : Bucket} {i : Instr}

theorem exec_bucketCommand (hi : (kind, i) ∈ bucketCommands) (hs : s.runs 7 = true) : exec i s = .next (redReceive kind s) := by
  refine Eq.trans ?_ (clocked_runs hs (redReceive kind))
  simp only [bucketCommands, List.mem_cons, List.not_mem_nil, or_false, Prod.mk.injEq] at hi
  rcases hi with ⟨rfl, rfl⟩ | ⟨rfl, rfl⟩ | ⟨rfl, rfl⟩ | ⟨rfl, rfl⟩ | ⟨rfl, rfl⟩ | ⟨rfl, rfl⟩ | ⟨rfl, rfl⟩ | ⟨rfl, rfl⟩ <;> rfl

theorem redReceive_open (ht : Accepts s u p k g kind) (ho : OpenFor u k b) (hc : kind ≠ RK.credit) :
    redReceive kind s = u.redHandle k.redJob g b p k := by
  obtain ⟨htake, -, hbound, hbroken, hepoch⟩ := ht
  obtain ⟨hb, hlive, -⟩ := ho
  simp [redReceive, htake, hbound, hbroken, hepoch, hc, hb, hlive]

theorem redReceive_early (ht : Accepts s u p k g kind) (hc : kind ≠ RK.credit) (hb : u.bucket? k.redJob k.redSeq = none)
    (hp : u.seqPast k.redJob k.redSeq = false) : redReceive kind s = u.storeEarly k.redJob p k := by
  obtain ⟨htake, -, hbound, hbroken, hepoch⟩ := ht
  simp [redReceive, htake, hbound, hbroken, hepoch, hc, hb, hp]

theorem redReceive_credit (ht : Accepts s u p k g RK.credit) : redReceive RK.credit s = u.onCredit k.redJob g k := by
  obtain ⟨htake, -, hbound, hbroken, hepoch⟩ := ht
  simp [redReceive, htake, hbound, hbroken, hepoch]

end

/-- A credit lowers the count of the member and path that it names, and no other (R142). -/
theorem onCredit_spec {s : State} {j r : Nat} {g : Binding} {k : Pkt} (hg : (s.job j).binding = some g)
    (hr : (List.range g.p).find? (fun r => g.members.getD r 4096 == k.src) = some r) (ho : (s.job j).outQ = []) :
    (∀ x, kget 0 ((s.onCredit j g k).job j).used x
        = if x = redKey r k.redPath then kget 0 (s.job j).used (redKey r k.redPath) - k.redCredits else kget 0 (s.job j).used x)
      ∧ ((s.onCredit j g k).job j).buckets = (s.job j).buckets ∧ (∀ i, i ≠ j → (s.onCredit j g k).job i = s.job i)
      ∧ { s.onCredit j g k with jobs := s.jobs } = s := by
  have hjob (x : Job) : (s.setJob j x).job j = x := (job_setJob s j j x).trans (if_pos rfl)
  simp only [State.onCredit, hr]
  rw [pumpJob_idle (g := g) (by rw [hjob]; exact hg) (by rw [hjob]; exact ho), hjob]
  refine ⟨fun x => ?_, ?_, fun i hi => ?_, rfl⟩
  · rw [job_setJob, if_pos rfl]; exact kget_nset ..
  · rw [job_setJob, if_pos rfl]
  · rw [job_setJob, if_neg hi, job_setJob, if_neg hi]

/-- A packet that is stored early is counted, and nothing else changes (R155). -/
theorem storeEarly_spec (s : State) (j p : Nat) (k : Pkt) :
    (s.storeEarly j p k).job j = { s.job j with early := (s.job j).early ++ [(p, k)] } ∧ (∀ i, i ≠ j → (s.storeEarly j p k).job i = s.job i)
      ∧ (s.storeEarly j p k).rf .redEarly Fld.redEarlyCount = satAdd 64 (s.rf .redEarly Fld.redEarlyCount) 1
      ∧ (s.storeEarly j p k).rf (.redJobEarly j) Fld.redJobEarlyStored = ((s.job j).early.length + 1) % 2 ^ 32
      ∧ (∀ r, r ≠ .redEarly → r ≠ .redJobEarly j → (s.storeEarly j p k).rget r = s.rget r)
      ∧ { s.storeEarly j p k with csr := s.csr, jobs := s.jobs } = s := by
  refine ⟨?_, fun i hi => ?_, ?_, ?_, fun r he hj => ?_, ?_⟩
  · rw [State.storeEarly, job_setF, job_setF, job_bumpF, job_setJob, if_pos rfl]
  · rw [State.storeEarly, job_setF, job_setF, job_bumpF, job_setJob, if_neg hi]
  · rw [State.storeEarly, rf_setF_ne _ _ _ _ _ _ (by decide) (.inl (by simp)), rf_setF_ne _ _ _ _ _ _ (by decide) (.inl (by simp)),
      rf_bumpF_same _ _ _ _ (by decide), rf_setJob]
  · rw [State.storeEarly, rf_setF_ne _ _ _ _ _ _ (by decide) (.inr (by decide)), rf_setF_same _ _ _ _ (by decide)]
  · rw [State.storeEarly, rget_setF_ne _ _ _ _ _ hj, rget_setF_ne _ _ _ _ _ hj, State.bumpF, rget_setF_ne _ _ _ _ _ he, rget_setJob]
  · rw [State.storeEarly, setF_frame, setF_frame, State.bumpF, setF_frame, setJob_frame]

/-- At the opening of its bucket a stored packet leaves the store and is handled (R155). -/
theorem takeEarly_one {s : State} {j p seq : Nat} {g : Binding} {b : Bucket} {k : Pkt} (hb : s.bucket? j seq = some b) (hl : b.live = true)
    (he : (s.job j).early.filter (fun e => e.2.redSeq == seq) = [(p, k)]) : s.takeEarly j g seq
      = ((s.setJob j { s.job j with early := (s.job j).early.filter (fun e => e.2.redSeq != seq) }).setF (.redJobEarly j)
          Fld.redJobEarlyStored ((s.job j).early.filter (fun e => e.2.redSeq != seq)).length).redHandle j g b p k := by
  have hfind (x : List (Nat × Pkt)) (r : Reg) (f : Fld) (n : Nat) :
      ((s.setJob j { s.job j with early := x }).setF r f n).bucket? j seq = some b :=
    (bucket?_setJob_same s j seq _).trans hb
  simp only [State.takeEarly, he, List.foldl_cons, List.foldl_nil, hfind, hl, if_true]

/-- Settles O21: a packet is handled by its kind (`redReceive_open` and the `redHandle_` lemmas) or stored (`redReceive_early`). -/
theorem reductionPacketsComplete : Obligations.ReductionPacketsComplete := by
  unfold Obligations.ReductionPacketsComplete
  intro s u p k g b hs
  have handled {kind : Nat} {i : Instr} {t : State} (hi : (kind, i) ∈ bucketCommands) (ht : Accepts s u p k g kind) (ho : OpenFor u k b)
      (h : k.redKind = kind → b.seq = k.redSeq → u.redHandle k.redJob g b p k = t) : exec i s = .next t := by
    rw [exec_bucketCommand hi hs, redReceive_open ht ho (ne_credit_of_mem _ hi), h ht.redKind_eq ho.seq_eq]
  refine ⟨fun ht ho => ?scale, fun ht ho htag hf ha => ?scaleResult, fun v ht ho htag hw hp hv => ?contrib, fun ht ho htag hw => ?check,
    fun kind i hi ht ho htag hw => ?waits, fun v ht ho htag hw hv => ?result, fun ht ho htag => ?trailer, fun ht ho htag hp => ?total,
    fun r ht hr ho => ?credit, fun ht ho => ?abort, fun ha x hx => redAdvance_unagreed hx ha, fun kind i hi ht ho htag => ?untagged,
    fun kind i hi ht hb hp => ?early, fun ⟨hb, hl, _⟩ he => takeEarly_one hb hl he⟩
  case scale => exact handled (by simp [bucketCommands]) ht ho fun hk hseq => by rw [redHandle_scale hk, hseq]
  case scaleResult =>
    exact handled (by simp [bucketCommands]) ht ho fun hk hseq => by rw [redHandle_scaleResult htag hk hf ha, hseq]
  case contrib =>
    exact handled (by simp [bucketCommands]) ht ho fun hk hseq => by
      rw [redHandle_contrib htag hk hw, onContrib_added hp hv, hseq]
  case check => exact handled (by simp [bucketCommands]) ht ho fun hk hseq => by rw [redHandle_check htag hk hw, hseq]
  case waits =>
    have hi : (kind, i) ∈ (bucketCommands.drop 2).take 3 := hi
    exact handled (List.mem_of_mem_drop (List.mem_of_mem_take hi)) ht ho fun _ _ => redHandle_waits htag hw
  case result => exact handled (by simp [bucketCommands]) ht ho fun hk hseq => by rw [redHandle_result htag hk hw hv, hseq]
  case trailer => exact handled (by simp [bucketCommands]) ht ho fun hk hseq => by rw [redHandle_trailer htag hk, hseq]
  case total => exact handled (by simp [bucketCommands]) ht ho fun hk hseq => by rw [redHandle_total htag hk hp, hseq]
  case credit =>
    obtain ⟨hused, hrest⟩ := onCredit_spec (Accepts.binding_eq ht) hr ho
    refine ⟨_, (clocked_runs hs (redReceive RK.credit)).trans (congrArg _ (redReceive_credit ht)), ?_⟩
    exact ⟨(hused _).trans (if_pos rfl), fun x hx => (hused x).trans (if_neg hx), hrest⟩
  case abort =>
    exact ⟨_, handled (by simp [bucketCommands]) ht ho (fun hk hseq => by rw [redHandle_abort hk, hseq]), rfl⟩
  case untagged =>
    have hi : (kind, i) ∈ (bucketCommands.drop 1).take 6 := hi
    obtain ⟨ha, hsc⟩ := ne_abort_scale_of_mem _ hi
    exact handled (List.mem_of_mem_drop (List.mem_of_mem_take hi)) ht ho fun hk hseq => by
      rw [redHandle_untagged (hk.trans_ne ha) (hk.trans_ne hsc) htag, hseq]
  case early =>
    refine ⟨_, (exec_bucketCommand hi hs).trans (congrArg _ (redReceive_early ht (ne_credit_of_mem _ hi) hb hp)), ?_⟩
    exact storeEarly_spec u k.redJob p k

end Sys2Proof.Machine
end

section
/-! The events of a bucket: the end of its scan, its end, and its timeout (R149, R150, R161, R166). -/

namespace Sys2Proof.Machine

/-- The end of a scan: the exponent word is kept, and goes to the scale round of rank 0 (R149, R150). -/
theorem scanComplete_scanned {s u : State} {j seq : Nat} {b : Bucket} {g : Binding} {v : List Num} (hb : s.bucket? j seq = some b)
    (hg : (s.job j).binding = some g) (hscan : b.scan = none) (hlive : b.live = true) (hports : (g.ports b.op.n).any s.tileInReset = false)
    (hread : s.readSlots j b = (u, .vals v)) :
    s.scanComplete j seq =
      if g.rank = 0 then (u.modBucket j seq (fun b => { b with scan := some (scanValues v) })).addScale j seq
        ⟨0, (scanValues v).1, true, b.op.force⟩
      else (u.modBucket j seq (fun b => { b with scan := some (scanValues v) })).sendRed j
        [(0, (u.modBucket j seq (fun b => { b with scan := some (scanValues v) })).bucketPkt g j b 0 RK.scale false 0 0 0
          (scaleBody (scanValues v).1 b.op.n (if b.op.force then 1 else 0)))] := by
  simp [State.scanComplete, hb, hg, hscan, hlive, hports, hread]

/-- The lowest bucket finishes once it is whole (R161, R162). -/
theorem tryFinish_complete {s : State} {j : Nat} {b : Bucket} {l : List Bucket} {g : Binding} {e : Int} {c : Bool}
    (hb : (s.job j).buckets = b :: l) (hg : (s.job j).binding = some g) (ha : b.agreed = some (e, c)) (hlive : b.live = true)
    (hc : g.complete b = true) : s.tryFinish j = s.finishBucket j g b e := by
  simp [State.tryFinish, hb, hg, ha, hlive, hc]

theorem bucketTimeout_live {s : State} {j seq : Nat} {b : Bucket} (hb : s.bucket? j seq = some b) (hlive : b.live = true) :
    s.bucketTimeout j seq
      = (s.setF (.redJobStatus j) Fld.redJobStatusBroken 1).endBucket j seq stTimeout (some Cls.redTimeout) := by
  simp [State.bucketTimeout, hb, hlive]

/-- Settles O22: each event of a bucket that runs has its effect, and the exponent word is the largest exponent of the elements. -/
theorem bucketEventsComplete : Obligations.BucketEventsComplete := by
  unfold Obligations.BucketEventsComplete
  intro s j b g hs hg
  refine ⟨fun seq u v hb hscan hlive hports hread hrank => ?_, fun seq u v hb hscan hlive hports hread hrank => ?_,
    fun l e c hb ha hlive hc => ?_, fun seq hb hlive _ => ?_, fun v => ⟨fun neg m x hx hm => floorLog2_le_scanValues hx hm,
      scanValues_attained v, List.countP_eq_length_filter⟩⟩
  · refine (clocked_runs hs (fun s => s.scanComplete j seq.toNat)).trans (congrArg _ ?_)
    rw [scanComplete_scanned hb hg hscan hlive hports hread, if_neg hrank]
  · refine (clocked_runs hs (fun s => s.scanComplete j seq.toNat)).trans (congrArg _ ?_)
    rw [scanComplete_scanned hb hg hscan hlive hports hread, if_pos hrank]
  · exact (clocked_runs hs (fun s => s.tryFinish j)).trans (congrArg _ (tryFinish_complete hb hg ha hlive hc))
  · exact completes_clocked (f := fun s => s.bucketTimeout j seq.toNat) rfl hs (bucketTimeout_live hb hlive)

end Sys2Proof.Machine
end

section
/-! What reads of memory leave: the memory side, the homes, the mesh and the router write none of the rings, jobs, state engine, scheduler and
I/O of the device (R250 to R306). -/

namespace Sys2Proof.Machine

/-- Parts of the state that no read writes: values in force, rings, jobs, state engine, scheduler and I/O. -/
structure Beside where
  act : List (Reg × W64)
  rings : NMap Ring
  jobs : NMap Job
  engine : Engine
  sched : Sched
  io : Io

/-- Those parts of a state. -/
def State.beside (s : State) : Beside := ⟨s.act, s.rings, s.jobs, s.engine, s.sched, s.io⟩

@[simp] theorem rset_beside (s : State) (r : Reg) (v : W64) : (s.rset r v).beside = s.beside := rfl
@[simp] theorem setF_beside (s : State) (r : Reg) (f : Fld) (x : Nat) : (s.setF r f x).beside = s.beside := rfl
@[simp] theorem setB_beside (s : State) (r : Reg) (f : Fld) (b : Bool) : (s.setB r f b).beside = s.beside := rfl
@[simp] theorem bumpF_beside (s : State) (r : Reg) (f : Fld) (k : Nat) : (s.bumpF r f k).beside = s.beside := rfl
@[simp] theorem store_beside (s : State) (a : Nat) (l : List Byte) : (s.store a l).beside = s.beside := rfl
@[simp] theorem modTile_beside (s : State) (n : Nat) (f : Tile → Tile) : (s.modTile n f).beside = s.beside := rfl
@[simp] theorem setHome_beside (s : State) (j : Nat) (x : Home) : (s.setHome j x).beside = s.beside := rfl
@[simp] theorem setCore_beside (s : State) (j : Nat) (x : HostCore) : (s.setCore j x).beside = s.beside := rfl
@[simp] theorem setMc_beside (s : State) (j : Nat) (x : MemCtl) : (s.setMc j x).beside = s.beside := rfl
@[simp] theorem setPort_beside (s : State) (j : Nat) (x : Port) : (s.setPort j x).beside = s.beside := rfl
@[simp] theorem mesh_beside (s : State) (m : Msg) : (s.mesh! m).beside = s.beside := rfl

/-! ## Folds and pairs -/

/-- A fold of steps that leave it leaves the rest of the device. -/
theorem foldl_beside {α : Type} {f : State → α → State} (hf : ∀ s a, (f s a).beside = s.beside) (l : List α) (s : State) :
    (l.foldl f s).beside = s.beside := by
  induction l generalizing s with
  | nil => rfl
  | cons a l ih => exact (ih _).trans (hf s a)

/-- The state of a pair that an operation gives. -/
theorem beside_of_eq {β : Type} {p : State × β} {s t : State} {b : β} (h : p = (t, b)) (hp : p.1.beside = s.beside) : t.beside = s.beside := by
  rw [h] at hp; exact hp

/-! ## Records and the freeze (R394, R404) -/

@[simp] theorem frozenFrames_beside (s : State) : s.frozenFrames.beside = s.beside := by
  unfold State.frozenFrames; dsimp only; split_ifs <;> rfl

@[simp] theorem freeze_beside (s : State) (source cls : Nat) : (s.freeze source cls).beside = s.beside := by
  unfold State.freeze; split
  · rfl
  · exact frozenFrames_beside _

@[simp] theorem holdRecord_beside (s : State) (l : List Byte) : (s.holdRecord l).beside = s.beside := by
  unfold State.holdRecord; exact foldl_beside (fun s w => rset_beside s (.frzRecord w) _) _ _

@[simp] theorem report_beside (s : State) (r : FaultRec) : (s.report r).beside = s.beside := by
  unfold State.report; dsimp only; split
  · rfl
  · split
    · rw [freeze_beside, holdRecord_beside]
    · rfl

@[simp] theorem outOfRange_beside (s : State) (w : Who) (a : Nat) : (s.outOfRange w a).beside = s.beside := by
  simp [State.outOfRange]
@[simp] theorem undecoded_beside (s : State) (w : Who) (a : Nat) : (s.undecoded w a).beside = s.beside := by
  simp [State.undecoded]
@[simp] theorem irregular_beside (s : State) (w : Who) (a : Nat) : (s.irregular w a).beside = s.beside := by
  simp [State.irregular]

/-! ## The memory side (R232 to R245, R260) -/

@[simp] theorem loseWords_beside (s : State) (l : List Nat) : (s.loseWords l).beside = s.beside := rfl

@[simp] theorem checkEvict_beside (s : State) (h : Nat) (e : CheckUnit) : (s.checkEvict h e).beside = s.beside := by
  unfold State.checkEvict; split <;> rfl

@[simp] theorem checkUse_beside (s : State) (h ch j : Nat) (w : Bool) (u : Nat) : (s.checkUse h ch j w u).beside = s.beside := by
  unfold State.checkUse; dsimp only
  rw [foldl_beside (fun s e => checkEvict_beside s h e), setMc_beside]

@[simp] theorem checkAccess_beside (s : State) (la : Nat) (w : Bool) : (s.checkAccess la w).beside = s.beside := by
  unfold State.checkAccess; exact foldl_beside (fun _ _ => checkUse_beside ..) _ _

@[simp] theorem checkRewrite_beside (s : State) (la : Nat) : (s.checkRewrite la).beside = s.beside := rfl

@[simp] theorem initGroup_beside (s : State) (la : Nat) : (s.initGroup la).beside = s.beside := by
  unfold State.initGroup; split <;> rfl

@[simp] theorem modSlc_beside (s : State) (la : Nat) (f : SlcLine → SlcLine) : (s.modSlc la f).beside = s.beside := rfl
@[simp] theorem dropWriteBack_beside (s : State) (la : Nat) : (s.dropWriteBack la).beside = s.beside := rfl
@[simp] theorem freshLine_beside (s : State) (la : Nat) : (s.freshLine la).beside = s.beside := by
  unfold State.freshLine; exact checkAccess_beside s la true

@[simp] theorem storeLine_beside (s : State) (a : Nat) (l : List Byte) : (s.storeLine a l).beside = s.beside := by
  unfold State.storeLine; dsimp only; split
  · exact (dropWriteBack_beside ..).trans (modSlc_beside ..)
  · simp

@[simp] theorem noteRow_beside (s : State) (h la words : Nat) (u : Bool) : (s.noteRow h la words u).beside = s.beside := by
  unfold State.noteRow
  extract_lets m row old cnt new low rest rest s2
  have h2 : s2.beside = s.beside := rfl
  split
  · rw [bumpF_beside, h2]
  · exact h2

@[simp] theorem countCorrected_beside (s : State) (la words : Nat) : (s.countCorrected la words).beside = s.beside := rfl
@[simp] theorem correctedDram_beside (s : State) (la words : Nat) : (s.correctedDram la words).beside = s.beside := by
  simp [State.correctedDram]

@[simp] theorem correctedLine_beside (s : State) (la words : Nat) : (s.correctedLine la words).beside = s.beside := by
  unfold State.correctedLine; split <;> simp

@[simp] theorem slcCount_beside (s : State) (la : Nat) : (s.slcCount la).beside = s.beside := by
  unfold State.slcCount; dsimp only; split <;> rfl

@[simp] theorem lineErrors_beside (s : State) (w : Who) (a : Nat) : (s.lineErrors w a).1.beside = s.beside := by
  unfold State.lineErrors; dsimp only; split
  · split <;> simp
  · split <;> simp

@[simp] theorem mergeRead_beside (s : State) (la words : Nat) : (s.mergeRead la words).beside = s.beside := by
  unfold State.mergeRead; dsimp only; split
  · rfl
  · split <;> simp

@[simp] theorem keepUe_beside (s : State) (w : Who) (la : Nat) (keep : List Nat) (c : Nat) : (s.keepUe w la keep c).beside = s.beside := by
  unfold State.keepUe; dsimp only; split
  · rfl
  · rw [report_beside]; split <;> simp

@[simp] theorem homeWrite_beside (s : State) (w : Who) (la : Nat) (m : W64) (d : Line) : (s.homeWrite w la m d).beside = s.beside := by
  simp [State.homeWrite]

@[simp] theorem slcEvict_beside (s : State) (e : SlcLine) : (s.slcEvict e).beside = s.beside := by
  unfold State.slcEvict; split <;> simp

@[simp] theorem slcFill_beside (s : State) (la : Nat) : (s.slcFill la).beside = s.beside := by
  unfold State.slcFill
  extract_lets h x s2 e l
  have h2 : s2.beside = s.beside := by unfold s2; split <;> rfl
  rw [foldl_beside slcEvict_beside, setHome_beside, h2]

@[simp] theorem readLine_beside (s : State) (w : Who) (la : Nat) : (s.readLine w la).1.beside = s.beside := by
  unfold State.readLine; dsimp only; split <;> simp

@[simp] theorem homeRead_beside (s : State) (w : Who) (la : Nat) : (s.homeRead w la).1.beside = s.beside := by
  unfold State.homeRead; split
  next t ok h => exact beside_of_eq h (readLine_beside ..)

/-! ## Cores (R273, R275) -/

@[simp] theorem makeRoom_beside (s : State) (c la : Nat) : (s.makeRoom c la).beside = s.beside := by
  unfold State.makeRoom; dsimp only; split
  · rfl
  · split
    · split <;> simp
    · rfl

@[simp] theorem missFails_beside (s : State) (c la : Nat) : (s.missFails c la).beside = s.beside := rfl
@[simp] theorem modMiss_beside (s : State) (c la : Nat) (f : Miss → Miss) : (s.modMiss c la f).beside = s.beside := rfl

@[simp] theorem fillCore_beside (s : State) (c la : Nat) : (s.fillCore c la).beside = s.beside := by
  unfold State.fillCore; dsimp only; split
  · split
    · rw [mesh_beside, setCore_beside]; split <;> simp
    · rfl
  · rfl

@[simp] theorem answer_beside (s : State) (k : SnpKind) (c la : Nat) (fwd : Option Nat) (a : Option Agent) (e : Bool) :
    (s.answer k c la fwd a e).beside = s.beside := by
  unfold State.answer; dsimp only; split
  · simp
  · split
    · simp
    · split
      · simp
      · cases k with
        | shared => cases fwd <;> dsimp only <;> split <;> simp
        | inv => cases fwd <;> dsimp only <;> [split <;> simp; simp]
        | cur => cases a <;> simp

@[simp] theorem onGrant_beside (s : State) (g : LineState) (c la : Nat) (m : W64) (d : Line) : (s.onGrant g c la m d).beside = s.beside := by
  unfold State.onGrant; split <;> simp

@[simp] theorem onDeny_beside (s : State) (c la : Nat) : (s.onDeny c la).beside = s.beside := by
  unfold State.onDeny; dsimp only; split <;> simp

@[simp] theorem onData_beside (s : State) (c la : Nat) (d : Line) : (s.onData c la d).beside = s.beside := by
  unfold State.onData; dsimp only; split <;> simp

@[simp] theorem spoilDram_beside (s : State) (la : Nat) : (s.spoilDram la).beside = s.beside := by simp [State.spoilDram]
@[simp] theorem spoilLine_beside (s : State) (la : Nat) : (s.spoilLine la).beside = s.beside := by simp [State.spoilLine]

@[simp] theorem onFwdData_beside (s : State) (c la : Nat) (d : Line) (x : Bool) : (s.onFwdData c la d x).beside = s.beside := by
  unfold State.onFwdData; split
  · simp
  · split <;> simp

/-! ## Homes (R259 to R276) -/

@[simp] theorem snoop_beside (s : State) (k : SnpKind) (c la : Nat) (fwd : Option Nat) (a : Option Agent) :
    (s.snoop k c la fwd a).beside = s.beside := rfl
@[simp] theorem openTxn_beside (s : State) (la : Nat) (why : TxnWhy) (w : List Nat) (g : Bool) : (s.openTxn la why w g).beside = s.beside := rfl
@[simp] theorem modTxn_beside (s : State) (la : Nat) (f : Txn → Txn) : (s.modTxn la f).beside = s.beside := rfl
@[simp] theorem closeTxn_beside (s : State) (la : Nat) : (s.closeTxn la).beside = s.beside := rfl

/-- Snoops to cores leave the rest of the device. -/
theorem snoops_beside (k : SnpKind) (la : Nat) (l : List Nat) (s : State) :
    (l.foldl (fun s c => s.snoop k c la none none) s).beside = s.beside := foldl_beside (fun s c => snoop_beside s k c la none none) _ _

@[simp] theorem recall_beside (s : State) (e : DirEntry) (b : Option Nat) : (s.recall e b).beside = s.beside := by
  unfold State.recall; dsimp only; rw [snoops_beside, openTxn_beside]

/-- A home fills its system-level cache and sends two messages. -/
theorem fillSend_beside (s : State) (h : Nat) (x : Home) (la : Nat) (m n : Msg) (f : Txn → Txn) :
    ((((s.setHome h x).slcFill la |>.mesh! m).mesh! n).modTxn la f).beside = s.beside := by
  rw [modTxn_beside, mesh_beside, mesh_beside, slcFill_beside, setHome_beside]

/-- A home gives up a miss. -/
theorem giveUp_beside (s : State) (h : Nat) (x : Home) (c la : Nat) : (((s.setHome h x).closeTxn la).missFails c la).beside = s.beside := by
  rw [missFails_beside, closeTxn_beside, setHome_beside]

@[simp] theorem grantData_beside (s : State) (c la : Nat) (st : DirState) (g : LineState) (way : Nat) (f : Option DirState) :
    (s.grantData c la st g way f).beside = s.beside := by
  have hr := homeRead_beside s (coreWho c) la
  unfold State.grantData
  extract_lets h
  generalize s.homeRead (coreWho c) la = p at hr ⊢
  obtain ⟨t, _ | d⟩ := p
  · exact (giveUp_beside ..).trans hr
  · exact (fillSend_beside ..).trans hr

@[simp] theorem grant_beside (s : State) (r : HomeReq) (c : Nat) (had : Bool) (way : Nat) : (s.grant r c had way).beside = s.beside := by
  unfold State.grant; dsimp only; split
  · split
    · split <;> simp
    · split <;> simp
    · simp
  · split <;> split <;> simp

@[simp] theorem finishWrite_beside (s : State) (r : HomeReq) (m : W64) (d : Line) : (s.finishWrite r m d).beside = s.beside := by
  simp [State.finishWrite]

@[simp] theorem advance_beside (s : State) (la : Nat) : (s.advance la).beside = s.beside := by
  unfold State.advance
  split
  · rfl
  next t _ =>
    extract_lets dataOk
    split
    · rfl
    · split
      · split
        · split
          · split
            · exact (setHome_beside ..).trans (closeTxn_beside ..)
            · exact closeTxn_beside ..
          · exact closeTxn_beside ..
        · rfl
      · split
        · split
          · exact (setHome_beside ..).trans (closeTxn_beside ..)
          · rfl
        next r _ =>
          generalize r.kind = k, r.agent = g
          cases k with
          | wrNA d =>
            dsimp only; split
            · exact finishWrite_beside ..
            · rfl
          | wrPart m d =>
            dsimp only; split
            · exact finishWrite_beside ..
            · rfl
          | rdNA =>
            dsimp only; split
            · exact closeTxn_beside ..
            · have hr := (homeRead_beside (s.closeTxn la) (Agent.who g) la).trans (closeTxn_beside ..)
              generalize (s.closeTxn la).homeRead (Agent.who g) la = p at hr ⊢
              obtain ⟨u, _ | d⟩ := p
              · exact hr
              · exact (mesh_beside ..).trans hr
          | rdShared | rdOwn | upgrade =>
            cases g with
            | core c => exact grant_beside ..
            | _ => exact closeTxn_beside ..

@[simp] theorem serveNew_beside (s : State) (r : HomeReq) (c : Nat) (p : WayPick) : (s.serveNew r c p).1.beside = s.beside := by
  unfold State.serveNew; split <;> simp

@[simp] theorem serveCore_beside (s : State) (r : HomeReq) (c : Nat) : (s.serveCore r c).1.beside = s.beside := by
  unfold State.serveCore
  extract_lets la h
  split
  · rfl
  · split
    · exact (mesh_beside ..).trans (bumpF_beside ..)
    · split
      · exact (mesh_beside ..).trans (outOfRange_beside ..)
      · split
        · split
          · exact (bumpF_beside ..).trans (setHome_beside ..)
          · exact serveNew_beside ..
        next e _ =>
          split
          · split
            · extract_lets s2 s3
              have h3 : s3.beside = s.beside := (openTxn_beside ..).trans (setHome_beside ..)
              rw [grantData_beside]; exact h3
            · split
              · rfl
              · exact (snoop_beside ..).trans (openTxn_beside ..)
          · extract_lets others s2
            have h2 : s2.beside = s.beside := openTxn_beside ..
            split
            · exact (grant_beside ..).trans h2
            · exact (snoops_beside ..).trans h2

@[simp] theorem serveAgent_beside (s : State) (r : HomeReq) : (s.serveAgent r).1.beside = s.beside := by
  unfold State.serveAgent
  extract_lets la h w
  split
  · dsimp only
    split
    · exact (mesh_beside ..).trans (outOfRange_beside ..)
    · exact outOfRange_beside ..
  · split
    · exact (snoop_beside ..).trans (openTxn_beside ..)
    · have hr := homeRead_beside s w la
      generalize s.homeRead w la = p at hr ⊢
      obtain ⟨t, _ | d⟩ := p
      · exact hr
      · exact (mesh_beside ..).trans hr
    next e _ _ =>
      split
      · rfl
      · extract_lets s2 s3
        have h3 : s3.beside = s.beside := (snoops_beside .inv la _ _).trans (openTxn_beside ..)
        dsimp only
        split
        · exact (advance_beside ..).trans h3
        · exact h3
    · exact (mesh_beside ..).trans (homeWrite_beside ..)
    · exact (mesh_beside ..).trans (homeWrite_beside ..)
    · rfl

@[simp] theorem serve_beside (s : State) (r : HomeReq) : (s.serve r).1.beside = s.beside := by
  unfold State.serve; split <;> simp

@[simp] theorem serveQueue_beside (h : Nat) (l : List HomeReq) (s : State) (kept : List HomeReq) :
    (s.serveQueue h kept l).beside = s.beside := by
  induction l generalizing s kept with
  | nil => rfl
  | cons r l ih =>
    unfold State.serveQueue
    split
    · exact ih ..
    · split
      next t hs => exact (ih ..).trans (beside_of_eq hs (serve_beside ..))
      · exact ih ..

@[simp] theorem drainHome_beside (s : State) (h : Nat) : (s.drainHome h).beside = s.beside := serveQueue_beside ..

@[simp] theorem flipRecall_beside (s : State) : s.flipRecall.beside = s.beside := by
  unfold State.flipRecall
  split
  · split
    · exact foldl_beside (fun s h => foldl_beside (fun s e => recall_beside s e none) _ s) _ _
    · rfl
  · rfl

@[simp] theorem settleLine_beside (s : State) (la : Nat) : (s.settleLine la).beside = s.beside :=
  (drainHome_beside ..).trans ((flipRecall_beside _).trans (advance_beside ..))

/-! ## Messages (R272 to R275) -/

@[simp] theorem onCompAck_beside (s : State) (la : Nat) : (s.onCompAck la).beside = s.beside := settleLine_beside ..

@[simp] theorem onSnpAck_beside (s : State) (c la : Nat) (had dirty wb : Bool) : (s.onSnpAck c la had dirty wb).beside = s.beside := by
  unfold State.onSnpAck
  extract_lets owner forCore s2
  have h2 : s2.beside = s.beside := by unfold s2; split <;> rfl
  exact (settleLine_beside ..).trans h2

@[simp] theorem onSnpData_beside (s : State) (la : Nat) (d : Line) : (s.onSnpData la d).beside = s.beside := by
  unfold State.onSnpData
  extract_lets discard s2
  have h2 : s2.beside = s.beside := by
    unfold s2; split
    · rfl
    · exact storeLine_beside ..
  exact (settleLine_beside ..).trans h2

@[simp] theorem absorb_beside (s : State) (c la : Nat) (d : Option Line) : (s.absorb c la d).beside = s.beside := by
  unfold State.absorb
  extract_lets h s2 s3 x s4
  have h2 : s2.beside = s.beside := by
    unfold s2; split
    · split
      · exact (storeLine_beside ..).trans (slcFill_beside ..)
      · rfl
    · rfl
  have h4 : s4.beside = s3.beside := by unfold s4; split <;> rfl
  exact (settleLine_beside ..).trans (h4.trans h2)

@[simp] theorem expireHold_beside (s : State) (la : Nat) : (s.expireHold la).beside = s.beside := settleLine_beside ..

@[simp] theorem onMsg_beside (s : State) (m : Msg) : (s.onMsg m).beside = s.beside := by
  unfold State.onMsg
  split
  · exact answer_beside ..
  · exact onGrant_beside ..
  · exact onGrant_beside ..
  · exact onCompAck_beside ..
  · exact onSnpAck_beside ..
  · exact onDeny_beside ..
  · exact onData_beside ..
  · exact onFwdData_beside ..
  · exact onSnpData_beside ..
  · exact absorb_beside ..
  · exact absorb_beside ..
  · rfl
  · rfl
  · rfl

/-! ## Row repair (R245) -/

@[simp] theorem repairRow_beside (s : State) (h row : Nat) : (s.repairRow h row).beside = s.beside := by
  unfold State.repairRow
  extract_lets inRow cached bad s2
  exact (foldl_beside spoilDram_beside ..).trans (foldl_beside checkRewrite_beside ..)

@[simp] theorem repairDone_beside (s : State) (h : Nat) : (s.repairDone h).beside = s.beside := by
  unfold State.repairDone
  extract_lets m
  split
  · rfl
  · extract_lets line used s2 s3 s4 s5 busy
    have h3 : s3.beside = s.beside := (repairRow_beside ..).trans (setMc_beside ..)
    have h5 : s5.beside = s3.beside := (setF_beside ..).trans ((setF_beside ..).trans (bumpF_beside ..))
    exact (report_beside ..).trans ((setB_beside ..).trans (h5.trans h3))

@[simp] theorem repairEnd_beside (s : State) (h : Nat) : (s.repairEnd h).beside = s.beside := (drainHome_beside ..).trans (repairDone_beside ..)

/-! ## Accesses to the memory windows (R256, R269) -/

@[simp] theorem clearLine_beside (la : Nat) (write : Bool) (n : Nat) (s : State) : (s.clearLine la write n).beside = s.beside := by
  induction n generalizing s with
  | zero => rfl
  | succ n ih =>
    unfold State.clearLine
    extract_lets x held
    split
    · exact (ih _).trans (repairEnd_beside ..)
    · split
      · split
        · exact (ih _).trans (expireHold_beside ..)
        · rfl
      · split
        · exact (ih _).trans (onMsg_beside ..)
        · split
          · exact (ih _).trans (expireHold_beside ..)
          · rfl

@[simp] theorem lineTurn_beside (s : State) (la : Nat) (write : Bool) : (s.lineTurn la write).beside = s.beside := by
  unfold State.lineTurn
  split
  · split
    · exact repairEnd_beside ..
    · rfl
  · exact clearLine_beside ..

/-! ## The router (R280 to R294) -/

@[simp] theorem putFlit_beside (s : State) (p seq typ start : Nat) (slots : List (BitVec 128)) (nak : Bool) :
    (s.putFlit p seq typ start slots nak).1.beside = s.beside := rfl

@[simp] theorem putSlots_beside (p n start : Nat) (l : List (BitVec 128)) (s : State) : (s.putSlots p n start l).beside = s.beside := by
  induction n generalizing s start l with
  | zero => rfl
  | succ n ih =>
    unfold State.putSlots
    extract_lets x
    split
    next t f hf =>
      have ht : t.beside = s.beside := beside_of_eq hf (putFlit_beside ..)
      extract_lets x' s2 s3
      have h3 : s3.beside = s.beside := (bumpF_beside ..).trans ht
      split
      · exact h3
      · exact (ih ..).trans h3

@[simp] theorem pump_beside (p n : Nat) (s : State) : (s.pump p n).beside = s.beside := by
  induction n generalizing s with
  | zero => rfl
  | succ n ih =>
    unfold State.pump
    split
    · rfl
    · split
      · rfl
      · extract_lets x key s2 s3 x' s4
        have h3 : s3.beside = s.beside := (putSlots_beside ..).trans (setPort_beside ..)
        exact (ih _).trans ((setPort_beside ..).trans h3)

@[simp] theorem enqueue_beside (s : State) (p : Nat) (k : Pkt) : (s.enqueue p k).beside = s.beside := (pump_beside ..).trans (setPort_beside ..)

@[simp] theorem routed_beside (s : State) (w : Who) (k : Pkt) : (s.routed w k).1.beside = s.beside := by
  unfold State.routed
  split
  · dsimp only; split
    · exact bumpF_beside ..
    · rfl
  · exact (report_beside ..).trans (bumpF_beside ..)

@[simp] theorem sendPkt_beside (s : State) (w : Who) (k : Pkt) : (s.sendPkt w k).1.beside = s.beside := by
  unfold State.sendPkt
  split
  next t p h => exact (enqueue_beside ..).trans (beside_of_eq h (routed_beside ..))
  next t h => exact beside_of_eq h (routed_beside ..)

@[simp] theorem request_beside (s : State) (w : Who) (o : Owner) (vc typ dev off : Nat) (payload : List Byte) (write : Bool) (n pos : Nat) :
    (s.request w o vc typ dev off payload write n pos).1.beside = s.beside := by
  unfold State.request
  extract_lets t k
  split
  next u ok h =>
    have hu : u.beside = s.beside := beside_of_eq h (sendPkt_beside ..)
    split <;> exact hu

/-! ## Reads of units (R34, R251, R256, R304) -/

@[simp] theorem winRead_beside (s : State) (w : Who) (a n : Nat) : (s.winRead w a n).1.beside = s.beside := by
  unfold State.winRead
  split
  · exact outOfRange_beside ..
  · extract_lets la s2 s3
    have h3 : s3.beside = s.beside := by
      refine Eq.trans ?_ (lineTurn_beside s la false)
      unfold s3; split
      · exact bumpF_beside ..
      · rfl
    split
    · exact h3
    next =>
      split
      next t ok h => exact (beside_of_eq h (readLine_beside ..)).trans h3

@[simp] theorem sramCorrected_beside (s : State) (n : Nat) (l : List Nat) : (s.sramCorrected n l).beside = s.beside := by
  unfold State.sramCorrected; split
  · rfl
  · exact (modTile_beside ..).trans ((bumpF_beside ..).trans (setF_beside ..))

@[simp] theorem sramRead_beside (s : State) (w : Who) (n o len : Nat) : (s.sramRead w n o len).1.beside = s.beside := by
  unfold State.sramRead; split
  · exact report_beside ..
  · split
    · exact (report_beside ..).trans (setF_beside ..)
    · exact sramCorrected_beside ..

theorem arrived_beside {s t : State} {o : Owner} {key : Nat} {l : Option (List Byte)} (h : s.arrived o key = some (t, l)) :
    t.beside = s.beside := by
  unfold State.arrived at h
  split at h
  · cases h; rfl
  · split at h <;> cases h; rfl

@[simp] theorem readHereReg_beside (s : State) (w : Who) (o : Owner) (off n : Nat) : (s.readHereReg w o off n).1.beside = s.beside := by
  unfold State.readHereReg
  split
  · exact irregular_beside ..
  · split
    next h => exact arrived_beside h
    next h => exact arrived_beside h
    next => split <;> rfl

@[simp] theorem readAt_beside (s : State) (w : Who) (o : Owner) (a n : Nat) : (s.readAt w o a n).1.beside = s.beside := by
  unfold State.readAt
  split
  · exact undecoded_beside ..
  · extract_lets reg x
    split
    next h => exact arrived_beside h
    next h => exact arrived_beside h
    next =>
      split
      · rfl
      · split
        next h => exact beside_of_eq h (request_beside ..)
  · split
    · split <;> next h => exact beside_of_eq h (winRead_beside ..)
    · split <;> next h => exact beside_of_eq h (winRead_beside ..)
    · split <;> next h => exact beside_of_eq h (sramRead_beside ..)
    · exact readHereReg_beside ..
    · exact undecoded_beside ..

theorem foldl_fst_beside {α β : Type} {f : State × β → α → State × β} (hf : ∀ q a, (f q a).1.beside = q.1.beside) (l : List α)
    (q : State × β) : (l.foldl f q).1.beside = q.1.beside := by
  induction l generalizing q with
  | nil => rfl
  | cons a l ih => exact (ih _).trans (hf q a)

@[simp] theorem readRange_beside (s : State) (w : Who) (o : Owner) (a n : Nat) : (s.readRange w o a n).1.beside = s.beside := by
  unfold State.readRange
  refine foldl_fst_beside (fun q p => ?_) _ _
  split
  · rfl
  · exact readAt_beside ..
  · exact readAt_beside ..

@[simp] theorem engRead_beside (s : State) (a n : Nat) : (s.engRead a n).1.beside = s.beside := by
  unfold State.engRead State.readNow
  split <;> next h => exact beside_of_eq h (readRange_beside ..)

@[simp] theorem readHeader_beside (s : State) (k : ShardDesc) : (s.readHeader k).1.beside = s.beside := by
  unfold State.readHeader
  split <;> next h => exact beside_of_eq h (engRead_beside ..)

/-- A read leaves the descriptors as they were. -/
theorem desc?_of_beside {s t : State} (h : t.beside = s.beside) (r : Nat) (idx : W32) : t.desc? r idx = s.desc? r idx := by
  have hrings : t.rings = s.rings := congrArg Beside.rings h
  rw [State.desc?, State.ring, hrings, State.desc?, State.ring]

end Sys2Proof.Machine
end

section
/-! The commit of the state engine: its error code, the wait, and its effect (R168 to R171). -/

namespace Sys2Proof.Machine

/-! ## The commit (R168, R169) -/

theorem stateStatus_notMem_stateStaged : Reg.stateStatus ∉ stateStaged := by simp [stateStaged]

theorem stateCommitError_lt (s : State) (l : NMap ShardDesc) : (s.stateCommitError l).2 < 16 := by
  unfold State.stateCommitError; dsimp only; split_ifs <;> simp

/-- The state while a commit that has passed waits: its code is shown, and the values and descriptors that it puts in force are kept. -/
def State.stateCommitWaits (s : State) (l : NMap ShardDesc) : State :=
  { (s.setF .stateStatus Fld.stateStatusCommitError 0).setF .stateStatus Fld.stateStatusPending 1 with
    engine := { s.engine with waiting := some (stateStaged.map (fun r => (r, s.rget r)), l) } }

section
variable {s u v : State} {l : NMap ShardDesc} {code : Nat}
  (ht : s.readTable (s.rf .stateShardBase Fld.stateShardBaseBase * 128) (min (s.rf .stateCtrl Fld.stateCtrlShards) 1048576) 0 []
    = (u, some l))
include ht

theorem stateCommit_fails (hc : u.stateCommitError l = (v, code)) (h : code ≠ 0) :
    s.stateCommit = v.setF .stateStatus Fld.stateStatusCommitError code := by
  rw [State.stateCommit]
  simp only [ht, hc, if_pos h]

theorem stateCommit_passes (hc : u.stateCommitError l = (v, 0)) : s.stateCommit = v.stateCommitWaits l := by
  rw [State.stateCommit]
  simp only [ht, hc, ne_eq, not_true_eq_false, if_false, map_rget_setF stateStatus_notMem_stateStaged]
  rfl

end

/-- What a passed commit shows while it waits, and what it leaves. -/
theorem stateCommitWaits_shows (s : State) (l : NMap ShardDesc) :
    (s.stateCommitWaits l).rf .stateStatus Fld.stateStatusCommitError = 0
      ∧ (s.stateCommitWaits l).rf .stateStatus Fld.stateStatusPending = 1
      ∧ ∀ r, r ≠ .stateStatus → (s.stateCommitWaits l).rget r = s.rget r := by
  have hcsr : (s.stateCommitWaits l).csr
      = ((s.setF .stateStatus Fld.stateStatusCommitError 0).setF .stateStatus Fld.stateStatusPending 1).csr := rfl
  refine ⟨?_, ?_, fun r hr => ?_⟩
  · rw [rf_of_csr hcsr, rf_setF_ne _ _ _ _ _ _ (by decide) (.inr (by decide)), rf_setF_same _ _ _ _ (by decide)]; rfl
  · rw [rf_of_csr hcsr, rf_setF_same _ _ _ _ (by decide)]; rfl
  · rw [State.rget, hcsr, ← State.rget, rget_setF_ne _ _ _ _ _ hr, rget_setF_ne _ _ _ _ _ hr]

/-! ## Its effect (R171) -/

theorem stateCommitEffect_busy {s : State} (h : s.engine.shards.any (fun e => s.shardBusy e.1 e.2) = true) : s.stateCommitEffect = s := by
  unfold State.stateCommitEffect
  split
  · exact if_pos h
  · rfl

/-- The engine once a commit has taken effect: its descriptors, the shards in error by their headers, and nothing in progress. -/
def Engine.renewed (e : Engine) (shards : NMap ShardDesc) (errored : List Nat) : Engine :=
  { shards, errored, lost := [], handoffs := e.handoffs.map (fun h => { h with held := false }), updates := [], missQueue := []
    slots := [], opened := [], invalid := [], waiting := none }

theorem setF_withEngine (s : State) (e : Engine) (r : Reg) (f : Fld) (x : Nat) :
    ({ s with engine := e } : State).setF r f x = { s.setF r f x with engine := e } := rfl

/-- Beside registers, values in force and the engine, setting a field changes nothing. -/
theorem setF_engine_frame (s : State) (r : Reg) (f : Fld) (x : Nat) (c a : List (Reg × W64)) (e : Engine) :
    ({ s.setF r f x with csr := c, act := a, engine := e } : State) = { s with csr := c, act := a, engine := e } := rfl

/-- What setting a field makes of the registers depends on the registers alone. -/
theorem csr_setF_congr {s t : State} (h : s.csr = t.csr) (r : Reg) (f : Fld) (x : Nat) : (s.setF r f x).csr = (t.setF r f x).csr := by
  simp only [State.setF, State.rset, State.rget, h]

theorem aget_of_act {s t : State} (h : s.act = t.act) (r : Reg) : s.aget r = t.aget r := by rw [State.aget, State.aget, h]

section
variable {s : State} {vals : List (Reg × W64)} {l : NMap ShardDesc} (hw : s.engine.waiting = some (vals, l))
  (hidle : s.engine.shards.any (fun e => s.shardBusy e.1 e.2) = false)
include hw hidle

/-- Without a busy shard a commit that waits takes effect: its values are in force, the pool is empty, and the engine is renewed. -/
theorem stateCommitEffect_idle :
    let u := vals.foldl (fun s e => s.aset e.1 e.2) (s.setF .stateStatus Fld.stateStatusPending 0)
    ∃ errored, s.stateCommitEffect
      = { u.setF .stateStatus Fld.stateStatusPoolUsed 0 with engine := u.engine.renewed l errored } := by
  rw [State.stateCommitEffect]
  simp only [hw, hidle, Bool.false_eq_true, if_false, State.setSlots, List.map_nil, List.sum_nil, Nat.zero_div, setF_withEngine]
  exact ⟨_, rfl⟩

/-- The effect part by part: STATE.STATUS shows that no commit waits and that the pool is empty, the values are in force, and nothing beside
registers and engine changes. -/
theorem stateCommitEffect_parts :
    s.stateCommitEffect.csr = ((s.setF .stateStatus Fld.stateStatusPending 0).setF .stateStatus Fld.stateStatusPoolUsed 0).csr
      ∧ (∀ r, s.stateCommitEffect.aget r
          = (vals.foldl (fun s e => s.aset e.1 e.2) (s.setF .stateStatus Fld.stateStatusPending 0)).aget r)
      ∧ (∃ errored, s.stateCommitEffect.engine = s.engine.renewed l errored)
      ∧ { s.stateCommitEffect with csr := s.csr, act := s.act, engine := s.engine } = s := by
  have hframe := foldl_aset_frame vals (s.setF .stateStatus Fld.stateStatusPending 0)
  obtain ⟨errored, h⟩ := stateCommitEffect_idle hw hidle
  generalize vals.foldl (fun s e => s.aset e.1 e.2) (s.setF .stateStatus Fld.stateStatusPending 0) = u at *
  have hcsr : u.csr = (s.setF .stateStatus Fld.stateStatusPending 0).csr := by rw [hframe]
  have hengine : u.engine = s.engine := by rw [hframe, setF_engine]
  have hrest : { u with csr := s.csr, act := s.act, engine := s.engine } = s := by rw [hframe]; rfl
  rw [h, hengine]
  dsimp only
  refine ⟨csr_setF_congr hcsr .., aget_of_act ?_, ⟨errored, rfl⟩, ?_⟩
  · rw [setF_act]
  · rw [setF_engine_frame, hrest]

end

/-- Settles O30: a commit shows its code, and waits where it passes (`stateCommitWaits`); its effect comes once no shard is busy. -/
theorem stateCommitsComplete : Obligations.StateCommitsComplete := by
  unfold Obligations.StateCommitsComplete
  refine ⟨fun s u v l code hs ht hc => ⟨fun hne => ?fails, fun h0 => ?passes⟩, fun s l f hs hw hidle => ?effect, fun s p _ hbusy => ?busy⟩
  case fails =>
    refine completes_clocked (f := State.stateCommit) rfl hs ?_
    rw [stateCommit_fails ht hc hne]
    refine ⟨?_, fun r hr => rget_setF_ne _ _ _ _ _ hr, rfl⟩
    rw [rf_setF_same _ _ _ _ (by decide)]
    exact Nat.mod_eq_of_lt (by simpa [hc] using stateCommitError_lt u l)
  case passes =>
    subst h0
    refine completes_clocked (f := State.stateCommit) rfl hs ?_
    rw [stateCommit_passes ht hc]
    obtain ⟨hcode, hpending, hrest⟩ := stateCommitWaits_shows v l
    exact ⟨hcode, hpending, hrest, rfl, rfl⟩
  case effect =>
    refine completes_clocked (f := State.stateCommitEffect) rfl hs ?_
    obtain ⟨hcsr, haget, ⟨errored, hengine⟩, hframe⟩ := stateCommitEffect_parts hw hidle
    refine ⟨?_, fun r hr => by rw [haget, aget_foldl_staged, if_pos hr], fun r hr => ?_, ?_⟩
    · rw [rf_of_csr hcsr, rf_setF_ne _ _ _ _ _ _ (by decide) (.inr (by decide)), rf_setF_same _ _ _ _ (by decide)]; rfl
    · rw [haget, aget_foldl_staged, if_neg hr]; rfl
    · rw [hengine]; exact ⟨rfl, rfl, rfl, rfl, rfl, hframe⟩
  case busy =>
    change clocked 4 s State.stateCommitEffect = .next s
    rw [clocked, stateCommitEffect_busy hbusy, ite_self]

end Sys2Proof.Machine
end

section
/-! Hand-offs, updates and the state pool (R171 to R184). -/

namespace Sys2Proof.Machine

/-! ## Hand-offs (R171 to R174) -/

section
variable {s : State} {j : Nat} {h : Handoff} (hh : s.engine.handoffs.find? (fun h => h.job == j) = some h)
include hh

/-- A hand-off that came while a commit waited is taken up after its effect. -/
theorem handoff_held (hheld : h.held = true) (hw : s.engine.waiting ≠ none) : s.handoff j = s := by
  simp [State.handoff, hh, hheld, Option.isSome_iff_ne_none.2 hw]

variable (hopen : h.held = false ∨ s.engine.waiting = none) (hvalid : h.invalid = false)
include hopen hvalid

/-- A disabled engine refuses a hand-off and counts it (R173). -/
theorem handoff_disabled (hoff : s.af .stateCtrl Fld.stateCtrlEnable = 0) :
    s.handoff j = (s.bumpF .stateErrors Fld.stateErrorsMap 1).acceptHandoff h := by
  have hnow : (h.held && s.engine.waiting.isSome) = false := by rcases hopen with ho | ho <;> simp [ho]
  simp [State.handoff, hh, hnow, hvalid, hoff]

/-- An enabled engine reads the entry of the bucket in the map, and stages its runs from the position on (R172). -/
theorem handoff_enabled {u : State} {e : List Byte} (hon : s.af .stateCtrl Fld.stateCtrlEnable = 1)
    (hmap : s.af (.stateMap j) Fld.stateMapBase ≠ 0)
    (hread : s.engRead (s.af (.stateMap j) Fld.stateMapBase * 16 + 16 * h.bucket) 16 = (u, some e)) :
    s.handoff j = u.stageRuns h (leNat (e.take 8)) (leNat ((e.drop 8).take 4) - h.pos) h.pos := by
  have hnow : (h.held && s.engine.waiting.isSome) = false := by rcases hopen with ho | ho <;> simp [ho]
  simp [State.handoff, hh, hnow, hvalid, hon, hmap, hread]

end

/-! ## Updates (R177 to R181, R183) -/

/-- An update of a rule other than 6 writes what its rule makes of the words and the staged gradient. -/
theorem endUpdate_writes {s a b : State} {x : Nat} {u : Update} {d : ShardDesc} {h : Header} {w : ShardWords} {g : List Nat}
    {fz bm : List Byte} (hu : s.engine.updates.find? (fun u => u.shard == x) = some u) (hd : s.shard? x = some d) (ht : u.target = none)
    (h6 : d.rule ≠ 6) (hread : s.readHeader d = (a, some h)) (hneeds : a.readUpdate x d = (b, some (w, g, fz, bm))) :
    s.endUpdate x = b.writeUpdate x d u h w (updateWords d (ruleParams u.block h) w g (frozenBy fz)) fz bm := by
  simp [State.endUpdate, hu, hd, ht, h6, hread, hneeds]

/-! ## The pool (R184) -/

theorem foldl_min_mem (e : Nat) (l : List Nat) : l.foldl min e ∈ e :: l := by
  induction l generalizing e with
  | nil => exact List.mem_singleton_self e
  | cons a l ih =>
    rcases List.mem_cons.1 (ih (min e a)) with h | h
    · rw [List.foldl_cons, h]
      rcases min_choice e a with hm | hm <;> simp [hm]
    · exact List.mem_cons_of_mem _ (List.mem_cons_of_mem _ h)

/-- The place that first fit finds lies in the area, and beside every part in use (R131, R184). -/
theorem firstFit_free {l : List (Nat × Nat)} {size n o : Nat} (h : firstFit l size n = some o) :
    o + n ≤ size ∧ ∀ p ∈ l, o + n ≤ p.1 ∨ p.1 + p.2 ≤ o ∨ n = 0 := by
  unfold firstFit at h
  dsimp only at h
  split at h
  · cases h
  · next e ends hends =>
    have hmem := foldl_min_mem e ends
    rw [← hends, Option.some.inj h] at hmem
    simpa [or_assoc] using (List.mem_filter.1 hmem).2

/-- A shard of the queue that finds a place is granted it. -/
theorem grantSlot_fits {s : State} {x o : Nat} {rest : List Nat} {d : ShardDesc} (hq : s.engine.missQueue = x :: rest)
    (hd : s.shard? x = some d) (ho : firstFit (s.engine.slots.map (fun p => (p.offset, p.size))) s.poolSize d.slotSize = some o) :
    s.grantSlot = ({ s with engine := { s.engine with missQueue := rest } } : State).setSlots
      (s.engine.slots ++ [⟨x, o, d.slotSize, false⟩]) := by
  simp [State.grantSlot, hq, hd, ho]

/-- Storing the pool's slots shows the pool in use in STATE.STATUS, and leaves the other registers and the rest of the engine. -/
theorem setSlots_spec (s : State) (l : List PoolSlot) :
    (s.setSlots l).engine = { s.engine with slots := l } ∧ (∀ r, r ≠ .stateStatus → (s.setSlots l).rget r = s.rget r)
      ∧ (s.setSlots l).mem = s.mem :=
  ⟨by rw [State.setSlots, setF_engine], fun r hr => by rw [State.setSlots, rget_setF_ne _ _ _ _ _ hr]; rfl,
    by rw [State.setSlots, setF_mem]⟩

/-- A tier 1 shard whose state has been read at home has it in its slot, counts a miss, and starts an update that is due. -/
theorem copiedUp_read {s u : State} {x : Nat} {p : PoolSlot} {d : ShardDesc} {w : ShardWords}
    (hp : s.engine.slots.find? (fun p => p.shard == x && !p.copied) = some p) (hd : s.shard? x = some d)
    (hread : s.readWords d d.home = (u, some w)) :
    let v := u.writeWords (d.inPool (u.poolBase + p.offset)) w
    s.copiedUp x = ((v.setSlots (v.engine.slots.map (fun q => if q.shard = x then { q with copied := true } else q))).bumpF
      .stateMisses Fld.stateMissesCount 1).tryUpdate x := by
  simp [State.copiedUp, hp, hd, hread]

/-- Settles O31: each command is the branch of its operation that the hypotheses select, and the place that is granted is the one that first
fit finds (`firstFit_free`). -/
theorem updatesComplete : Obligations.UpdatesComplete := by
  unfold Obligations.UpdatesComplete
  intro s hs
  refine ⟨fun j h hh hheld hw => ?held, fun j h hh hopen hvalid => ⟨fun hoff => ?disabled, fun u e hon hmap hread => ?enabled⟩,
    fun x u d a b h w g fz bm hu hd ht h6 hread hneeds => ?update, fun x rest d o hq hd ho => ?grant,
    fun x p d u w hp hd hread => ?copyUp⟩
  case held => exact (clocked_runs hs (fun s => s.handoff j)).trans (congrArg _ (handoff_held hh hheld hw))
  case disabled => exact (clocked_runs hs (fun s => s.handoff j)).trans (congrArg _ (handoff_disabled hh hopen hvalid hoff))
  case enabled =>
    exact (clocked_runs hs (fun s => s.handoff j)).trans (congrArg _ (handoff_enabled hh hopen hvalid hon hmap hread))
  case update =>
    exact (clocked_runs hs (fun s => s.endUpdate x.toNat)).trans (congrArg _ (endUpdate_writes hu hd ht h6 hread hneeds))
  case grant =>
    refine completes_clocked (f := State.grantSlot) rfl hs ?_
    rw [grantSlot_fits hq hd ho]
    obtain ⟨hengine, hregs, hmem⟩ := setSlots_spec { s with engine := { s.engine with missQueue := rest } }
      (s.engine.slots ++ [⟨x, o, d.slotSize, false⟩])
    obtain ⟨hfits, hfree⟩ := firstFit_free ho
    exact ⟨congrArg Engine.missQueue hengine, congrArg Engine.slots hengine, hfits, fun p hp => hfree _ (List.mem_map_of_mem hp), hregs, hmem⟩
  case copyUp =>
    exact (clocked_runs hs (fun s => s.copiedUp x.toNat)).trans (congrArg _ (copiedUp_read hp hd hread))

end Sys2Proof.Machine
end

section
/-! The words of a shard after an update: frozen elements keep theirs, and the lists keep their lengths (R178, R179, R183). -/

namespace Sys2Proof.Machine

/-! ## Elementwise rules (R178) -/

/-- The elements after an update of a rule other than 5: a frozen one as it was, any other as its rule makes it. -/
def updatedElems (d : ShardDesc) (p : RuleParams) (x : ShardWords) (g : List Nat) (frozen : Nat → Bool) : List Elem :=
  g.zipIdx.map (fun a =>
    let e : Elem := ⟨x.w.getD a.2 0, x.m.getD a.2 0, x.v.getD a.2 0, a.1⟩
    if frozen a.2 then e else elemRule d p e)

theorem updateWords_elementwise {d : ShardDesc} (h : d.rule ≠ 5) (p : RuleParams) (x : ShardWords) (g : List Nat) (frozen : Nat → Bool) :
    updateWords d p x g frozen = ⟨(updatedElems d p x g frozen).map Elem.w,
      if d.has1 then (updatedElems d p x g frozen).map Elem.m else [], if d.has2 then (updatedElems d p x g frozen).map Elem.v else []⟩ :=
  if_neg h

@[simp] theorem length_updatedElems (d : ShardDesc) (p : RuleParams) (x : ShardWords) (g : List Nat) (frozen : Nat → Bool) :
    (updatedElems d p x g frozen).length = g.length := by simp [updatedElems]

/-- A field of a frozen element is what it was. -/
theorem getD_updatedElems_frozen (d : ShardDesc) (p : RuleParams) (x : ShardWords) {g : List Nat} {frozen : Nat → Bool} {i : Nat}
    (hi : i < g.length) (hf : frozen i = true) (field : Elem → Nat) :
    ((updatedElems d p x g frozen).map field).getD i 0 = field ⟨x.w.getD i 0, x.m.getD i 0, x.v.getD i 0, g[i]⟩ := by
  simp [updatedElems, hi, hf]

/-! ## Factored second moment (R179) -/

/-- New words with those of frozen elements as they were. -/
def keepFrozen (frozen : Nat → Bool) (new old : List Nat) : List Nat :=
  new.zipIdx.map (fun a => if frozen a.2 then old.getD a.2 0 else a.1)

@[simp] theorem length_keepFrozen (frozen : Nat → Bool) (new old : List Nat) : (keepFrozen frozen new old).length = new.length := by
  simp [keepFrozen]

theorem getD_keepFrozen {frozen : Nat → Bool} {new : List Nat} {i : Nat} (hi : i < new.length) (hf : frozen i = true) (old : List Nat) :
    (keepFrozen frozen new old).getD i 0 = old.getD i 0 := by
  simp [keepFrozen, hi, hf]

@[simp] theorem length_rowsOf {α : Type} (cols n : Nat) (l : List α) : (rowsOf cols n l).length = n := by
  induction n generalizing l with
  | zero => rfl
  | succ n ih => rw [rowsOf, List.length_cons, ih]

@[simp] theorem length_columns (cols : Nat) (rows : List (List Nat)) : (columns cols rows).length = cols := by simp [columns]

section
variable {d : ShardDesc} {x : ShardWords} {g : List Nat} (p : RuleParams) (frozen : Nat → Bool)

/-- Rule 5 makes a master of every element, beside the frozen ones. -/
theorem rule5_w (hw : x.w.length = g.length) (hm : d.has1 = true → x.m.length = g.length) :
    ∃ new, (rule5 d p x g frozen).w = keepFrozen frozen new x.w ∧ new.length = g.length := by
  refine ⟨_, rfl, ?_⟩
  by_cases h : d.has1 = true
  · simp [h, hw, hm h]
  · simp [h, hw]

/-- Rule 5 makes a first moment of every element, where the shard holds one. -/
theorem rule5_m (hm : d.has1 = true → x.m.length = g.length) :
    ∃ new, (rule5 d p x g frozen).m = keepFrozen frozen new x.m ∧ new.length = if d.has1 then g.length else 0 := by
  refine ⟨_, rfl, ?_⟩
  by_cases h : d.has1 = true
  · simp [h, hm h]
  · simp [h]

/-- Rule 5 makes one statistic of each row and of each column. -/
theorem length_rule5_v (hv : x.v.length = d.rows + d.cols) : (rule5 d p x g frozen).v.length = d.rows + d.cols := by
  simp [rule5, hv]

end

/-- Settles O32: element by element (`updatedElems`), and for rule 5 list by list (`keepFrozen`). -/
theorem frozenElementsKeepTheirState : Obligations.FrozenElementsKeepTheirState := by
  unfold Obligations.FrozenElementsKeepTheirState
  intro d p x g frozen _ _ hw hm
  by_cases h5 : d.rule = 5
  · obtain ⟨w, hw', hwl⟩ := rule5_w p frozen hw hm
    obtain ⟨m, hm', hml⟩ := rule5_m p frozen hm
    rw [updateWords, if_pos h5, hw', hm']
    refine ⟨by simp [hwl], by simp [hml], fun h => absurd h5 h, fun _ => length_rule5_v p frozen, fun i hi hf => ?_⟩
    exact ⟨getD_keepFrozen (hwl ▸ hi) hf _, fun h1 => getD_keepFrozen (by simpa [hml, h1] using hi) hf _, fun _ h => absurd h5 h⟩
  · rw [updateWords_elementwise h5]
    have kept {i : Nat} (hi : i < g.length) (hf : frozen i = true) := getD_updatedElems_frozen d p x hi hf
    refine ⟨by simp, by simp [apply_ite List.length], fun _ => by simp [apply_ite List.length], fun h => absurd h h5, fun i hi hf => ?_⟩
    exact ⟨kept hi hf Elem.w, fun h1 => by rw [if_pos h1]; exact kept hi hf Elem.m, fun h2 _ => by rw [if_pos h2]; exact kept hi hf Elem.v⟩

end Sys2Proof.Machine
end

section
/-! The digest of a shard (R186): what one changed word does to it. -/

namespace Sys2Proof.Machine

/-- The words that the digest covers, in its order (R186). -/
def ShardWords.words (x : ShardWords) : List Nat := x.w ++ x.m ++ x.v

/-- What word `j` of a shard adds to its digest: its weight is odd (R186). -/
def digestTerm (x : ShardWords) (j : Nat) : Nat := x.words.getD j 0 * (2 * j + 1)

theorem digestOf_eq_sum (x : ShardWords) : digestOf x = (∑ j ∈ Finset.range x.words.length, digestTerm x j) % 2 ^ 64 := by
  have hterms : x.words.zipIdx.map (fun a => a.1 * (2 * a.2 + 1)) = (List.range x.words.length).map (digestTerm x) :=
    List.ext_getElem (by simp) (fun j hj _ => by simp at hj; simp [digestTerm, hj])
  exact congrArg (·.sum % 2 ^ 64) hterms

/-- The digest is the term of one word and a rest that the other words give. -/
theorem digestOf_eq_term_add {x : ShardWords} {i : Nat} (hi : i < x.words.length) :
    digestOf x = (digestTerm x i + ∑ j ∈ (Finset.range x.words.length).erase i, digestTerm x j) % 2 ^ 64 := by
  rw [digestOf_eq_sum, Finset.add_sum_erase _ (digestTerm x) (Finset.mem_range.2 hi)]

/-- An odd weight has an inverse modulo 2^64: products with it tell words of 32 bits apart. -/
theorem eq_of_oddWeight_modEq {a b i : Nat} (ha : a < 2 ^ 32) (hb : b < 2 ^ 32) (h : a * (2 * i + 1) ≡ b * (2 * i + 1) [MOD 2 ^ 64]) :
    a = b := by
  have hodd : Nat.gcd (2 ^ 64) (2 * i + 1) = 1 := Nat.Coprime.pow_left 64 (by simp)
  exact (Nat.ModEq.cancel_right_of_coprime hodd h).eq_of_lt_of_lt (by omega) (by omega)

/-- Settles O33: the rest of the sum is the same, and the weight of the changed word is odd. -/
theorem digestDetectsOneWord : Obligations.DigestDetectsOneWord := by
  unfold Obligations.DigestDetectsOneWord
  intro x y i hlen hi hrest hx hy hne heq
  have hsame : ∑ j ∈ (Finset.range x.words.length).erase i, digestTerm x j
      = ∑ j ∈ (Finset.range y.words.length).erase i, digestTerm y j :=
    Finset.sum_congr (congrArg (fun n => (Finset.range n).erase i) hlen)
      (fun j hj => congrArg (· * (2 * j + 1)) (hrest j (Finset.ne_of_mem_erase hj)))
  rw [digestOf_eq_term_add hi, digestOf_eq_term_add (lt_of_lt_of_eq hi hlen), hsame] at heq
  exact hne (eq_of_oddWeight_modEq hx hy (Nat.ModEq.add_right_cancel' _ heq))

end Sys2Proof.Machine
end

section
/-! The operations of the state engine, shard by shard: APPLY, CHECKPOINT, DIGEST_CHECK and REDERIVE (R176, R187 to R191). -/

namespace Sys2Proof.Machine

/-! ## A running operation goes on -/

theorem modifyFirst_of_find? {α : Type} {p : α → Bool} {l : List α} {x : α} (h : l.find? p = some x) (f : α → α) :
    modifyFirst p f l = modifyFirst p (fun _ => f x) l := by
  induction l with
  | nil => rfl
  | cons y l ih =>
    rw [List.find?_cons] at h
    cases hy : p y with
    | true =>
      simp only [hy, Option.some.injEq] at h
      subst h
      simp [modifyFirst, hy]
    | false =>
      simp only [hy] at h
      simp [modifyFirst, hy, ih h]

/-- A descriptor that is changed is replaced by what the change makes of it. -/
theorem modDesc_eq_putDesc {s : State} {r : Nat} {idx : W32} {d : Desc} (hd : s.desc? r idx = some d) (f : Desc → Desc) :
    s.modDesc r idx f = s.putDesc r idx (f d) := by
  rw [State.putDesc, State.modDesc, modifyFirst_of_find? hd]
  rfl

/-- A recursion over the fuel takes one turn of its body, which is given what the rest of the fuel does. -/
theorem brecOn_succ {σ : Type} (F : (n : Nat) → Nat.below (motive := fun _ => σ → σ) n → σ → σ) (n : Nat) (s : σ) :
    ∃ f : Nat.below (motive := fun _ => σ → σ) (n + 1), (∀ t, f.1 t = Nat.brecOn (motive := fun _ => σ → σ) n F t)
      ∧ Nat.brecOn (motive := fun _ => σ → σ) (n + 1) F s = F (n + 1) f s := ⟨_, fun _ => rfl, rfl⟩

/-- APPLY leaves the descriptors alone at a shard whose outcome does not match: it has read the shard's header, and no more. -/
theorem beside_of_applyShard_missed {s u : State} {x step : Nat} {skip : Bool} (h : s.applyShard x step skip = (u, .acted false)) :
    u.beside = s.beside := by
  unfold State.applyShard at h
  split at h
  · cases h
  next k _ =>
    split at h
    · split at h <;> cases h
      rfl
    · split at h
      · cases h
      next t hd hread =>
        suffices hu : u = t by rw [hu]; exact beside_of_eq hread (readHeader_beside ..)
        split at h
        · exact (Prod.mk.inj h).1.symm
        · split at h
          · split at h
            · exact (Prod.mk.inj h).1.symm
            · split at h <;> cases h
          · split at h <;> cases h

section
variable {s : State} {r : Nat} {idx : W32} {d : Desc} (h : Running s r idx d)
include h

/-- A command for an operation that runs takes the operation on. -/
theorem clocked_stateOp {op : Nat} (ho : d.op = op) : clocked 4 s (stateOp op r idx) = .next (s.runStateOp r idx) := by
  obtain ⟨hs, hd, hp⟩ := h
  simp [clocked_runs hs, stateOp, hd, hp, ho]

theorem runStateOp_apply (ho : d.op = 0x30) : s.runStateOp r idx = s.runApply r idx (d.count + 1) := by
  obtain ⟨-, hd, -⟩ := h
  simp [State.runStateOp, hd, ho]

theorem runStateOp_checkpoint (ho : d.op = 0x31) : s.runStateOp r idx = s.runCheckpoint r idx (d.count + 1) := by
  obtain ⟨-, hd, -⟩ := h
  simp [State.runStateOp, hd, ho]

theorem runStateOp_digestCheck (ho : d.op = 0x32) : s.runStateOp r idx = s.runDigestCheck r idx (d.count + 1) := by
  obtain ⟨-, hd, -⟩ := h
  simp [State.runStateOp, hd, ho]

theorem runStateOp_rederive (ho : d.op = 0x33) : s.runStateOp r idx = s.runRederive r idx (d.count + 1) := by
  obtain ⟨-, hd, -⟩ := h
  simp [State.runStateOp, hd, ho]

/-! ## APPLY (R176) -/

theorem runApply_end (n : Nat) (hpos : d.pos = d.count)
    (hall : (List.range d.count).all (fun i => s.outcomeDone (d.blk 0 4 + i) (d.blk 8 8)) = true) :
    s.runApply r idx (n + 1) = s.endDesc r idx (if s.applyUnits d = d.count then stOk else stPartial) (s.applyUnits d) := by
  obtain ⟨-, hd, hp⟩ := h
  rw [State.runApply]
  simp [-List.all_eq_true, hd, hp, hpos, hall]

/-- A shard on which APPLY has acted is passed, and is kept where its outcome does not match. -/
theorem runApply_acted (n : Nat) (hpos : d.pos < d.count) {u : State} {m : Bool}
    (ha : s.applyShard (d.blk 0 4 + d.pos) (d.blk 8 8) (d.blk 16 1 == 1) = (u, .acted m)) :
    s.runApply r idx (n + 1) = (u.modDesc r idx (fun e =>
      if e.phase == .running then { e with pos := e.pos + 1, missed := if m then e.missed else e.missed ++ [d.blk 0 4 + d.pos] }
      else e)).runApply r idx n := by
  obtain ⟨-, hd, hp⟩ := h
  rw [State.runApply]
  simp only [hd, hp, hpos, ha, bne_self_eq_false, Bool.false_eq_true, if_false, if_true]
  cases m with
  | true => rfl
  | false =>
    have hu : u.desc? r idx = some d := (desc?_of_beside (beside_of_applyShard_missed ha) r idx).trans hd
    rw [modDesc_eq_putDesc hu, modDesc_eq_putDesc hu]

/-! ## CHECKPOINT (R189, R190) -/

theorem runCheckpoint_end (n : Nat) (hpos : d.pos = d.count) : s.runCheckpoint r idx (n + 1) = s.endDesc r idx stOk d.units := by
  obtain ⟨-, hd, hp⟩ := h
  rw [State.runCheckpoint]
  simp [hd, hp, hpos]

/-- An ID without a shard is passed. -/
theorem runCheckpoint_absent (n : Nat) (hpos : d.pos < d.count) (hx : s.shard? (d.blk 0 4 + d.pos) = none) :
    s.runCheckpoint r idx (n + 1) = (s.putDesc r idx { d with pos := d.pos + 1 }).runCheckpoint r idx n := by
  obtain ⟨-, hd, hp⟩ := h
  rw [State.runCheckpoint]
  simp [hd, hp, hpos, hx, modDesc_eq_putDesc hd]

/-- A shard without an update up to the cut has its records written, block by block, and an update that waited for them starts. -/
theorem runCheckpoint_shard (n : Nat) (hpos : d.pos < d.count) {k : ShardDesc} {u v w : State} {hd : Header} {words : ShardWords}
    {bm : List Byte} {y : CkptRun} (hx : s.shard? (d.blk 0 4 + d.pos) = some k) (hread : s.readHeader k = (u, some hd))
    (hcut : (hd.ready k && hd.stagedStep ≤ d.blk 8 8 && !u.engine.errored.contains (d.blk 0 4 + d.pos)) = false)
    (hwords : u.readWords k k.home = (v, some words)) (hbm : v.engRead (k.header + 64) k.mapBytes = (w, some bm))
    (hrun : (List.range k.ckptBlocks).foldl (fun (c : CkptRun) b => c.block r d (d.blk 0 4 + d.pos) k hd words bm b)
      ⟨w, d.issued, d.units, none⟩ = y) (hstop : y.stop = none) :
    s.runCheckpoint r idx (n + 1) = (((y.s.modDesc r idx (fun e =>
      { e with pos := e.pos + 1, issued := y.used, units := y.records })).tryUpdate (d.blk 0 4 + d.pos)).runCheckpoint r idx n) := by
  obtain ⟨-, hdesc, hp⟩ := h
  rw [State.runCheckpoint]
  simp only [hdesc, hp, bne_self_eq_false, Bool.false_eq_true, if_false, if_neg (Nat.not_le.2 hpos), hx, hread, hcut, hwords, hbm, hrun,
    hstop]

/-! ## DIGEST_CHECK (R187) -/

omit h in
/-- One turn of DIGEST_CHECK. It stands for the equation lemma of `State.runDigestCheck`, in which the kernel compares two forms of the body by
evaluating the reads in it, the peer's address 2^60 and more among them, and runs out of stack. -/
theorem runDigestCheck_turn (s : State) (r : Nat) (idx : W32) (n : Nat) :
    ∃ f : Nat.below (motive := fun _ => State → State) (n + 1), (∀ t, f.1 t = t.runDigestCheck r idx n)
      ∧ s.runDigestCheck r idx (n + 1) = State.runDigestCheck._f r idx (n + 1) f s := by
  delta State.runDigestCheck
  exact brecOn_succ (State.runDigestCheck._f r idx) n s

theorem runDigestCheck_end (n : Nat) (hpos : d.pos = d.count) : s.runDigestCheck r idx (n + 1) =
    s.endDesc r idx (if d.issued ≠ 0 then stMismatch else if d.units < d.count then stPartial else stOk) d.units := by
  obtain ⟨-, hd, hp⟩ := h
  obtain ⟨f, hf, hturn⟩ := runDigestCheck_turn s r idx n
  rw [hturn]
  delta State.runDigestCheck._f
  simp [hd, hp, hpos]

/-- An ID without a shard is passed. -/
theorem runDigestCheck_absent (n : Nat) (hpos : d.pos < d.count) (hx : s.shard? (d.blk 0 4 + d.pos) = none) :
    s.runDigestCheck r idx (n + 1) = (s.putDesc r idx { d with pos := d.pos + 1 }).runDigestCheck r idx n := by
  obtain ⟨-, hd, hp⟩ := h
  obtain ⟨f, hf, hturn⟩ := runDigestCheck_turn s r idx n
  rw [hturn]
  delta State.runDigestCheck._f
  simp [hd, hp, Nat.not_le.2 hpos, hx, modDesc_eq_putDesc hd, hf]

/-- Equal digests of the step count as one unit. The turn is worked out for any function that reads, so that the kernel evaluates no read. -/
theorem runDigestCheck_equal (n : Nat) (hpos : d.pos < d.count) {k : ShardDesc} {u v : State} {l m : List Byte}
    (hx : s.shard? (d.blk 0 4 + d.pos) = some k) (hown : s.readRange (descWho r d) (.desc r idx) k.header 64 = (u, .bytes l))
    (hpeer : u.readRange (descWho r d) (.desc r idx) (2 ^ 60 + d.blk 4 2 % 4096 * 2 ^ 48 + k.header % 2 ^ 48) 64 = (v, .bytes m))
    (hl : (headerOf l).digestStep = d.blk 8 8) (hm : (headerOf m).digestStep = d.blk 8 8)
    (heq : (headerOf l).digest = (headerOf m).digest) :
    s.runDigestCheck r idx (n + 1) = (((v.dropFetched (.desc r idx)).modDesc r idx (fun e => { e with units := e.units + 1 })).modDesc r idx
      (fun e => { e with pos := e.pos + 1 })).runDigestCheck r idx n := by
  obtain ⟨-, hd, hp⟩ := h
  obtain ⟨f, hf, hturn⟩ := runDigestCheck_turn s r idx n
  rw [hturn]
  delta State.runDigestCheck._f
  generalize State.readRange = readRange at hown hpeer ⊢
  as_aux_lemma =>
    simp only [hd, hp, bne_self_eq_false, Bool.false_eq_true, if_false, if_neg (Nat.not_le.2 hpos), hx, hown, hpeer, hl, hm, ne_eq,
      not_true_eq_false, or_self, heq, if_true, hf]

/-! ## REDERIVE (R191) -/

theorem runRederive_end (n : Nat) (hpos : d.pos = d.count) : s.runRederive r idx (n + 1) = s.endDesc r idx stOk d.units := by
  obtain ⟨-, hd, hp⟩ := h
  rw [State.runRederive]
  simp [hd, hp, hpos]

/-- The working copies of an idle shard without a digest are written again from its master. -/
theorem runRederive_idle (n : Nat) (hpos : d.pos < d.count) {k : ShardDesc} {u v : State} {hd : Header} {words : ShardWords}
    (hx : s.shard? (d.blk 0 4 + d.pos) = some k) (hread : s.readHeader k = (u, some hd)) (hstaged : hd.staged = 0) (hstate : hd.state = 0)
    (hnone : u.engine.updates.any (fun e => e.shard == d.blk 0 4 + d.pos) = false) (hwords : u.readWords k k.home = (v, some words))
    (hdigest : k.digest = false) :
    s.runRederive r idx (n + 1) = ((((v.writeCopy k k.wc0 words.w (fun _ => false)).writeCopy k k.wc1 words.w (fun _ => false)).modDesc
      r idx (fun e => { e with pos := e.pos + 1, units := e.units + 1 })).runRederive r idx n) := by
  obtain ⟨-, hdesc, hp⟩ := h
  rw [State.runRederive]
  simp [-List.any_eq_false, hdesc, hp, Nat.not_le.2 hpos, hx, hread, hstaged, hstate, hnone, hwords, hdigest]

end

/-- Settles O29: a running operation is taken on by its own loop, whose next turn is the branch that the hypotheses select. -/
theorem stateOperationsComplete : Obligations.StateOperationsComplete := by
  unfold Obligations.StateOperationsComplete
  intro s r idx d h
  have apply {t : State} (ho : d.op = 0x30) (ht : s.runApply r idx (d.count + 1) = t) : exec (.apply r idx) s = .next t :=
    (clocked_stateOp h ho).trans (congrArg _ ((runStateOp_apply h ho).trans ht))
  have checkpoint {t : State} (ho : d.op = 0x31) (ht : s.runCheckpoint r idx (d.count + 1) = t) : exec (.checkpoint r idx) s = .next t :=
    (clocked_stateOp h ho).trans (congrArg _ ((runStateOp_checkpoint h ho).trans ht))
  have digestCheck {t : State} (ho : d.op = 0x32) (ht : s.runDigestCheck r idx (d.count + 1) = t) : exec (.digestCheck r idx) s = .next t :=
    (clocked_stateOp h ho).trans (congrArg _ ((runStateOp_digestCheck h ho).trans ht))
  have rederive {t : State} (ho : d.op = 0x33) (ht : s.runRederive r idx (d.count + 1) = t) : exec (.rederive r idx) s = .next t :=
    (clocked_stateOp h ho).trans (congrArg _ ((runStateOp_rederive h ho).trans ht))
  exact ⟨fun ho hpos hall => ⟨apply ho (runApply_end h _ hpos hall), rfl⟩,
    fun ho hpos => checkpoint ho (runCheckpoint_end h _ hpos),
    fun ho hpos => digestCheck ho (runDigestCheck_end h _ hpos),
    fun ho hpos => rederive ho (runRederive_end h _ hpos),
    fun u m ho hpos ha => apply ho (runApply_acted h _ hpos ha),
    fun ho hpos hx => checkpoint ho (runCheckpoint_absent h _ hpos hx),
    fun k u v w y hd words bm ho hpos hx hread hcut hwords hbm hrun hstop =>
      checkpoint ho (runCheckpoint_shard h _ hpos hx hread hcut hwords hbm hrun hstop),
    fun ho hpos hx => digestCheck ho (runDigestCheck_absent h _ hpos hx),
    fun k u v l m ho hpos hx hown hpeer hl hm heq => digestCheck ho (runDigestCheck_equal h _ hpos hx hown hpeer hl hm heq),
    fun k u v hd words ho hpos hx hread hstaged hstate hnone hwords hdigest =>
      rederive ho (runRederive_idle h _ hpos hx hread hstaged hstate hnone hwords hdigest)⟩

end Sys2Proof.Machine
end

section
/-! Rings and their descriptors: what each reads as after one of them is stored (R206, R212). -/

namespace Sys2Proof.Machine

/-- Ring `q` after one is stored. -/
theorem ring_setRing (s : State) (r q : Nat) (x : Ring) : (s.setRing r x).ring q = if q = r then x else s.ring q := kget_nset ..

@[simp] theorem ring_setRing_same (s : State) (r : Nat) (x : Ring) : (s.setRing r x).ring r = x := by rw [ring_setRing, if_pos rfl]

@[simp] theorem rget_setRing (s : State) (q : Nat) (x : Ring) (r : Reg) : (s.setRing q x).rget r = s.rget r := rfl
@[simp] theorem rf_setRing (s : State) (q : Nat) (x : Ring) (r : Reg) (f : Fld) : (s.setRing q x).rf r f = s.rf r f := rfl

theorem find?_modifyFirst {α : Type} {p : α → Bool} {f : α → α} {x : α} (hf : p (f x) = true) {l : List α} (h : l.find? p = some x) :
    (modifyFirst p f l).find? p = some (f x) := by
  induction l with
  | nil => simp at h
  | cons y l ih =>
    cases hy : p y with
    | true =>
      obtain rfl : y = x := by simpa [hy] using h
      simp [modifyFirst, hy, hf]
    | false => simpa [modifyFirst, hy] using ih (by simpa [hy] using h)

/-- The descriptor that an index names is live under that index. -/
theorem isLive_of_desc? {s : State} {r : Nat} {idx : W32} {d : Desc} (h : s.desc? r idx = some d) : d.isLive idx = true :=
  List.find?_some h

/-- A descriptor is named by its own index. -/
theorem idx_of_desc? {s : State} {r : Nat} {idx : W32} {d : Desc} (h : s.desc? r idx = some d) : d.idx = idx := by
  have := isLive_of_desc? h
  simp only [Desc.isLive, Bool.and_eq_true, beq_iff_eq] at this
  exact this.1

/-- A descriptor after a change that leaves it live. -/
theorem desc?_modDesc {s : State} {r : Nat} {idx : W32} {d : Desc} {f : Desc → Desc} (h : s.desc? r idx = some d)
    (hf : (f d).isLive idx = true) : (s.modDesc r idx f).desc? r idx = some (f d) := by
  rw [State.desc?, State.modDesc, ring_setRing_same]
  exact find?_modifyFirst hf h

end Sys2Proof.Machine
end

section
/-! The commands of a ring: commit, doorbell, stop, disable and the age watchdog (R207 to R210, R227, R228). -/

namespace Sys2Proof.Machine

/-! ## What a command leaves -/

/-- Setting a field leaves every other register. -/
theorem setF_leaves (s : State) (r : Reg) (f : Fld) (x : Nat) : ∀ q, q ∉ [r] → (s.setF r f x).rget q = s.rget q :=
  fun _ hq => rget_setF_ne _ _ _ _ _ (mt List.mem_singleton.mpr hq)

/-- The state of a ring once it is put in one. -/
theorem ringState_setRingState (s : State) (r x : Nat) : (s.setRingState r x).ringState r = x % 4 := rf_setF_same _ _ _ _ (by decide)

/-- Another field of RING.STATUS leaves the state of the ring. -/
theorem ringState_setF (s : State) (r x : Nat) {f : Fld} (hlo : 2 ≤ f.lo) (h : f.lo + f.width ≤ 64) :
    (s.setF (.ringStatus r) f x).ringState r = s.ringState r := rf_setF_ne _ _ _ _ _ _ h (.inr (.inl hlo))

/-- What a field of a register and a record that follows it show, where the record freezes nothing (R394). -/
theorem setF_report_shows {s : State} {r : Reg} {f : Fld} (x : Nat) {e : FaultRec} (hr : ∀ w, r ≠ .frzTrigger w)
    (hw : f.lo + f.width ≤ 64) (hf : s.frozen = false) (ht : s.triggers e.cls = false) :
    let t := (s.setF r f x).report e
    t.rf r f = x % 2 ^ f.width ∧ t.flt.net = s.flt.net ++ [{ e with time := s.now }] ∧ (∀ q, q ∉ [r] → t.rget q = s.rget q)
      ∧ { t with csr := s.csr, flt := s.flt } = s := by
  rw [report_noted (s := s.setF r f x) hf ((triggers_setF s f x e.cls (hr _)).trans ht)]
  exact ⟨rf_setF_same s r f x hw, rfl, setF_leaves s r f x, rfl⟩

/-! ## Registers put in force together (R11) -/

/-- Registers put in force one after the other: each register of the list has its staged value, every other its old one. -/
theorem aget_foldl_commitReg (l : List Reg) (s : State) (r : Reg) :
    (l.foldl State.commitReg s).aget r = if r ∈ l then s.rget r else s.aget r := by
  induction l generalizing s with
  | nil => rfl
  | cons a l ih =>
    rw [List.foldl_cons, ih, rget_commitReg, aget_commitReg]
    by_cases ha : r = a
    · subst ha; simp
    · simp [ha]

/-- Nothing else changes. -/
theorem foldl_commitReg_frame (l : List Reg) (s : State) :
    l.foldl State.commitReg s = { s with act := (l.foldl State.commitReg s).act } := by
  induction l generalizing s with
  | nil => rfl
  | cons a l ih => rw [List.foldl_cons, ih]; rfl

/-! ## Commit (R207) -/

/-- The registers whose fields a commit of a ring puts in force. -/
def ringStaged (r : Nat) : List Reg := [.ringBase r, .ringSize r, .ringJournalBase r, .ringCfg r, .ringHead r]

theorem ringCommitError_lt (s : State) (r : Nat) (arm : Bool) : s.ringCommitError r arm < 16 := by
  unfold State.ringCommitError; dsimp only; split_ifs <;> decide

theorem ringCommit_fails {s : State} {r : Nat} {arm : Bool} (h : s.ringCommitError r arm ≠ 0) :
    s.ringCommit r arm = s.setF (.ringStatus r) Fld.ringStatusCommitError (s.ringCommitError r arm) := by
  rw [State.ringCommit]; exact if_pos h

/-- A ring whose commit has passed: its code is shown, and the staged fields are in force. -/
def State.ringCommitted (s : State) (r : Nat) : State :=
  (ringStaged r).foldl State.commitReg (s.setF (.ringStatus r) Fld.ringStatusCommitError 0)

/-- What a passed commit shows and puts in force, and what it leaves, before a ring is armed. -/
theorem ringCommitted_shows (s : State) (r : Nat) :
    let u := s.ringCommitted r
    u.rf (.ringStatus r) Fld.ringStatusCommitError = 0 ∧ (∀ x, u.aget x = if x ∈ ringStaged r then s.rget x else s.aget x)
      ∧ u.ringState r = s.ringState r ∧ u.rings = s.rings ∧ (∀ x, x ∉ [.ringStatus r] → u.rget x = s.rget x)
      ∧ { u with csr := s.csr, act := s.act } = s := by
  have haget := aget_foldl_commitReg (ringStaged r) (s.setF (.ringStatus r) Fld.ringStatusCommitError 0)
  have hframe := foldl_commitReg_frame (ringStaged r) (s.setF (.ringStatus r) Fld.ringStatusCommitError 0)
  unfold State.ringCommitted
  generalize (ringStaged r).foldl State.commitReg _ = u at *
  have hcsr : u.csr = (s.setF (.ringStatus r) Fld.ringStatusCommitError 0).csr := by rw [hframe]
  refine ⟨?_, fun x => ?_, ?_, by rw [hframe]; rfl, fun x hx => ?_, by rw [hframe]; rfl⟩
  · exact (rf_of_csr hcsr ..).trans (rf_setF_same _ _ _ _ (by decide))
  · rw [haget]
    split
    next hx => exact rget_setF_ne _ _ _ _ _ (by rintro rfl; simp [ringStaged] at hx)
    next => rfl
  · exact (rf_of_csr hcsr ..).trans (ringState_setF s r 0 (by decide) (by decide))
  · rw [State.rget, hcsr]
    exact setF_leaves _ _ _ _ x hx

theorem ringCommit_passes {s : State} {r : Nat} {arm : Bool} (h : s.ringCommitError r arm = 0) :
    s.ringCommit r arm = if arm then ((s.ringCommitted r).setRingState r 1).setRing r { s.ring r with agedSeen := [] }
      else s.ringCommitted r := by
  simp only [State.ringCommit, h, ne_eq, not_true_eq_false, if_false]
  rfl

/-- What a passed commit shows and puts in force, and what it leaves. -/
theorem ringCommit_shows {s : State} {r : Nat} {arm : Bool} (h : s.ringCommitError r arm = 0) :
    let t := s.ringCommit r arm
    t.rf (.ringStatus r) Fld.ringStatusCommitError = 0 ∧ (∀ x, t.aget x = if x ∈ ringStaged r then s.rget x else s.aget x)
      ∧ t.ringState r = (if arm then 1 else s.ringState r) ∧ (t.ring r).descs = (s.ring r).descs
      ∧ (∀ x, x ∉ [.ringStatus r] → t.rget x = s.rget x) ∧ { t with csr := s.csr, act := s.act, rings := s.rings } = s := by
  obtain ⟨hcode, haget, hstate, hrings, hrest, hframe⟩ := ringCommitted_shows s r
  rw [ringCommit_passes h]
  generalize s.ringCommitted r = u at *
  have hframe : { u with csr := s.csr, act := s.act, rings := s.rings } = s := by rw [← hrings]; exact hframe
  cases arm with
  | false => exact ⟨hcode, haget, hstate, by rw [if_neg (by decide), State.ring, hrings, State.ring], hrest, hframe⟩
  | true =>
    rw [if_pos rfl, if_pos rfl]
    refine ⟨?_, haget, ?_, ?_, fun x hx => ?_, hframe⟩
    · rw [rf_setRing, State.setRingState, rf_setF_ne _ _ _ _ _ _ (by decide) (.inr (.inr (by decide))), hcode]
    · exact (rf_setRing ..).trans (ringState_setRingState u r 1)
    · rw [ring_setRing_same]
    · rw [rget_setRing, State.setRingState, setF_leaves _ _ _ _ x hx, hrest x hx]

/-! ## Doorbell (R208, R210) -/

theorem doorbell_current {s : State} {r : Nat} {tail : W32} (h : tail.toNat = s.ringTail r) : s.doorbell r tail = s := if_pos h

/-- A doorbell of a running ring that publishes descriptors, within the ring. -/
theorem doorbell_publishes {s : State} {r : Nat} {tail : W32} (hr : s.ringState r = 1)
    (hnew : idxSub (s.ringTail r) (s.ringHead r) < idxSub tail.toNat (s.ringHead r))
    (hfit : idxSub tail.toNat (s.ringHead r) ≤ 2 ^ s.ringRs r) :
    s.doorbell r tail = (s.setF (.ringTail r) Fld.ringTailTail tail.toNat).deferred r := by
  have hne : tail.toNat ≠ s.ringTail r := fun h => by rw [h] at hnew; exact lt_irrefl _ hnew
  rw [State.doorbell, if_neg hne, if_pos ⟨hr, hnew, hfit⟩]

/-- A doorbell that is out of range, or of a ring that does not run. -/
theorem doorbell_discarded {s : State} {r : Nat} {tail : W32} (hne : tail.toNat ≠ s.ringTail r)
    (h : s.ringState r ≠ 1 ∨ idxSub tail.toNat (s.ringHead r) ≤ idxSub (s.ringTail r) (s.ringHead r)
      ∨ 2 ^ s.ringRs r < idxSub tail.toNat (s.ringHead r)) :
    s.doorbell r tail = (s.setF (.ringStatus r) Fld.ringStatusDoorbellError 1).report (mkRec Cls.ringDoorbell 0 Kind.rings r) := by
  have hout : ¬(s.ringState r = 1 ∧ idxSub (s.ringTail r) (s.ringHead r) < idxSub tail.toNat (s.ringHead r)
      ∧ idxSub tail.toNat (s.ringHead r) ≤ 2 ^ s.ringRs r) := by
    rintro ⟨hr, hnew, hfit⟩
    omega
  rw [State.doorbell, if_neg hne, if_neg hout]

/-- TAIL after it is published. -/
theorem ringTail_publish (s : State) (r : Nat) (tail : W32) :
    (s.setF (.ringTail r) Fld.ringTailTail tail.toNat).ringTail r = tail.toNat :=
  (rf_setF_same _ _ _ _ (by decide)).trans (Nat.mod_eq_of_lt tail.isLt)

theorem deferred_withinCredit {s : State} {r : Nat} (h : (s.ring r).descs.length < s.af (.ringCfg r) Fld.ringCfgCredit) :
    s.deferred r = s := if_pos h

/-- A doorbell of a running ring that publishes within the ring's credit. -/
theorem doorbell_withinCredit {s : State} {r : Nat} {tail : W32} (hr : s.ringState r = 1)
    (hnew : idxSub (s.ringTail r) (s.ringHead r) < idxSub tail.toNat (s.ringHead r))
    (hfit : idxSub tail.toNat (s.ringHead r) ≤ 2 ^ s.ringRs r) (hc : (s.ring r).descs.length < s.af (.ringCfg r) Fld.ringCfgCredit) :
    s.doorbell r tail = s.setF (.ringTail r) Fld.ringTailTail tail.toNat :=
  (doorbell_publishes hr hnew hfit).trans (deferred_withinCredit hc)

/-- A publication beyond credit is counted, and has its entry if none was sent since the last admission and one fits (R210). -/
theorem deferred_beyondCredit {s : State} {r : Nat} (h : s.af (.ringCfg r) Fld.ringCfgCredit ≤ (s.ring r).descs.length) :
    let u := s.bumpF (.ringStats r) Fld.ringStatsDeferred 1
    s.deferred r = if (s.ring r).deferredSent || u.journalRoom r ≤ (s.ring r).reserved then u
      else (u.writeJournal r 0 (idxSub (u.ringTail r) (s.ringHead r)) s.now stDeferred 0 false false
        (BitVec.ofNat 32 (s.ringHead r))).setRing r { s.ring r with deferredSent := true } := if_neg (not_lt.mpr h)

/-- Room in the journal depends on its two indices and on its size in force. -/
theorem journalRoom_congr {s t : State} {r : Nat} (htail : t.rget (.ringJournalTail r) = s.rget (.ringJournalTail r))
    (hhead : t.rget (.ringJournalHead r) = s.rget (.ringJournalHead r)) (hact : t.act = s.act) : t.journalRoom r = s.journalRoom r := by
  have hjs : t.ringJs r = s.ringJs r := by rw [State.ringJs, State.af, State.aget, hact]; rfl
  rw [State.journalRoom, hjs, rf_congr htail, rf_congr hhead, State.journalRoom]

/-- The state once a publication beyond credit has been counted. -/
def State.doorbellCounted (s : State) (r : Nat) (tail : W32) : State :=
  (s.setF (.ringTail r) Fld.ringTailTail tail.toNat).bumpF (.ringStats r) Fld.ringStatsDeferred 1

theorem doorbellCounted_shows (s : State) (r : Nat) (tail : W32) :
    let u := s.doorbellCounted r tail
    u.ringTail r = tail.toNat ∧ u.rf (.ringStats r) Fld.ringStatsDeferred = satAdd 32 (s.rf (.ringStats r) Fld.ringStatsDeferred) 1
      ∧ u.rf (.ringStats r) Fld.ringStatsCompleted = s.rf (.ringStats r) Fld.ringStatsCompleted
      ∧ (∀ x, x ∉ [.ringTail r, .ringStats r] → u.rget x = s.rget x) ∧ SameButCsr s u := by
  have hstats (f : Fld) : (s.setF (.ringTail r) Fld.ringTailTail tail.toNat).rf (.ringStats r) f = s.rf (.ringStats r) f :=
    rf_congr (rget_setF_ne _ _ _ _ _ (by simp)) f
  refine ⟨?_, ?_, ?_, fun x hx => ?_, rfl⟩
  · exact (rf_congr (rget_setF_ne _ _ _ _ _ (by simp)) _).trans (ringTail_publish s r tail)
  · exact (rf_bumpF_same _ _ _ _ (by decide)).trans (by rw [hstats])
  · exact (rf_setF_ne _ _ _ _ _ _ (by decide) (.inr (.inr (by decide)))).trans (hstats _)
  · simp only [List.mem_cons, List.not_mem_nil, or_false, not_or] at hx
    exact (rget_setF_ne _ _ _ _ _ hx.2).trans (rget_setF_ne _ _ _ _ _ hx.1)

/-- A doorbell of a running ring that publishes beyond the ring's credit. -/
theorem doorbell_beyondCredit {s : State} {r : Nat} {tail : W32} (hr : s.ringState r = 1)
    (hnew : idxSub (s.ringTail r) (s.ringHead r) < idxSub tail.toNat (s.ringHead r))
    (hfit : idxSub tail.toNat (s.ringHead r) ≤ 2 ^ s.ringRs r) (hc : s.af (.ringCfg r) Fld.ringCfgCredit ≤ (s.ring r).descs.length) :
    s.doorbell r tail = if (s.ring r).deferredSent || s.journalRoom r ≤ (s.ring r).reserved then s.doorbellCounted r tail
      else ((s.doorbellCounted r tail).writeJournal r 0 (idxSub tail.toNat (s.ringHead r)) s.now stDeferred 0 false false
        (BitVec.ofNat 32 (s.ringHead r))).setRing r { s.ring r with deferredSent := true } := by
  obtain ⟨htail, -, -, hrest, -⟩ := doorbellCounted_shows s r tail
  have hroom : (s.doorbellCounted r tail).journalRoom r = s.journalRoom r :=
    journalRoom_congr (hrest _ (by simp)) (hrest _ (by simp)) rfl
  rw [doorbell_publishes hr hnew hfit, ← hroom]
  refine (deferred_beyondCredit (s := s.setF (.ringTail r) Fld.ringTailTail tail.toNat) hc).trans ?_
  rw [← State.doorbellCounted, htail]
  rfl

/-! ## Stopping (R227) -/

/-- STOP of a running ring: STOPPED at once where every descriptor has its journal entry. -/
theorem ringStop_running {s : State} {r : Nat} (h : s.ringState r = 1) :
    let t := s.ringStop r
    t.ringState r = (if (s.ring r).descs.all (fun d => d.phase == .journaled) then 3 else 2)
      ∧ t.rf (.ringStatus r) Fld.ringStatusStopCause = 0 ∧ (∀ x, x ∉ [.ringStatus r] → t.rget x = s.rget x) ∧ SameButCsr s t := by
  generalize hu : (s.setRingState r 2).setF (.ringStatus r) Fld.ringStatusStopCause 0 = u
  have hstate : u.ringState r = 2 := by
    rw [← hu, ringState_setF _ _ _ (by decide) (by decide), ringState_setRingState]
  have hcause : u.rf (.ringStatus r) Fld.ringStatusStopCause = 0 := by rw [← hu]; exact rf_setF_same _ _ _ _ (by decide)
  have hrest (x : Reg) (hx : x ∉ [.ringStatus r]) : u.rget x = s.rget x := by
    rw [← hu]; exact (setF_leaves _ _ _ _ x hx).trans (setF_leaves _ _ _ _ x hx)
  have hring : u.ring r = s.ring r := by rw [← hu]; rfl
  have hframe : SameButCsr s u := by rw [← hu]; rfl
  rw [State.ringStop, if_pos h, hu, State.ringSettle, hstate, hring]
  by_cases hall : (s.ring r).descs.all (fun d => d.phase == .journaled) = true
  · rw [if_pos ⟨rfl, hall⟩, if_pos hall]
    exact ⟨ringState_setRingState u r 3, (rf_setF_ne _ _ _ _ _ _ (by decide) (.inr (.inr (by decide)))).trans hcause,
      fun x hx => (setF_leaves _ _ _ _ x hx).trans (hrest x hx), hframe⟩
  · rw [if_neg (fun h => hall h.2), if_neg hall]
    exact ⟨hstate, hcause, hrest, hframe⟩

/-! ## The age watchdog (R228) -/

/-- The record of an aged descriptor (R397). -/
def State.agedRecord (s : State) (r : Nat) (d : Desc) : FaultRec :=
  { mkRec Cls.ringAge 0 Kind.rings r with desc := some (descRef r d), detail0 := BitVec.ofNat 64 (s.agePhase d) }

/-- The oldest admitted descriptor without a journal entry is reported once. -/
theorem ringAge_reports {s : State} {r : Nat} {d : Desc} (hd : (s.ring r).descs.find? (fun d => d.phase != .journaled) = some d)
    (hlimit : s.af .pipeAgeLimit Fld.pipeAgeLimitLimit ≠ 0) (hseen : d.idx ∉ (s.ring r).agedSeen) :
    s.ringAge r = ((s.setRing r { s.ring r with agedSeen := (s.ring r).agedSeen ++ [d.idx] }).setF (.ringStatus r)
      Fld.ringStatusAged 1).report (s.agedRecord r d) := by
  simp [State.ringAge, hd, hlimit, hseen, State.agedRecord, descRef]

/-! ## The obligation -/

/-- Settles O24: each command is the branch of its operation that the hypotheses select. -/
theorem ringCommandsComplete : Obligations.RingCommandsComplete := by
  unfold Obligations.RingCommandsComplete
  intro s r hs staged rest
  refine ⟨fun arm he => ?commitFails, fun arm he => ?commitPasses, fun tail hr hnew hfit hc => ?published,
    fun tail hr hnew hfit hc => ⟨fun hno => ?counted, fun hsent hroom => ?entered⟩, fun tail h => ?current,
    fun tail h hne ht => ?discarded, ?admitted, fun hr => ?stop, fun hr => ?disable, fun hr => ?disableHeld,
    fun d hd hlimit hseen ht => ?aged⟩
  case commitFails =>
    refine completes_clocked (f := fun s => s.ringCommit r arm) rfl hs ?_
    rw [ringCommit_fails he]
    exact ⟨(rf_setF_same _ _ _ _ (by decide)).trans (Nat.mod_eq_of_lt (ringCommitError_lt ..)), setF_leaves _ _ _ _, rfl⟩
  case commitPasses =>
    refine completes_clocked (f := fun s => s.ringCommit r arm) rfl hs ?_
    obtain ⟨hcode, haget, hstate, hdescs, hrest, hframe⟩ := ringCommit_shows he
    exact ⟨hcode, fun x hx => (haget x).trans (if_pos hx), fun x hx => (haget x).trans (if_neg hx), hstate, hdescs, hrest, hframe⟩
  case published =>
    refine completes_clocked (f := fun s => s.doorbell r tail) rfl hs ?_
    rw [doorbell_withinCredit hr hnew hfit hc]
    exact ⟨ringTail_publish s r tail, setF_leaves _ _ _ _, rfl⟩
  case counted =>
    refine completes_clocked (f := fun s => s.doorbell r tail) rfl hs ?_
    rw [doorbell_beyondCredit hr hnew hfit hc, if_pos (by simpa using hno)]
    exact doorbellCounted_shows s r tail
  case entered =>
    refine completes_clocked (f := fun s => s.doorbell r tail) rfl hs ?_
    rw [doorbell_beyondCredit hr hnew hfit hc, if_neg (by simp [hsent, hroom])]
    obtain ⟨htail, hcount, -, hrest, hframe⟩ := doorbellCounted_shows s r tail
    exact ⟨_, htail, hcount, hrest, hframe, rfl⟩
  case current => exact (clocked_runs hs (fun s => s.doorbell r tail)).trans (congrArg _ (doorbell_current h))
  case discarded =>
    refine completes_clocked (f := fun s => s.doorbell r tail) rfl hs ?_
    rw [doorbell_discarded hne h]
    exact setF_report_shows (s := s) 1 (by simp) (by decide) (not_frozen_of_runs hs) ht
  case admitted =>
    refine completes_clocked (f := State.admitCommit) rfl hs ?_
    have haget := aget_foldl_commitReg [.pipePrioWeight, .pipeAgeLimit] s
    refine ⟨(haget _).trans (if_pos (by simp)), (haget _).trans (if_pos (by simp)), fun x hw hl => ?_, rfl⟩
    exact (haget x).trans (if_neg (by simp [hw, hl]))
  case stop => exact completes_clocked (f := fun s => s.ringStop r) rfl hs (ringStop_running hr)
  case disable =>
    refine completes_clocked (f := fun s => s.ringDisable r) rfl hs ?_
    rw [State.ringDisable, if_pos hr]
    exact ⟨ringState_setRingState s r 0, setF_leaves _ _ _ _, rfl⟩
  case disableHeld => exact (clocked_runs hs (fun s => s.ringDisable r)).trans (congrArg _ (if_neg hr))
  case aged =>
    refine completes_clocked (f := fun s => s.ringAge r) rfl hs ?_
    rw [ringAge_reports hd hlimit hseen]
    generalize hx : ({ s.ring r with agedSeen := (s.ring r).agedSeen ++ [d.idx] } : Ring) = x
    obtain ⟨haged, hnet, hrest, hframe⟩ := setF_report_shows (s := s.setRing r x) (r := .ringStatus r) (f := Fld.ringStatusAged) 1
      (e := s.agedRecord r d) (by simp) (by decide) (not_frozen_of_runs (s := s) hs) ht
    generalize ((s.setRing r x).setF (.ringStatus r) Fld.ringStatusAged 1).report (s.agedRecord r d) = t at *
    have hring : t.ring r = x := (congrArg (fun u : State => u.ring r) hframe).trans (ring_setRing_same s r x)
    refine ⟨haged, ?_, ?_, ?_, hrest⟩
    · rw [hring, ← hx]; simp
    · rw [hring, ← hx]
    · rw [hnet, List.length_append]; rfl

end Sys2Proof.Machine
end

section
/-! Admission, journal entries and the signals of completions (R209, R211, R217 to R219). -/

namespace Sys2Proof.Machine

/-! ## Admission (R209) -/

/-- A descriptor as admission has read it. -/
def admittedDesc (idx : W32) (l : List Byte) : Desc :=
  { idx := idx, raw := toLine l, bad := false, phase := .admitted, headerOk := false, pegSeen := false, pegFault := false
    started := false, stopped := false, status := 0, units := 0, issued := 0, failAt := none, blockOk := false, block := 0, pos := 0
    missed := [], stashDone := false, ackTime := none }

/-- A ring that has admitted a descriptor. -/
def Ring.admitting (x : Ring) (d : Desc) : Ring := { x with descs := x.descs ++ [d], deferredSent := false }

/-- The descriptor at HEAD of the ring that the arbiter selects, once it is read, is in the tracker, and HEAD advances. -/
theorem admitNext_read {s u : State} {r : Nat} {a : Arbiter} {l : List Byte} (harb : s.arbitrate 9 s.arb = some (r, a))
    (hread : ({ s with arb := a } : State).winRead ⟨Kind.rings, r, 1, some ⟨r, BitVec.ofNat 32 (s.ringHead r), 0⟩⟩
      (s.slotAddr r (s.ringHead r)) 64 = (u, some l)) :
    let next := BitVec.ofNat 64 ((s.ringHead r + 1) % 2 ^ 32)
    s.admitNext = ((u.setRing r ((u.ring r).admitting (admittedDesc (BitVec.ofNat 32 (s.ringHead r)) l))).rset (.ringHead r) next).aset
      (.ringHead r) next := by
  have hhead : ({ s with arb := a } : State).ringHead r = s.ringHead r := rfl
  have hslot : ({ s with arb := a } : State).slotAddr r (s.ringHead r) = s.slotAddr r (s.ringHead r) := rfl
  simp only [State.admitNext, harb, hhead, hslot, hread]
  rfl

/-- HEAD in force after it has been given an index. -/
theorem ringHead_aset (s : State) (r : Nat) {i : Nat} (h : i < 2 ^ 32) : (s.aset (.ringHead r) (BitVec.ofNat 64 i)).ringHead r = i := by
  rw [State.ringHead, State.af, aget_aset, if_pos rfl, fieldOf, bitsOf, BitVec.toNat_ofNat]
  change i % 2 ^ 64 / 2 ^ 0 % 2 ^ 32 = i
  omega

/-! ## Journal entries (R217 to R219) -/

/-- A journal entry advances JOURNAL_TAIL. -/
theorem journalTail_writeJournal (s : State) (r : Nat) (cookie : W64) (units : Nat) (time : W64) (status op : Nat)
    (started stopped : Bool) (idx : W32) :
    (s.writeJournal r cookie units time status op started stopped idx).rf (.ringJournalTail r) Fld.ringJournalTailTail
      = (s.rf (.ringJournalTail r) Fld.ringJournalTailTail + 1) % 2 ^ 32 := rf_setF_same _ _ _ _ (by decide)

/-- The journal entry of a descriptor is written, and nothing is counted yet. -/
def State.journalEntry (s : State) (r : Nat) (d : Desc) : State :=
  (s.dropFetched (.desc r d.idx)).writeJournal r d.cookie (match d.failAt with | some x => min x d.units | none => d.units)
    (d.ackTime.getD s.now) d.status (if d.bad then 0 else d.op) d.started d.stopped d.idx

/-- Nothing but registers differs between two states, and JOURNAL_TAIL of ring `r` does not. -/
structure JournalKept (r : Nat) (s t : State) : Prop where
  frame : SameButCsr s t
  tail : t.rget (.ringJournalTail r) = s.rget (.ringJournalTail r)

theorem JournalKept.refl (r : Nat) (s : State) : JournalKept r s s := ⟨rfl, rfl⟩

theorem JournalKept.trans {r : Nat} {s t u : State} (h : JournalKept r s t) (h' : JournalKept r t u) : JournalKept r s u :=
  ⟨h.frame.trans h'.frame, h'.tail.trans h.tail⟩

theorem journalKept_setF (r : Nat) (s : State) {q : Reg} (f : Fld) (x : Nat) (h : .ringJournalTail r ≠ q) :
    JournalKept r s (s.setF q f x) := ⟨rfl, rget_setF_ne _ _ _ _ _ h⟩

theorem journalKept_bumpF (r : Nat) (s : State) {q : Reg} (f : Fld) (k : Nat) (h : .ringJournalTail r ≠ q) :
    JournalKept r s (s.bumpF q f k) := journalKept_setF r s f _ h

theorem journalKept_ringSettle (r : Nat) (s : State) (q : Nat) : JournalKept r s (s.ringSettle q) := by
  unfold State.ringSettle
  split
  · exact journalKept_setF _ _ _ _ (by simp)
  · exact .refl r s

/-- PIPE.STEPS counts a STEP that is journaled. -/
def State.countStep (s : State) (d : Desc) : State :=
  if d.bad || d.op != 0x10 then s
  else if d.status = stOk ∨ d.status = stEmpty then s.bumpF .pipeSteps Fld.pipeStepsDone 1
  else if d.status = stAborted then s.bumpF .pipeSteps Fld.pipeStepsAborted 1 else s

theorem journalKept_countStep (r : Nat) (s : State) (d : Desc) : JournalKept r s (s.countStep d) := by
  unfold State.countStep
  split_ifs
  · exact .refl r s
  · exact journalKept_bumpF _ _ _ _ (by simp)
  · exact journalKept_bumpF _ _ _ _ (by simp)
  · exact .refl r s

/-- Journaling a descriptor is its entry, the counts, the phase of the descriptor, and the state of its ring. -/
theorem journalDesc_eq (s : State) (r : Nat) (d : Desc) : ∃ u, JournalKept r (s.journalEntry r d) u
    ∧ s.journalDesc r d = (u.modDesc r d.idx (fun e => { e with phase := .journaled })).ringSettle r := by
  exact ⟨((s.journalEntry r d).bumpF (.ringStats r) Fld.ringStatsCompleted 1).countStep d,
    (journalKept_bumpF _ _ _ _ (by simp)).trans (journalKept_countStep ..), rfl⟩

/-- What journaling a descriptor leaves: the memory with the entry, JOURNAL_TAIL behind it, and the descriptor as journaled. -/
theorem journalDesc_leaves (s : State) (r : Nat) (d : Desc) :
    let w := s.journalEntry r d
    let t := s.journalDesc r d
    t.mem = w.mem ∧ t.rget (.ringJournalTail r) = w.rget (.ringJournalTail r)
      ∧ t.ring r = (w.modDesc r d.idx (fun e => { e with phase := .journaled })).ring r := by
  obtain ⟨u, ⟨hframe, htail⟩, heq⟩ := journalDesc_eq s r d
  dsimp only
  rw [heq]
  generalize s.journalEntry r d = w at *
  obtain ⟨hsettled, hsettledTail⟩ := journalKept_ringSettle r (u.modDesc r d.idx (fun e => { e with phase := .journaled })) r
  have hring : u.ring r = w.ring r := (congrArg (fun v : State => v.ring r) hframe :)
  refine ⟨?_, hsettledTail.trans htail, ?_⟩
  · exact (congrArg State.mem hsettled :).trans (congrArg State.mem hframe :)
  · refine (congrArg (fun v : State => v.ring r) hsettled :).trans ?_
    rw [State.modDesc, State.modDesc, ring_setRing_same, ring_setRing_same, hring]

/-- An ended descriptor whose writes are acknowledged is journaled if the journal has room. -/
theorem complete_ended {s : State} {r : Nat} {idx : W32} {d : Desc} (hd : s.desc? r idx = some d) (hphase : d.phase = .ended)
    (hquiet : s.descQuiet r d = true) (hroom : 0 < s.journalRoom r) : s.complete r idx = s.journalDesc r d := by
  simp [State.complete, hd, hphase, hquiet, hroom]

/-- The oldest completion that waits for room is the one that is completed. -/
theorem journalRoomAppears_oldest {s : State} {r : Nat} {d : Desc}
    (h : (s.ring r).descs.find? (fun d => d.phase == .ended && s.descQuiet r d) = some d) :
    s.journalRoomAppears r = s.complete r d.idx := by
  rw [State.journalRoomAppears, h]

/-! ## Signals (R217, R220) -/

theorem signalDesc_silent {s : State} {d : Desc} (h : d.noSignal = true) : s.signalDesc d = s := by simp [State.signalDesc, h]

/-- A journaled descriptor signals, and its tracker entry is free. -/
theorem completionSignal_journaled {s : State} {r : Nat} {idx : W32} {d : Desc}
    (h : (s.ring r).descs.find? (Desc.isJournaled idx) = some d) : s.completionSignal r idx
      = (s.signalDesc d).setRing r { (s.signalDesc d).ring r with
          descs := ((s.signalDesc d).ring r).descs.eraseP (Desc.isJournaled idx) } := by
  simp only [State.completionSignal, h]

/-! ## The obligation -/

/-- Settles O25: admission is `admitNext_read`, a journal entry leaves what `journalDesc_leaves` says, and a signal is followed by the
removal of its tracker entry. -/
theorem admissionAndCompletionComplete : Obligations.AdmissionAndCompletionComplete := by
  unfold Obligations.AdmissionAndCompletionComplete
  refine ⟨fun s u r a l hs harb hread => ?admission, fun s r d hs hd hphase hquiet hroom => ?completion, fun s r d hd => ?room,
    fun s r d hs hd => ?signal⟩
  case admission =>
    refine completes_clocked (f := State.admitNext) rfl hs ?_
    rw [admitNext_read harb hread]
    generalize hx : (u.ring r).admitting (admittedDesc (BitVec.ofNat 32 (s.ringHead r)) l) = x
    have hring (q : Nat) := ring_setRing u r q x
    refine ⟨ringHead_aset _ r (Nat.mod_lt _ (by decide)), rfl, ⟨admittedDesc (BitVec.ofNat 32 (s.ringHead r)) l, ?_, rfl, rfl, rfl, rfl, rfl⟩,
      fun q hq => (hring q).trans (if_neg hq), rfl⟩
    exact (congrArg Ring.descs ((hring r).trans (if_pos rfl))).trans (congrArg Ring.descs hx.symm)
  case completion =>
    refine completes_clocked (f := fun s => s.complete r d.idx) rfl hs ?_
    rw [complete_ended hd hphase hquiet hroom]
    obtain ⟨hmem, htail, hring⟩ := journalDesc_leaves s r d
    exact ⟨hmem, (rf_congr htail _).trans (journalTail_writeJournal ..), congrArg Ring.descs hring⟩
  case room =>
    change clocked 4 s (fun s => s.journalRoomAppears r) = clocked 4 s (fun s => s.complete r d.idx)
    simp only [clocked, journalRoomAppears_oldest hd]
  case signal =>
    refine completes_clocked (f := fun s => s.completionSignal r d.idx) rfl hs ?_
    rw [completionSignal_journaled hd]
    exact ⟨congrArg Ring.descs (ring_setRing_same ..), fun q hq => (ring_setRing ..).trans (if_neg hq), rfl, signalDesc_silent⟩

end Sys2Proof.Machine
end

section
/-! Updates of a peg (R221, R222): the value that it takes, and the tiles that wait for it. -/

namespace Sys2Proof.Machine

/-- A wait of a tile once it has seen value `v` of peg `p` (R222). -/
def PegWait.see (x : PegWait) (p : Nat) (v : W64) : PegWait := { x with seen := x.seen || (x.peg == p && pegCond x.cond v x.value) }

/-- Seeing a value twice is seeing it once. -/
theorem see_see (x : PegWait) (p : Nat) (v : W64) : (x.see p v).see p v = x.see p v := by simp [PegWait.see]

/-- A value of another peg, or one of which the condition does not hold, leaves a wait as it was. -/
theorem see_unmet {x : PegWait} {p : Nat} {v : W64} (h : (x.peg == p && pegCond x.cond v x.value) = false) : x.see p v = x := by
  rw [PegWait.see, h, Bool.or_false]

/-- A value of the peg of which the condition holds has been seen. -/
theorem see_met {x : PegWait} {p : Nat} {v : W64} (hp : x.peg = p) (hc : pegCond x.cond v x.value = true) :
    x.see p v = { x with seen := true } := by
  simp [PegWait.see, hp, hc]

/-- A tile that waits sees a value without the fault bit. -/
theorem pwait_wakeTile {s : State} {n : Nat} {x : PegWait} (hx : (s.tile n).pwait = some x) (p : Nat) {v : W64}
    (hv : pegFaulted v = false) : ((s.wakeTile p v n).tile n).pwait = some (x.see p v) := by
  simp only [State.wakeTile, hx, hv, Bool.false_eq_true, if_false]
  by_cases hp : x.peg = p
  · by_cases hc : pegCond x.cond v x.value = true
    · simp [hp, hc, see_met hp hc]
    · simp [hx, hp, hc, see_unmet (x := x) (p := p) (v := v) (by simp [hc])]
  · simp [hx, hp, see_unmet (x := x) (p := p) (v := v) (by simp [hp])]

/-- A value without the fault bit is seen by no other tile. -/
theorem tile_wakeTile_ne (s : State) (p : Nat) {v : W64} (hv : pegFaulted v = false) {n m : Nat} (h : m ≠ n) :
    (s.wakeTile p v n).tile m = s.tile m := by
  unfold State.wakeTile
  rw [hv]
  split
  · split
    · rfl
    · rw [if_neg Bool.false_ne_true]
      split
      · exact tile_modTile_ne _ _ _ _ h
      · rfl
  · rfl

/-- Of the tiles of a list each one that waits sees the value, however often it stands there. -/
theorem pwait_foldl_wakeTile (p : Nat) {v : W64} (hv : pegFaulted v = false) (n : Nat) (l : List Nat) {s : State} {x : PegWait}
    (hx : (s.tile n).pwait = some x) :
    ((l.foldl (fun s m => s.wakeTile p v m) s).tile n).pwait = some (if n ∈ l then x.see p v else x) := by
  induction l generalizing s x with
  | nil => exact hx
  | cons m l ih =>
    rw [List.foldl_cons]
    by_cases hm : n = m
    · subst hm
      rw [ih (pwait_wakeTile hx p hv), see_see]
      simp
    · rw [ih ((congrArg Tile.pwait (tile_wakeTile_ne s p hv hm)).trans hx)]
      simp [hm]

/-- A tile that waits is one of those that the device keeps. -/
theorem mem_tiles_of_pwait {s : State} {n : Nat} {x : PegWait} (hx : (s.tile n).pwait = some x) : n ∈ s.tiles.map Prod.fst := by
  by_contra h
  rw [State.tile, kget_of_notMem_keys _ _ _ h] at hx
  cases hx

/-- A tile that waits for a peg sees its new value, if that is without the fault bit (R222). -/
theorem pwait_wakeAll {s : State} {n : Nat} {x : PegWait} (hx : (s.tile n).pwait = some x) (p : Nat) {v : W64}
    (hv : pegFaulted v = false) : ((s.wakeAll p v).tile n).pwait = some (x.see p v) := by
  obtain ⟨-, htiles, -⟩ := wakeEngine_wakeSched_frame s p v
  unfold State.wakeAll
  extract_lets s1 s2
  have h1 : (s1.tile n).pwait = some x := by rw [State.tile, htiles]; exact hx
  have h3 : ((s2.rings.map Prod.fst).foldl (fun s r => s.wakeRing p v r) s2).tiles = s2.tiles :=
    foldl_tiles (f := fun s r => s.wakeRing p v r) (fun _ _ => rfl) _ _
  rw [State.tile, h3]
  exact (pwait_foldl_wakeTile p hv n _ h1).trans (congrArg some (if_pos (mem_tiles_of_pwait h1)))

/-- What an update of a peg without a mirror reaches: the value of that peg, and its waiters. -/
theorem pegApply_reaches {s : State} {p : Nat} (u : PegUpd) (h : s.rf (.pegMirror p) Fld.pegMirrorEnable = 0) :
    let v := u.apply (s.peg p)
    let t := s.pegApply p u
    t.peg p = v ∧ (∀ q, q ≠ p → t.peg q = s.peg q)
      ∧ (pegFaulted v = false → t.mem = s.mem ∧ (∀ r, r ≠ .pegValue p → t.rget r = s.rget r)
        ∧ ∀ n x, (s.tile n).pwait = some x → (t.tile n).pwait = some (x.see p v)) := by
  intro v t
  have ht : t = (s.rset (.pegValue p) v).wakeAll p v := pegApply_unmirrored u h
  rw [ht]
  obtain ⟨hpegs, hmem⟩ := pegsKept_wakeAll (s.rset (.pegValue p) v) p v
  refine ⟨(hpegs p).trans (rget_rset_same ..), fun q hq => (hpegs q).trans (rget_rset_ne _ _ _ _ (by simpa using hq)), fun hv => ?_⟩
  obtain ⟨hreg, -⟩ := tilesWoken_wakeAll (s.rset (.pegValue p) v) p hv
  exact ⟨hmem, fun r hr => (hreg r).trans (rget_rset_ne _ _ _ _ hr), fun n x hx => pwait_wakeAll (by rwa [tile_rset]) p hv⟩

/-- Settles O26: each command is one update of the peg, which reaches what `pegApply_reaches` says. -/
theorem pegUpdatesComplete : Obligations.PegUpdatesComplete := by
  unfold Obligations.PegUpdatesComplete
  intro s p hs hm reached added
  have hadd (n : BitVec 63) (f : Bool) : added n f = (PegUpd.add n f).apply (s.peg p) := by simp [added, PegUpd.apply]
  refine ⟨fun data => ?_, fun data => ?_, fun n f => ?_⟩
  · rw [hadd]
    exact completes_clocked (f := fun s => s.pegApply p (.add (data.setWidth 63) (data.getLsbD 63))) rfl hs (pegApply_reaches _ hm)
  · exact completes_clocked (f := fun s => s.pegApply p (.value data)) rfl hs (pegApply_reaches (.value data) hm)
  · rw [hadd]
    exact completes_clocked (f := fun s => s.pegApply p (.add n f)) rfl hs (pegApply_reaches _ hm)

end Sys2Proof.Machine
end

section
/-! The start of a descriptor (R215, R216): an engine that does not accept a start leaves it where it is. -/

namespace Sys2Proof.Machine

/-- A descriptor of count zero waits at its turn while its engine does not accept a start (R215). -/
theorem descriptorStart_waits {s : State} {r : RingId} {idx : W32} {d : Desc} (h : Startable s r idx d) (hreduce : d.op ≠ 0x20)
    (hfence : d.op ≠ 0) (hcount : d.count = 0) (hacc : s.accepts d.op = false) : exec (.descriptorStart r idx) s = .next s := by
  obtain ⟨hs, hd, hphase, horder, hcond, hheader⟩ := h
  have hbegin : s.beginOp r d = s := by simp [State.beginOp, hreduce, hfence, hacc]
  have hopen : s.openDesc r d = s := by simp [State.openDesc, State.openWait, State.openBlock, Desc.hasBlock, hheader, hcond, hcount, hbegin]
  refine (clocked_runs hs (fun s => s.startIf r idx (fun _ => true))).trans (congrArg _ ?_)
  simp [State.startIf, hd, hphase, horder, hopen]

/-- A descriptor that is replaced by one that has ended is no longer an admitted one. -/
theorem putDesc_ended_ne {s : State} {r : Nat} {idx : W32} {d e : Desc} (hd : s.desc? r idx = some d) (hphase : d.phase = .admitted)
    (hidx : e.idx = d.idx) (hended : e.phase = .ended) : s.putDesc r idx e ≠ s := by
  intro h
  have hlive : e.isLive idx = true := by simp [Desc.isLive, hidx, hended, idx_of_desc? hd]
  have he : (s.putDesc r idx e).desc? r idx = some e := desc?_modDesc (f := fun _ => e) hd hlive
  rw [h, hd, Option.some.injEq] at he
  rw [← he, hphase] at hended
  cases hended

/-- An admitted APPLY of no shard whose header has been checked. -/
def emptyApply : Desc :=
  { idx := 0, raw := BitVec.ofNat 512 (0x30 + 2 * 2 ^ 8), bad := false, phase := .admitted, headerOk := true, pegSeen := false
    pegFault := false, started := false, stopped := false, status := 0, units := 0, issued := 0, failAt := none, blockOk := false
    block := 0, pos := 0, missed := [], stashDone := false, ackTime := none }

/-- Ring 0 holds it, D0 to D8 are released, and STATE.CTRL.enable is 0 in force, as after reset. -/
def emptyApplyHeld : State := { State.reset with csr := [(.rstDomains, 0x1FF)], rings := [(0, ⟨[emptyApply], false, []⟩)] }

/-- Refutes O27: a count of zero does not exempt a start from the acceptance of its engine (R215, R216). An APPLY of no shard waits while the
state engine is not enabled, and does not complete with EMPTY. -/
theorem not_descriptorsStart : ¬ Obligations.DescriptorsStart := by
  unfold Obligations.DescriptorsStart
  rintro ⟨-, hempty, -⟩
  have hstart : Startable emptyApplyHeld (0 : RingId) 0 emptyApply := by unfold Startable; decide +kernel
  have hcount : emptyApply.count = 0 := by decide +kernel
  have hop : emptyApply.op = 0x30 := by decide +kernel
  obtain ⟨hdone, -⟩ := hempty emptyApplyHeld 0 0 emptyApply hstart (by rw [hop]; decide) hcount
  have hwaits := descriptorStart_waits hstart (by rw [hop]; decide) (by rw [hop]; decide) hcount (by decide +kernel)
  obtain ⟨-, hdesc, hphase, -⟩ := hstart
  exact absurd (Host.Outcome.next.inj (hdone.symm.trans hwaits)) (putDesc_ended_ne hdesc hphase rfl rfl)

end Sys2Proof.Machine
end

section
/-! COPY and FILL, line by line (R229). -/

namespace Sys2Proof.Machine

/-- The state after a line of COPY or FILL of `n` bytes has been written: the operation goes on, or ends with OK. -/
def State.lineMoved (s : State) (r : Nat) (d : Desc) (n : Nat) : State :=
  if d.issued + n = d.count then (s.modDesc r d.idx (fun e => { e with issued := d.count })).endDesc r d.idx stOk d.count
  else s.modDesc r d.idx (fun e => { e with issued := d.issued + n })

/-- A command for one line of a running COPY or FILL. -/
theorem copyLines_one {s : State} {r : Nat} {idx : W32} {d : Desc} {op : Nat} (h : Running s r idx d) (hf : d.failAt = none)
    (ho : d.op = op) : s.copyLines r idx op 1 = s.copyLine r d (lineBytes d.block) := by
  obtain ⟨-, hd, hp⟩ := h
  simp [State.copyLines, hd, hp, hf, ho]

section
variable {s v : State} {r : Nat} {d : Desc} {blk : List Byte} {a n : Nat}

/-- A line of COPY that has been read and written. -/
theorem copyLine_copy {u : State} {l : List Byte} (ho : d.op = 1) (ha : (leNat ((blk.drop 8).take 8) + d.issued) % 2 ^ 64 = a)
    (hn : min (64 - a % 64) (d.count - d.issued) = n)
    (hread : s.readRange (descWho r d) (.desc r d.idx) ((leNat (blk.take 8) + d.issued) % 2 ^ 64) n = (u, .bytes l))
    (hwrite : (u.dropFetched (.desc r d.idx)).writeAt (descWho r d) (.desc r d.idx) VC.bulk a l d.issued = (v, true)) :
    s.copyLine r d blk = v.lineMoved r d n := by
  subst ha hn
  simp only [State.copyLine, if_pos ho, hread, hwrite, State.lineMoved]

/-- A line of FILL that has been written. -/
theorem copyLine_fill (ho : d.op ≠ 1) (ha : (leNat (blk.take 8) + d.issued) % 2 ^ 64 = a)
    (hn : min (64 - a % 64) (d.count - d.issued) = n)
    (hwrite : (s.dropFetched (.desc r d.idx)).writeAt (descWho r d) (.desc r d.idx) VC.bulk a
      ((List.range n).map (fun i => ((blk.drop 8).take 8).getD ((d.issued + i) % 8) 0)) d.issued = (v, true)) :
    s.copyLine r d blk = v.lineMoved r d n := by
  subst ha hn
  simp only [State.copyLine, if_neg ho, hwrite, State.lineMoved]

end

/-- Settles O28: a command of one line is `copyLine_copy` or `copyLine_fill`, and a line that is not the last leaves its descriptor live. -/
theorem copyAndFillMoveLines : Obligations.CopyAndFillMoveLines := by
  unfold Obligations.CopyAndFillMoveLines
  intro s r idx d h hf _ blk o src dst n moved
  obtain ⟨hs, hd, -⟩ := id h
  obtain rfl := idx_of_desc? hd
  refine ⟨fun u v l ho hread hwrite => ?copy, fun v ho hwrite => ?fill, fun v e he hgo => ?goesOn⟩
  case copy =>
    have hdst : (leNat ((blk.drop 8).take 8) + d.issued) % 2 ^ 64 = dst := by simp only [dst, if_pos ho]
    calc exec (.copy r d.idx 1) s
      _ = .next (s.copyLines r d.idx 1 1) := clocked_runs hs (fun s => s.copyLines r d.idx 1 1)
      _ = .next (s.copyLine r d blk) := congrArg _ (copyLines_one h hf ho)
      _ = .next (moved v) := congrArg _ (copyLine_copy ho hdst rfl hread hwrite)
  case fill =>
    have hne : d.op ≠ 1 := by rw [ho]; decide
    have hdst : (leNat (blk.take 8) + d.issued) % 2 ^ 64 = dst := by simp only [dst, if_neg hne]
    calc exec (.fill r d.idx 1) s
      _ = .next (s.copyLines r d.idx 2 1) := clocked_runs hs (fun s => s.copyLines r d.idx 2 1)
      _ = .next (s.copyLine r d blk) := congrArg _ (copyLines_one h hf ho)
      _ = .next (moved v) := congrArg _ (copyLine_fill hne hdst rfl hwrite)
  case goesOn =>
    rw [show moved v = v.modDesc r d.idx (fun e => { e with issued := d.issued + n }) from if_neg hgo.ne]
    have hlive : ({ e with issued := d.issued + n } : Desc).isLive d.idx = true := (isLive_of_desc? he :)
    exact desc?_modDesc (f := fun e => { e with issued := d.issued + n }) he hlive

end Sys2Proof.Machine
end

section
/-! Operations that change registers and no other part of the state, and a record that is reported after them (R394). -/

namespace Sys2Proof.Machine

/-- Between two states only registers differ, and of those none but `l`. -/
structure RegsOnly (l : List Reg) (s t : State) : Prop where
  frame : t = { s with csr := t.csr }
  rget : ∀ r, r ∉ l → t.rget r = s.rget r

theorem RegsOnly.trans {l : List Reg} {s t u : State} (hst : RegsOnly l s t) (htu : RegsOnly l t u) : RegsOnly l s u where
  frame := htu.frame.trans (congrArg (fun x : State => { x with csr := u.csr }) hst.frame)
  rget r hr := (htu.rget r hr).trans (hst.rget r hr)

theorem regsOnly_setF {l : List Reg} {r : Reg} (s : State) (f : Fld) (x : Nat) (h : r ∈ l) : RegsOnly l s (s.setF r f x) :=
  ⟨rfl, fun _ hq => rget_setF_ne _ _ _ _ _ (fun he => hq (he ▸ h))⟩

theorem rget_of_csr {s t : State} (h : t.csr = s.csr) (r : Reg) : t.rget r = s.rget r := by rw [State.rget, h, State.rget]

theorem RegsOnly.mc {l : List Reg} {s t : State} (h : RegsOnly l s t) (k : Nat) : t.mc k = s.mc k :=
  congrArg (kget MemCtl.reset · k) (congrArg State.mcs h.frame :)

/-- A freeze is triggered by the same classes unless FRZ.TRIGGER is among the registers. -/
theorem RegsOnly.triggers {l : List Reg} {s t : State} (h : RegsOnly l s t) (cls : Nat) (hl : .frzTrigger (cls / 64) ∉ l) :
    t.triggers cls = s.triggers cls := by
  rw [State.triggers, h.rget _ hl, State.triggers]

theorem mc_withFlt (s : State) (x : Collector) (k : Nat) : ({ s with flt := x } : State).mc k = s.mc k := rfl

/-- A record that is reported once registers have changed, and that freezes nothing, is under way to the collector (R394). -/
theorem RegsOnly.report {l : List Reg} {s v t : State} {x : FaultRec} (hv : RegsOnly l s v) (hl : .frzTrigger (x.cls / 64) ∉ l)
    (hf : s.frozen = false) (ht : s.triggers x.cls = false) (h : v.report x = t) :
    (∀ k, t.mc k = s.mc k) ∧ (∀ r, t.rget r = v.rget r) ∧ t.flt.net = s.flt.net ++ [{ x with time := s.now }] ∧ t.mem = s.mem := by
  have hfrozen : v.frozen = false := (congrArg State.frozen hv.frame :).trans hf
  have hnow : v.now = s.now := congrArg (fun n => BitVec.ofNat 64 (n / 2 ^ 40)) (congrArg State.stn hv.frame :)
  have hflt : v.flt = s.flt := (congrArg State.flt hv.frame :)
  rw [report_noted hfrozen ((hv.triggers _ hl).trans ht), hnow, hflt] at h
  subst h
  exact ⟨fun k => (mc_withFlt ..).trans (hv.mc k), fun r => rget_withFlt .., rfl, (congrArg State.mem hv.frame :)⟩

/-! Storing a controller leaves the registers. -/
theorem rget_setMc (s : State) (j : Nat) (x : MemCtl) (r : Reg) : (s.setMc j x).rget r = s.rget r := rfl
theorem rf_setMc (s : State) (j : Nat) (x : MemCtl) (r : Reg) (f : Fld) : (s.setMc j x).rf r f = s.rf r f := rfl

/-- Setting a field and storing a controller changes registers and controllers alone. -/
theorem setF_setMc_frame (s : State) (r : Reg) (f : Fld) (x : Nat) (j : Nat) (m : MemCtl) :
    { (s.setF r f x).setMc j m with csr := s.csr, mcs := s.mcs } = s := rfl

end Sys2Proof.Machine
end

section
/-! The check cache, the watermark and the write-back of corrected lines (R233, R239, R240). -/

namespace Sys2Proof.Machine

/-! ## The check cache (R233) -/

/-- Only the check caches and the uncorrectable words differ between two states, and no word has ceased to be uncorrectable (R233, R241). -/
structure ChecksOnly (s t : State) : Prop where
  frame : t = { s with ue := t.ue, mcs := t.mcs }
  mc : ∀ k, t.mc k = { s.mc k with check := (t.mc k).check }
  ue : ∀ w ∈ s.ue, w ∈ t.ue

theorem ChecksOnly.refl (s : State) : ChecksOnly s s := ⟨rfl, fun _ => rfl, fun _ h => h⟩

theorem ChecksOnly.trans {s t u : State} (hst : ChecksOnly s t) (htu : ChecksOnly t u) : ChecksOnly s u where
  frame := htu.frame.trans (congrArg (fun x : State => { x with ue := u.ue, mcs := u.mcs }) hst.frame)
  mc k := (htu.mc k).trans (congrArg (fun x : MemCtl => { x with check := (u.mc k).check }) (hst.mc k))
  ue w h := htu.ue w (hst.ue w h)

/-- A fold of steps that change only them. -/
theorem ChecksOnly.foldl {α : Type} {f : State → α → State} (hf : ∀ s a, ChecksOnly s (f s a)) (l : List α) (s : State) :
    ChecksOnly s (l.foldl f s) := by
  induction l generalizing s with
  | nil => exact .refl s
  | cons a l ih => exact (hf s a).trans (ih _)

/-- A number put in a list is there beside those that were. -/
theorem mem_setIns (x w : Nat) (l : List Nat) : w ∈ setIns x l ↔ w = x ∨ w ∈ l := by
  induction l with
  | nil => simp [setIns]
  | cons y l ih =>
    unfold setIns
    split_ifs with hlt heq
    · simp
    · subst heq; simp
    · simp [ih, or_left_comm]

/-- Words that become uncorrectable join those that are. -/
theorem mem_loseWords (s : State) (l : List Nat) (w : Nat) : w ∈ (s.loseWords l).ue ↔ w ∈ l ∨ w ∈ s.ue := by
  change w ∈ l.foldl (fun u w => setIns w u) s.ue ↔ _
  generalize s.ue = u
  induction l generalizing u with
  | nil => simp
  | cons x l ih => simp [ih, mem_setIns, or_left_comm, or_assoc]

theorem checksOnly_loseWords (s : State) (l : List Nat) : ChecksOnly s (s.loseWords l) :=
  ⟨rfl, fun _ => rfl, fun w h => (mem_loseWords s l w).mpr (.inr h)⟩

/-- Another check cache for one home. -/
theorem checksOnly_setMc (s : State) (h : Nat) (c : List CheckUnit) : ChecksOnly s (s.setMc h { s.mc h with check := c }) := by
  refine ⟨rfl, fun k => ?_, fun w hw => hw⟩
  by_cases hk : k = h
  · subst hk; simp
  · simp [mc_setMc_ne _ _ _ _ hk]

theorem checksOnly_checkEvict (s : State) (h : Nat) (e : CheckUnit) : ChecksOnly s (s.checkEvict h e) := by
  unfold State.checkEvict
  split
  · exact .refl s
  · exact checksOnly_loseWords ..

theorem checksOnly_checkUse (s : State) (h ch j : Nat) (write : Bool) (u : Nat) : ChecksOnly s (s.checkUse h ch j write u) :=
  (checksOnly_setMc ..).trans (.foldl (fun s e => checksOnly_checkEvict s h e) _ _)

/-- An access to a line of DRAM changes only the check cache, and words that its check units lose (R233). -/
theorem checksOnly_checkAccess (s : State) (la : Nat) (write : Bool) : ChecksOnly s (s.checkAccess la write) :=
  .foldl (fun s u => checksOnly_checkUse s _ _ _ write u) _ _

theorem checksOnly_checkRewrite (s : State) (la : Nat) : ChecksOnly s (s.checkRewrite la) := checksOnly_setMc ..

/-! ## The watermark (R239) -/

/-- Where a local offset lies in the windows is in the registers. -/
theorem homeOf_congr {s t : State} (h : t.rget (.lpmcPop 0) = s.rget (.lpmcPop 0)) (a : Nat) : t.homeOf a = s.homeOf a := by
  simp only [State.homeOf, State.lpFull, rf_congr h]

theorem homeOf_of_csr {s t : State} (h : t.csr = s.csr) (a : Nat) : t.homeOf a = s.homeOf a := homeOf_congr (rget_of_csr h _) a

theorem channelLine_of_csr {s t : State} (h : t.csr = s.csr) (a : Nat) : t.channelLine a = s.channelLine a := by
  simp only [State.channelLine, State.lpFull, rf_of_csr h]

/-- Whether a line lies above the watermark is in the registers, the watermarks and the groups that writes have initialised. -/
theorem above_congr {s t : State} (hcsr : t.csr = s.csr) (hmark : ∀ k, (t.mc k).watermark = (s.mc k).watermark)
    (hinit : ∀ k, (t.mc k).inited = (s.mc k).inited) (la : Nat) : t.above la = s.above la := by
  simp only [State.above, State.aboveMark, homeOf_of_csr hcsr, channelLine_of_csr hcsr, rf_of_csr hcsr, hmark, hinit]

theorem ChecksOnly.csr {s t : State} (h : ChecksOnly s t) : t.csr = s.csr := (congrArg State.csr h.frame :)
theorem ChecksOnly.homes {s t : State} (h : ChecksOnly s t) : t.homes = s.homes := (congrArg State.homes h.frame :)

theorem ChecksOnly.above {s t : State} (h : ChecksOnly s t) (la : Nat) : t.above la = s.above la :=
  above_congr h.csr (fun k => (congrArg MemCtl.watermark (h.mc k) :)) (fun k => (congrArg MemCtl.inited (h.mc k) :)) la

theorem initGroup_of_below {s : State} {la : Nat} (h : s.above la = false) : s.initGroup la = s := by simp [State.initGroup, h]

/-- The controllers beside their check caches are as they were when a check group is written with zeros. -/
theorem mc_zeroGroup (s : State) (h ch g k : Nat) :
    (s.zeroGroup h ch g).mc k = { s.mc k with check := ((s.zeroGroup h ch g).mc k).check } := (checksOnly_setMc s h _).mc k

/-- A line whose check group has been initialised is above the mark no longer. -/
theorem above_of_inited {s : State} {la : Nat}
    (h : ((s.channelLine la).1, (s.channelLine la).2 / 32) ∈ (s.mc (s.homeOf la)).inited) : s.above la = false := by
  simp [State.above, State.aboveMark, h]

/-- The first write to a check group above the watermark initialises it, and no list of corrected lines changes. -/
theorem initGroup_of_above {s : State} {la : Nat} (h : s.above la = true) :
    (s.initGroup la).above la = false ∧ ∀ k, ((s.initGroup la).mc k).writeBack = (s.mc k).writeBack := by
  have hcsr : (s.initGroup la).csr = s.csr := by simp [State.initGroup, h, State.zeroGroup]
  refine ⟨above_of_inited ?_, fun k => ?_⟩
  · rw [channelLine_of_csr hcsr, homeOf_of_csr hcsr]
    simp [State.initGroup, h]
  · have hk := congrArg MemCtl.writeBack (mc_zeroGroup s (s.homeOf la) (s.channelLine la).1 ((s.channelLine la).2 / 32) k)
    simp only [State.initGroup, h, if_true, mc_setMc]
    split
    next he => subst he; exact hk
    · exact hk

/-! ## Write-backs of corrected lines (R240) -/

/-- The state of a home that has taken its oldest corrected line, `rest` being the others. -/
def State.takeLine (s : State) (h : Nat) (rest : List Nat) : State := s.setMc h { s.mc h with writeBack := rest }

/-- Taking a line changes no more of a controller than its list. -/
theorem mc_takeLine (s : State) (h : Nat) (rest : List Nat) (k : Nat) :
    (s.takeLine h rest).mc k = { s.mc k with writeBack := ((s.takeLine h rest).mc k).writeBack } := by
  simp only [State.takeLine, mc_setMc]
  split
  next hk => rw [hk]
  · rfl

theorem above_takeLine (s : State) (h : Nat) (rest : List Nat) (la : Nat) : (s.takeLine h rest).above la = s.above la :=
  above_congr (s := s) (t := s.takeLine h rest) rfl (fun k => (congrArg MemCtl.watermark (mc_takeLine s h rest k) :))
    (fun k => (congrArg MemCtl.inited (mc_takeLine s h rest k) :)) la

theorem checkLost_takeLine (s : State) (h : Nat) (rest : List Nat) (la : Nat) : (s.takeLine h rest).checkLost la = s.checkLost la := by
  have hcheck (k : Nat) : ((s.takeLine h rest).mc k).check = (s.mc k).check := (congrArg MemCtl.check (mc_takeLine s h rest k) :)
  have hcsr : (s.takeLine h rest).csr = s.csr := rfl
  simp only [State.checkLost, channelLine_of_csr hcsr, homeOf_of_csr hcsr, hcheck]

/-- A read of a line of DRAM finds the words whose check bits are lost (R233). -/
theorem mem_scrubUe_of_checkLost {s : State} {la w : Nat} (h : w ∈ s.checkLost la) : w ∈ s.scrubUe la := by
  by_cases hu : w ∈ s.ueIn la 64
  · exact List.mem_append.mpr (.inl hu)
  · exact List.mem_append.mpr (.inr (List.mem_filter.mpr ⟨h, by simpa using hu⟩))

/-- A line is written to DRAM with fresh check bits: its single-bit errors end, and the words `lost` are uncorrectable from then on. -/
def State.rewriteLine (s : State) (la : Nat) (lost : List Nat) : State :=
  let t := (s.initGroup la).checkAccess la true
  ({ t with ce := t.ce.filter (fun w => !(wordsOf la 64).contains w) } : State).loseWords lost

/-- What a home's system-level cache holds of a line is in the homes and the registers. -/
theorem slcCopy_congr {s t : State} (hcsr : t.csr = s.csr) (hh : t.homes = s.homes) (la : Nat) : t.slcCopy la = s.slcCopy la := by
  simp only [State.slcCopy, State.home, hh, homeOf_of_csr hcsr]

theorem initGroup_csr (s : State) (la : Nat) : (s.initGroup la).csr = s.csr := by unfold State.initGroup; split <;> rfl
theorem initGroup_homes (s : State) (la : Nat) : (s.initGroup la).homes = s.homes := by unfold State.initGroup; split <;> rfl

theorem slcCopy_rewriteLine (s : State) (la : Nat) (lost : List Nat) : (s.rewriteLine la lost).slcCopy la = s.slcCopy la :=
  have hc := checksOnly_checkAccess (s.initGroup la) la true
  slcCopy_congr (hc.csr.trans (initGroup_csr s la)) (hc.homes.trans (initGroup_homes s la)) la

/-- The words of a line that are lost, as its home takes it from its list. -/
def State.lostWords (s : State) (la : Nat) : List Nat := if s.above la then [] else s.scrubUe la

/-- A write-back rewrites the line, and then changes at most the line's copy in the system-level cache. -/
theorem lineWriteBack_eq {s : State} {h la : Nat} {rest : List Nat} (hw : (s.mc h).writeBack = la :: rest) :
    ∃ x, s.lineWriteBack h = { (s.takeLine h rest).rewriteLine la ((s.takeLine h rest).lostWords la) with homes := x }
      ∧ (s.slcCopy la = none → x = ((s.takeLine h rest).rewriteLine la ((s.takeLine h rest).lostWords la)).homes) := by
  have hslc : ((s.takeLine h rest).rewriteLine la ((s.takeLine h rest).lostWords la)).slcCopy la = s.slcCopy la :=
    (slcCopy_rewriteLine ..).trans (slcCopy_congr rfl rfl la)
  have heq : s.lineWriteBack h = (let u := (s.takeLine h rest).rewriteLine la ((s.takeLine h rest).lostWords la)
      if (u.slcCopy la).isSome then u.modSlc la (fun e => { e with ce := 0 }) else u) := by
    unfold State.lineWriteBack
    simp only [hw]
    rfl
  simp only [heq, hslc]
  cases s.slcCopy la with
  | none => exact ⟨_, rfl, fun _ => rfl⟩
  | some e => exact ⟨_, rfl, by simp⟩

/-- A line below the watermark is written back (R240): its single-bit marks end, and the words that its check bits have lost are
uncorrectable. -/
theorem lineWriteBack_of_below {s : State} {h la : Nat} {rest : List Nat} (hw : (s.mc h).writeBack = la :: rest)
    (ha : s.above la = false) :
    let t := s.lineWriteBack h
    (t.mc h).writeBack = rest ∧ (∀ w, w ∈ t.ce ↔ w ∈ s.ce ∧ w ∉ wordsOf la 64) ∧ (∀ w ∈ s.ue, w ∈ t.ue)
      ∧ (∀ w ∈ s.checkLost la, w ∈ t.ue)
      ∧ (s.slcCopy la = none → t.homes = s.homes) ∧ { t with ce := s.ce, ue := s.ue, mcs := s.mcs, homes := s.homes } = s := by
  obtain ⟨x, heq, hx⟩ := lineWriteBack_eq hw
  have hv : (s.takeLine h rest).above la = false := (above_takeLine ..).trans ha
  have hc := checksOnly_checkAccess (s.takeLine h rest) la true
  rw [State.rewriteLine, initGroup_of_below hv] at heq hx
  generalize (s.takeLine h rest).checkAccess la true = u at hc heq hx
  rw [heq]
  refine ⟨?_, fun w => ?_, fun w hw => ?_, fun w hw => ?_, fun hn => ?_, ?_⟩
  · exact (congrArg MemCtl.writeBack (hc.mc h)).trans (by simp [State.takeLine])
  · change w ∈ u.ce.filter _ ↔ _
    rw [congrArg State.ce hc.frame]
    simp [State.takeLine]
  · exact (mem_loseWords _ _ w).mpr (.inr (hc.ue w hw))
  · refine (mem_loseWords _ _ w).mpr (.inl ?_)
    rw [State.lostWords, hv]
    exact mem_scrubUe_of_checkLost ((checkLost_takeLine s h rest la).symm ▸ hw)
  · exact (hx hn).trans hc.homes
  · exact congrArg (fun y : State => { y with ce := s.ce, ue := s.ue, mcs := s.mcs, homes := s.homes }) hc.frame

/-- The write-back of a line above the watermark initialises the line's group (R239). -/
theorem lineWriteBack_of_above {s : State} {h la : Nat} {rest : List Nat} (hw : (s.mc h).writeBack = la :: rest)
    (ha : s.above la = true) :
    (s.lineWriteBack h).above la = false ∧ ((s.lineWriteBack h).mc h).writeBack = rest := by
  obtain ⟨x, heq, -⟩ := lineWriteBack_eq hw
  obtain ⟨hbelow, hlist⟩ := initGroup_of_above ((above_takeLine s h rest la).trans ha)
  have hc := checksOnly_checkAccess ((s.takeLine h rest).initGroup la) la true
  rw [heq]
  refine ⟨(hc.above la).trans hbelow, (congrArg MemCtl.writeBack (hc.mc h)).trans ((hlist h).trans ?_)⟩
  simp [State.takeLine]

end Sys2Proof.Machine
end

section
/-! Patrol scrub (R243): a scrub read of a group without errors, and of one in which a line is corrected (R240, R245). -/

namespace Sys2Proof.Machine

/-- Counting words in the row table changes the table of the home, and counts a row that becomes marked. -/
theorem noteRow_eq (s : State) (h la words : Nat) (uncorrectable : Bool) : ∃ rows,
    s.noteRow h la words uncorrectable
        = { s.setMc h { s.mc h with rows := rows } with csr := (s.noteRow h la words uncorrectable).csr }
      ∧ ∀ r, r ≠ .hbmcRepairStatus (mcOf h) → (s.noteRow h la words uncorrectable).rget r = s.rget r := by
  unfold State.noteRow
  extract_lets m row old cnt new low rest rest' t
  refine ⟨rest' ++ [new], ?_⟩
  split
  · exact ⟨rfl, fun r hr => rget_setF_ne _ _ _ _ _ hr⟩
  · exact ⟨rfl, fun r _ => rfl⟩

/-- The correction of `words` words of line `la` of home `h` (R240, R245): its marks are counted and its write-back is scheduled. -/
structure Corrected (s t : State) (h la words : Nat) : Prop where
  frame : { t with csr := s.csr, mcs := s.mcs } = s
  rget : ∀ r, r ≠ .hbmcRepairStatus (mcOf h) → r ≠ .hbmcCeCount (mcOf h) → t.rget r = s.rget r
  count : t.rf (.hbmcCeCount (mcOf h)) Fld.hbmcCeCountWords
    = satAdd Fld.hbmcCeCountWords.width (s.rf (.hbmcCeCount (mcOf h)) Fld.hbmcCeCountWords) words
  listed : la ∈ (t.mc h).writeBack
  passes : ∀ k, (t.mc k).passes = (s.mc k).passes

theorem passes_setMc {s : State} {h : Nat} {x : MemCtl} (hx : x.passes = (s.mc h).passes) (k : Nat) :
    ((s.setMc h x).mc k).passes = (s.mc k).passes := by
  rw [mc_setMc]
  split
  next hk => rw [hk, hx]
  · rfl

theorem mem_addOnce (la : Nat) (l : List Nat) : la ∈ (if l.contains la then l else l ++ [la]) := by
  split
  next h => simpa using h
  · simp

theorem corrected_correctedDram {s : State} {h la : Nat} (words : Nat) (hh : s.homeOf la = h) :
    Corrected s (s.correctedDram la words) h la words := by
  obtain ⟨rows, hu, hrget⟩ := noteRow_eq s h la words false
  rw [State.correctedDram, hh]
  generalize s.noteRow h la words false = u at hu hrget
  have hhome : u.homeOf la = h := (homeOf_congr (hrget _ (by simp)) la).trans hh
  have hmcs : u.mcs = (s.setMc h { s.mc h with rows := rows }).mcs := (congrArg State.mcs hu :)
  have hpasses (k : Nat) : (u.mc k).passes = (s.mc k).passes := by
    rw [State.mc, hmcs]; exact passes_setMc (x := { s.mc h with rows := rows }) rfl k
  rw [State.countCorrected, hhome]
  exact {
    frame := congrArg (fun x : State => { x with csr := s.csr, mcs := s.mcs }) hu
    rget := fun r hr hc => (rget_setF_ne _ _ _ _ _ hc).trans (hrget r hr)
    count := (rf_bumpF_same u _ _ _ (by decide)).trans (by rw [rf_congr (hrget _ (by simp))])
    listed := by rw [mc_setMc_same]; exact mem_addOnce la _
    passes := fun k => by rw [passes_setMc (by rfl)]; exact hpasses k }

/-- The size of a home is in three registers (R231, R248). -/
theorem groupsOf_congr {s t : State} (h : ∀ r ∈ [Reg.hbmcHbmSize, .hbmcLpSize, .lpmcPop 0], t.rget r = s.rget r) (k : Nat) :
    t.groupsOf k = s.groupsOf k := by
  simp only [List.forall_mem_cons] at h
  obtain ⟨hhbm, hlp, hpop, -⟩ := h
  have hfull : t.lpFull = s.lpFull := by simp only [State.lpFull, rf_congr hpop]
  simp only [State.groupsOf, State.hbmSize, State.lpSize, hfull, rf_congr hhbm, rf_congr hlp]

/-- The scrubber has read its check group (R243). -/
def State.readGroup (s : State) (h : Nat) : State :=
  if s.scrubSkips h (s.mc h).scrubChannel (s.mc h).scrubGroup then s
  else (s.markedLines h (s.mc h).scrubChannel (s.mc h).scrubGroup).foldl (fun s la => s.scrubLine h la) s

/-- A line that the scrubber of a home finds is of that home. -/
theorem homeOf_of_markedLines {s : State} {h ch g la : Nat} (hm : s.markedLines h ch g = [la]) : s.homeOf la = h := by
  have hla : la ∈ s.markedLines h ch g := by simp [hm]
  have hsel := (List.mem_filter.mp hla).2
  simp only [Bool.and_eq_true, beq_iff_eq] at hsel
  exact hsel.1.2

/-- A group without errors. -/
theorem readGroup_clean {s : State} {h : Nat} (hm : s.markedLines h (s.mc h).scrubChannel (s.mc h).scrubGroup = []) : s.readGroup h = s := by
  simp [State.readGroup, hm]

/-- A group in which one line has single-bit errors alone. -/
theorem readGroup_corrected {s : State} {h la : Nat} (hm : s.markedLines h (s.mc h).scrubChannel (s.mc h).scrubGroup = [la])
    (hskip : s.scrubSkips h (s.mc h).scrubChannel (s.mc h).scrubGroup = false) (hue : s.scrubUe la = []) (hce : s.ceIn la 64 ≠ []) :
    s.readGroup h = s.correctedDram la (s.ceIn la 64).length := by
  simp [State.readGroup, hm, hskip, State.scrubLine, hue, hce]

/-- The scrubber of a home moves to the next check group. -/
def State.nextGroup (s : State) (h g : Nat) : State := s.setMc h { s.mc h with scrubGroup := g + 1 }

/-- A scrub read that is not the last of its channel: the group is read, the scrubber moves on, and SCRUB_STATUS shows it. -/
theorem scrub_goesOn {s : State} {h : Nat} (ecs : Nat) (hen : s.af (.hbmcScrubCfg (mcOf h)) Fld.hbmcScrubCfgEnable ≠ 0)
    (hg : (s.mc h).scrubGroup + 1 < s.groupsOf h) (hsize : (s.readGroup h).groupsOf h = s.groupsOf h)
    (hp : ∀ k, ((s.readGroup h).mc k).passes = (s.mc k).passes) :
    s.scrub h ecs = ((s.readGroup h).nextGroup h (s.mc h).scrubGroup).scrubStatus h := by
  have hnext : s.scrubNext h = (s.readGroup h).nextGroup h (s.mc h).scrubGroup :=
    if_pos (show _ < (s.readGroup h).groupsOf h from hsize ▸ hg)
  have hpass (k : Nat) : (((s.readGroup h).nextGroup h (s.mc h).scrubGroup).mc k).passes = (s.mc k).passes := by
    rw [State.nextGroup, passes_setMc (by rfl), hp]
  have hsame : ((s.readGroup h).nextGroup h (s.mc h).scrubGroup).passesOf h = s.passesOf h := by simp only [State.passesOf, hpass]
  have hne : s.groupsOf h ≠ 0 := by omega
  simp only [State.scrub, hen, hne, hnext, hsame, or_self, if_false, if_true]

/-- SCRUB_STATUS is the one register that shows the progress of the scrub. -/
theorem regsOnly_scrubStatus (s : State) (h : Nat) : RegsOnly [.hbmcScrubStatus (mcOf h)] s (s.scrubStatus h) :=
  (regsOnly_setF _ _ _ (by simp)).trans (regsOnly_setF _ _ _ (by simp))

end Sys2Proof.Machine
end

section
/-! Row repair (R245, R246): its start, with a spare or without, and its end. -/

namespace Sys2Proof.Machine

/-- Between two states only words with errors, check caches and lists of corrected lines differ. -/
structure WordsOnly (s t : State) : Prop where
  frame : t = { s with ue := t.ue, ce := t.ce, mcs := t.mcs }
  mc : ∀ k, t.mc k = { s.mc k with writeBack := (t.mc k).writeBack, check := (t.mc k).check }

theorem WordsOnly.refl (s : State) : WordsOnly s s := ⟨rfl, fun _ => rfl⟩

theorem WordsOnly.trans {s t u : State} (hst : WordsOnly s t) (htu : WordsOnly t u) : WordsOnly s u where
  frame := htu.frame.trans (congrArg (fun x : State => { x with ue := u.ue, ce := u.ce, mcs := u.mcs }) hst.frame)
  mc k := (htu.mc k).trans (congrArg (fun x : MemCtl => { x with writeBack := (u.mc k).writeBack, check := (u.mc k).check }) (hst.mc k))

theorem ChecksOnly.wordsOnly {s t : State} (h : ChecksOnly s t) : WordsOnly s t where
  frame := h.frame.trans (congrArg (fun x => { s with ue := t.ue, ce := x, mcs := t.mcs }) (congrArg State.ce h.frame :).symm)
  mc k := (h.mc k).trans (congrArg (fun x => { s.mc k with writeBack := x, check := (t.mc k).check })
    (congrArg MemCtl.writeBack (h.mc k) :).symm)

theorem WordsOnly.foldl {α : Type} {f : State → α → State} (hf : ∀ s a, WordsOnly s (f s a)) (l : List α) (s : State) :
    WordsOnly s (l.foldl f s) := by
  induction l generalizing s with
  | nil => exact .refl s
  | cons a l ih => exact (hf s a).trans (ih _)

theorem wordsOnly_dropWriteBack (s : State) (la : Nat) : WordsOnly s (s.dropWriteBack la) := by
  refine ⟨rfl, fun k => ?_⟩
  simp only [State.dropWriteBack, mc_setMc]
  split
  next hk => rw [hk]
  · rfl

theorem wordsOnly_withCe (s : State) (l : List Nat) : WordsOnly s { s with ce := l } := ⟨rfl, fun _ => rfl⟩

theorem wordsOnly_spoilDram (s : State) (la : Nat) : WordsOnly s (s.spoilDram la) :=
  (((checksOnly_checkAccess s la true).wordsOnly.trans (wordsOnly_dropWriteBack ..)).trans (wordsOnly_withCe ..)).trans
    (checksOnly_loseWords ..).wordsOnly

/-- Moving a row to its spare row changes words with errors, check units and lists of corrected lines alone. -/
theorem wordsOnly_repairRow (s : State) (h row : Nat) : WordsOnly s (s.repairRow h row) :=
  ((wordsOnly_withCe ..).trans (.foldl (fun s la => (checksOnly_checkRewrite s la).wordsOnly) ..)).trans (.foldl wordsOnly_spoilDram ..)

/-- What a repair that starts does: the row is taken, and HBMC.STATUS shows it. -/
theorem repairStart_spare {s : State} {h : Nat} {r : RowEntry}
    (hr : (s.mc h).rows.find? (fun r => r.marked && !r.exhausted) = some r)
    (hauto : s.af (.hbmcRepairCfg (mcOf h)) Fld.hbmcRepairCfgAutoRepair ≠ 0) (hidle : (s.mc h).repairing = none)
    (hspare : kget 0 (s.mc h).sparesUsed (Config.bankOfRow h r.row) < Config.sparesPerBank) :
    s.repairStart h = (s.setMc h { s.mc h with repairing := some r.row }).setF (.hbmcStatus (mcOf h)) Fld.hbmcStatusRepairBusy 1 := by
  simp only [State.repairStart, hr, hauto, hidle, hspare, Option.isSome_none, Bool.false_eq_true, or_self, if_false, if_true]

/-- The row table once a row is known to have no spare. -/
def exhaust (row : Nat) (l : List RowEntry) : List RowEntry :=
  modifyFirst (fun x => x.row == row) (fun x => { x with exhausted := true }) l

/-- A marked row for which no spare is left is counted and reported (R246). -/
theorem repairStart_exhausted {s : State} {h : Nat} {r : RowEntry}
    (hr : (s.mc h).rows.find? (fun r => r.marked && !r.exhausted) = some r)
    (hauto : s.af (.hbmcRepairCfg (mcOf h)) Fld.hbmcRepairCfgAutoRepair ≠ 0) (hidle : (s.mc h).repairing = none)
    (hspare : Config.sparesPerBank ≤ kget 0 (s.mc h).sparesUsed (Config.bankOfRow h r.row)) :
    s.repairStart h = ((s.setMc h { s.mc h with rows := exhaust r.row (s.mc h).rows }).bumpF (.hbmcRepairStatus (mcOf h))
      Fld.hbmcRepairStatusExhausted 1).report (mcRec Cls.memRepairExhausted h r.line) := by
  simp only [State.repairStart, hr, hauto, hidle, not_lt.mpr hspare, Option.isSome_none, Bool.false_eq_true, or_self, if_false]
  rfl

/-- A row without a spare is not taken for repair; it is counted, and a record tells it (R246). -/
theorem repairStart_noted {s t : State} {h : Nat} {r : RowEntry}
    (hr : (s.mc h).rows.find? (fun r => r.marked && !r.exhausted) = some r)
    (hauto : s.af (.hbmcRepairCfg (mcOf h)) Fld.hbmcRepairCfgAutoRepair ≠ 0) (hidle : (s.mc h).repairing = none)
    (hspare : Config.sparesPerBank ≤ kget 0 (s.mc h).sparesUsed (Config.bankOfRow h r.row)) (hf : s.frozen = false)
    (ht : s.triggers Cls.memRepairExhausted = false) (hst : s.repairStart h = t) :
    (t.mc h).repairing = none
      ∧ t.rf (.hbmcRepairStatus (mcOf h)) Fld.hbmcRepairStatusExhausted
        = satAdd Fld.hbmcRepairStatusExhausted.width (s.rf (.hbmcRepairStatus (mcOf h)) Fld.hbmcRepairStatusExhausted) 1
      ∧ t.flt.net.length = s.flt.net.length + 1 ∧ t.mem = s.mem := by
  rw [repairStart_exhausted hr hauto hidle hspare] at hst
  have hbump := regsOnly_setF (l := [.hbmcRepairStatus (mcOf h)]) (r := .hbmcRepairStatus (mcOf h))
    (s.setMc h { s.mc h with rows := exhaust r.row (s.mc h).rows }) Fld.hbmcRepairStatusExhausted
    (satAdd Fld.hbmcRepairStatusExhausted.width (s.rf (.hbmcRepairStatus (mcOf h)) Fld.hbmcRepairStatusExhausted) 1) (by simp)
  obtain ⟨hmc, hrget, hnet, hmem⟩ := hbump.report (x := mcRec Cls.memRepairExhausted h r.line) (by simp) hf ht hst
  refine ⟨?_, ?_, ?_, hmem⟩
  · rw [hmc, mc_setMc_same]
    exact hidle
  · rw [rf_congr (hrget _)]
    exact rf_bumpF_same _ _ _ _ (by decide)
  · rw [hnet]
    simp

/-- The controller of a home whose repair is done. -/
def MemCtl.repaired (m : MemCtl) (row bank : Nat) : MemCtl :=
  { m with
    repairing := none
    rows := m.rows.filter (fun r => r.row != row)
    sparesUsed := nset 0 m.sparesUsed bank (kget 0 m.sparesUsed bank + 1) }

/-- HBMC.REPAIR_STATUS counts a repair, and one marked row less. -/
def State.countRepair (s : State) (h : Nat) : State :=
  (s.bumpF (.hbmcRepairStatus (mcOf h)) Fld.hbmcRepairStatusRepairs 1).setF (.hbmcRepairStatus (mcOf h)) Fld.hbmcRepairStatusMarked
    (s.rf (.hbmcRepairStatus (mcOf h)) Fld.hbmcRepairStatusMarked - 1)

/-- HBMC.REPAIR_STATUS shows the least number of spares left in a bank. -/
def State.showSpares (s : State) (h left : Nat) : State :=
  s.setF (.hbmcRepairStatus (mcOf h)) Fld.hbmcRepairStatusSparesMin
    (min (s.rf (.hbmcRepairStatus (mcOf h)) Fld.hbmcRepairStatusSparesMin) left)

/-- HBMC.STATUS shows whether a home of the controller repairs a row. -/
def State.showBusy (s : State) (h : Nat) : State :=
  s.setB (.hbmcStatus (mcOf h)) Fld.hbmcStatusRepairBusy ((homesOf h).any (fun x => (s.mc x).repairing.isSome))

/-- The registers show that a repair of a home is done, and that `left` spares are left in the bank. -/
def State.showRepaired (s : State) (h left : Nat) : State := ((s.countRepair h).showSpares h left).showBusy h

theorem repairDone_eq {s : State} {h row : Nat} (hr : (s.mc h).repairing = some row) : ∃ line,
    s.repairDone h = (((s.setMc h ((s.mc h).repaired row (Config.bankOfRow h row))).repairRow h row).showRepaired h
      (Config.sparesPerBank - (kget 0 (s.mc h).sparesUsed (Config.bankOfRow h row) + 1))).report (mcRec Cls.memRepair h line) := by
  unfold State.repairDone
  extract_lets m
  simp only [show m.repairing = some row from hr]
  exact ⟨_, rfl⟩

theorem regsOnly_showRepaired (s : State) (h left : Nat) :
    RegsOnly [.hbmcRepairStatus (mcOf h), .hbmcStatus (mcOf h)] s (s.showRepaired h left) :=
  (((regsOnly_setF _ _ _ (by simp)).trans (regsOnly_setF _ _ _ (by simp))).trans (regsOnly_setF _ _ _ (by simp))).trans
    (regsOnly_setF _ _ _ (by simp))

/-- The repairs are counted in HBMC.REPAIR_STATUS. -/
theorem repairs_showRepaired (s : State) (h left : Nat) :
    (s.showRepaired h left).rf (.hbmcRepairStatus (mcOf h)) Fld.hbmcRepairStatusRepairs
    = satAdd Fld.hbmcRepairStatusRepairs.width (s.rf (.hbmcRepairStatus (mcOf h)) Fld.hbmcRepairStatusRepairs) 1 := by
  rw [State.showRepaired, State.showBusy, State.setB, rf_setF_ne _ _ _ _ _ _ (by decide) (.inl (by simp)), State.showSpares,
    rf_setF_ne _ _ _ _ _ _ (by decide) (.inr (by decide)), State.countRepair, rf_setF_ne _ _ _ _ _ _ (by decide) (.inr (by decide)),
    rf_bumpF_same _ _ _ _ (by decide)]

/-- A repair is done: the row leaves the table, one more spare of its bank is used, and a record tells it (R245). -/
theorem repairDone_noted {s t : State} {h row : Nat} (hd : s.repairDone h = t) (hr : (s.mc h).repairing = some row)
    (hf : s.frozen = false) (ht : s.triggers Cls.memRepair = false) :
    (t.mc h).repairing = none ∧ (t.mc h).rows = (s.mc h).rows.filter (fun r => r.row != row)
      ∧ kget 0 (t.mc h).sparesUsed (Config.bankOfRow h row) = kget 0 (s.mc h).sparesUsed (Config.bankOfRow h row) + 1
      ∧ t.rf (.hbmcRepairStatus (mcOf h)) Fld.hbmcRepairStatusRepairs
        = satAdd Fld.hbmcRepairStatusRepairs.width (s.rf (.hbmcRepairStatus (mcOf h)) Fld.hbmcRepairStatusRepairs) 1
      ∧ t.flt.net.length = s.flt.net.length + 1 ∧ t.mem = s.mem := by
  obtain ⟨line, heq⟩ := repairDone_eq hr
  have hmoved := wordsOnly_repairRow (s.setMc h ((s.mc h).repaired row (Config.bankOfRow h row))) h row
  generalize (s.setMc h ((s.mc h).repaired row (Config.bankOfRow h row))).repairRow h row = u at hmoved heq
  have hcsr : u.csr = s.csr := (congrArg State.csr hmoved.frame :)
  have hmc := hmoved.mc h
  rw [mc_setMc_same] at hmc
  rw [heq] at hd
  have hfrozen : u.frozen = false := (congrArg State.frozen hmoved.frame :).trans hf
  have hflt : u.flt = s.flt := (congrArg State.flt hmoved.frame :)
  obtain ⟨hsame, hrget, hnet, hmem⟩ :=
    (regsOnly_showRepaired u h _).report (by simp [mcRec, mkRec]) hfrozen ((triggers_of_csr hcsr _).trans ht) hd
  rw [hsame, hmc, hnet, rf_congr (hrget _), repairs_showRepaired, rf_of_csr hcsr]
  exact ⟨rfl, rfl, by simp [MemCtl.repaired, kget_nset], rfl, by simp [hflt], hmem.trans (congrArg State.mem hmoved.frame :)⟩

end Sys2Proof.Machine
end

section
/-! The commands of the memory controllers (R239, R240, R243 to R246). -/

namespace Sys2Proof.Machine

/-- The period that a commit puts in force (R244). -/
def clampPeriod (p : Nat) : Nat := max 3600 (min 86400 p)

theorem clampPeriod_mod (p : Nat) : clampPeriod p % 2 ^ 32 = clampPeriod p := Nat.mod_eq_of_lt (by unfold clampPeriod; omega)

theorem hbmcCommit_eq (s : State) (i : Nat) : s.hbmcCommit i
    = ((s.setF (.hbmcScrubCfg i) Fld.hbmcScrubCfgPeriod (clampPeriod (s.rf (.hbmcScrubCfg i) Fld.hbmcScrubCfgPeriod))).commitReg
      (.hbmcScrubCfg i)).commitReg (.hbmcRepairCfg i) := rfl

/-- What a commit puts in force: the scrub fields with the period clamped, and the repair fields (R244). -/
theorem aget_hbmcCommit (s : State) (i : Nat) (r : Reg) : (s.hbmcCommit i).aget r =
    if r = .hbmcRepairCfg i then s.rget (.hbmcRepairCfg i)
    else if r = .hbmcScrubCfg i then withField (s.rget (.hbmcScrubCfg i)) Fld.hbmcScrubCfgPeriod
      (clampPeriod (s.rf (.hbmcScrubCfg i) Fld.hbmcScrubCfgPeriod))
    else s.aget r := by
  rw [hbmcCommit_eq, aget_commitReg, aget_commitReg, rget_commitReg, rget_setF_ne _ _ _ _ _ (by simp), rget_setF, if_pos rfl, aget_setF]

theorem rget_hbmcCommit_ne (s : State) (i : Nat) {r : Reg} (hr : r ≠ .hbmcScrubCfg i) : (s.hbmcCommit i).rget r = s.rget r := by
  rw [hbmcCommit_eq, rget_commitReg, rget_commitReg, rget_setF_ne _ _ _ _ _ hr]

/-- Setting a field and committing registers changes registers and values in force alone. -/
theorem setF_commit_frame (s : State) (r r' r'' : Reg) (f : Fld) (x : Nat) :
    { ((s.setF r f x).commitReg r').commitReg r'' with csr := s.csr, act := s.act } = s := rfl

/-- The scrub fields in force after a commit. -/
theorem af_hbmcCommit_scrubCfg (s : State) (i : Nat) (f : Fld) : (s.hbmcCommit i).af (.hbmcScrubCfg i) f
    = fieldOf (withField (s.rget (.hbmcScrubCfg i)) Fld.hbmcScrubCfgPeriod
      (clampPeriod (s.rf (.hbmcScrubCfg i) Fld.hbmcScrubCfgPeriod))) f := by
  rw [State.af, aget_hbmcCommit, if_neg (by simp), if_pos rfl]

/-- A tier whose background zeroing has ended. -/
theorem zeroingDone_eq {s : State} {q : Nat} (h : s.rf (.hbmcStatus (16 + q)) Fld.hbmcStatusTierOk = 1) :
    s.zeroingDone q = (s.setF (.hbmcStatus (16 + q)) Fld.hbmcStatusInitDone 1).setMc (32 + q)
      { s.mc (32 + q) with watermark := [], inited := [] } := by rw [State.zeroingDone, if_pos h]

/-- No line of an LPMC lies above a watermark once INIT_DONE is set (R239). -/
theorem blank_of_initDone {s : State} {a q : Nat} (hq : s.homeOf a = 32 + q) (hd : s.rf (.hbmcStatus (16 + q)) Fld.hbmcStatusInitDone = 1) :
    s.blank a = false := by
  have hmc : mcOf (32 + q) = 16 + q := by simp [mcOf]; omega
  simp [State.blank, State.above, State.aboveMark, hq, hmc, hd]

/-- Settles O34: each command by the lemma that says what it does of the state. -/
theorem memoryControllersComplete : Obligations.MemoryControllersComplete := by
  unfold Obligations.MemoryControllersComplete
  refine ⟨fun s i hs => ?commit, fun s q hs htier => ?zeroed, fun s h la rest hs hw => ?writeBack, fun s h ecs hs hen hg => ?scrub,
    fun s h r hs hr hauto hidle => ?repair, fun s h row hs hr ht => ?repaired⟩
  case commit =>
    refine completes_clocked (f := fun s => s.hbmcCommit i) rfl hs
      ⟨?_, ?_, ?_, fun r hscrub hrepair => ?_, fun r hr => ?_, setF_commit_frame ..⟩
    · rw [af_hbmcCommit_scrubCfg, fieldOf_withField _ _ _ (by decide)]
      exact clampPeriod_mod _
    · rw [af_hbmcCommit_scrubCfg, fieldOf_withField_ne _ _ _ _ (by decide) (by decide)]
      rfl
    · rw [aget_hbmcCommit, if_pos rfl]
    · rw [aget_hbmcCommit, if_neg hrepair, if_neg hscrub]
    · exact rget_hbmcCommit_ne s i hr
  case zeroed =>
    refine completes_clocked (f := fun s => s.zeroingDone q) rfl hs ?_
    simp only [zeroingDone_eq htier]
    have hdone := rf_setF_same s (.hbmcStatus (16 + q)) Fld.hbmcStatusInitDone 1 (by decide)
    refine ⟨?_, by rw [mc_setMc_same], fun a ha => blank_of_initDone ha ?_, fun r hr => ?_, setF_setMc_frame ..⟩
    · rw [rf_setMc, hdone]; rfl
    · rw [rf_setMc, hdone]; rfl
    · rw [rget_setMc, rget_setF_ne _ _ _ _ _ hr]
  case writeBack =>
    exact ⟨fun ha => completes_clocked (f := fun s => s.lineWriteBack h) rfl hs (lineWriteBack_of_below hw ha),
      fun ha => completes_clocked (f := fun s => s.lineWriteBack h) rfl hs (lineWriteBack_of_above hw ha)⟩
  case scrub =>
    refine ⟨fun hm => completes_clocked (f := fun s => s.scrub h ecs.toNat) rfl hs ?_,
      fun la hm hskip hue hce => completes_clocked (f := fun s => s.scrub h ecs.toNat) rfl hs ?_⟩
    · have hread := readGroup_clean hm
      have hshow := regsOnly_scrubStatus (s.nextGroup h (s.mc h).scrubGroup) h
      simp only [scrub_goesOn ecs.toNat hen hg (by rw [hread]) (by simp [hread]), hread]
      refine ⟨(hshow.mc h).trans (mc_setMc_same ..), fun k hk => (hshow.mc k).trans (mc_setMc_ne _ _ _ _ hk),
        fun r hr => (hshow.rget r (by simpa using hr)).trans (rget_setMc ..), ?_⟩
      exact congrArg (fun x : State => { x with csr := s.csr, mcs := s.mcs }) hshow.frame
    · have hread := readGroup_corrected hm hskip hue hce
      have hc := corrected_correctedDram (s.ceIn la 64).length (homeOf_of_markedLines hm)
      rw [← hread] at hc
      have hgroups := groupsOf_congr (s := s) (t := s.readGroup h) (by simp [hc.rget]) h
      have hshow := regsOnly_scrubStatus ((s.readGroup h).nextGroup h (s.mc h).scrubGroup) h
      have hmc := (hshow.mc h).trans (mc_setMc_same ..)
      simp only [scrub_goesOn ecs.toNat hen hg hgroups hc.passes, hmc]
      refine ⟨hc.listed, trivial, ?_, ?_, ?_⟩
      · rw [rf_congr (hshow.rget _ (by simp)), State.nextGroup, rf_setMc, hc.count]
      · exact (congrArg State.mem hshow.frame :).trans (congrArg State.mem hc.frame :)
      · exact (congrArg State.ce hshow.frame :).trans (congrArg State.ce hc.frame :)
  case repair =>
    refine ⟨fun hspare => completes_clocked (f := fun s => s.repairStart h) rfl hs ?_,
      fun hspare ht => completes_clocked (f := fun s => s.repairStart h) rfl hs ?_⟩
    · simp only [repairStart_spare hr hauto hidle hspare]
      have hbusy := regsOnly_setF (l := [.hbmcStatus (mcOf h)]) (r := .hbmcStatus (mcOf h))
        (s.setMc h { s.mc h with repairing := some r.row }) Fld.hbmcStatusRepairBusy 1 (by simp)
      exact ⟨(hbusy.mc h).trans (mc_setMc_same ..), rf_setF_same _ _ _ _ (by decide), (congrArg State.mem hbusy.frame :),
        (congrArg State.flt hbusy.frame :)⟩
    · exact repairStart_noted hr hauto hidle hspare (not_frozen_of_runs hs) ht rfl
  case repaired =>
    exact ⟨s.repairDone h, clocked_runs hs (fun s => s.repairEnd h), repairDone_noted rfl hr (not_frozen_of_runs hs) ht⟩

end Sys2Proof.Machine
end

section
/-! Device resets and their causes (R342, R363 to R366, R368, R371 to R373, R451). -/

namespace Sys2Proof.Machine

/-- `t` is `s` after a device reset by a cause: the state after power-on, but for the cause latch, the fuses, the hard repairs and the
TAP. -/
def ResetTo (s : State) (cause : Nat) (t : State) : Prop :=
  let x := State.reset
  t.rf .rstLastCause Fld.rstLastCauseCause = s.causeCode cause
    ∧ (∀ r, r ≠ .rstLastCause → t.rget r = x.rget r)
    ∧ t.sys = { x.sys with
      fuses := s.fusesLeft, hardRepairs := s.sys.hardRepairs, tap := t.sys.tap, causeNew := true, porHolds := cause == 1 || s.sys.porHolds }
    ∧ t.pending = s.pending
    ∧ { t with csr := x.csr, sys := x.sys, pending := x.pending, readData := x.readData, freeCtr := x.freeCtr } = x

/-- The code that the latch records is no greater than the cause's (R366). -/
theorem causeCode_le (s : State) (cause : Nat) : s.causeCode cause ≤ cause := by
  unfold State.causeCode
  split
  · exact Nat.min_le_left ..
  · exact le_rfl

/-- The state of a device reset by a cause, before the latch records it (R364). -/
def State.cleared (s : State) (cause : Nat) : State :=
  { State.reset with
    pending := s.pending, readData := s.readData, freeCtr := s.freeCtr + (if s.sys.fuseOp.isSome then 1 else 0)
    sys := { State.reset.sys with
      fuses := s.fusesLeft, hardRepairs := s.sys.hardRepairs, tap := s.sys.tap, causeNew := true, porHolds := cause == 1 || s.sys.porHolds } }

theorem deviceReset_eq (s : State) (cause : Nat) :
    s.deviceReset cause = (s.cleared cause).setF .rstLastCause Fld.rstLastCauseCause (s.causeCode cause) := rfl

/-- A device reset by a cause of R364. -/
theorem resetTo_deviceReset (s : State) {cause : Nat} (hc : cause < 16) : ResetTo s cause (s.deviceReset cause) := by
  have hset : RegsOnly [.rstLastCause] (s.cleared cause) ((s.cleared cause).setF .rstLastCause Fld.rstLastCauseCause (s.causeCode cause)) :=
    regsOnly_setF _ _ _ (by simp)
  have hcause := rf_setF_same (s.cleared cause) .rstLastCause Fld.rstLastCauseCause (s.causeCode cause) (by decide)
  rw [← deviceReset_eq] at hset hcause
  refine ⟨?_, fun r hr => (hset.rget r (by simpa using hr)).trans (rget_of_csr rfl r), ?_, (congrArg State.pending hset.frame :), ?_⟩
  · exact hcause.trans (Nat.mod_eq_of_lt ((causeCode_le s cause).trans_lt hc))
  · rw [(congrArg State.sys hset.frame :)]
    rfl
  · exact congrArg (fun t : State => { t with
      csr := [], sys := Sys.reset, pending := [], readData := 0, freeCtr := 0 }) hset.frame

/-- The TAP may change beside the reset. -/
theorem ResetTo.withTap {s t : State} {cause : Nat} (h : ResetTo s cause t) (tap : Tap) :
    ResetTo s cause { t with sys := { t.sys with tap := tap } } := by
  obtain ⟨hcause, hregs, hsys, hpending, hrest⟩ := h
  refine ⟨hcause, hregs, ?_, hpending, hrest⟩
  rw [hsys]

/-- DEVRESET loads the TAP, and resets the device. -/
theorem resetTo_devreset (s : State) : ResetTo s 6 ((s.tapLoad (tapInstr 0x10) 0).deviceReset 6) := by
  obtain ⟨hcause, hregs, hsys, hpending, hrest⟩ := resetTo_deviceReset (s.tapLoad (tapInstr 0x10) 0) (cause := 6) (by decide)
  exact ⟨hcause, hregs, hsys, hpending, hrest⟩

/-- A brownout whose POR cause may not have ended: a free value says whether it had (R451). -/
theorem brownout_porHolds {s : State} (h : s.sys.porHolds = true) : s.brownout =
    if (Config.freeValue s.freeCtr).toNat % 2 ^ 1 = 1 then
      ({ s with freeCtr := s.freeCtr + 1, sys := { s.sys with porHolds := false } } : State).deviceReset 2
    else { s with freeCtr := s.freeCtr + 1 } := by
  rw [State.brownout, if_pos h]
  rfl

/-- The latch records the same code whatever the counter of free values and the POR cause are. -/
theorem brownout_cases {s : State} (h : s.sys.porHolds = true) :
    s.brownout = { s with freeCtr := s.freeCtr + 1 }
      ∨ s.brownout.rf .rstLastCause Fld.rstLastCauseCause = s.causeCode 2 ∧ s.brownout.sys.porHolds = false
        ∧ s.brownout.released 0 = false ∧ ∀ r, r ≠ .rstLastCause → s.brownout.rget r = State.reset.rget r := by
  rw [brownout_porHolds h]
  split
  · obtain ⟨hcause, hregs, hsys, -, -⟩ := resetTo_deviceReset
      ({ s with freeCtr := s.freeCtr + 1, sys := { s.sys with porHolds := false } } : State) (cause := 2) (by decide)
    refine .inr ⟨hcause, by rw [hsys]; rfl, ?_, hregs⟩
    rw [State.released, rf_congr (hregs _ (by simp))]
    decide
  · exact .inl rfl

/-- A fuse operation on the rollback counter leaves it between its value and its target (R342). -/
theorem rollback_fusesLeft {s : State} {n : Nat} (h : s.sys.fuseOp = some (.load n) ∨ s.sys.fuseOp = some (.rollback n))
    (hn : s.sys.fuses.rollback ≤ n) : s.sys.fuses.rollback ≤ s.fusesLeft.rollback ∧ s.fusesLeft.rollback ≤ n := by
  have hleft : s.fusesLeft.rollback
      = s.sys.fuses.rollback + (Config.freeValue s.freeCtr).toNat % (n - s.sys.fuses.rollback + 1) := by
    rcases h with h | h <;> simp [State.fusesLeft, h]
  have := Nat.mod_lt (Config.freeValue s.freeCtr).toNat (show 0 < n - s.sys.fuses.rollback + 1 by omega)
  omega

/-- A command that is a device reset. -/
theorem reset_of_exec {i : Instr} {s : State} {cause : Nat} (h : exec i s = .next (s.deviceReset cause)) (hc : cause < 16) :
    Completes i s (ResetTo s cause) := ⟨_, h, resetTo_deviceReset s hc⟩

/-- PERST_N resets the device while its scope is the device (R365). -/
theorem exec_perst {s : State} (h : s.af .pcieEpCfg Fld.pcieEpCfgPerstScope = 1) : exec (.pinReset true) s = .next (s.deviceReset 3) := by
  change Host.Outcome.next (if _ then _ else _) = _
  rw [if_neg (by simp [h])]

theorem exec_perst_ignored {s : State} (h : s.af .pcieEpCfg Fld.pcieEpCfgPerstScope = 0) : exec (.pinReset true) s = .next s := by
  change Host.Outcome.next (if _ then _ else _) = _
  rw [if_pos (by simp [h])]

/-- A monitor that judges its clock. -/
theorem exec_clockFail {s : State} {m : ClockMonitor} (hr : s.released (monitorScope m).1 = true)
    (hf : s.frozen = false ∨ (monitorScope m).2 = true) : exec (.clockFail m) s = .next (s.deviceReset 7) := by
  change Host.Outcome.next (if _ then _ else _) = _
  rw [if_pos (by rcases hf with hf | hf <;> simp [hr, hf])]

/-- The time limit of the clocks of the domain that comes next, where it is counted (R368). -/
theorem exec_releaseClockTimeout {s : State} (h1 : 1 ≤ s.nextDomain) (h8 : s.nextDomain ≤ 8)
    (h3 : s.nextDomain ≠ 3 ∨ s.sys.applied = true) (hf : s.frozen = false ∨ s.nextDomain = 1) :
    exec .releaseClockTimeout s = .next (s.deviceReset 7) := by
  change Host.Outcome.next (if _ then _ else _) = _
  refine congrArg _ (if_pos ⟨h1, h8, h3, ?_⟩)
  rcases hf with hf | hf
  · simp [hf]
  · exact .inl hf.le

theorem exec_releaseClockTimeout_held {s : State}
    (h : s.nextDomain = 0 ∨ 9 ≤ s.nextDomain ∨ s.nextDomain = 3 ∧ s.sys.applied = false ∨ s.frozen = true ∧ 2 ≤ s.nextDomain) :
    exec .releaseClockTimeout s = .next s := by
  change Host.Outcome.next (if _ then _ else _) = _
  rw [if_neg ?_]
  rintro ⟨h1, h8, h3, hf⟩
  rcases h with h | h | ⟨hn, ha⟩ | ⟨hfr, hn⟩
  · omega
  · omega
  · simp [hn, ha] at h3
  · simp [hfr] at hf
    omega

/-! ## The watchdog (R373) -/

theorem wdtDue_iff (s : State) : s.wdtDue = true ↔ s.wdtOn = true ∧ 175000 * s.wdtLimit ≤ s.sys.wdtCount + 1 := by
  simp [State.wdtDue]

theorem exec_watchdog (s : State) : exec .watchdog s = .next (if s.wdtDue then s.deviceReset 4 else s) := rfl

/-- RST.WDT_CTRL shows that the watchdog is on or off, and its limit. -/
def State.wdtSet (s : State) (enable : Bool) (limit : Nat) : State :=
  (s.setB .rstWdtCtrl Fld.rstWdtCtrlEnable enable).setF .rstWdtCtrl Fld.rstWdtCtrlLimit limit

theorem regsOnly_wdtSet (s : State) (enable : Bool) (limit : Nat) : RegsOnly [.rstWdtCtrl] s (s.wdtSet enable limit) :=
  (regsOnly_setF _ _ _ (by simp)).trans (regsOnly_setF _ _ _ (by simp))

theorem enable_wdtSet (s : State) (enable : Bool) (limit : Nat) :
    (s.wdtSet enable limit).rf .rstWdtCtrl Fld.rstWdtCtrlEnable = if enable then 1 else 0 := by
  rw [State.wdtSet, rf_setF_ne _ _ _ _ _ _ (by decide) (.inr (by decide)), State.setB, rf_setF_same _ _ _ _ (by decide)]
  cases enable <;> rfl

theorem limit_wdtSet (s : State) (enable : Bool) {limit : Nat} (h : limit < 2 ^ 32) :
    (s.wdtSet enable limit).rf .rstWdtCtrl Fld.rstWdtCtrlLimit = limit := by
  rw [State.wdtSet, rf_setF_same _ _ _ _ (by decide)]
  exact Nat.mod_eq_of_lt h

/-- Restarting its count leaves the registers. -/
theorem rget_wdtRestart (s : State) (r : Reg) : s.wdtRestart.rget r = s.rget r := rfl

theorem wdtOn_wdtRestart (s : State) : s.wdtRestart.wdtOn = s.wdtOn := rfl

theorem wdtOn_wdtSet (s : State) (enable : Bool) (limit : Nat) : (s.wdtSet enable limit).wdtOn = enable := by
  rw [State.wdtOn, enable_wdtSet]
  cases enable <;> rfl

/-- Beside registers, setting the watchdog changes its count alone. -/
theorem RegsOnly.wdtRestart {l : List Reg} {s u : State} (h : RegsOnly l s u) :
    u.wdtRestart.sys = { s.sys with wdtCount := 0 } ∧ { u.wdtRestart with csr := s.csr, sys := s.sys } = s :=
  ⟨by rw [State.wdtRestart, (congrArg State.sys h.frame :)], congrArg (fun x : State => { x with csr := s.csr, sys := s.sys }) h.frame⟩

end Sys2Proof.Machine
end

section
/-! Release of the domains (R297, R299, R344, R352, R359, R368, R410, R432). -/

namespace Sys2Proof.Machine

/-! ## The register of the domains (R368) -/

/-- Adding its weight sets a bit that is clear, and no other bit (R368). -/
theorem addBit_eq_withField {v n : Nat} (hv : v < 2 ^ 9) (hn : n ≤ 8) (h0 : bitsOf v n 1 = 0) :
    (withField (BitVec.ofNat 64 v) ⟨n, 1⟩ 1).toNat = v + 2 ^ n := by
  have hw : (BitVec.ofNat 64 v).toNat = v := by rw [BitVec.toNat_ofNat]; omega
  have hs := bitsOf_split v n 1
  rw [h0] at hs
  rw [withField_toNat _ _ _ (by simp; omega), hw]
  simp only [Nat.reducePow, Nat.reduceMod]
  omega

theorem addBit_lt {v n : Nat} (hv : v < 2 ^ 9) (hn : n ≤ 8) (h0 : bitsOf v n 1 = 0) : v + 2 ^ n < 2 ^ 9 := by
  have hs := bitsOf_split v n 1
  rw [h0] at hs
  have hp : 2 ^ 9 = 2 ^ (9 - (n + 1)) * 2 ^ (n + 1) := by rw [← pow_add]; congr 1; omega
  have hc : v / 2 ^ (n + 1) < 2 ^ (9 - (n + 1)) := Nat.div_lt_of_lt_mul (by rw [mul_comm, ← hp]; exact hv)
  have ha : v % 2 ^ n < 2 ^ n := Nat.mod_lt _ (by positivity)
  rw [hs, hp]
  nlinarith [pow_succ 2 n]

theorem bitsOf_addBit {v n : Nat} (hv : v < 2 ^ 9) (hn : n ≤ 8) (h0 : bitsOf v n 1 = 0) {k : Nat} (hk : k ≤ 8) :
    bitsOf ((v + 2 ^ n) % 2 ^ 9) k 1 = if k = n then 1 else bitsOf v k 1 := by
  rw [Nat.mod_eq_of_lt (addBit_lt hv hn h0), ← addBit_eq_withField hv hn h0]
  split
  next he => subst he; exact fieldOf_withField _ ⟨k, 1⟩ _ (by simp; omega)
  next hne =>
    have hw : (BitVec.ofNat 64 v).toNat = v := by rw [BitVec.toNat_ofNat]; omega
    refine (fieldOf_withField_ne _ ⟨n, 1⟩ ⟨k, 1⟩ _ (by simp; omega) (by simp; omega)).trans ?_
    rw [fieldOf, hw]

theorem released_nextDomain {s : State} (h : s.nextDomain ≤ 8) : s.released s.nextDomain = false := by
  unfold State.nextDomain at h ⊢
  cases hf : (List.range 9).find? (fun n => !s.released n) with
  | none => rw [hf] at h; simp at h
  | some n => simpa using List.find?_some hf

/-- The state in which domain `n` is shown as released, before the release begins anything. -/
def State.showRelease (s : State) (n : Nat) : State :=
  (({ s with sys := { s.sys with causeNew := false } } : State).setF .rstDomains Fld.rstDomainsReleased
    (s.rf .rstDomains Fld.rstDomainsReleased + 2 ^ n)).setF .rstDomains Fld.rstDomainsWaiting (if n = 8 then 15 else n + 1)

theorem releaseNext_ready {s : State} {n : Nat} (gl : W32) (hn : s.nextDomain = n) (h8 : n ≤ 8) (hr : s.releaseReady n = true) :
    s.releaseNext gl = (s.showRelease n).releaseEffect n gl := by
  subst hn
  rw [State.releaseNext, if_neg (by simp [hr]; omega)]
  rfl

theorem releaseNext_held {s : State} (gl : W32) (h : s.nextDomain = 9 ∨ s.releaseReady s.nextDomain = false) : s.releaseNext gl = s := by
  rw [State.releaseNext, if_pos (by rcases h with h | h <;> simp [h])]

theorem regsOnly_showRelease (s : State) (n : Nat) :
    RegsOnly [.rstDomains] { s with sys := { s.sys with causeNew := false } } (s.showRelease n) :=
  (regsOnly_setF _ _ _ (by simp)).trans (regsOnly_setF _ _ _ (by simp))

theorem waiting_showRelease (s : State) {n : Nat} (h : n ≤ 8) :
    (s.showRelease n).rf .rstDomains Fld.rstDomainsWaiting = if n = 8 then 15 else n + 1 := by
  rw [State.showRelease, rf_setF_same _ _ _ _ (by decide)]
  exact Nat.mod_eq_of_lt (by change _ < 16; split <;> omega)

theorem released_showRelease {s : State} {n k : Nat} (h8 : n ≤ 8) (hn : s.released n = false) (hk : k ≤ 8) :
    (s.showRelease n).released k = (s.released k || k == n) := by
  have hbit : bitsOf (s.rf .rstDomains Fld.rstDomainsReleased) n 1 = 0 := by
    have := bitsOf_lt (s.rf .rstDomains Fld.rstDomainsReleased) n 1
    simp [State.released] at hn
    omega
  have hlt : s.rf .rstDomains Fld.rstDomainsReleased < 2 ^ 9 := bitsOf_lt ..
  rw [State.released, State.showRelease, rf_setF_ne _ _ _ _ _ _ (by decide) (.inr (by decide)), rf_setF_same _ _ _ _ (by decide),
    bitsOf_addBit hlt h8 hbit hk, State.released]
  by_cases hkn : k = n <;> simp [hkn]

/-! ## What a release leaves -/

/-- The register of the domains, memory and station time are as they were. -/
structure DomainsKept (s t : State) : Prop where
  domains : t.rget .rstDomains = s.rget .rstDomains
  mem : t.mem = s.mem
  stn : t.stn = s.stn

theorem DomainsKept.refl (s : State) : DomainsKept s s := ⟨rfl, rfl, rfl⟩

theorem DomainsKept.trans {s t u : State} (hst : DomainsKept s t) (htu : DomainsKept t u) : DomainsKept s u :=
  ⟨htu.domains.trans hst.domains, htu.mem.trans hst.mem, htu.stn.trans hst.stn⟩

theorem RegsOnly.domainsKept {l : List Reg} {s t : State} (h : RegsOnly l s t) (hl : .rstDomains ∉ l) : DomainsKept s t :=
  ⟨h.rget _ hl, (congrArg State.mem h.frame :), (congrArg State.stn h.frame :)⟩

theorem domainsKept_withSys (s : State) (x : Sys) : DomainsKept s { s with sys := x } := ⟨rfl, rfl, rfl⟩

theorem DomainsKept.foldl {α : Type} {f : State → α → State} (hf : ∀ s a, DomainsKept s (f s a)) (l : List α) (s : State) :
    DomainsKept s (l.foldl f s) := by
  induction l generalizing s with
  | nil => exact .refl s
  | cons a l ih => exact (hf s a).trans (ih _)


/-! ## The releases of D0 and D2 (R359, R369, R410, R432) -/

/-- GL[11:0] enter load phase. -/
theorem loadPhase_glLoad (s : State) : s.glLoad.loadPhase = true := by
  rw [State.loadPhase, State.glLoad, State.holdover, rf_setF_ne _ _ _ _ _ _ (by decide) (.inl (by simp)),
    rf_setF_ne _ _ _ _ _ _ (by decide) (.inl (by simp)), rf_setF_ne _ _ _ _ _ _ (by decide) (.inr (by decide)),
    rf_setF_same _ _ _ _ (by decide)]
  decide

theorem regsOnly_glLoad (s : State) : RegsOnly [.bootGlPhase, .timeStatus, .timeAlert] s s.glLoad :=
  ((regsOnly_setF _ _ _ (by simp)).trans (regsOnly_setF _ _ _ (by simp))).trans
    ((regsOnly_setF _ _ _ (by simp)).trans (regsOnly_setF _ _ _ (by simp)))

/-- The clock tree of D2 has locked. -/
def State.rootLocked (s : State) : State := (s.setF .clkStatus Fld.clkStatusRootLock 1).setF .clkStatus Fld.clkStatusInRange 31

theorem regsOnly_rootLocked (s : State) : RegsOnly [.clkStatus] s s.rootLocked :=
  (regsOnly_setF _ _ _ (by simp)).trans (regsOnly_setF _ _ _ (by simp))

/-! ## The release of D7 (R297, R299) -/

theorem domainsKept_setCandidate_none (s : State) (c : Option W64) (dist : Nat) : DomainsKept s (s.setCandidate c dist none) := by
  refine ⟨rget_setCandidate_ne _ _ _ (by simp) (by simp) (by simp), (act_mem_setCandidate ..).2, ?_⟩
  dsimp only [State.setCandidate]
  rw [setParent_none_eq, setF_stn, rset_stn]

/-- An election changes registers of the fabric and the fabric unit. -/
theorem domainsKept_startElection (s : State) : DomainsKept s s.startElection := by
  rw [startElection_eq]
  have hroot : DomainsKept s s.unrooted := ⟨rget_setF_ne _ _ _ _ _ (by simp), rfl, rfl⟩
  exact (hroot.trans (domainsKept_setCandidate_none ..)).trans
    ((regsOnly_setF (l := [.fabStatus]) _ _ _ (by simp)).domainsKept (by simp))

/-- Every enabled port begins to train (R297). -/
def State.portsTrain (s : State) : State := (List.range 64).foldl (fun s p => if s.portEnabled p then s.setPortState p 1 else s) s

theorem portsTrain_step (s : State) (p : Nat) :
    DomainsKept s (if s.portEnabled p then s.setPortState p 1 else s)
      ∧ (if s.portEnabled p then s.setPortState p 1 else s).rget .fabId = s.rget .fabId := by
  split
  · exact ⟨(regsOnly_setF (l := [.fabPortStatus p]) _ _ _ (by simp)).domainsKept (by simp), rget_setF_ne _ _ _ _ _ (by simp)⟩
  · exact ⟨.refl s, rfl⟩

theorem domainsKept_portsTrain (s : State) : DomainsKept s s.portsTrain := .foldl (fun s p => (portsTrain_step s p).1) _ s

theorem fabId_portsTrain (s : State) : s.portsTrain.rget .fabId = s.rget .fabId :=
  List.foldlRecOn (motive := fun t : State => t.rget .fabId = s.rget .fabId) _ _ rfl (fun t h p _ => (portsTrain_step t p).2.trans h)

/-! ## The release of D8 (R342, R344, R352) -/

/-- The keys, and whether the secret is locked. -/
def Sys.keys (x : Sys) : Bool × KeySeeds × KeySeeds := (x.secretLocked, x.identity, x.aliasKeys)

/-- The registers, the memory, station time and the keys are as they were. -/
structure SysOnly (s t : State) : Prop where
  frame : t = { s with sys := t.sys }
  keys : t.sys.keys = s.sys.keys

theorem SysOnly.domainsKept {s t : State} (h : SysOnly s t) : DomainsKept s t := by
  rw [h.frame]
  exact domainsKept_withSys ..

theorem SysOnly.rget {s t : State} (h : SysOnly s t) (r : Reg) : t.rget r = s.rget r := rget_of_csr (congrArg State.csr h.frame :) r

/-- The answer to a LOAD frame. -/
theorem sysOnly_replyLoad (s : State) (code : Nat) : SysOnly s (s.replyLoad code) := by
  unfold State.replyLoad
  split <;> exact ⟨rfl, rfl⟩

/-- What the load has read is in the load buffer. -/
def State.loadStored (s : State) : State :=
  match s.sys.loadRead with
  | some l => s.putBuf 256 l
  | none => s

/-- The controller executes the firmware from its first instruction. -/
def State.firmwareEntered (s : State) : State :=
  { s with sys := { s.sys with
    fwProtected := true, loadRead := none, rv := { s.sys.rv with inSram := true, pc := 0 }
    sramEcc := s.sys.sramEcc.read 0 s.sys.firmware.length } }

/-- BOOT.STATUS shows that the firmware runs. -/
def State.firmwareShown (s : State) : State := (s.setF .bootStatus Fld.bootStatusStage 4).setF .bootStatus Fld.bootStatusError 0

theorem startFirmware_eq (s : State) : s.startFirmware = s.loadStored.firmwareEntered.firmwareShown.replyLoad 0 := rfl

theorem sysOnly_loadStored (s : State) : SysOnly s s.loadStored := by
  unfold State.loadStored
  split <;> exact ⟨rfl, rfl⟩

theorem sysOnly_firmwareEntered (s : State) : SysOnly s s.firmwareEntered := ⟨rfl, rfl⟩

theorem regsOnly_firmwareShown (s : State) : RegsOnly [.bootStatus] s s.firmwareShown :=
  (regsOnly_setF _ _ _ (by simp)).trans (regsOnly_setF _ _ _ (by simp))

theorem stage_firmwareShown (s : State) : s.firmwareShown.stage = 4 := by
  rw [State.stage, State.firmwareShown, rf_setF_ne _ _ _ _ _ _ (by decide) (.inr (by decide)), rf_setF_same _ _ _ _ (by decide)]
  rfl

theorem SysOnly.trans {s t u : State} (hst : SysOnly s t) (htu : SysOnly t u) : SysOnly s u where
  frame := htu.frame.trans (congrArg (fun x : State => { x with sys := u.sys }) hst.frame)
  keys := htu.keys.trans hst.keys

/-- The firmware starts: stage 4, with the keys that the load derived. -/
theorem startFirmware_kept (s : State) : DomainsKept s s.startFirmware ∧ s.startFirmware.stage = 4
    ∧ s.startFirmware.sys.keys = s.sys.keys := by
  have hin : SysOnly s s.loadStored.firmwareEntered := (sysOnly_loadStored s).trans (sysOnly_firmwareEntered _)
  have hshown := regsOnly_firmwareShown s.loadStored.firmwareEntered
  have hreply := sysOnly_replyLoad s.loadStored.firmwareEntered.firmwareShown 0
  rw [startFirmware_eq]
  refine ⟨hin.domainsKept.trans ((hshown.domainsKept (by simp)).trans hreply.domainsKept), ?_, ?_⟩
  · exact (rf_congr (hreply.rget _) _).trans (stage_firmwareShown _)
  · exact hreply.keys.trans ((congrArg (fun x : State => x.sys.keys) hshown.frame :).trans hin.keys)

/-- Deriving the keys changes the keys alone. -/
theorem deriveKeys_eq (s : State) : s.deriveKeys = { s with sys := { s.sys with
    identity := s.deriveKeys.sys.identity, aliasKeys := s.deriveKeys.sys.aliasKeys, secretLocked := s.deriveKeys.sys.secretLocked } } := by
  unfold State.deriveKeys
  split <;> rfl

theorem keys_deriveKeys {s : State} (h : s.sys.secretLocked = false) :
    s.deriveKeys.sys.keys = (true, keySeeds s.sys.fuses.secret identityLabel, keySeeds s.sys.fuses.secret s.aliasLabel) := by
  rw [State.deriveKeys, if_neg (by simp [h])]
  rfl

/-- The ROM begins to advance the rollback counter to an svn (R342). -/
def State.rollbackStarts (s : State) (svn : Nat) : State :=
  ({ s with sys := { s.sys with fuseOp := some (.load svn) } } : State).setF .fuseProgStatus Fld.fuseProgStatusBusy 1

theorem rollbackStarts_kept (s : State) (svn : Nat) : DomainsKept s (s.rollbackStarts svn) ∧ (s.rollbackStarts svn).stage = s.stage
    ∧ (s.rollbackStarts svn).sys = { s.sys with fuseOp := some (.load svn) } :=
  ⟨⟨rget_setF_ne _ _ _ _ _ (by simp), rfl, rfl⟩, rf_setF_ne _ _ _ _ _ _ (by decide) (.inl (by simp)), rfl⟩

/-- The load ends by the advance of the rollback counter, where the image asks for it, or by the start of the firmware. -/
theorem loadEnd_eq (s : State) : s.loadEnd = if s.sys.imageFlags % 2 = 1 ∧ s.sys.fuses.rollback < s.rf .bootImage Fld.bootImageSvn
    then s.deriveKeys.rollbackStarts (s.rf .bootImage Fld.bootImageSvn) else s.deriveKeys.startFirmware := by
  have hflags : s.deriveKeys.sys.imageFlags = s.sys.imageFlags := by rw [deriveKeys_eq]
  have hfuses : s.deriveKeys.sys.fuses = s.sys.fuses := by rw [deriveKeys_eq]
  have hsvn : s.deriveKeys.rf .bootImage Fld.bootImageSvn = s.rf .bootImage Fld.bootImageSvn := by rw [deriveKeys_eq]; rfl
  change (if s.deriveKeys.sys.imageFlags % 2 = 1 ∧ s.deriveKeys.sys.fuses.rollback < s.deriveKeys.rf .bootImage Fld.bootImageSvn
    then s.deriveKeys.rollbackStarts (s.deriveKeys.rf .bootImage Fld.bootImageSvn) else s.deriveKeys.startFirmware) = _
  rw [hflags, hfuses, hsvn]

theorem domainsKept_deriveKeys (s : State) : DomainsKept s s.deriveKeys := by
  rw [deriveKeys_eq]
  exact domainsKept_withSys ..

theorem stage_deriveKeys (s : State) : s.deriveKeys.stage = s.stage := by
  rw [deriveKeys_eq]
  rfl

theorem RegsOnly.stage {l : List Reg} {s t : State} (h : RegsOnly l s t) (hl : .bootStatus ∉ l) : t.stage = s.stage :=
  rf_congr (h.rget _ hl) _

theorem RegsOnly.sys {l : List Reg} {s t : State} (h : RegsOnly l s t) : t.sys = s.sys := (congrArg State.sys h.frame :)

/-- What the end of a load leaves, and the keys it has derived. -/
theorem loadEnd_kept (s : State) : DomainsKept s s.loadEnd
    ∧ (s.sys.imageFlags % 2 = 0 ∨ s.rf .bootImage Fld.bootImageSvn ≤ s.sys.fuses.rollback → s.loadEnd.stage = 4)
    ∧ (s.sys.imageFlags % 2 = 1 → s.sys.fuses.rollback < s.rf .bootImage Fld.bootImageSvn →
        s.loadEnd.stage = s.stage ∧ s.loadEnd.sys.fuseOp = some (.load (s.rf .bootImage Fld.bootImageSvn)))
    ∧ (s.sys.secretLocked = false →
        s.loadEnd.sys.keys = (true, keySeeds s.sys.fuses.secret identityLabel, keySeeds s.sys.fuses.secret s.aliasLabel)) := by
  have hkeys := domainsKept_deriveKeys s
  rw [loadEnd_eq]
  split
  next h =>
    obtain ⟨hkept, hstage, hsys⟩ := rollbackStarts_kept s.deriveKeys (s.rf .bootImage Fld.bootImageSvn)
    refine ⟨hkeys.trans hkept, fun h' => by omega, fun _ _ => ⟨hstage.trans (stage_deriveKeys s), by rw [hsys]⟩, fun hlock => ?_⟩
    rw [hsys]
    exact keys_deriveKeys hlock
  next h =>
    obtain ⟨hkept, hstage, hkeep⟩ := startFirmware_kept s.deriveKeys
    exact ⟨hkeys.trans hkept, fun _ => hstage, fun hf hr => absurd ⟨hf, hr⟩ h, fun hlock => hkeep.trans (keys_deriveKeys hlock)⟩

/-! ## What each domain's release begins (R369) -/

/-- D0: station time starts at zero, the straps are sampled, the POR cause ends. -/
theorem releaseEffect_d0 (s : State) (gl : W32) : (s.releaseEffect 0 gl).rget .rstDomains = s.rget .rstDomains
    ∧ (s.releaseEffect 0 gl).mem = s.mem ∧ (s.releaseEffect 0 gl).stn = 0
    ∧ (s.releaseEffect 0 gl).rget .bootStraps = gl.setWidth 64 ∧ (s.releaseEffect 0 gl).sys.porHolds = false := by
  have hset (u : State) (f g : Fld) (x y : Nat) : RegsOnly [.clkStatus] u ((u.setF .clkStatus f x).setF .clkStatus g y) :=
    (regsOnly_setF _ _ _ (by simp)).trans (regsOnly_setF _ _ _ (by simp))
  have h := hset (({ s with stn := 0, sys := { s.sys with porHolds := false } } : State).rset .bootStraps (gl.setWidth 64))
    Fld.clkStatusRefSel Fld.clkStatusRefOk (bitsOf gl.toNat 11 1) 1
  have hkept := h.domainsKept (by simp)
  refine ⟨hkept.domains.trans (rget_rset_ne _ _ _ _ (by simp)), hkept.mem, hkept.stn, ?_, ?_⟩
  · exact (h.rget _ (by simp)).trans ((rget_rset ..).trans (if_pos rfl))
  · exact (congrArg Sys.porHolds h.sys :)

/-- D2: GL[11:0] enter load phase, unless the boot mode is hold. -/
theorem releaseEffect_d2 (s : State) (gl : W32) :
    s.releaseEffect 2 gl = if s.bootMode = 2 then s.rootLocked else s.rootLocked.glLoad := by
  have hmode : s.rootLocked.bootMode = s.bootMode := by
    rw [State.bootMode, (regsOnly_rootLocked s).rget _ (by simp), State.bootMode]
  change (if s.rootLocked.bootMode = 2 then s.rootLocked else s.rootLocked.glLoad) = _
  rw [hmode]

/-- D7: the strap of the election is sampled, the ports train and the election starts. -/
theorem releaseEffect_d7 (s : State) (gl : W32) : s.releaseEffect 7 gl
    = (s.setF .fabId Fld.fabIdEligible (bitsOf (s.rget .bootStraps).toNat 10 1)).portsTrain.startElection := rfl

theorem eligible_releaseEffect_d7 (s : State) (gl : W32) :
    (s.releaseEffect 7 gl).rf .fabId Fld.fabIdEligible = bitsOf (s.rget .bootStraps).toNat 10 1 := by
  rw [releaseEffect_d7, rf_startElection_keeps _ _ (by decide), rf_congr (fabId_portsTrain _), rf_setF_same _ _ _ _ (by decide)]
  exact Nat.mod_eq_of_lt (bitsOf_lt ..)

/-- D8: the load ends. -/
theorem releaseEffect_d8 (s : State) (gl : W32) : s.releaseEffect 8 gl = (s.setF .clkStatus Fld.clkStatusPcieLock 1).loadEnd := rfl

/-- No release after D0's changes the register of the domains, memory or station time. -/
theorem domainsKept_releaseEffect (s : State) (gl : W32) {n : Nat} (h0 : n ≠ 0) (h8 : n ≤ 8) : DomainsKept s (s.releaseEffect n gl) := by
  match n with
  | 1 | 4 | 5 => exact .refl s
  | 2 =>
    rw [releaseEffect_d2]
    have hlock := (regsOnly_rootLocked s).domainsKept (by simp)
    split
    · exact hlock
    · exact hlock.trans ((regsOnly_glLoad _).domainsKept (by simp))
  | 3 => exact (domainsKept_withSys s _).trans ((regsOnly_setF (l := [.clkStatus]) _ _ _ (by simp)).domainsKept (by simp))
  | 6 => exact ⟨rfl, rfl, rfl⟩
  | 7 =>
    rw [releaseEffect_d7]
    exact ((regsOnly_setF (l := [.fabId]) _ _ _ (by simp)).domainsKept (by simp)).trans
      ((domainsKept_portsTrain _).trans (domainsKept_startElection _))
  | 8 =>
    rw [releaseEffect_d8]
    exact ((regsOnly_setF (l := [.clkStatus]) _ _ _ (by simp)).domainsKept (by simp)).trans (loadEnd_kept _).1

/-- The register of the domains and memory are kept by every release. -/
theorem domains_mem_releaseEffect (s : State) (gl : W32) {n : Nat} (h8 : n ≤ 8) :
    (s.releaseEffect n gl).rget .rstDomains = s.rget .rstDomains ∧ (s.releaseEffect n gl).mem = s.mem := by
  by_cases h0 : n = 0
  · subst h0
    obtain ⟨hdom, hmem, -⟩ := releaseEffect_d0 s gl
    exact ⟨hdom, hmem⟩
  · have h := domainsKept_releaseEffect s gl h0 h8
    exact ⟨h.domains, h.mem⟩

theorem frozen_of_ready {s : State} {n : Nat} (h2 : 2 ≤ n) (h : s.releaseReady n = true) : s.frozen = false := by
  unfold State.releaseReady at h
  split at h <;> simp_all

/-! ## What is seen of a release (R368) -/

theorem rget_showRelease (s : State) (n : Nat) {r : Reg} (h : r ≠ .rstDomains) : (s.showRelease n).rget r = s.rget r :=
  (regsOnly_showRelease s n).rget r (by simpa using h)

theorem bootMode_showRelease (s : State) (n : Nat) : (s.showRelease n).bootMode = s.bootMode := by
  rw [State.bootMode, rget_showRelease _ _ (by simp), State.bootMode]

theorem released_release {s : State} {n k : Nat} (gl : W32) (h8 : n ≤ 8) (hn : s.released n = false) (hk : k ≤ 8) :
    ((s.showRelease n).releaseEffect n gl).released k = (s.released k || k == n) := by
  rw [State.released, rf_congr (domains_mem_releaseEffect _ gl h8).1]
  exact released_showRelease h8 hn hk

theorem waiting_release (s : State) {n : Nat} (gl : W32) (h8 : n ≤ 8) :
    ((s.showRelease n).releaseEffect n gl).rf .rstDomains Fld.rstDomainsWaiting = if n = 8 then 15 else n + 1 :=
  (rf_congr (domains_mem_releaseEffect _ gl h8).1 _).trans (waiting_showRelease s h8)

theorem mem_release (s : State) {n : Nat} (gl : W32) (h8 : n ≤ 8) : ((s.showRelease n).releaseEffect n gl).mem = s.mem :=
  (domains_mem_releaseEffect _ gl h8).2.trans (congrArg State.mem (regsOnly_showRelease s n).frame :)

theorem stn_release (s : State) {n : Nat} (gl : W32) (h0 : n ≠ 0) (h8 : n ≤ 8) : ((s.showRelease n).releaseEffect n gl).stn = s.stn :=
  (domainsKept_releaseEffect _ gl h0 h8).stn.trans (congrArg State.stn (regsOnly_showRelease s n).frame :)

theorem loadPhase_release {s : State} (gl : W32) (h : s.bootMode ≠ 2) : ((s.showRelease 2).releaseEffect 2 gl).loadPhase = true := by
  rw [releaseEffect_d2, bootMode_showRelease, if_neg h]
  exact loadPhase_glLoad _

theorem glPhase_release {s : State} (gl : W32) (h : s.bootMode = 2) :
    ((s.showRelease 2).releaseEffect 2 gl).rget .bootGlPhase = s.rget .bootGlPhase := by
  rw [releaseEffect_d2, bootMode_showRelease, if_pos h, (regsOnly_rootLocked _).rget _ (by simp), rget_showRelease _ _ (by simp)]

theorem eligible_release (s : State) (gl : W32) :
    ((s.showRelease 7).releaseEffect 7 gl).rf .fabId Fld.fabIdEligible = bitsOf (s.rget .bootStraps).toNat 10 1 := by
  rw [eligible_releaseEffect_d7, rget_showRelease _ _ (by simp)]

/-- D8's release: what the end of the load leaves is told by the state before the release. -/
theorem loadEnd_release (s : State) (gl : W32) : let t := (s.showRelease 8).releaseEffect 8 gl
    (s.sys.imageFlags % 2 = 0 ∨ s.rf .bootImage Fld.bootImageSvn ≤ s.sys.fuses.rollback → t.stage = 4)
    ∧ (s.sys.imageFlags % 2 = 1 → s.sys.fuses.rollback < s.rf .bootImage Fld.bootImageSvn →
        t.stage = s.stage ∧ t.sys.fuseOp = some (.load (s.rf .bootImage Fld.bootImageSvn)))
    ∧ (s.sys.secretLocked = false →
        t.sys.keys = (true, keySeeds s.sys.fuses.secret identityLabel, keySeeds s.sys.fuses.secret s.aliasLabel)) := by
  intro t
  have hlock : RegsOnly [.rstDomains, .clkStatus] { s with sys := { s.sys with causeNew := false } }
      ((s.showRelease 8).setF .clkStatus Fld.clkStatusPcieLock 1) :=
    ((regsOnly_setF _ _ _ (by simp)).trans (regsOnly_setF _ _ _ (by simp))).trans (regsOnly_setF _ _ _ (by simp))
  have hsvn : ((s.showRelease 8).setF .clkStatus Fld.clkStatusPcieLock 1).rf .bootImage Fld.bootImageSvn = s.rf .bootImage Fld.bootImageSvn :=
    rf_congr (hlock.rget _ (by simp)) _
  have hlabel : ((s.showRelease 8).setF .clkStatus Fld.clkStatusPcieLock 1).aliasLabel = s.aliasLabel := by
    simp only [State.aliasLabel, State.digest, hsvn, hlock.rget _ (show .bootDigest _ ∉ _ by simp)]
    rfl
  obtain ⟨-, hstart, hroll, hkeys⟩ := loadEnd_kept ((s.showRelease 8).setF .clkStatus Fld.clkStatusPcieLock 1)
  have hstage : ((s.showRelease 8).setF .clkStatus Fld.clkStatusPcieLock 1).stage = s.stage := hlock.stage (by simp)
  rw [← releaseEffect_d8 _ gl, hlock.sys, hsvn] at hstart hroll
  rw [hstage] at hroll
  rw [← releaseEffect_d8 _ gl, hlock.sys, hlabel] at hkeys
  exact ⟨hstart, hroll, hkeys⟩

end Sys2Proof.Machine
end

section
/-! The end of memory training: the windows read as zero, and the tier works or is disabled (R237 to R239). -/

namespace Sys2Proof.Machine

/-! ## Memory that a window no longer holds -/

theorem byteAt_zeroWindow (s : State) (lo hi a : Nat) :
    (s.zeroWindow lo hi).byteAt a = if a < lo ∨ hi ≤ a then s.byteAt a else 0 := by
  refine (kget_filter_keys 0 (fun k => decide (k < lo) || decide (hi ≤ k)) s.mem a).trans ?_
  simp [State.byteAt]

theorem mem_ue_zeroWindow (s : State) (lo hi w : Nat) : w ∈ (s.zeroWindow lo hi).ue ↔ w ∈ s.ue ∧ (4 * w < lo ∨ hi ≤ 4 * w) := by
  simp [State.zeroWindow]

theorem mem_ce_zeroWindow (s : State) (lo hi w : Nat) : w ∈ (s.zeroWindow lo hi).ce ↔ w ∈ s.ce ∧ (4 * w < lo ∨ hi ≤ 4 * w) := by
  simp [State.zeroWindow]

/-- Between two states memory does not differ, with the marks of its words. -/
structure MemoryKept (s t : State) : Prop where
  mem : t.mem = s.mem
  ue : t.ue = s.ue
  ce : t.ce = s.ce

theorem MemoryKept.refl (s : State) : MemoryKept s s := ⟨rfl, rfl, rfl⟩

theorem MemoryKept.trans {s t u : State} (hst : MemoryKept s t) (htu : MemoryKept t u) : MemoryKept s u :=
  ⟨htu.mem.trans hst.mem, htu.ue.trans hst.ue, htu.ce.trans hst.ce⟩

theorem MemoryKept.foldl {α : Type} {f : State → α → State} (hf : ∀ s a, MemoryKept s (f s a)) (l : List α) (s : State) :
    MemoryKept s (l.foldl f s) :=
  List.foldlRecOn (motive := MemoryKept s) _ _ (.refl s) (fun _ h a _ => h.trans (hf _ a))

theorem memoryKept_setF (s : State) (r : Reg) (f : Fld) (x : Nat) : MemoryKept s (s.setF r f x) := ⟨rfl, rfl, rfl⟩

theorem memoryKept_setMc (s : State) (j : Nat) (x : MemCtl) : MemoryKept s (s.setMc j x) := ⟨rfl, rfl, rfl⟩

theorem MemoryKept.byteAt {s t : State} (h : MemoryKept s t) (a : Nat) : t.byteAt a = s.byteAt a := congrArg (kget 0 · a) h.mem

/-- The two windows of DRAM in turn are without what they held. -/
theorem windows_zeroed {s t u : State} (hst : MemoryKept (s.zeroWindow 0 0x10000000000) t)
    (htu : MemoryKept (t.zeroWindow 0x10000000000 0x50000000000) u) {a : Nat} (ha : a < 0x50000000000) :
    u.byteAt a = 0 ∧ a / 4 ∉ u.ue ∧ a / 4 ∉ u.ce := by
  refine ⟨?_, ?_, ?_⟩
  · rw [htu.byteAt, byteAt_zeroWindow]
    split
    · rw [hst.byteAt, byteAt_zeroWindow, if_neg (by omega)]
    · rfl
  · rw [htu.ue, mem_ue_zeroWindow, hst.ue, mem_ue_zeroWindow]
    omega
  · rw [htu.ce, mem_ce_zeroWindow, hst.ce, mem_ce_zeroWindow]
    omega

/-- What lies above both windows stays. -/
theorem above_windows_kept {s t u : State} (hst : MemoryKept (s.zeroWindow 0 0x10000000000) t)
    (htu : MemoryKept (t.zeroWindow 0x10000000000 0x50000000000) u) {a : Nat} (ha : 0x50000000000 ≤ a) : u.byteAt a = s.byteAt a := by
  rw [htu.byteAt, byteAt_zeroWindow, if_pos (by omega), hst.byteAt, byteAt_zeroWindow, if_pos (by omega)]

/-! ## What a record leaves (R394, R404, R405) -/

/-- Between two states memory does not differ, nor a register but those of a freeze. -/
structure FreezeOnly (s t : State) : Prop where
  memory : MemoryKept s t
  rget : ∀ r, r ≠ .frzStatus → r ≠ .frzTime → (∀ w, r ≠ .frzRecord w) → t.rget r = s.rget r

theorem FreezeOnly.refl (s : State) : FreezeOnly s s := ⟨.refl s, fun _ _ _ _ => rfl⟩

theorem FreezeOnly.trans {s t u : State} (hst : FreezeOnly s t) (htu : FreezeOnly t u) : FreezeOnly s u :=
  ⟨hst.memory.trans htu.memory, fun r hs ht hw => (htu.rget r hs ht hw).trans (hst.rget r hs ht hw)⟩

theorem freezeOnly_rset (s : State) {r : Reg} (v : W64) (h : r = .frzStatus ∨ r = .frzTime ∨ ∃ w, r = .frzRecord w) :
    FreezeOnly s (s.rset r v) := by
  refine ⟨⟨rfl, rfl, rfl⟩, fun q hs ht hw => rget_rset_ne _ _ _ _ ?_⟩
  rintro rfl
  rcases h with h | h | ⟨w, h⟩
  · exact hs h
  · exact ht h
  · exact hw w h

theorem freezeOnly_frozenFrames (s : State) : FreezeOnly s s.frozenFrames := by
  unfold State.frozenFrames
  dsimp only
  split_ifs <;> exact ⟨⟨rfl, rfl, rfl⟩, fun _ _ _ _ => rfl⟩

theorem freezeOnly_freeze (s : State) (source cls : Nat) : FreezeOnly s (s.freeze source cls) := by
  have hstatus (s : State) (f : Fld) (x : Nat) : FreezeOnly s (s.setF .frzStatus f x) := freezeOnly_rset s _ (.inl rfl)
  unfold State.freeze
  split
  · exact .refl s
  · extract_lets sys s1 s2
    have h1 : FreezeOnly s s1 := ⟨⟨rfl, rfl, rfl⟩, fun _ _ _ _ => rfl⟩
    have h2 : FreezeOnly s1 s2 := (hstatus ..).trans ((hstatus ..).trans (hstatus ..))
    exact (h1.trans h2).trans ((freezeOnly_rset s2 s.now (.inr (.inl rfl))).trans (freezeOnly_frozenFrames _))

theorem freezeOnly_holdRecord (s : State) (l : List Byte) : FreezeOnly s (s.holdRecord l) :=
  List.foldlRecOn (motive := FreezeOnly s) _ _ (.refl s) (fun _ h w _ => h.trans (freezeOnly_rset _ _ (.inr (.inr ⟨w, rfl⟩))))

theorem freezeOnly_report (s : State) (x : FaultRec) : FreezeOnly s (s.report x) := by
  unfold State.report
  dsimp only
  split
  · exact .refl s
  · split
    · exact (freezeOnly_holdRecord ..).trans (freezeOnly_freeze ..)
    · exact ⟨⟨rfl, rfl, rfl⟩, fun _ _ _ _ => rfl⟩

/-! ## What training changes -/

/-- Between two states no register differs but the status of the controllers and the size of the tier, and the collector does not. -/
structure StatusOnly (s t : State) : Prop where
  rget : ∀ r, r ≠ .hbmcLpSize → (∀ i, r ≠ .hbmcStatus i) → t.rget r = s.rget r
  frozen : t.frozen = s.frozen
  stn : t.stn = s.stn
  flt : t.flt = s.flt

theorem StatusOnly.refl (s : State) : StatusOnly s s := ⟨fun _ _ _ => rfl, rfl, rfl, rfl⟩

theorem StatusOnly.trans {s t u : State} (hst : StatusOnly s t) (htu : StatusOnly t u) : StatusOnly s u :=
  ⟨fun r hl hi => (htu.rget r hl hi).trans (hst.rget r hl hi), htu.frozen.trans hst.frozen, htu.stn.trans hst.stn, htu.flt.trans hst.flt⟩

theorem StatusOnly.foldl {α : Type} {f : State → α → State} (hf : ∀ s a, StatusOnly s (f s a)) (l : List α) (s : State) :
    StatusOnly s (l.foldl f s) :=
  List.foldlRecOn (motive := StatusOnly s) _ _ (.refl s) (fun _ h a _ => h.trans (hf _ a))

theorem statusOnly_zeroWindow (s : State) (lo hi : Nat) : StatusOnly s (s.zeroWindow lo hi) := ⟨fun _ _ _ => rfl, rfl, rfl, rfl⟩

theorem statusOnly_setMc (s : State) (j : Nat) (x : MemCtl) : StatusOnly s (s.setMc j x) := ⟨fun _ _ _ => rfl, rfl, rfl, rfl⟩

theorem statusOnly_setStatus (s : State) (i : Nat) (f : Fld) (x : Nat) : StatusOnly s (s.setF (.hbmcStatus i) f x) :=
  ⟨fun _ _ hi => rget_setF_ne _ _ _ _ _ (hi i), rfl, rfl, rfl⟩

theorem statusOnly_setLpSize (s : State) (f : Fld) (x : Nat) : StatusOnly s (s.setF .hbmcLpSize f x) :=
  ⟨fun _ hl _ => rget_setF_ne _ _ _ _ _ hl, rfl, rfl, rfl⟩

/-- Which channels are populated is in registers that training leaves. -/
theorem StatusOnly.lpPopulated {s t : State} (h : StatusOnly s t) : t.lpPopulated = s.lpPopulated := by
  rw [State.lpPopulated, rf_congr (h.rget _ (by simp) (by simp)), State.lpPopulated]

theorem StatusOnly.lpHas {s t : State} (h : StatusOnly s t) (c : Nat) : t.lpHas c = s.lpHas c := by
  rw [State.lpHas, rf_congr (h.rget _ (by simp) (by simp)), State.lpHas]

/-- A record that is reported after it, and that freezes nothing, is under way to the collector. -/
theorem StatusOnly.report_net {s v : State} (h : StatusOnly s v) {x : FaultRec} (hf : s.frozen = false) (ht : s.triggers x.cls = false) :
    (v.report x).flt.net = s.flt.net ++ [{ x with time := s.now }] := by
  have htrig : v.triggers x.cls = false := by
    rw [State.triggers, h.rget _ (by simp) (by simp)]
    exact ht
  have hnow : v.now = s.now := congrArg (fun n => BitVec.ofNat 64 (n / 2 ^ 40)) h.stn
  rw [report_noted (h.frozen.trans hf) htrig, hnow, h.flt]

/-! ## Fields that a fold sets -/

/-- Of a fold over a range, each step establishes its own fact, and no step undoes another's. -/
theorem foldl_range_establishes {P : Nat → State → Prop} {f : State → Nat → State} (hset : ∀ s i, P i (f s i))
    (hkeep : ∀ s i j, P j s → P j (f s i)) (n : Nat) (s : State) : ∀ i < n, P i ((List.range n).foldl f s) := by
  induction n with
  | zero => simp
  | succ n ih =>
    intro i hi
    rw [List.range_succ, List.foldl_append]
    by_cases hin : i = n
    · subst hin
      exact hset _ i
    · exact hkeep _ n i (ih i (by omega))

/-- A controller's field that is set reads as it, and another controller's fields stay. -/
theorem rf_setStatus (s : State) (i j : Nat) (f : Fld) {x : Nat} (hf : f.lo + f.width ≤ 64) (hx : x < 2 ^ f.width) :
    (s.setF (.hbmcStatus i) f x).rf (.hbmcStatus j) f = if j = i then x else s.rf (.hbmcStatus j) f := by
  split
  next h => rw [h, rf_setF_same _ _ _ _ hf, Nat.mod_eq_of_lt hx]
  next h => exact rf_setF_ne _ _ _ _ _ _ hf (.inl (by simpa using h))

/-! ## HBM (R237) -/

theorem memoryKept_hbmTrained (s : State) : MemoryKept (s.zeroWindow 0 0x10000000000) s.hbmTrained :=
  .foldl (fun s i => memoryKept_setF s (.hbmcStatus i) _ _) _ _

theorem statusOnly_hbmTrained (s : State) : StatusOnly s s.hbmTrained :=
  (statusOnly_zeroWindow ..).trans (.foldl (fun s i => statusOnly_setStatus s i _ _) _ _)

theorem trained_hbmTrained (s : State) : ∀ i < 16, s.hbmTrained.rf (.hbmcStatus i) Fld.hbmcStatusTrained = 1 := by
  refine foldl_range_establishes (P := fun i (t : State) => t.rf (.hbmcStatus i) Fld.hbmcStatusTrained = 1) (fun t i => ?_)
    (fun t i j h => ?_) 16 _
  · rw [rf_setStatus _ _ _ _ (by decide) (by decide), if_pos rfl]
  · rw [rf_setStatus _ _ _ _ (by decide) (by decide), h, ite_self]

/-! ## The tier (R238, R239) -/

/-- The tier's window is without what it held, and no channel has a watermark. -/
def State.lpZeroed (s : State) : State :=
  (List.range 8).foldl (fun s q => s.setMc (32 + q) { s.mc (32 + q) with watermark := [], inited := [] })
    (s.zeroWindow 0x10000000000 0x50000000000)

theorem memoryKept_lpZeroed (s : State) : MemoryKept (s.zeroWindow 0x10000000000 0x50000000000) s.lpZeroed :=
  .foldl (fun s q => memoryKept_setMc s (32 + q) _) _ _

theorem statusOnly_lpZeroed (s : State) : StatusOnly s s.lpZeroed :=
  (statusOnly_zeroWindow ..).trans (.foldl (fun s q => statusOnly_setMc s (32 + q) _) _ _)

theorem rget_lpZeroed (s : State) (r : Reg) : s.lpZeroed.rget r = s.rget r :=
  List.foldlRecOn (motive := fun t : State => t.rget r = s.rget r) _ _ rfl (fun _ h _ _ => h)

/-- The tier is disabled. -/
def State.lpDisabled (s : State) : State :=
  ((List.range 8).foldl (fun s q => s.setF (.hbmcStatus (16 + q)) Fld.hbmcStatusTierOk 0) s).setF .hbmcLpSize Fld.hbmcLpSizeBytes 0

theorem memoryKept_lpDisabled (s : State) : MemoryKept s s.lpDisabled :=
  (MemoryKept.foldl (fun s q => memoryKept_setF s (.hbmcStatus (16 + q)) _ _) _ s).trans (memoryKept_setF ..)

theorem statusOnly_lpDisabled (s : State) : StatusOnly s s.lpDisabled :=
  (StatusOnly.foldl (fun s q => statusOnly_setStatus s (16 + q) _ _) _ s).trans (statusOnly_setLpSize ..)

theorem lpSize_lpDisabled (s : State) : s.lpDisabled.lpSize = 0 := (rf_setF_same _ _ _ _ (by decide)).trans (Nat.zero_mod _)

/-- The tier works. -/
def State.lpWorks (s : State) : State :=
  (List.range 8).foldl (fun s q =>
    (s.setF (.hbmcStatus (16 + q)) Fld.hbmcStatusTrained 1).setF (.hbmcStatus (16 + q)) Fld.hbmcStatusTierOk 1) s

theorem memoryKept_lpWorks (s : State) : MemoryKept s s.lpWorks :=
  .foldl (fun s q => (memoryKept_setF s (.hbmcStatus (16 + q)) _ _).trans (memoryKept_setF _ (.hbmcStatus (16 + q)) _ _)) _ s

theorem tierOk_lpWorks (s : State) : ∀ q < 8, s.lpWorks.rf (.hbmcStatus (16 + q)) Fld.hbmcStatusTierOk = 1 := by
  refine foldl_range_establishes (P := fun q (t : State) => t.rf (.hbmcStatus (16 + q)) Fld.hbmcStatusTierOk = 1)
    (fun t i => ?_) (fun t i j h => ?_) 8 _
  · rw [rf_setStatus _ _ _ _ (by decide) (by decide), if_pos rfl]
  · rw [rf_setStatus _ _ _ _ (by decide) (by decide), rf_setF_ne _ _ _ _ _ _ (by decide) (.inr (by decide)), h, ite_self]

/-- The status of a stack of HBM is no status of the tier. -/
theorem hbmStatus_kept {f : State → Nat → State} (hf : ∀ s q i, i < 16 → (f s q).rget (.hbmcStatus i) = s.rget (.hbmcStatus i))
    (s : State) {i : Nat} (hi : i < 16) : ((List.range 8).foldl f s).rget (.hbmcStatus i) = s.rget (.hbmcStatus i) :=
  List.foldlRecOn (motive := fun t : State => t.rget (.hbmcStatus i) = s.rget (.hbmcStatus i)) _ _ rfl (fun t h q _ => (hf t q i hi).trans h)

theorem hbmStatus_setTier (s : State) (f : Fld) (x q : Nat) {i : Nat} (hi : i < 16) :
    (s.setF (.hbmcStatus (16 + q)) f x).rget (.hbmcStatus i) = s.rget (.hbmcStatus i) :=
  rget_setF_ne _ _ _ _ _ (by simp; omega)

theorem hbmStatus_lpDisabled (s : State) {i : Nat} (hi : i < 16) : s.lpDisabled.rget (.hbmcStatus i) = s.rget (.hbmcStatus i) :=
  (rget_setF_ne _ _ _ _ _ (by simp)).trans (hbmStatus_kept (fun s q _ hi => hbmStatus_setTier s _ _ q hi) s hi)

theorem hbmStatus_lpWorks (s : State) {i : Nat} (hi : i < 16) : s.lpWorks.rget (.hbmcStatus i) = s.rget (.hbmcStatus i) :=
  hbmStatus_kept (fun s q _ hi => (hbmStatus_setTier _ _ _ q hi).trans (hbmStatus_setTier s _ _ q hi)) s hi

/-- How the tier's training ends: without a tier, with a failed channel, or well. -/
theorem lpTrained_eq (s : State) (fail : Option Nat) : s.lpTrained fail = if !s.lpPopulated then s.lpZeroed
    else match fail.filter s.lpHas with
      | some c => s.lpZeroed.lpDisabled.report (mkRec Cls.lpddrTrain 2 Kind.lpmc c)
      | none => s.lpZeroed.lpWorks := by
  have hpop : s.lpZeroed.lpPopulated = s.lpPopulated := (statusOnly_lpZeroed s).lpPopulated
  have hhas : s.lpZeroed.lpHas = s.lpHas := funext (statusOnly_lpZeroed s).lpHas
  change (if !s.lpZeroed.lpPopulated then s.lpZeroed else match fail.filter s.lpZeroed.lpHas with
    | some c => s.lpZeroed.lpDisabled.report (mkRec Cls.lpddrTrain 2 Kind.lpmc c)
    | none => s.lpZeroed.lpWorks) = _
  rw [hpop, hhas]

/-- However it ends, the tier's window is zero and the status of HBM stays. -/
theorem lpTrained_kept (s : State) (fail : Option Nat) : MemoryKept (s.zeroWindow 0x10000000000 0x50000000000) (s.lpTrained fail)
    ∧ ∀ i < 16, (s.lpTrained fail).rget (.hbmcStatus i) = s.rget (.hbmcStatus i) := by
  have hzero := memoryKept_lpZeroed s
  rw [lpTrained_eq]
  split
  · exact ⟨hzero, fun i _ => rget_lpZeroed ..⟩
  · split
    next c _ =>
      have hrep := freezeOnly_report s.lpZeroed.lpDisabled (mkRec Cls.lpddrTrain 2 Kind.lpmc c)
      exact ⟨hzero.trans ((memoryKept_lpDisabled _).trans hrep.memory), fun i hi =>
        (hrep.rget _ (by simp) (by simp) (by simp)).trans ((hbmStatus_lpDisabled _ hi).trans (rget_lpZeroed ..))⟩
    · exact ⟨hzero.trans (memoryKept_lpWorks _), fun i hi => (hbmStatus_lpWorks _ hi).trans (rget_lpZeroed ..)⟩

/-- Without a populated channel that failed the tier works. -/
theorem tierOk_lpTrained {s : State} {fail : Option Nat} (hp : s.lpPopulated = true) (hf : ∀ c, fail = some c → s.lpHas c = false) :
    ∀ q < 8, (s.lpTrained fail).rf (.hbmcStatus (16 + q)) Fld.hbmcStatusTierOk = 1 := by
  have hnone : fail.filter s.lpHas = none := by
    rw [Option.filter_eq_none_iff]
    exact fun c hc => by simp [hf c hc]
  rw [lpTrained_eq, if_neg (by simp [hp]), hnone]
  exact tierOk_lpWorks _

/-- A populated channel that failed disables the tier, and is recorded. -/
theorem lpTrained_fails {s : State} {c : Nat} (hp : s.lpPopulated = true) (hc : s.lpHas c = true) :
    s.lpTrained (some c) = s.lpZeroed.lpDisabled.report (mkRec Cls.lpddrTrain 2 Kind.lpmc c) := by
  rw [lpTrained_eq, if_neg (by simp [hp]), Option.filter_some, if_pos hc]

theorem lpSize_lpTrained {s : State} {c : Nat} (hp : s.lpPopulated = true) (hc : s.lpHas c = true) : (s.lpTrained (some c)).lpSize = 0 := by
  rw [lpTrained_fails hp hc, State.lpSize, rf_congr ((freezeOnly_report ..).rget _ (by simp) (by simp) (by simp))]
  exact lpSize_lpDisabled _

/-- The record of the channel that failed, in the state that training found. -/
theorem net_lpTrained {s t : State} {c : Nat} (h : StatusOnly s t) (hp : s.lpPopulated = true) (hc : s.lpHas c = true) (hf : s.frozen = false)
    (ht : s.triggers Cls.lpddrTrain = false) :
    (t.lpTrained (some c)).flt.net = s.flt.net ++ [{ mkRec Cls.lpddrTrain 2 Kind.lpmc c with time := s.now }] := by
  rw [lpTrained_fails (h.lpPopulated.trans hp) ((h.lpHas c).trans hc)]
  exact (h.trans ((statusOnly_lpZeroed t).trans (statusOnly_lpDisabled _))).report_net hf ht

end Sys2Proof.Machine
end

section
/-! The obligation on device resets and releases (R237, R238, R342, R352, R363 to R369, R373, R451). -/

namespace Sys2Proof.Machine

/-- An end of training that is neither out of place nor a failure of HBM. -/
theorem exec_memoryTrainingComplete {s : State} {fail : Bool} {lp : Option (Fin 64)} (hf : s.frozen = false) (h3 : s.released 3 = true)
    (h4 : s.released 4 = false) (ht : s.rf (.hbmcStatus 0) Fld.hbmcStatusTrained = 0) : exec (.memoryTrainingComplete fail lp) s
      = .next (if fail then s.resetUpper.loadFail 9 else s.hbmTrained.lpTrained (lp.map (fun c => c.val))) := by
  have hruns : s.runs 3 = true := (runs_iff s 3).mpr ⟨hf, by simp [State.up, h3]⟩
  refine (clocked_runs hruns (fun s => s.trainingEnds fail lp)).trans (congrArg Host.Outcome.next ?_)
  rw [State.trainingEnds, if_neg (by simp [h3, h4, ht])]

/-- Settles O54: resets by what the reset state holds, releases by what each domain's own release begins, training by its windows and its
status registers. -/
theorem resetAndReleaseComplete : Obligations.ResetAndReleaseComplete := by
  unfold Obligations.ResetAndReleaseComplete
  refine ⟨fun s => ?_, fun s => ?_⟩
  · intro x resets
    refine ⟨fun hop => by simp [State.fusesLeft, hop], fun n hop hn => rollback_fusesLeft hop hn, reset_of_exec rfl (by decide), ?fall,
      ?devreset, reset_of_exec rfl (by decide), fun hp => reset_of_exec (exec_perst hp) (by decide), fun hp => exec_perst_ignored hp,
      fun key hk => ?badKey, fun hp => ?brownout, fun hp => ?rising, fun m hr hf => reset_of_exec (exec_clockFail hr hf) (by decide),
      ?timeout, ?noTimeout, fun hf => ⟨fun hr => ?lockup, fun hr => ?deadlock⟩, fun hf => ⟨?noLockup, ?noDeadlock⟩,
      fun hon hdue => ?watchdog, fun h => ?noWatchdog, fun enable limit => ⟨fun hon => ?wdtOn, fun hoff => ?wdtOff⟩, rfl, fun key hk => ?badKick⟩
    case fall => exact ⟨_, rfl, (resetTo_deviceReset s (cause := 1) (by decide)).withTap Tap.reset⟩
    case devreset => exact ⟨_, rfl, resetTo_devreset s⟩
    case badKey => exact congrArg Host.Outcome.next (if_neg hk)
    case brownout => exact reset_of_exec (congrArg Host.Outcome.next (if_neg (by simp [hp]))) (by decide)
    case rising =>
      rcases brownout_cases hp with h | h
      · exact ⟨false, s.brownout, rfl, by simp, fun _ => by rw [h]⟩
      · exact ⟨true, s.brownout, rfl, fun _ => h, by simp⟩
    case timeout =>
      rintro n rfl h1 h8 h3 hf
      exact reset_of_exec (exec_releaseClockTimeout h1 h8 h3 hf) (by decide)
    case noTimeout =>
      rintro n rfl h
      exact exec_releaseClockTimeout_held h
    case lockup => exact reset_of_exec ((clocked_runs (by simp [runs_low, hf]) _).trans (congrArg _ (if_pos hr))) (by decide)
    case deadlock =>
      exact reset_of_exec ((clocked_runs (by simp [State.runs, State.up, hf, hr]) _).trans (congrArg _ (if_pos hr))) (by decide)
    case noLockup => exact clocked_held (by simp [State.runs, hf]) _
    case noDeadlock => exact clocked_held (by simp [State.runs, hf]) _
    case watchdog =>
      exact reset_of_exec ((exec_watchdog s).trans (congrArg _ (if_pos ((wdtDue_iff s).mpr ⟨hon, hdue⟩)))) (by decide)
    case noWatchdog =>
      refine (exec_watchdog s).trans (congrArg _ (if_neg ?_))
      rw [wdtDue_iff]
      rintro ⟨hon, hdue⟩
      rcases h with h | h
      · simp [h] at hon
      · omega
    case wdtOn => exact congrArg Host.Outcome.next (if_pos hon)
    case wdtOff =>
      have hset := regsOnly_wdtSet s enable limit.toNat
      refine ⟨_, congrArg Host.Outcome.next (if_neg (by simp [hoff])), ?_, ?_, fun r hr => ?_, hset.wdtRestart⟩
      · exact (wdtOn_wdtRestart _).trans (wdtOn_wdtSet ..)
      · exact (rf_congr (rget_wdtRestart _ _) _).trans (limit_wdtSet s enable limit.isLt)
      · exact (rget_wdtRestart _ r).trans (hset.rget r (by simpa using hr))
    case badKick => exact congrArg Host.Outcome.next (if_neg hk)
  · refine ⟨fun n gl hn h8 hr => ?release, fun gl h => congrArg Host.Outcome.next (releaseNext_held gl h),
      fun lp hf h3 h4 ht => ?training⟩
    case release =>
      refine ⟨_, congrArg Host.Outcome.next (releaseNext_ready gl hn h8 hr), fun k hk => ?_, waiting_release s gl h8, ?d0, ?stn, ?load,
        ?hold, fun h2 => frozen_of_ready h2 hr, ?elect, ?starts, ?rollback, ?keys, mem_release s gl h8⟩
      · subst hn
        exact released_release gl h8 (released_nextDomain h8) hk
      case d0 =>
        rintro rfl
        obtain ⟨-, -, hstn, hstraps, hpor⟩ := releaseEffect_d0 (s.showRelease 0) gl
        exact ⟨hstn, hstraps, hpor⟩
      case stn => exact fun h0 => stn_release s gl h0 h8
      case load => rintro rfl hmode; exact loadPhase_release gl hmode
      case hold => rintro rfl hmode; exact glPhase_release gl hmode
      case elect => rintro rfl; exact eligible_release s gl
      case starts => rintro rfl; exact (loadEnd_release s gl).1
      case rollback => rintro rfl; exact (loadEnd_release s gl).2.1
      case keys =>
        rintro rfl hlock
        have hkeys := (loadEnd_release s gl).2.2 hlock
        simpa [Sys.keys] using hkeys
    case training =>
      have hhbm := statusOnly_hbmTrained s
      obtain ⟨hmem, hkept⟩ := lpTrained_kept s.hbmTrained (lp.map (fun c => c.val))
      refine ⟨exec_memoryTrainingComplete hf h3 h4 ht, _, exec_memoryTrainingComplete hf h3 h4 ht, fun i hi => ?_,
        fun a ha => windows_zeroed (memoryKept_hbmTrained s) hmem ha, fun hp hc => ?works, ?fails,
        fun a ha => above_windows_kept (memoryKept_hbmTrained s) hmem ha⟩
      · exact (rf_congr (hkept i hi) _).trans (trained_hbmTrained s i hi)
      case works =>
        refine tierOk_lpTrained (hhbm.lpPopulated.trans hp) fun c hlp => ?_
        obtain ⟨c', hc', rfl⟩ := Option.map_eq_some_iff.mp hlp
        exact (hhbm.lpHas _).trans (hc c' hc')
      case fails =>
        rintro hp c rfl hc
        exact ⟨lpSize_lpTrained (hhbm.lpPopulated.trans hp) ((hhbm.lpHas c).trans hc), fun htrig => net_lpTrained hhbm hp hc hf htrig⟩

end Sys2Proof.Machine
end

section
/-! Answers to fabric reads whose work has ended (R86, R306): their data goes nowhere. -/

namespace Sys2Proof.Machine

/-- What has been read for work that has ended is kept for nobody: only the open request goes (R86, R306). -/
theorem exec_rddata_gone {s u v : State} {k : Pkt} {r : OpenReq} (hs : s.runs 7 = true) (ht : s.takePkt PT.rddata = some (k, u))
    (ha : u.answered k = some (r, v)) (hr : r.owner = .gone) : exec .rddata s = .next v := by
  have hexec : exec .rddata s = execRddata s := rfl
  rw [hexec, execRddata, clocked_runs hs]
  simp [ht, ha, State.keepFetched, hr]

/-- The answer of a request leaves what has been read for the units. -/
theorem fetched_answered {u v : State} {k : Pkt} {r : OpenReq} (h : u.answered k = some (r, v)) : v.fab.fetched = u.fab.fetched := by
  unfold State.answered at h
  split at h
  · cases h; rfl
  · cases h

/-- A line of device 7 has come by port 0. -/
def lineFrom7 : Pkt :=
  { vc := 1, hop := 0, typ := PT.rddata, dst := 0, src := 7, path := false, gen := 0, tag := 0, off := 0x40, payload := [] }

/-- The open request of a walk that has ended (R86), which that line answers. -/
def readOfEndedWalk : OpenReq :=
  { tag := 0, gen := 0, owner := .gone, who := Who.tile 0, dev := 7, off := 0x40, write := false, bytes := 64, pos := 0 }

/-- D0 to D8 are released, the request is open and its answer waits to be taken. -/
def endedWalkAnswered : State :=
  { State.reset with csr := [(.rstDomains, 0x1FF)], fab := { Fabric.reset with inq := [(0, lineFrom7)], openReqs := [readOfEndedWalk] } }

/-- Refutes O44: RDDATA for an open request whose work has ended is dropped, and not kept under its owner (R86, R306). -/
theorem not_fabricRequestsComplete : ¬ Obligations.FabricRequestsComplete := by
  unfold Obligations.FabricRequestsComplete
  intro h
  have hs : endedWalkAnswered.runs 7 = true := by decide +kernel
  obtain ⟨u, ht⟩ : ∃ u, endedWalkAnswered.takePkt PT.rddata = some (lineFrom7, u) := ⟨_, rfl⟩
  obtain ⟨v, ha⟩ : ∃ v, u.answered lineFrom7 = some (readOfEndedWalk, v) := by
    obtain rfl : _ = u := (Prod.mk.inj (Option.some.inj ht)).2
    exact ⟨_, rfl⟩
  obtain ⟨-, -, -, -, -, -, -, -, -, -, -, -, hanswer, -⟩ := h endedWalkAnswered u lineFrom7 hs
  obtain ⟨hdata, -⟩ := hanswer readOfEndedWalk v ha
  obtain ⟨t, hexec, hfetched, -⟩ := hdata ht
  obtain rfl := Host.Outcome.next.inj (hexec.symm.trans (exec_rddata_gone hs ht ha rfl))
  rw [fetched_answered ha] at hfetched
  simp at hfetched

end Sys2Proof.Machine
end

section
/-! Snoops at a core (R269, R272 to R274). -/

namespace Sys2Proof.Machine

/-! ## Lines of a core -/

/-- A core that has dropped a line holds no copy of it. -/
@[simp] theorem copy_drop_same (x : HostCore) (la : Nat) : (x.drop la).copy la = none := by
  simp [HostCore.copy, HostCore.drop]

/-- The first entry of a key, once one has been put in its place in a table that had none. -/
theorem find?_kins_same {β : Type} (k : Nat) (v : β) (m : NMap β) (h : ∀ e ∈ m, e.1 ≠ k) :
    (kins (fun n => n) k v m).find? (fun e => e.1 == k) = some (k, v) := by
  induction m with
  | nil => simp [kins]
  | cons e m ih =>
    rw [List.forall_mem_cons] at h
    unfold kins
    split
    · simp
    · simp [h.1, ih h.2]

/-- A core that has taken a line in holds it as it came (R273). -/
@[simp] theorem copy_hold_same (x : HostCore) (la : Nat) (l : CacheLine) : (x.hold la l).copy la = some l := by
  have hfind := find?_kins_same la l (x.drop la).lines (by simp [HostCore.drop])
  have hlines : (x.hold la l).lines = kins (fun n => n) la l (x.drop la).lines := by
    unfold HostCore.hold
    extract_lets y
    split_ifs <;> rfl
  simp [HostCore.copy, hlines, hfind]

/-! ## A message is received -/

/-- The cores are as they were before the message was taken. -/
theorem Arrives.core {s u : State} {m : Msg} (h : Arrives s m u) (k : Nat) : u.core k = s.core k := by
  obtain ⟨-, pre, post, -, -, rfl⟩ := h
  rfl

/-- What is left once a message has been taken differs from the state before in the mesh alone. -/
theorem Arrives.frame {s u : State} {m : Msg} (h : Arrives s m u) : u = { s with mesh := u.mesh } := by
  obtain ⟨-, pre, post, -, -, rfl⟩ := h
  rfl

/-- A test that agrees with `sameWay` takes the message that arrives. -/
theorem popFirst_of_arrives {s u : State} {m : Msg} {p : Msg → Bool} (h : Arrives s m u) (hp : ∀ x, p x = sameWay m x)
    (hm : sameWay m m = true) : popFirst p s.mesh = some (m, u.mesh) := (popFirst_arrives s u m p hp hm h).1


/-- The command that takes the first snoop of a kind. -/
def snoopCommand (c : CoreId) (evicting : Bool) : SnpKind → Instr
  | .shared => .snpShared c evicting
  | .inv => .snpInv c evicting
  | .cur => .snpCur c evicting

/-- A snoop that arrives is answered (R273). -/
theorem exec_snoop {s u : State} {k : SnpKind} {c : CoreId} {la : Nat} {f : Option Nat} {a : Option Agent} (evicting : Bool)
    (h : Arrives s (.snp k c la f a) u) : exec (snoopCommand c evicting k) s = .next (u.answer k c la f a evicting) := by
  have hs : s.runs 5 = true := h.1
  have htake : s.takeSnoop k c = some (la, f, a, u) := by
    unfold State.takeSnoop
    rw [popFirst_of_arrives h (fun m => by cases m <;> simp [sameWay, BEq.comm]) (by simp [sameWay])]
    exact congrArg (fun x => some (la, f, a, x)) h.frame.symm
  have hrecv : s.recvSnoop k c evicting = u.answer k c la f a evicting := by simp only [State.recvSnoop, htake]
  cases k <;> exact (clocked_runs hs (fun s => s.recvSnoop _ c evicting)).trans (congrArg _ hrecv)

/-! ## Its answers -/

section
variable {s : State} {k : SnpKind} {c la : Nat} {f : Option Nat} {a : Option Agent} {evicting : Bool} {st : LineState} {d : Line}

/-- A write-back of the line is in flight. -/
theorem answer_flying (h : s.wbFlying c la = true) : s.answer k c la f a evicting = s.mesh! (.snpAck c la false false true) := by
  simp [State.answer, h]

/-- The core holds no copy. -/
theorem answer_absent (h : s.wbFlying c la = false) (hc : (s.core c).copy la = none) :
    s.answer k c la f a evicting = s.mesh! (.snpAck c la false false false) := by
  simp [State.answer, h, hc]

/-- SnpShared at a core with a copy: it keeps the line SHARED and sends it on, and dirty data goes home. -/
theorem answer_shared {o : Nat} (h : s.wbFlying c la = false) (hc : (s.core c).copy la = some ⟨st, d⟩) :
    s.answer .shared c la (some o) a false = { s.setCore c ((s.core c).hold la ⟨.shared, d⟩) with
      mesh := s.mesh ++ [.fwdData o la d false] ++ (if st = .modified then [.snpData c la d] else [])
        ++ [.snpAck c la true (st == .modified) false] } := by
  cases st <;> simp [State.answer, h, hc, State.mesh!]

/-- SnpInv for another core takes the copy to it. -/
theorem answer_inv_forward {o : Nat} (h : s.wbFlying c la = false) (hc : (s.core c).copy la = some ⟨st, d⟩) :
    s.answer .inv c la (some o) a false = { s.setCore c ((s.core c).drop la) with
      mesh := s.mesh ++ [.fwdData o la d (st == .modified), .snpAck c la true false false] } := by
  simp [State.answer, h, hc, State.mesh!]

/-- SnpInv for the home takes the copy, and dirty data goes home. -/
theorem answer_inv_home (h : s.wbFlying c la = false) (hc : (s.core c).copy la = some ⟨st, d⟩) :
    s.answer .inv c la none a false = { s.setCore c ((s.core c).drop la) with
      mesh := s.mesh ++ (if st = .modified then [.snpData c la d] else []) ++ [.snpAck c la true (st == .modified) false] } := by
  cases st <;> simp [State.answer, h, hc, State.mesh!]

/-- SnpCur leaves the copy and sends it to the agent. -/
theorem answer_cur {g : Agent} (h : s.wbFlying c la = false) (hc : (s.core c).copy la = some ⟨st, d⟩) :
    s.answer .cur c la f (some g) false = { s with mesh := s.mesh ++ [.data g la d, .snpAck c la true false false] } := by
  simp [State.answer, h, hc, State.mesh!]

/-- A core that is about to evict an owned line begins its write-back instead (R274). -/
theorem answer_evicting (h : s.wbFlying c la = false) (hc : (s.core c).copy la = some ⟨st, d⟩) (hst : st ≠ .shared) :
    s.answer k c la f a true = { s.setCore c ((s.core c).drop la) with
      mesh := s.mesh ++ [if st = .modified then .wbDirty c la d else .wbClean c la, .snpAck c la false false true] } := by
  cases st <;> simp [State.answer, h, hc, State.mesh!] at hst ⊢

end

/-- A core has changed and messages have been sent: what it holds of the line now, and that nothing else differs from the state in which the
snoop arrived. -/
theorem setCore_send {s u : State} {c la : Nat} {m : Msg} {x : HostCore} {y : Option CacheLine} (h : Arrives s m u) (hx : x.copy la = y)
    (l : List Msg) :
    let t : State := { u.setCore c x with mesh := l }
    (t.core c).copy la = y ∧ (∀ k, k ≠ c → t.core k = s.core k) ∧ { t with mesh := s.mesh, cores := s.cores } = s := by
  obtain ⟨-, pre, post, -, -, rfl⟩ := h
  exact ⟨(congrArg (HostCore.copy · la) (core_setCore_same ..)).trans hx, fun k hk => core_setCore_ne _ _ _ _ hk, rfl⟩

/-- Settles O36: a snoop that arrives is answered as `answer_shared` and the lemmas beside it say. -/
theorem snoopsComplete : Obligations.SnoopsComplete := by
  unfold Obligations.SnoopsComplete
  intro s u c la f a
  refine ⟨fun k i hi h => ?_, fun o st d h hw hc => ?_, fun o st d h hw hc => ?_, fun st d h hw hc => ?_, fun g st d h hw hc => ?_,
    fun st d h hw hc hst => ?_⟩
  · have hi : i = snoopCommand c false k := by
      simp only [List.mem_cons, Prod.mk.injEq, List.not_mem_nil, or_false] at hi
      obtain ⟨rfl, rfl⟩ | ⟨rfl, rfl⟩ | ⟨rfl, rfl⟩ := hi <;> rfl
    subst hi
    rw [exec_snoop false h]
    exact ⟨fun hw => congrArg _ (answer_flying hw), fun hw hc => congrArg _ (answer_absent hw (by rw [h.core, hc]))⟩
  · obtain ⟨hcopy, hothers⟩ := setCore_send h (copy_hold_same ..) _
    exact ⟨_, (exec_snoop false h).trans (congrArg _ (answer_shared hw (by rw [h.core, hc]))), hcopy, hothers, rfl⟩
  · obtain ⟨hcopy, hothers⟩ := setCore_send h (copy_drop_same ..) _
    exact ⟨_, (exec_snoop false h).trans (congrArg _ (answer_inv_forward hw (by rw [h.core, hc]))), hcopy, hothers, rfl⟩
  · obtain ⟨hcopy, hothers⟩ := setCore_send h (copy_drop_same ..) _
    exact ⟨_, (exec_snoop false h).trans (congrArg _ (answer_inv_home hw (by rw [h.core, hc]))), hcopy, hothers, rfl⟩
  · exact (exec_snoop false h).trans (congrArg _ (answer_cur hw (by rw [h.core, hc])))
  · obtain ⟨hcopy, hothers⟩ := setCore_send h (copy_drop_same ..) _
    exact ⟨_, (exec_snoop true h).trans (congrArg _ (answer_evicting hw (by rw [h.core, hc]) hst)), hcopy, hothers, rfl⟩

end Sys2Proof.Machine
end

section
/-! Responses at a core (R263, R269, R272, R273): grants and data, denials and acknowledgements. -/

namespace Sys2Proof.Machine

/-- A command of a unit that runs goes on to what it makes of the state. -/
theorem exec_of_clocked {i : Instr} {s t : State} {d : Nat} {f : State → State} (hi : exec i s = clocked d s f) (hs : s.runs d = true)
    (h : f s = t) : exec i s = .next t := by rw [hi, clocked_runs hs, h]

/-- A receiver is given the message that arrives, and the state without it. -/
theorem receive_arrives {s u : State} {m : Msg} {p : Msg → Bool} (g : State → Msg → State) (h : Arrives s m u)
    (hp : ∀ x, p x = sameWay m x) (hm : sameWay m m = true) : s.receive p g = g u m := by
  unfold State.receive
  rw [popFirst_of_arrives h hp hm]
  exact congrArg (g · m) h.frame.symm

/-- A command that receives a message, when one arrives. -/
theorem exec_receives {i : Instr} {s u t : State} {m : Msg} {p : Msg → Bool} {g : State → Msg → State}
    (hi : exec i s = clocked m.domain s (fun s => s.receive p g)) (h : Arrives s m u) (hp : ∀ x, p x = sameWay m x)
    (hm : sameWay m m = true) (ht : g u m = t) : exec i s = .next t :=
  exec_of_clocked hi h.1 ((receive_arrives g h hp hm).trans ht)

/-! ## Making room -/

/-- The messages that make room depend on the lines of the core alone. -/
theorem evictMsgs_congr {s t : State} {c : Nat} (h : (t.core c).lines = (s.core c).lines) (la : Nat) : evictMsgs t c la = evictMsgs s c la := by
  unfold evictMsgs HostCore.copy
  rw [h]

/-- Between two states core `c` has sent messages and has changed, its misses apart, and nothing else has (R16, R273). -/
structure CoreSends (s t : State) (c : Nat) (l : List Msg) : Prop where
  misses : (t.core c).misses = (s.core c).misses
  others : ∀ k, k ≠ c → t.core k = s.core k
  sent : t.mesh = s.mesh ++ l
  frame : { t with mesh := s.mesh, cores := s.cores } = s

theorem CoreSends.refl (s : State) (c : Nat) : CoreSends s s c [] := ⟨rfl, fun _ _ => rfl, (List.append_nil _).symm, rfl⟩

/-- A core that drops a line sends the messages that go with it. -/
theorem coreSends_drop (s : State) (c v : Nat) (l : List Msg) :
    CoreSends s { s.setCore c ((s.core c).drop v) with mesh := s.mesh ++ l } c l where
  misses := (congrArg HostCore.misses (core_setCore_same s c ((s.core c).drop v)) :)
  others _ hk := core_setCore_ne s _ _ _ hk
  sent := rfl
  frame := rfl

/-- A core drops a line silently. -/
theorem coreSends_drop_silent (s : State) (c v : Nat) : CoreSends s (s.setCore c ((s.core c).drop v)) c [] := by
  have h := coreSends_drop s c v []
  rwa [List.append_nil] at h

/-- A core without a miss makes room for a line that it does not hold (R16). -/
theorem coreSends_makeRoom {s : State} {c la : Nat} (hm : (s.core c).misses = []) (hc : (s.core c).copy la = none) :
    CoreSends s (s.makeRoom c la) c (evictMsgs s c la) := by
  have hidle : (s.core c).lines.filter (fun e => !(s.core c).misses.any (fun m => m.line == e.1)) = (s.core c).lines := by simp [hm]
  unfold State.makeRoom evictMsgs
  simp only [hidle, hc, Option.isSome_none, Bool.false_eq_true, or_false]
  split
  · exact .refl s c
  · cases (s.core c).lines[Config.l2Victim c la % (s.core c).lines.length]? with
    | none => exact .refl s c
    | some e =>
      obtain ⟨v, st, d⟩ := e
      cases st with
      | shared => exact coreSends_drop_silent s c v
      | exclusive => exact coreSends_drop s c v [.wbClean c v]
      | modified => exact coreSends_drop s c v [.wbDirty c v d]

/-! ## Installing a line -/

/-- What a core keeps of a line whose grant and data it holds: its store is performed where it owns the line (R273, R275). -/
def Miss.installs (m : Miss) (g : LineState) (d : Line) : CacheLine :=
  let stores := g != .shared && m.storeMask != 0
  ⟨if g = .shared then .shared else if m.dirty || stores then .modified else .exclusive,
    if stores then mergeLine d m.storeData m.storeMask else d⟩

/-- Between two states core `c`, which had one miss, has installed its line, sent CompAck, and made room before (R16, R273). -/
structure Installs (s t : State) (c la : Nat) (l : CacheLine) : Prop where
  copy : (t.core c).copy la = some l
  misses : (t.core c).misses = []
  sent : t.mesh = s.mesh ++ evictMsgs s c la ++ [.compAck c la]
  others : ∀ k, k ≠ c → t.core k = s.core k
  frame : { t with mesh := s.mesh, cores := s.cores } = s

/-- Taking a line in leaves the misses of a core. -/
theorem misses_hold (x : HostCore) (la : Nat) (l : CacheLine) : (x.hold la l).misses = x.misses := by
  unfold HostCore.hold
  extract_lets y
  split_ifs <;> rfl

/-- The line is taken in once there is room for it. -/
theorem Installs.of_room {s t : State} {c la : Nat} (l : CacheLine) (h : CoreSends s t c (evictMsgs s c la))
    (hm : (s.core c).misses = []) : Installs s ((t.setCore c ((t.core c).hold la l)).mesh! (.compAck c la)) c la l where
  copy := (congrArg (HostCore.copy · la) (core_setCore_same ..)).trans (copy_hold_same ..)
  misses := (congrArg HostCore.misses (core_setCore_same ..)).trans ((misses_hold ..).trans (h.misses.trans hm))
  sent := congrArg (· ++ [Msg.compAck c la]) h.sent
  others k hk := (core_setCore_ne t c k _ hk).trans (h.others k hk)
  frame := h.frame

/-- A core whose one miss has its grant and its data installs the line. -/
theorem installs_fillCore {s : State} {c la : Nat} {m : Miss} {g : LineState} {d : Line} (hm : (s.core c).misses = [m]) (hl : m.line = la)
    (hg : m.grant = some g) (hd : m.data = some d) : Installs s (s.fillCore c la) c la (m.installs g d) := by
  let w := s.setCore c { s.core c with misses := [] }
  have hcore : w.core c = { s.core c with misses := [] } := core_setCore_same ..
  have hevict : evictMsgs w c la = evictMsgs s c la := evictMsgs_congr (congrArg HostCore.lines hcore :) la
  have hroom : CoreSends w (if ((s.core c).copy la).isSome then w else w.makeRoom c la) c (evictMsgs w c la) := by
    split
    next h =>
      have hnone : evictMsgs w c la = [] := by rw [hevict]; simp [evictMsgs, h]
      rw [hnone]
      exact .refl w c
    next h => exact coreSends_makeRoom (by rw [hcore]) ((congrArg (HostCore.copy · la) hcore).trans (Option.not_isSome_iff_eq_none.mp h))
  have hfill : s.fillCore c la = (let t := if ((s.core c).copy la).isSome then w else w.makeRoom c la
      (t.setCore c ((t.core c).hold la (m.installs g d))).mesh! (.compAck c la)) := by
    simp [State.fillCore, hm, hl, hg, hd, Miss.installs, w]
  have hw : Installs w (s.fillCore c la) c la (m.installs g d) := by
    rw [hfill]
    exact .of_room _ hroom (by rw [hcore])
  exact {
    copy := hw.copy
    misses := hw.misses
    sent := by rw [hw.sent, hevict]; rfl
    others := fun k hk => (hw.others k hk).trans (core_setCore_ne s c k _ hk)
    frame := (congrArg (fun x : State => { x with mesh := s.mesh, cores := s.cores }) hw.frame :) }

/-- A core with one miss changes it, and installs the line if that completes its grant and its data. -/
theorem installs_modMiss {s : State} {c la : Nat} {m : Miss} (f : Miss → Miss) {g : LineState} {d : Line} (hm : (s.core c).misses = [m])
    (hl : m.line = la) (hl' : (f m).line = la) (hg : (f m).grant = some g) (hd : (f m).data = some d) :
    Installs s ((s.modMiss c la f).fillCore c la) c la ((f m).installs g d) := by
  have hcore : (s.modMiss c la f).core c = { s.core c with misses := [f m] } :=
    (core_setCore_same ..).trans (by simp [hm, modifyFirst, hl])
  have hi := installs_fillCore (congrArg HostCore.misses hcore :) hl' hg hd
  exact {
    copy := hi.copy
    misses := hi.misses
    sent := by rw [hi.sent, evictMsgs_congr (lines_modMiss ..)]; rfl
    others := fun k hk => (hi.others k hk).trans (core_modMiss_ne s c la k f hk)
    frame := (congrArg (fun x : State => { x with mesh := s.mesh, cores := s.cores }) hi.frame :) }

/-! ## The messages -/

section
variable {s u : State} {c la : Nat} {m : Miss}

/-- The core waits for the line. -/
theorem misses_one (hm : (s.core c).misses = [m]) (hl : m.line = la) : s.misses c la = true := by simp [State.misses, hm, hl]

/-- A grant whose data has come (R273, R275): the core installs the line, and performs its store if it runs. -/
theorem installs_onGrant (hm : (s.core c).misses = [m]) (hl : m.line = la) (g : LineState) {d : Line} (hd : m.data = some d) (mask : W64)
    (new : Line) : Installs s (s.onGrant g c la mask new) c la
      (({ m with grant := some g, storeMask := if s.coreRuns c then mask else 0, storeData := new } : Miss).installs g d) := by
  rw [State.onGrant, if_pos (misses_one hm hl)]
  exact installs_modMiss _ hm hl hl rfl hd

/-- What a grant of ownership installs at a core that runs and whose data is clean. -/
theorem installs_owned (m : Miss) {g : LineState} (hg : g ≠ .shared) (hdirty : m.dirty = false) (d : Line) (mask : W64) (new : Line) :
    ({ m with grant := some g, storeMask := mask, storeData := new } : Miss).installs g d
      = if mask = 0 then ⟨.exclusive, d⟩ else ⟨.modified, mergeLine d new mask⟩ := by
  by_cases hz : mask = 0
  · simp [Miss.installs, hg, hdirty, hz]
  · have hne : (mask != 0) = true := by simpa using hz
    simp only [Miss.installs, hdirty, hne, if_neg hz]
    simp [hg]

/-- A shared line is installed as it came. -/
theorem installs_shared (m : Miss) (d : Line) : m.installs .shared d = ⟨.shared, d⟩ := by simp [Miss.installs]

/-- Data before its grant is kept in the miss. -/
theorem onData_waits (hm : (s.core c).misses = [m]) (hl : m.line = la) (hg : m.grant = none) (d : Line) :
    s.onData c la d = s.setCore c { s.core c with misses := if s.usable la then [{ m with data := some d }] else [] } := by
  have hmod : s.modMiss c la (fun m => { m with data := some d }) = s.setCore c { s.core c with misses := [{ m with data := some d }] } := by
    simp [State.modMiss, hm, modifyFirst, hl]
  unfold State.onData
  split
  · simp [hmod, State.fillCore, hl, hg]
  · simp [hm, hl]

/-- A denial ends the miss, and is recorded if the access retires (R263). -/
theorem onDeny_noted (hm : (s.core c).misses = [m]) (hl : m.line = la) (hf : s.frozen = false) (ht : s.triggers Cls.biasHost = false) :
    let t := s.onDeny c la
    (t.core c).misses = [] ∧ (t.core c).lines = (s.core c).lines ∧ t.flt.net = s.flt.net
      ++ (if m.retires then [{ biasRec c la with time := s.now }] else []) ∧ (∀ k, k ≠ c → t.core k = s.core k)
      ∧ { t with cores := s.cores, flt := s.flt } = s := by
  have hfails : ((s.missFails c la).core c).misses = [] ∧ ((s.missFails c la).core c).lines = (s.core c).lines := by
    simp [State.missFails, hm, hl]
  have hothers (k : Nat) (hk : k ≠ c) : (s.missFails c la).core k = s.core k := core_setCore_ne _ _ _ _ hk
  have hreport : (s.missFails c la).report (biasRec c la) = { s.missFails c la with
      flt := { s.flt with net := s.flt.net ++ [{ biasRec c la with time := s.now }] } } := report_noted hf ht
  unfold State.onDeny
  cases hr : m.retires with
  | false =>
    rw [if_neg (by simp [hm, hr])]
    exact ⟨hfails.1, hfails.2, (List.append_nil _).symm, hothers, rfl⟩
  | true =>
    rw [if_pos (by simp [hm, hl, hr]), hreport]
    exact ⟨hfails.1, hfails.2, rfl, hothers, rfl⟩

end

/-- What a line that has been installed leaves of the state in which the message arrived. -/
theorem Installs.completes {s u t : State} {i : Instr} {c la : Nat} {m : Msg} {l : CacheLine} (ha : Arrives s m u) (hi : exec i s = .next t)
    (h : Installs u t c la l) : Completes i s (fun t =>
      ((t.core c).copy la = some l ∧ (t.core c).misses = [] ∧ t.mesh = u.mesh ++ evictMsgs s c la ++ [.compAck c la])
        ∧ (∀ k, k ≠ c → t.core k = s.core k) ∧ t.mem = s.mem ∧ t.homes = s.homes) := by
  obtain ⟨hcopy, hmisses, hsent, hothers, hframe⟩ := h
  rw [evictMsgs_congr (s := s) (congrArg HostCore.lines (ha.core c)) la] at hsent
  have hu := ha.frame
  refine ⟨t, hi, ⟨hcopy, hmisses, hsent⟩, fun k hk => (hothers k hk).trans (ha.core k), ?_, ?_⟩
  · exact (congrArg State.mem hframe :).trans (congrArg State.mem hu :)
  · exact (congrArg State.homes hframe :).trans (congrArg State.homes hu :)

/-! Parts of the state that taking a message from the mesh leaves. -/
theorem Arrives.coreRuns {s u : State} {m : Msg} (h : Arrives s m u) (k : Nat) : u.coreRuns k = s.coreRuns k :=
  (congrArg (State.coreRuns · k) h.frame :)
theorem Arrives.usable {s u : State} {m : Msg} (h : Arrives s m u) (a : Nat) : u.usable a = s.usable a :=
  (congrArg (State.usable · a) h.frame :)
theorem Arrives.triggers {s u : State} {m : Msg} (h : Arrives s m u) (cls : Nat) : u.triggers cls = s.triggers cls :=
  (congrArg (State.triggers · cls) h.frame :)
theorem Arrives.mem {s u : State} {m : Msg} (h : Arrives s m u) : u.mem = s.mem := (congrArg State.mem h.frame :)
theorem Arrives.homes {s u : State} {m : Msg} (h : Arrives s m u) : u.homes = s.homes := (congrArg State.homes h.frame :)
theorem Arrives.flt {s u : State} {m : Msg} (h : Arrives s m u) : u.flt = s.flt := (congrArg State.flt h.frame :)
theorem Arrives.now {s u : State} {m : Msg} (h : Arrives s m u) : u.now = s.now := (congrArg State.now h.frame :)

/-- The command by which a core receives a grant. -/
def grantCommand (c : CoreId) (mask : W64) (new : Line) : LineState → Instr
  | .shared => .cmpS c
  | .exclusive => .cmpE c mask new
  | .modified => .cmpM c mask new

/-- A core receives a grant (R273, R275): SHARED permits no store. -/
theorem exec_grant {s u : State} {g : LineState} {c : CoreId} {la : Nat} {mask : W64} {new : Line} (h : Arrives s (.cmp g c la) u)
    (hg : g = .shared → mask = 0 ∧ new = 0) : exec (grantCommand c mask new g) s = .next (u.onGrant g c la mask new) := by
  have hrecv : s.recvGrant g c mask new = u.onGrant g c la mask new :=
    receive_arrives _ h (fun m => by cases m <;> simp [sameWay, BEq.comm]) (by simp [sameWay])
  have hs : s.runs 5 = true := h.1
  cases g with
  | shared =>
    obtain ⟨rfl, rfl⟩ := hg rfl
    exact (clocked_runs hs (fun s => s.recvGrant .shared c 0 0)).trans (congrArg _ hrecv)
  | exclusive => exact (clocked_runs hs (fun s => s.recvGrant .exclusive c mask new)).trans (congrArg _ hrecv)
  | modified => exact (clocked_runs hs (fun s => s.recvGrant .modified c mask new)).trans (congrArg _ hrecv)

/-- A core receives a line from its home. -/
theorem exec_data_core {s u : State} {c : CoreId} {la : Nat} {d : Line} (h : Arrives s (.data (.core c) la d) u) :
    exec (.data (.core c)) s = .next (u.onData c la d) :=
  exec_receives rfl h (fun m => by cases m <;> simp [sameWay, BEq.comm]) (by simp [sameWay]) rfl

/-- A non-caching agent receives a line: its observation point shows the first 8 bytes. -/
theorem exec_data_agent {s u : State} {a : Agent} {la : Nat} {d : Line} (ha : ∀ k, a ≠ .core k) (h : Arrives s (.data a la d) u) :
    exec (.data a) s = .next { u with readData := d.setWidth 64 } := by
  refine exec_receives rfl h (fun m => by cases m <;> simp [sameWay, BEq.comm]) (by simp [sameWay]) ?_
  cases a with
  | core k => exact absurd rfl (ha k)
  | _ => rfl

/-- A core receives a line cache to cache. -/
theorem exec_fwdData {s u : State} {c : CoreId} {la : Nat} {d : Line} {dirty : Bool} (h : Arrives s (.fwdData c la d dirty) u) :
    exec (.fwdData c) s = .next (u.onFwdData c la d dirty) :=
  exec_receives rfl h (fun m => by cases m <;> simp [sameWay, BEq.comm]) (by simp [sameWay]) rfl

/-- A core receives a denial. -/
theorem exec_deny {s u : State} {c : CoreId} {la : Nat} (h : Arrives s (.deny c la) u) : exec (.deny c) s = .next (u.onDeny c la) :=
  exec_receives rfl h (fun m => by cases m <;> simp [sameWay, BEq.comm]) (by simp [sameWay]) rfl

/-- An acknowledgement leaves the mesh. -/
theorem exec_wbAck {s u : State} {c : CoreId} {la : Nat} (h : Arrives s (.wbAck c la) u) : exec (.wbAck c) s = .next u :=
  exec_receives rfl h (fun m => by cases m <;> simp [sameWay, BEq.comm]) (by simp [sameWay]) rfl

/-- The acknowledgement of a write leaves the mesh. -/
theorem exec_wrAck {s u : State} {a : Agent} {la : Nat} (h : Arrives s (.wrAck a la) u) : exec .wrAck s = .next u :=
  exec_receives rfl h (fun m => by cases m <;> simp [sameWay]) (by simp [sameWay]) rfl

/-- Settles O37: what a core installs is said by `installs_onGrant` and `installs_modMiss`, what is denied by `onDeny_noted`. -/
theorem coreResponsesComplete : Obligations.CoreResponsesComplete := by
  unfold Obligations.CoreResponsesComplete
  intro s u c la m hm hl others holds
  have waits {x : Msg} (h : Arrives s x u) : (u.core c).misses = [m] := by rw [h.core, hm]
  have owned {g : LineState} (hg : g ≠ .shared) {d mask new} (hruns : s.coreRuns c = true) (hd : m.data = some d) (hdirty : m.dirty = false)
      (h : Arrives s (.cmp g c la) u) : Installs u (u.onGrant g c la mask new) c la
        (if mask = 0 then ⟨.exclusive, d⟩ else ⟨.modified, mergeLine d new mask⟩) := by
    have hi := installs_onGrant (waits h) hl g hd mask new
    rwa [h.coreRuns, if_pos hruns, installs_owned m hg hdirty] at hi
  refine ⟨fun d h hd => ?_, fun d mask new hruns hd hdirty => ⟨fun h => ?_, fun h => ?_⟩, fun d h hg => ?_, fun d dirty h hg => ?_,
    fun h ht => ?_, exec_wbAck, fun a => exec_wrAck, fun a d ha => exec_data_agent ha⟩
  · have hi := installs_onGrant (waits h) hl .shared hd 0 0
    rw [installs_shared] at hi
    exact hi.completes h (exec_grant h (fun _ => ⟨rfl, rfl⟩))
  · exact (owned (by decide) hruns hd hdirty h).completes h (exec_grant h nofun)
  · exact (owned (by decide) hruns hd hdirty h).completes h (exec_grant h nofun)
  · refine ⟨_, (exec_data_core h).trans (congrArg _ (onData_waits (waits h) hl hg d)), ?_, rfl, ?_, fun k hk => ?_, h.mem, h.homes⟩
    · rw [core_setCore_same, h.usable]
    · rw [core_setCore_same, h.core]
    · rw [core_setCore_ne _ _ _ _ hk, h.core]
  · have hi := installs_modMiss (fun m => { m with data := some d, dirty := dirty }) (waits h) hl hl hg rfl
    rw [installs_shared] at hi
    exact hi.completes h ((exec_fwdData h).trans (congrArg _ (if_pos (misses_one (waits h) hl))))
  · have hf : u.frozen = false := (congrArg State.frozen h.frame :).trans (not_frozen_of_runs h.1)
    obtain ⟨hmisses, hlines, hnet, hothers, hframe⟩ := onDeny_noted (waits h) hl hf ((h.triggers _).trans ht)
    refine ⟨_, exec_deny h, hmisses, hlines.trans (by rw [h.core]), (congrArg State.mesh hframe :), ⟨fun k hk => ?_, ?_, ?_⟩, ?_⟩
    · exact (hothers k hk).trans (h.core k)
    · exact (congrArg State.mem hframe :).trans h.mem
    · exact (congrArg State.homes hframe :).trans h.homes
    · rw [hnet, h.flt, h.now]

end Sys2Proof.Machine
end

section
/-! Bias flips (R261, R264 to R267): their commit, the recalls that they start, and their end. -/

namespace Sys2Proof.Machine

/-! ## Registers beside the flip and the values in force -/

theorem rget_withFlip (s : State) (x : Option Flip) (r : Reg) : ({ s with flip := x } : State).rget r = s.rget r := rfl
theorem rf_withFlip (s : State) (x : Option Flip) (r : Reg) (f : Fld) : ({ s with flip := x } : State).rf r f = s.rf r f := rfl
theorem rget_withBias (s : State) (x : List Nat) (r : Reg) : ({ s with bias := x } : State).rget r = s.rget r := rfl
theorem rf_commitReg (s : State) (r r' : Reg) (f : Fld) : (s.commitReg r).rf r' f = s.rf r' f := rfl

/-- Setting two fields around a commit touches registers and values in force alone. -/
theorem setF_commitReg_setF_frame (s : State) (r r' r'' : Reg) (f f' : Fld) (x x' : Nat) :
    { ((s.setF r f x).commitReg r'').setF r' f' x' with csr := s.csr, act := s.act } = s := rfl

theorem setF_withBias_frame (s : State) (r : Reg) (f : Fld) (x : Nat) (g : List Nat) :
    { ({ s.setF r f x with bias := g } : State) with csr := s.csr, bias := s.bias } = s := rfl

theorem bias_setF_withBias (s : State) (r : Reg) (f : Fld) (x : Nat) (g : List Nat → List Nat) :
    ({ s.setF r f x with bias := g (s.setF r f x).bias } : State).bias = g s.bias := rfl

/-! ## The commit (R264) -/

theorem biasError_lt (s : State) (first count : Nat) : s.biasError first count < 8 := by
  unfold State.biasError
  extract_lets pages ok last
  split_ifs <;> omega

/-- A bias command that has passed its checks is in force, and HOME.BIAS_STATUS shows no error and no page changed yet. -/
def State.biasAccepted (s : State) : State :=
  ((s.setF .homeBiasStatus Fld.homeBiasStatusCommitError 0).commitReg .homeBiasCmd).setF .homeBiasStatus Fld.homeBiasStatusChanged 0

/-- The flip that the staged command asks for. -/
def State.stagedFlip (s : State) : Flip :=
  let f (x : Fld) : Nat := s.rf .homeBiasCmd x
  ⟨f Fld.homeBiasCmdFirst, f Fld.homeBiasCmdCount, f Fld.homeBiasCmdTarget == 1, f Fld.homeBiasCmdPegEn == 1, f Fld.homeBiasCmdPeg, 0⟩

/-- HOME.BIAS_STATUS shows that a flip is in progress, and it is. -/
def State.flipBegins (s : State) (f : Flip) : State := { s.setF .homeBiasStatus Fld.homeBiasStatusBusy 1 with flip := some f }

/-- The flip of an accepted command has begun, its recalls apart. -/
def State.biasStarted (s : State) : State := s.biasAccepted.flipBegins s.stagedFlip

section
variable {s : State}

/-- A command in error shows its code and does nothing else. -/
theorem biasCommit_error (he : s.biasError (s.rf .homeBiasCmd Fld.homeBiasCmdFirst) (s.rf .homeBiasCmd Fld.homeBiasCmdCount) ≠ 0) :
    s.biasCommit = s.setF .homeBiasStatus Fld.homeBiasStatusCommitError
      (s.biasError (s.rf .homeBiasCmd Fld.homeBiasCmdFirst) (s.rf .homeBiasCmd Fld.homeBiasCmdCount)) := if_pos he

/-- A command of count 0 flips nothing, and only signals its peg. -/
theorem biasCommit_empty (he : s.biasError (s.rf .homeBiasCmd Fld.homeBiasCmdFirst) (s.rf .homeBiasCmd Fld.homeBiasCmdCount) = 0)
    (hc : s.rf .homeBiasCmd Fld.homeBiasCmdCount = 0) : s.biasCommit = if s.rf .homeBiasCmd Fld.homeBiasCmdPegEn = 1
      then s.biasAccepted.pegSignal (s.rf .homeBiasCmd Fld.homeBiasCmdPeg) 1 else s.biasAccepted := by
  unfold State.biasCommit
  extract_lets f first count e t u peg en v
  have hv : v = s.biasAccepted := congrArg (fun x => ((s.setF .homeBiasStatus Fld.homeBiasStatusCommitError x).commitReg .homeBiasCmd).setF
    .homeBiasStatus Fld.homeBiasStatusChanged 0) he
  rw [if_neg (not_not.mpr he), if_pos hc, hv]
  simp [en, peg, f]

/-- Any other command starts its flip. -/
theorem biasCommit_starts (he : s.biasError (s.rf .homeBiasCmd Fld.homeBiasCmdFirst) (s.rf .homeBiasCmd Fld.homeBiasCmdCount) = 0)
    (hc : s.rf .homeBiasCmd Fld.homeBiasCmdCount ≠ 0) : s.biasCommit = s.biasStarted.flipRecall := by
  unfold State.biasCommit
  extract_lets f first count e t u peg en v w
  have hv : v = s.biasAccepted := congrArg (fun x => ((s.setF .homeBiasStatus Fld.homeBiasStatusCommitError x).commitReg .homeBiasCmd).setF
    .homeBiasStatus Fld.homeBiasStatusChanged 0) he
  rw [if_neg (not_not.mpr he), if_neg hc]
  simp only [w, hv]
  rfl

end

/-- What an accepted command shows and leaves. -/
theorem biasAccepted_shows (s : State) :
    s.biasAccepted.rf .homeBiasStatus Fld.homeBiasStatusBusy = s.rf .homeBiasStatus Fld.homeBiasStatusBusy
      ∧ s.biasAccepted.rf .homeBiasStatus Fld.homeBiasStatusCommitError = 0
      ∧ s.biasAccepted.rf .homeBiasStatus Fld.homeBiasStatusChanged = 0
      ∧ s.biasAccepted.aget .homeBiasCmd = s.rget .homeBiasCmd
      ∧ (∀ r, r ≠ .homeBiasStatus → s.biasAccepted.rget r = s.rget r)
      ∧ { s.biasAccepted with csr := s.csr, act := s.act } = s := by
  unfold State.biasAccepted
  refine ⟨?_, ?_, ?_, ?_, fun r hr => ?_, setF_commitReg_setF_frame ..⟩
  · rw [rf_setF_ne _ _ _ _ _ _ (by decide) (.inr (by decide)), rf_commitReg, rf_setF_ne _ _ _ _ _ _ (by decide) (.inr (by decide))]
  · rw [rf_setF_ne _ _ _ _ _ _ (by decide) (.inr (by decide)), rf_commitReg, rf_setF_same _ _ _ _ (by decide), Nat.zero_mod]
  · rw [rf_setF_same _ _ _ _ (by decide), Nat.zero_mod]
  · rw [aget_setF, aget_commitReg, if_pos rfl, rget_setF_ne _ _ _ _ _ (by decide)]
  · rw [rget_setF_ne _ _ _ _ _ hr, rget_commitReg, rget_setF_ne _ _ _ _ _ hr]

/-- What a flip that begins changes. -/
theorem flipBegins_shows (s : State) (f : Flip) :
    (s.flipBegins f).rf .homeBiasStatus Fld.homeBiasStatusBusy = 1
      ∧ (s.flipBegins f).rf .homeBiasStatus Fld.homeBiasStatusChanged = s.rf .homeBiasStatus Fld.homeBiasStatusChanged
      ∧ (∀ r, r ≠ .homeBiasStatus → (s.flipBegins f).rget r = s.rget r)
      ∧ { s.flipBegins f with csr := s.csr, flip := s.flip } = s := by
  unfold State.flipBegins
  refine ⟨?_, ?_, fun r hr => ?_, rfl⟩
  · rw [rf_withFlip, rf_setF_same _ _ _ _ (by decide)]; rfl
  · rw [rf_withFlip, rf_setF_ne _ _ _ _ _ _ (by decide) (.inr (by decide))]
  · rw [rget_withFlip, rget_setF_ne _ _ _ _ _ hr]

/-- One step changes registers and values in force alone, the next registers and the flip. -/
theorem frame_trans_flip {s t u : State} (ht : { t with csr := s.csr, act := s.act } = s) (hu : { u with csr := t.csr, flip := t.flip } = t) :
    u.act = t.act ∧ { u with csr := s.csr, act := s.act, flip := s.flip } = s := by
  have h := congrArg (fun x : State => { x with csr := s.csr, act := s.act, flip := s.flip }) hu
  exact ⟨(congrArg State.act hu :), h.trans (congrArg (fun x : State => { x with flip := s.flip }) ht)⟩

/-- What a command that has started its flip shows and leaves. -/
theorem biasStarted_shows (s : State) :
    s.biasStarted.rf .homeBiasStatus Fld.homeBiasStatusBusy = 1 ∧ s.biasStarted.rf .homeBiasStatus Fld.homeBiasStatusChanged = 0
      ∧ s.biasStarted.aget .homeBiasCmd = s.rget .homeBiasCmd ∧ (∀ r, r ≠ .homeBiasStatus → s.biasStarted.rget r = s.rget r)
      ∧ { s.biasStarted with csr := s.csr, act := s.act, flip := s.flip } = s := by
  obtain ⟨-, -, hchanged, hactCmd, hkept, hframe⟩ := biasAccepted_shows s
  obtain ⟨hbusy, hsame, hother, hrest⟩ := flipBegins_shows s.biasAccepted s.stagedFlip
  obtain ⟨hact, hall⟩ := frame_trans_flip hframe hrest
  refine ⟨hbusy, hsame.trans hchanged, (aget_of_act hact _).trans hactCmd, fun r hr => (hother r hr).trans (hkept r hr), hall⟩

/-! ## The recalls of a flip (R265) -/

/-- Between two states lines have been recalled: transactions have been opened, and directories and the flip are as they were. -/
structure Recalls (s t : State) : Prop where
  flip : t.flip = s.flip
  dir : ∀ k, (t.home k).dir = (s.home k).dir
  openOn : ∀ k la, (s.home k).openOn la = true → (t.home k).openOn la = true

theorem recalls_recall (s : State) (e : DirEntry) (b : Option Nat) : Recalls s (s.recall e b) := by
  have hsnoops (l : List Nat) (s : State) : (l.foldl (fun s c => s.snoop .inv c e.line none none) s).flip = s.flip
      ∧ (l.foldl (fun s c => s.snoop .inv c e.line none none) s).homes = s.homes := by
    induction l generalizing s with
    | nil => exact ⟨rfl, rfl⟩
    | cons c l ih => exact ih _
  obtain ⟨hflip, hhomes⟩ := hsnoops e.st.cores (s.openTxn e.line (.recall b) e.st.cores false)
  have hhome (k : Nat) : (s.recall e b).home k = (s.openTxn e.line (.recall b) e.st.cores false).home k := congrArg (kget Home.reset · k) hhomes
  refine ⟨hflip, fun k => ?_, fun k la => ?_⟩ <;> rw [hhome, State.openTxn, home_setHome]
  · split
    next h => rw [h]
    · rfl
  · split
    next h =>
      rw [h]
      intro ho
      simp only [Home.openOn, List.any_append, Bool.or_eq_true]
      exact .inl ho
    · exact id

/-- The entries of a home that a flip recalls: those of its run that are not pinned. -/
def State.recallDue (s : State) (h : Nat) : List DirEntry := (s.home h).dir.filter (fun e => s.flips e.line && !(s.home h).pinned e)

/-- A home where a flip recalls nothing has nothing to recall once other lines have been recalled. -/
theorem Recalls.due_nil {s t : State} (h : Recalls s t) {k : Nat} (hk : s.recallDue k = []) : t.recallDue k = [] := by
  have hflips (la : Nat) : t.flips la = s.flips la := by simp only [State.flips, h.flip]
  simp only [State.recallDue, List.filter_eq_nil_iff, h.dir, hflips, Home.pinned] at hk ⊢
  intro e he hdue
  refine hk e he ?_
  simp only [Bool.and_eq_true, Bool.not_eq_true', Bool.or_eq_false_iff] at hdue ⊢
  exact ⟨hdue.1, hdue.2.1, by simpa using mt (h.openOn k e.line) (by simp [hdue.2.2])⟩

/-- A flip recalls at one home. -/
def State.flipRecallAt (s : State) (h : Nat) : State := (s.recallDue h).foldl (fun s e => s.recall e none) s

/-- A flip to DEVICE recalls home by home. -/
theorem flipRecall_device {s : State} {f : Flip} (hf : s.flip = some f) (hd : f.device = true) :
    s.flipRecall = (List.range 40).foldl State.flipRecallAt s := by
  unfold State.flipRecall
  rw [hf]
  exact if_pos hd

/-- A flip to SHARED recalls nothing. -/
theorem flipRecall_shared {s : State} {f : Flip} (hf : s.flip = some f) (hd : f.device = false) : s.flipRecall = s := by
  unfold State.flipRecall
  rw [hf]
  exact if_neg (by simp [hd])

/-- Homes without an entry to recall. -/
theorem foldl_flipRecallAt_idle (l : List Nat) {s : State} (h : ∀ k ∈ l, s.recallDue k = []) : l.foldl State.flipRecallAt s = s := by
  induction l with
  | nil => rfl
  | cons k l ih =>
    rw [List.forall_mem_cons] at h
    have hk : s.flipRecallAt k = s := by rw [State.flipRecallAt, h.1]; rfl
    rw [List.foldl_cons, hk, ih h.2]

/-- One entry to recall, at one of the homes. -/
theorem flipRecall_one {s : State} {f : Flip} {h : Nat} {e : DirEntry} (hf : s.flip = some f) (hd : f.device = true) (hh : h < 40)
    (he : s.recallDue h = [e]) (hrest : ∀ k, k ≠ h → s.recallDue k = []) : s.flipRecall = s.recall e none := by
  obtain ⟨pre, post, hl⟩ := List.append_of_mem (List.mem_range.mpr hh)
  have hnodup : (pre ++ h :: post).Nodup := hl ▸ List.nodup_range
  have hpre : ∀ k ∈ pre, k ≠ h := fun k hk hkh => (List.nodup_append.mp hnodup).2.2 k hk h (by simp) hkh
  have hpost : ∀ k ∈ post, k ≠ h := fun k hk hkh => (List.nodup_cons.mp (List.nodup_append.mp hnodup).2.1).1 (hkh ▸ hk)
  have hat : s.flipRecallAt h = s.recall e none := by rw [State.flipRecallAt, he]; rfl
  rw [flipRecall_device hf hd, hl, List.foldl_append, foldl_flipRecallAt_idle pre (fun k hk => hrest k (hpre k hk)), List.foldl_cons, hat]
  exact foldl_flipRecallAt_idle post (fun k hk => (recalls_recall s e none).due_nil (hrest k (hpost k hk)))

/-! ## The end of a flip (R265, R266) -/

/-- HOME.BIAS_STATUS shows no flip in progress, and there is none. -/
def State.flipEnds (s : State) : State := { s.setF .homeBiasStatus Fld.homeBiasStatusBusy 0 with flip := none }

/-- The pages of a flip have their bias and the flip has ended; requests that it held still wait. -/
def State.biasSet (s : State) (f : Flip) : State := (s.setBias f).flipEnds

/-- Every home serves what waits. -/
def State.drainHomes (s : State) : State := (s.homes.map Prod.fst).foldl (fun s h => s.drainHome h) s

/-- A flip that may complete does. -/
theorem flipEnd_done {s : State} {f : Flip} (hf : s.flip = some f) (hd : s.flipDone f = true) :
    s.flipEnd = if f.pegEn then (s.biasSet f).drainHomes.pegSignal f.peg 1 else (s.biasSet f).drainHomes := by
  unfold State.flipEnd
  rw [hf]
  exact if_pos hd

/-- The pages of DEVICE bias once those of a flip have its bias. -/
def Flip.applied (f : Flip) (pages : List Nat) : List Nat :=
  pages.filter (fun x => x < f.first) ++ (if f.device then List.range' f.first f.count else []) ++ pages.filter (fun x => f.first + f.count ≤ x)

/-- What setting the pages of a flip changes. -/
theorem setBias_changes (s : State) (f : Flip) :
    (s.setBias f).bias = f.applied s.bias ∧ (∀ r, r ≠ .homeBiasStatus → (s.setBias f).rget r = s.rget r)
      ∧ { s.setBias f with csr := s.csr, bias := s.bias } = s := by
  unfold State.setBias
  extract_lets
  refine ⟨bias_setF_withBias s _ _ _ f.applied, fun r hr => ?_, setF_withBias_frame ..⟩
  rw [rget_withBias, rget_setF_ne _ _ _ _ _ hr]

/-- What the end of a flip changes. -/
theorem flipEnds_changes (s : State) : s.flipEnds.bias = s.bias ∧ s.flipEnds.rf .homeBiasStatus Fld.homeBiasStatusBusy = 0
    ∧ (∀ r, r ≠ .homeBiasStatus → s.flipEnds.rget r = s.rget r) ∧ { s.flipEnds with csr := s.csr, flip := s.flip } = s := by
  unfold State.flipEnds
  refine ⟨rfl, ?_, fun r hr => ?_, rfl⟩
  · rw [rf_withFlip, rf_setF_same _ _ _ _ (by decide), Nat.zero_mod]
  · rw [rget_withFlip, rget_setF_ne _ _ _ _ _ hr]

/-- The pages that a flip leaves on DEVICE. -/
theorem mem_bias_biasSet (s : State) (f : Flip) (p : Nat) :
    p ∈ (s.biasSet f).bias ↔ if f.first ≤ p ∧ p < f.first + f.count then f.device = true else p ∈ s.bias := by
  have hbias := (flipEnds_changes (s.setBias f)).1.trans (setBias_changes s f).1
  have hrun : p ∈ (if f.device then List.range' f.first f.count else []) ↔ f.device = true ∧ f.first ≤ p ∧ p < f.first + f.count := by
    cases f.device <;> simp [List.mem_range'_1]
  rw [State.biasSet, hbias]
  simp only [Flip.applied, List.mem_append, hrun, List.mem_filter, decide_eq_true_eq]
  split_ifs with h
  · constructor
    · rintro ((⟨-, hlt⟩ | ⟨hd, -⟩) | ⟨-, hle⟩)
      · omega
      · exact hd
      · omega
    · exact fun hd => .inl (.inr ⟨hd, h⟩)
  · constructor
    · rintro ((⟨hp, -⟩ | ⟨-, hin⟩) | ⟨hp, -⟩)
      · exact hp
      · exact absurd hin h
      · exact hp
    · intro hp
      by_cases hlt : p < f.first
      · exact .inl (.inl ⟨hp, hlt⟩)
      · exact .inr ⟨hp, by omega⟩

/-- A flip that has ended, its requests apart: HOME.BIAS_STATUS shows it, and no other register and no other part of the state changes. -/
theorem biasSet_shows (s : State) (f : Flip) : (s.biasSet f).rf .homeBiasStatus Fld.homeBiasStatusBusy = 0
    ∧ (∀ r, r ≠ .homeBiasStatus → (s.biasSet f).rget r = s.rget r)
    ∧ { s.biasSet f with csr := s.csr, bias := s.bias, flip := s.flip } = s := by
  obtain ⟨-, hother, hframe⟩ := setBias_changes s f
  obtain ⟨-, hbusy, hkept, hrest⟩ := flipEnds_changes (s.setBias f)
  refine ⟨hbusy, fun r hr => (hkept r hr).trans (hother r hr), ?_⟩
  have h := congrArg (fun x : State => { x with csr := s.csr, bias := s.bias, flip := s.flip }) hrest
  exact h.trans (congrArg (fun x : State => { x with flip := s.flip }) hframe)

theorem flip_biasSet (s : State) (f : Flip) : (s.biasSet f).flip = none := rfl

/-- Serving homes where nothing waits changes none of them, and nothing else. -/
theorem foldl_drainHome_idle (l : List Nat) {s : State} (h : ∀ k, (s.home k).queue = []) :
    (∀ k, (l.foldl (fun s j => s.drainHome j) s).home k = s.home k) ∧ { l.foldl (fun s j => s.drainHome j) s with homes := s.homes } = s := by
  induction l generalizing s with
  | nil => exact ⟨fun _ => rfl, rfl⟩
  | cons j l ih =>
    have hj : s.drainHome j = s.setHome j (s.home j) := by
      have hq := h j
      generalize hx : s.home j = x at hq
      simp only [State.drainHome, hx, hq, State.serveQueue]
      rw [← hq]
    have hhome (k : Nat) : (s.drainHome j).home k = s.home k := by
      rw [hj, home_setHome]
      split
      next hk => rw [hk]
      · rfl
    obtain ⟨hrest, hframe⟩ := ih (s := s.drainHome j) (fun k => by rw [hhome, h])
    refine ⟨fun k => (hrest k).trans (hhome k), ?_⟩
    exact (congrArg (fun x : State => { x with homes := s.homes }) hframe :).trans (by rw [hj]; rfl)

/-- One step changes registers, page biases and the flip alone, the next homes. -/
theorem frame_trans_homes {s t u : State} (ht : { t with csr := s.csr, bias := s.bias, flip := s.flip } = s)
    (hu : { u with homes := t.homes } = t) : u.csr = t.csr ∧ u.bias = t.bias ∧ u.flip = t.flip
      ∧ { u with csr := s.csr, bias := s.bias, flip := s.flip, homes := s.homes } = s := by
  have h := congrArg (fun x : State => { x with csr := s.csr, bias := s.bias, flip := s.flip, homes := s.homes }) hu
  exact ⟨(congrArg State.csr hu :), (congrArg State.bias hu :), (congrArg State.flip hu :),
    h.trans (congrArg (fun x : State => { x with homes := s.homes }) ht)⟩

/-- The homes are what they were where only registers, page biases and the flip change. -/
theorem homes_of_biasFrame {s t : State} (h : { t with csr := s.csr, bias := s.bias, flip := s.flip } = s) : t.homes = s.homes :=
  (congrArg State.homes h :)

/-- The homes are what they were where only registers, values in force and the flip change. -/
theorem homes_of_flipFrame {s t : State} (h : { t with csr := s.csr, act := s.act, flip := s.flip } = s) : t.homes = s.homes :=
  (congrArg State.homes h :)

theorem flip_bias_of_actFrame {s t : State} (h : { t with csr := s.csr, act := s.act } = s) : t.flip = s.flip ∧ t.bias = s.bias :=
  ⟨(congrArg State.flip h :), (congrArg State.bias h :)⟩

theorem home_of_homes {s t : State} (h : t.homes = s.homes) (k : Nat) : t.home k = s.home k := congrArg (kget Home.reset · k) h

/-- Settles O39: the commit by `biasCommit_error`, `biasCommit_starts` and `biasCommit_empty`, the recalls by `flipRecall_one`, the end by
`flipEnd_done`. -/
theorem biasFlipsComplete : Obligations.BiasFlipsComplete := by
  unfold Obligations.BiasFlipsComplete
  intro s hs f first count
  refine ⟨fun he => ?error, fun he hc ht => ?shared, fun he hc ht => ?device, fun he hc => ?empty, fun x u hf hd hp hu => ?peg,
    fun x hf hd hp hq => ?done⟩
  case error =>
    refine completes_clocked (f := State.biasCommit) rfl hs ?_
    rw [biasCommit_error he]
    exact ⟨(rf_setF_same _ _ _ _ (by decide)).trans (Nat.mod_eq_of_lt ((biasError_lt ..).trans (by decide))), fun r hr => rget_setF_ne _ _ _ _ _ hr, rfl⟩
  case shared =>
    obtain ⟨hbusy, hchanged, hact, hkept, hframe⟩ := biasStarted_shows s
    have hflip : s.biasStarted.flip = some ⟨first, count, false, f Fld.homeBiasCmdPegEn == 1, f Fld.homeBiasCmdPeg, 0⟩ := by
      have hstaged : s.stagedFlip = ⟨first, count, s.rf .homeBiasCmd Fld.homeBiasCmdTarget == 1, f Fld.homeBiasCmdPegEn == 1,
        f Fld.homeBiasCmdPeg, 0⟩ := rfl
      rw [show s.rf .homeBiasCmd Fld.homeBiasCmdTarget = _ from ht] at hstaged
      exact congrArg some hstaged
    refine completes_clocked (f := State.biasCommit) rfl hs ?_
    rw [biasCommit_starts he hc, flipRecall_shared hflip rfl]
    exact ⟨hbusy, hchanged, hflip, hact, hkept, hframe⟩
  case device =>
    obtain ⟨hbusy, hchanged, hact, hkept, hframe⟩ := biasStarted_shows s
    have hflip : s.biasStarted.flip = some ⟨first, count, true, f Fld.homeBiasCmdPegEn == 1, f Fld.homeBiasCmdPeg, 0⟩ := by
      have hstaged : s.stagedFlip = ⟨first, count, s.rf .homeBiasCmd Fld.homeBiasCmdTarget == 1, f Fld.homeBiasCmdPegEn == 1,
        f Fld.homeBiasCmdPeg, 0⟩ := rfl
      rw [show s.rf .homeBiasCmd Fld.homeBiasCmdTarget = _ from ht] at hstaged
      exact congrArg some hstaged
    have hhome := home_of_homes (homes_of_flipFrame hframe)
    refine ⟨s.biasStarted, exec_of_clocked (f := State.biasCommit) rfl hs (biasCommit_starts he hc),
      ⟨hbusy, hchanged, hflip, hact, hkept, hframe⟩, ?_⟩
    simp only [← hhome]
    refine ⟨fun hdue => ?_, fun h e hh hdue hrest => flipRecall_one hflip rfl hh hdue hrest⟩
    rw [flipRecall_device hflip rfl]
    exact foldl_flipRecallAt_idle _ (fun k _ => hdue k)
  case empty =>
    obtain ⟨hbusy, herror, -, -, hkept, hframe⟩ := biasAccepted_shows s
    obtain ⟨hflip, hbias⟩ := flip_bias_of_actFrame hframe
    exact ⟨s.biasAccepted, exec_of_clocked (f := State.biasCommit) rfl hs (biasCommit_empty he hc), hbusy, herror, hflip, hbias, hkept, hframe⟩
  case peg =>
    let y : Flip := { x with pegEn := false }
    have hdone : ({ s with flip := some y } : State).flipDone y = true := by
      rw [← hd]
      simp only [State.flipDone, State.flips, hf]
      rfl
    have hend := flipEnd_done (s := { s with flip := some y }) rfl hdone
    have hu' := exec_of_clocked (i := .biasFlipComplete) (f := State.flipEnd) rfl (s := { s with flip := some y }) hs hend
    obtain rfl : _ = u := Host.Outcome.next.inj (hu'.symm.trans hu)
    refine exec_of_clocked (f := State.flipEnd) rfl hs ((flipEnd_done hf hd).trans ?_)
    rw [if_pos hp]
    rfl
  case done =>
    obtain ⟨hbusy, hkept, hset⟩ := biasSet_shows s x
    have hidle (k : Nat) : ((s.biasSet x).home k).queue = [] := by rw [home_of_homes (homes_of_biasFrame hset), hq]
    obtain ⟨hhome, hframe⟩ := foldl_drainHome_idle ((s.biasSet x).homes.map Prod.fst) hidle
    obtain ⟨hcsr, hbias, hflip, hall⟩ := frame_trans_homes hset hframe
    have hend : s.flipEnd = (s.biasSet x).drainHomes := by rw [flipEnd_done hf hd, if_neg (by simp [hp])]
    refine ⟨_, exec_of_clocked (f := State.flipEnd) rfl hs hend, fun p => ?_, hflip.trans (flip_biasSet ..), (rf_of_csr hcsr _ _).trans hbusy,
      fun k => (hhome k).trans (home_of_homes (homes_of_biasFrame hset) k), fun r hr => (rget_of_csr hcsr r).trans (hkept r hr), hall⟩
    exact (congrArg (p ∈ ·) hbias).to_iff.trans (mem_bias_biasSet s x p)

end Sys2Proof.Machine
end

section
/-! Lines and their check groups in the LPDDR5X windows (R232, R236, R239), and what a home's write of a line changes in memory (R256, R260). -/

namespace Sys2Proof.Machine

/-! ## Where the lines of the LPDDR5X window lie (R236) -/

/-- Bits of an LPDDR5X line address that choose the channel, with the full population or half of it. -/
def lpWidth (full : Bool) : Nat := if full then 6 else 5

/-- Channels of an LPDDR5X home. -/
def lpPerHome (full : Bool) : Nat := if full then 8 else 4

/-- The channel of an offset of the LPDDR5X window, counted over all homes. -/
def lpIndex (full : Bool) (a : Nat) : Nat := a / 256 % 2 ^ lpWidth full ^^^ a / 256 / 2 ^ lpWidth full % 2 ^ lpWidth full

theorem lpIndex_lt (full : Bool) (a : Nat) : lpIndex full a < 2 ^ lpWidth full :=
  Nat.xor_lt_two_pow (Nat.mod_lt _ (by positivity)) (Nat.mod_lt _ (by positivity))

/-- The channel of an offset that is laid out from a channel and a place in it: the two XORs cancel. -/
theorem lpIndex_of_place (full : Bool) {c : Nat} (hc : c < 2 ^ lpWidth full) (i : Nat) {r : Nat} (hr : r < 256) :
    lpIndex full ((i * 2 ^ lpWidth full + (c ^^^ i % 2 ^ lpWidth full)) * 256 + r) = c
      ∧ ((i * 2 ^ lpWidth full + (c ^^^ i % 2 ^ lpWidth full)) * 256 + r) / 256 / 2 ^ lpWidth full = i := by
  have hx : c ^^^ i % 2 ^ lpWidth full < 2 ^ lpWidth full := Nat.xor_lt_two_pow hc (Nat.mod_lt _ (by positivity))
  have hg : ((i * 2 ^ lpWidth full + (c ^^^ i % 2 ^ lpWidth full)) * 256 + r) / 256 = (c ^^^ i % 2 ^ lpWidth full) + 2 ^ lpWidth full * i := by
    rw [Nat.mul_comm i]; omega
  have hi : ((c ^^^ i % 2 ^ lpWidth full) + 2 ^ lpWidth full * i) / 2 ^ lpWidth full = i := by
    rw [Nat.add_mul_div_left _ _ (by positivity), Nat.div_eq_of_lt hx, Nat.zero_add]
  refine ⟨?_, by rw [hg, hi]⟩
  rw [lpIndex, hg, hi, Nat.add_mul_mod_self_left, Nat.mod_eq_of_lt hx, Nat.xor_assoc, Nat.xor_self, Nat.xor_zero]

section
variable (s : State) {l : Nat} (hl : 0x10000000000 ≤ l)
include hl

/-- The home of an offset of the LPDDR5X window. -/
theorem homeOf_lp : s.homeOf l = 32 + lpIndex s.lpFull (l - 0x10000000000) / lpPerHome s.lpFull := by
  unfold State.homeOf lpChannel lpIndex bitsOf lpPerHome lpWidth
  rw [if_neg (by omega)]
  cases s.lpFull
  case false => simp; omega
  case true => simp

/-- The channel and the data line of an offset of the LPDDR5X window. -/
theorem channelLine_lp : s.channelLine l = (lpIndex s.lpFull (l - 0x10000000000) % lpPerHome s.lpFull,
    4 * ((l - 0x10000000000) / 256 / 2 ^ lpWidth s.lpFull) + (l - 0x10000000000) / 64 % 4) := by
  unfold State.channelLine lpChannel lpIndex lpLine bitsOf lpPerHome lpWidth
  rw [if_neg (by omega)]
  cases s.lpFull
  case false => simp; omega
  case true => simp

end

/-- The offset of a data line of an LPDDR5X channel. -/
theorem lineAddr_lp (s : State) {c : Nat} (j : Nat) :
    s.lineAddr (32 + c / lpPerHome s.lpFull) (c % lpPerHome s.lpFull) j = 0x10000000000
      + ((j / 4 * 2 ^ lpWidth s.lpFull + (c ^^^ j / 4 % 2 ^ lpWidth s.lpFull)) * 256 + j % 4 * 64) := by
  unfold State.lineAddr bitsOf lpPerHome lpWidth
  rw [if_neg (Nat.not_lt.mpr (Nat.le_add_right ..))]
  cases s.lpFull <;> simp [Nat.div_add_mod, Nat.add_assoc]

/-- A line of the LPDDR5X window lies at its place. -/
theorem lineAddr_homeOf (s : State) {l : Nat} (hl : 0x10000000000 ≤ l) (h64 : l % 64 = 0) :
    s.lineAddr (s.homeOf l) (s.channelLine l).1 (s.channelLine l).2 = l := by
  rw [homeOf_lp s hl, channelLine_lp s hl, lineAddr_lp]
  set a := l - 0x10000000000 with ha
  set w := lpWidth s.lpFull
  have hi : (4 * (a / 256 / 2 ^ w) + a / 64 % 4) / 4 = a / 256 / 2 ^ w := by omega
  have hx : lpIndex s.lpFull a ^^^ a / 256 / 2 ^ w % 2 ^ w = a / 256 % 2 ^ w := by
    rw [lpIndex, Nat.xor_assoc, Nat.xor_self, Nat.xor_zero]
  rw [hi, hx, Nat.div_add_mod']
  omega

/-- Data line `j` of the channel of an LPDDR5X offset lies in that channel. -/
theorem place_of_lineAddr (s : State) {l : Nat} (hl : 0x10000000000 ≤ l) (j : Nat) :
    0x10000000000 ≤ s.lineAddr (s.homeOf l) (s.channelLine l).1 j
      ∧ s.homeOf (s.lineAddr (s.homeOf l) (s.channelLine l).1 j) = s.homeOf l
      ∧ s.channelLine (s.lineAddr (s.homeOf l) (s.channelLine l).1 j) = ((s.channelLine l).1, j) := by
  rw [homeOf_lp s hl, channelLine_lp s hl, lineAddr_lp]
  have hc := lpIndex_lt s.lpFull (l - 0x10000000000)
  set c := lpIndex s.lpFull (l - 0x10000000000)
  set w := lpWidth s.lpFull with hw
  obtain ⟨hindex, hplace⟩ := lpIndex_of_place s.lpFull hc (j / 4) (r := j % 4 * 64) (by omega)
  have hle : 0x10000000000 ≤ 0x10000000000 + ((j / 4 * 2 ^ w + (c ^^^ j / 4 % 2 ^ w)) * 256 + j % 4 * 64) := Nat.le_add_right ..
  refine ⟨hle, ?_, ?_⟩
  · rw [homeOf_lp s hle, Nat.add_sub_cancel_left, hindex]
  · rw [channelLine_lp s hle, Nat.add_sub_cancel_left, hindex, ← hw, hplace]
    have : ((j / 4 * 2 ^ w + (c ^^^ j / 4 % 2 ^ w)) * 256 + j % 4 * 64) / 64 % 4 = j % 4 := by omega
    rw [this, Nat.div_add_mod]

/-! ## What a check group holds (R232, R239) -/

/-- A line of the check group of an LPDDR5X line has the home, the channel and the group of that line. -/
theorem place_of_mem_groupLines {s : State} {l m : Nat} (hl : 0x10000000000 ≤ l)
    (hm : m ∈ s.groupLines (s.homeOf l) (s.channelLine l).1 ((s.channelLine l).2 / 32)) :
    0x10000000000 ≤ m ∧ s.homeOf m = s.homeOf l ∧ (s.channelLine m).1 = (s.channelLine l).1 ∧ (s.channelLine m).2 / 32 = (s.channelLine l).2 / 32 := by
  obtain ⟨i, hi, rfl⟩ := List.mem_map.mp hm
  rw [List.mem_range] at hi
  obtain ⟨hle, hhome, hch⟩ := place_of_lineAddr s hl (32 * ((s.channelLine l).2 / 32) + i)
  refine ⟨hle, hhome, ?_, ?_⟩ <;> rw [hch]
  show (32 * ((s.channelLine l).2 / 32) + i) / 32 = _
  omega

/-- A line with the home, the channel and the group of an LPDDR5X line is a line of its check group. -/
theorem mem_groupLines_of_place {s : State} {l m : Nat} (hm : 0x10000000000 ≤ m) (h64 : m % 64 = 0) (hhome : s.homeOf m = s.homeOf l)
    (hch : (s.channelLine m).1 = (s.channelLine l).1) (hg : (s.channelLine m).2 / 32 = (s.channelLine l).2 / 32) :
    m ∈ s.groupLines (s.homeOf l) (s.channelLine l).1 ((s.channelLine l).2 / 32) := by
  refine List.mem_map.mpr ⟨(s.channelLine m).2 % 32, List.mem_range.mpr (Nat.mod_lt _ (by decide)), ?_⟩
  rw [← hhome, ← hch, ← hg, Nat.div_add_mod, lineAddr_homeOf s hm h64]

/-- A line of the check group of an LPDDR5X line lies in the window as that line does. -/
theorem isWindow_of_mem_groupLines {s : State} {l m : Nat} (hl : 0x10000000000 ≤ l) (hw : isWindow l = true)
    (hm : m ∈ s.groupLines (s.homeOf l) (s.channelLine l).1 ((s.channelLine l).2 / 32)) : isWindow m = true := by
  obtain ⟨hle, hhome, hch, hg⟩ := place_of_mem_groupLines hl hm
  rw [channelLine_lp s hle, channelLine_lp s hl] at hg
  simp only [isWindow, decide_eq_true_eq] at hw ⊢
  unfold lpWidth at hg
  cases hf : s.lpFull <;> simp [hf] at hg <;> omega

/-- The lines of the check group of a line above the watermark are above it too. -/
theorem above_of_mem_groupLines {s : State} {l m : Nat} (ha : s.above l = true)
    (hm : m ∈ s.groupLines (s.homeOf l) (s.channelLine l).1 ((s.channelLine l).2 / 32)) : s.above m = true := by
  simp only [State.above, Bool.and_eq_true, decide_eq_true_eq] at ha ⊢
  obtain ⟨⟨hw, hl⟩, hmark⟩ := ha
  obtain ⟨hle, hhome, hch, hg⟩ := place_of_mem_groupLines hl hm
  exact ⟨⟨isWindow_of_mem_groupLines hl hw hm, hle⟩, by rw [hhome, hch, hg]; exact hmark⟩

/-! ## The check group of a line is initialised (R239) -/

section
variable {s : State} {l m : Nat} (ha : s.above l = true)
include ha

/-- The groups that writes have initialised, after one more. -/
theorem mem_inited_initGroup (k : Nat) (p : Nat × Nat) : p ∈ ((s.initGroup l).mc k).inited ↔
    p ∈ (s.mc k).inited ∨ (k = s.homeOf l ∧ p = ((s.channelLine l).1, (s.channelLine l).2 / 32)) := by
  have hk := congrArg MemCtl.inited (mc_zeroGroup s (s.homeOf l) (s.channelLine l).1 ((s.channelLine l).2 / 32) k)
  simp only [State.initGroup, ha, if_true, mc_setMc]
  split
  next he => subst he; simp [hk]
  next he => simp [he, hk]

theorem watermark_initGroup (k : Nat) : ((s.initGroup l).mc k).watermark = (s.mc k).watermark := by
  have hk := congrArg MemCtl.watermark (mc_zeroGroup s (s.homeOf l) (s.channelLine l).1 ((s.channelLine l).2 / 32) k)
  simp only [State.initGroup, ha, if_true, mc_setMc]
  split
  next he => subst he; exact hk
  · exact hk

/-- The lines of the group are above the mark no longer. -/
theorem above_initGroup_of_mem (hm : m ∈ s.groupLines (s.homeOf l) (s.channelLine l).1 ((s.channelLine l).2 / 32)) :
    (s.initGroup l).above m = false := by
  have hl : 0x10000000000 ≤ l := by simp only [State.above, Bool.and_eq_true, decide_eq_true_eq] at ha; exact ha.1.2
  obtain ⟨-, hhome, hch, hg⟩ := place_of_mem_groupLines hl hm
  refine above_of_inited ?_
  rw [channelLine_of_csr (initGroup_csr s l), homeOf_of_csr (initGroup_csr s l), mem_inited_initGroup ha, hhome, hch, hg]
  exact .inr ⟨rfl, rfl⟩

/-- No other line changes its place at the watermark. -/
theorem above_initGroup_of_not_mem (h64 : m % 64 = 0)
    (hm : m ∉ s.groupLines (s.homeOf l) (s.channelLine l).1 ((s.channelLine l).2 / 32)) : (s.initGroup l).above m = s.above m := by
  by_cases hle : 0x10000000000 ≤ m
  · have hp : ((s.initGroup l).mc (s.homeOf m)).inited.contains ((s.channelLine m).1, (s.channelLine m).2 / 32)
        = (s.mc (s.homeOf m)).inited.contains ((s.channelLine m).1, (s.channelLine m).2 / 32) := by
      rw [Bool.eq_iff_iff, List.contains_iff_mem, List.contains_iff_mem, mem_inited_initGroup ha]
      refine or_iff_left fun ⟨hhome, hplace⟩ => hm ?_
      obtain ⟨hch, hg⟩ := Prod.mk.inj hplace
      exact mem_groupLines_of_place hle h64 hhome hch hg
    simp only [State.above, State.aboveMark, channelLine_of_csr (initGroup_csr s l), homeOf_of_csr (initGroup_csr s l),
      rf_of_csr (initGroup_csr s l), watermark_initGroup ha, hp]
  · simp [State.above, hle]

/-- The bytes of the lines of the group that no system-level cache holds are gone from memory; the others are as they were. -/
theorem byteAt_initGroup (x : Nat) : (s.initGroup l).byteAt x =
    if lineOf x ∈ s.groupLines (s.homeOf l) (s.channelLine l).1 ((s.channelLine l).2 / 32) ∧ s.slcCopy (lineOf x) = none then 0 else s.byteAt x := by
  have hmem : (s.initGroup l).mem = (s.zeroGroup (s.homeOf l) (s.channelLine l).1 ((s.channelLine l).2 / 32)).mem := by
    simp [State.initGroup, ha]
  rw [State.byteAt, hmem, State.zeroGroup, kget_filter_keys 0 (fun k => !List.contains _ (lineOf k))]
  simp only [Bool.not_eq_true', List.contains_eq_mem, List.mem_filter, Option.isNone_iff_eq_none, decide_eq_false_iff_not, ite_not]
  rfl

end

/-- The line of an address is aligned. -/
theorem lineOf_mod (x : Nat) : lineOf x % 64 = 0 := Nat.mul_mod_left ..

/-- Initialising a check group changes no memory value: what it zeroes read as zero (R239). -/
theorem memByte_initGroup (s : State) (l x : Nat) : (s.initGroup l).memByte x = s.memByte x := by
  by_cases ha : s.above l = true
  · have hslc := slcCopy_congr (initGroup_csr s l) (initGroup_homes s l) (lineOf x)
    unfold State.memByte State.blank
    rw [hslc, byteAt_initGroup ha]
    by_cases hm : lineOf x ∈ s.groupLines (s.homeOf l) (s.channelLine l).1 ((s.channelLine l).2 / 32)
    · rw [above_initGroup_of_mem ha hm, above_of_mem_groupLines ha hm]
      cases s.slcCopy (lineOf x) <;> simp [hm]
    · rw [above_initGroup_of_not_mem ha (lineOf_mod x) hm]
      simp [hm]
  · rw [initGroup_of_below (by simpa using ha)]

/-! ## A home writes a line (R234, R260) -/

theorem above_of_wordsOnly {s t : State} (h : WordsOnly s t) (l : Nat) : t.above l = s.above l :=
  have hcsr : t.csr = s.csr := (congrArg State.csr h.frame :)
  above_congr hcsr (fun k => (congrArg MemCtl.watermark (h.mc k) :)) (fun k => (congrArg MemCtl.inited (h.mc k) :)) l

theorem slcCopy_of_wordsOnly {s t : State} (h : WordsOnly s t) (l : Nat) : t.slcCopy l = s.slcCopy l :=
  have hcsr : t.csr = s.csr := (congrArg State.csr h.frame :)
  slcCopy_congr hcsr (congrArg State.homes h.frame :) l

theorem byteAt_of_wordsOnly {s t : State} (h : WordsOnly s t) (x : Nat) : t.byteAt x = s.byteAt x :=
  congrArg (fun m => kget 0 m x) (congrArg State.mem h.frame :)

theorem blank_of_wordsOnly {s t : State} (h : WordsOnly s t) (l : Nat) : t.blank l = s.blank l := by
  rw [State.blank, State.blank, above_of_wordsOnly h, slcCopy_of_wordsOnly h]

/-- Fresh check bits of a line change words with errors and check units alone (R234). -/
theorem wordsOnly_freshLine (s : State) (la : Nat) : WordsOnly s (s.freshLine la) :=
  ((checksOnly_checkAccess s la true).wordsOnly.trans (wordsOnly_dropWriteBack ..)).trans (wordsOnly_withCe ..)

/-- An entry changed in its place is found as it was by a test that the change keeps. -/
theorem isSome_find?_modifyFirst {α : Type} {p q : α → Bool} {f : α → α} (h : ∀ x, q (f x) = q x) (l : List α) :
    ((modifyFirst p f l).find? q).isSome = (l.find? q).isSome := by
  induction l with
  | nil => rfl
  | cons x l ih =>
    unfold modifyFirst
    split
    · cases hq : q x <;> simp [h, hq]
    · cases hq : q x <;> simp [hq, ih]

/-- A home's system-level cache holds the lines that it held when one entry of it has changed. -/
theorem isSome_slcCopy_modSlc (s : State) (la l : Nat) (f : SlcLine → SlcLine) (h : ∀ e, (f e).line = e.line) :
    ((s.modSlc la f).slcCopy l).isSome = (s.slcCopy l).isSome := by
  have hhome : (s.modSlc la f).homeOf l = s.homeOf l := rfl
  unfold State.slcCopy
  rw [hhome, State.modSlc, home_setHome]
  split
  next hk => rw [hk]; exact isSome_find?_modifyFirst (fun e => by rw [h]) _
  · rfl

/-- What a write of `n` bytes from the first of line `la` leaves of the copy in the system-level cache beside its bytes (R241, R260). -/
def SlcLine.written (la n : Nat) (e : SlcLine) : SlcLine :=
  { e with dirty := true, ue := wordMask la ((markedWords la e.ue).filter (fun w => !coversWord la n w)), ce := 0 }

section
variable {s : State} {la : Nat} {b : List Byte}

/-- A line that the system-level cache holds is written there (R260). -/
theorem storeLine_cached {e : SlcLine} (h64 : la % 64 = 0) (he : s.slcCopy la = some e) :
    s.storeLine la b = (({ s with mem := putCells s.mem la b } : State).modSlc la (SlcLine.written la b.length)).dropWriteBack la := by
  have hla : lineOf la = la := Nat.div_mul_cancel (Nat.dvd_of_mod_eq_zero h64)
  unfold State.storeLine
  simp only [hla, he]
  rfl

/-- Such a write puts the bytes in place of what was there, and no line becomes blank or ceases to be (R239). -/
theorem byteAt_storeLine_cached {e : SlcLine} (h64 : la % 64 = 0) (he : s.slcCopy la = some e) (x : Nat) :
    (s.storeLine la b).blank x = s.blank x
      ∧ (s.storeLine la b).byteAt x = if la ≤ x ∧ x < la + b.length then b.getD (x - la) 0 else s.byteAt x := by
  let t : State := ({ s with mem := putCells s.mem la b } : State).modSlc la (SlcLine.written la b.length)
  have ht : WordsOnly t (s.storeLine la b) := storeLine_cached h64 he ▸ wordsOnly_dropWriteBack t la
  refine ⟨?_, ?_⟩
  · rw [blank_of_wordsOnly ht, State.blank, State.blank]
    refine congrArg₂ (· && ·) (above_congr (s := s) (t := t) rfl (fun _ => rfl) (fun _ => rfl) x) ?_
    have hsome := isSome_slcCopy_modSlc ({ s with mem := putCells s.mem la b }) la x (SlcLine.written la b.length) (fun _ => rfl)
    rw [← Option.not_isSome, ← Option.not_isSome]
    exact congrArg (!·) hsome
  · rw [byteAt_of_wordsOnly ht]
    exact kget_putCells s.mem la b x

/-- A line that only DRAM holds is written there, its check group being initialised first (R234, R239). -/
theorem storeLine_uncached (h64 : la % 64 = 0) (he : s.slcCopy la = none) :
    WordsOnly ((s.initGroup la).store la b) (s.storeLine la b) := by
  have hla : lineOf la = la := Nat.div_mul_cancel (Nat.dvd_of_mod_eq_zero h64)
  have hstore : s.storeLine la b = ((s.initGroup la).store la b).freshLine la := by
    unfold State.storeLine
    simp only [hla, he]
  exact hstore ▸ wordsOnly_freshLine ((s.initGroup la).store la b) la

/-- A home's write of a line changes the bytes that it names and no other memory value (R256). -/
theorem memByte_storeLine (h64 : la % 64 = 0) (hb : b.length = 64) (x : Nat) :
    (s.storeLine la b).memByte x = if la ≤ x ∧ x < la + 64 then b.getD (x - la) 0 else s.memByte x := by
  have hline : la ≤ x ∧ x < la + 64 → lineOf x = la := by unfold lineOf; omega
  cases he : s.slcCopy la with
  | some e =>
    obtain ⟨-, hbyte⟩ := byteAt_storeLine_cached (b := b) h64 he x
    have hblank := (byteAt_storeLine_cached (b := b) h64 he (lineOf x)).1
    rw [State.memByte, State.memByte, hblank, hbyte, hb]
    by_cases hx : la ≤ x ∧ x < la + 64
    · simp [hline hx, State.blank, he, hx]
    · simp [hx]
  | none =>
    have hwords := storeLine_uncached (b := b) h64 he
    have hblank (l : Nat) : ((s.initGroup la).store la b).blank l = (s.initGroup la).blank l := rfl
    rw [← memByte_initGroup s la x, State.memByte, State.memByte, blank_of_wordsOnly hwords, byteAt_of_wordsOnly hwords, byteAt_store, hb, hblank]
    by_cases hx : la ≤ x ∧ x < la + 64
    · have habove : (s.initGroup la).above la = false := by
        by_cases ha : s.above la = true
        · exact (initGroup_of_above ha).1
        · rw [initGroup_of_below (by simpa using ha)]
          simpa using ha
      simp [hline hx, State.blank, habove, hx]
    · simp [hx]

end

/-! ## The value of a line -/

/-- The value of a line is that of its bytes (R256). -/
theorem lineAt_eq (s : State) {la : Nat} (h64 : la % 64 = 0) : s.lineAt la = toLine ((List.range 64).map (fun i => s.memByte (la + i))) := by
  have hline (i : Nat) (hi : i < 64) : lineOf (la + i) = la := by unfold lineOf; omega
  have hla : lineOf la = la := hline 0 (by decide)
  unfold State.lineAt State.memBytes
  rw [hla, bytesAt_eq]
  refine congrArg toLine ?_
  split
  next hb =>
    refine List.ext_getElem (by simp) fun i h1 h2 => ?_
    rw [List.getElem_replicate]
    simp [State.memByte, hline i (by simpa using h1), hb]
  next hb =>
    refine List.ext_getElem (by simp) fun i h1 h2 => ?_
    simp [State.memByte, hline i (by simpa using h1), hb]

/-- Two states agree on a line whose bytes they agree on. -/
theorem lineAt_congr {s t : State} {la : Nat} (h64 : la % 64 = 0) (h : ∀ x, la ≤ x → x < la + 64 → t.memByte x = s.memByte x) :
    t.lineAt la = s.lineAt la := by
  rw [lineAt_eq t h64, lineAt_eq s h64]
  refine congrArg toLine (List.map_congr_left fun i hi => ?_)
  rw [List.mem_range] at hi
  exact h _ (by omega) (by omega)

theorem length_lineBytes (d : Line) : (lineBytes d).length = 64 := length_leBytes ..

/-- A line value is read back from its bytes. -/
theorem toLine_lineBytes (d : Line) : toLine (lineBytes d) = d := by
  have hlt := d.isLt
  rw [toLine, lineBytes, List.take_of_length_le (by rw [length_leBytes]), leNat_leBytes, Nat.mod_eq_of_lt hlt, BitVec.ofNat_toNat, BitVec.setWidth_eq]

/-- A line that its home has written reads back (R256). -/
theorem lineAt_storeLine (s : State) {la : Nat} (h64 : la % 64 = 0) (d : Line) : (s.storeLine la (lineBytes d)).lineAt la = d := by
  rw [lineAt_eq _ h64]
  refine (congrArg toLine (List.ext_getElem (by simp [length_lineBytes]) fun i h1 h2 => ?_)).trans (toLine_lineBytes d)
  have hi : i < 64 := by simpa using h1
  simp only [List.getElem_map, List.getElem_range, memByte_storeLine h64 (length_lineBytes d)]
  rw [if_pos ⟨by omega, by omega⟩, Nat.add_sub_cancel_left, List.getD_eq_getElem _ _ h2]

end Sys2Proof.Machine
end

section
/-! What a home takes (R257, R259, R269 to R275): answers, data and write-backs, the end of a hold and the retry class. -/

namespace Sys2Proof.Machine

/-! ## Snoop answers -/

theorem wbFlying_bumpF (s : State) (r : Reg) (f : Fld) (k c la : Nat) : (s.bumpF r f k).wbFlying c la = s.wbFlying c la := rfl

section
variable {s : State} {c la : Nat} {dirty wb : Bool}

/-- A core without a copy has answered, and no write-back of the line is in flight. -/
theorem onSnpAck_absent (hw : wb = true → s.wbFlying c la = false) : s.onSnpAck c la false dirty wb =
    (s.modTxn la (fun t => { t with wait := setDel c t.wait, needData := t.needData || dirty })).settleLine la := by
  have hwb : (wb && s.wbFlying c la) = false := by cases wb <;> simp_all
  simp [State.onSnpAck, hwb]

/-- A core whose write-back of the line is in flight has answered. -/
theorem onSnpAck_pending (hw : s.wbFlying c la = true) : s.onSnpAck c la false dirty true =
    (s.modTxn la (fun t => { t with wait := setDel c t.wait, needData := t.needData || dirty, wbFrom := some c })).settleLine la := by
  simp [State.onSnpAck, hw]

/-- A sharer has answered. -/
theorem onSnpAck_sharer (ho : s.ownedBy c la = false) : s.onSnpAck c la true dirty false =
    (s.modTxn la (fun t => { t with wait := setDel c t.wait, needData := t.needData || dirty })).settleLine la := by
  simp [State.onSnpAck, ho]

/-- The owner has answered the snoop of a recall. -/
theorem onSnpAck_recalled {t : Txn} {b : Option Nat} (ho : s.ownedBy c la = true) (ht : s.txn? la = some t) (hr : t.why = .recall b) :
    s.onSnpAck c la true dirty false =
      (s.modTxn la (fun t => { t with wait := setDel c t.wait, had := true, needData := t.needData || dirty })).settleLine la := by
  simp [State.onSnpAck, ho, ht, hr]

/-- The owner has answered the snoop of another core's request, which is counted (R273). -/
theorem onSnpAck_supplied {t : Txn} {r : HomeReq} {o : CoreId} (hw : wb = true → s.wbFlying c la = false) (ho : s.ownedBy c la = true)
    (ht : s.txn? la = some t) (hr : t.why = .request r) (hcore : r.agent = .core o) : s.onSnpAck c la true dirty wb =
      ((s.bumpF (.homeC2c (s.homeOf la)) Fld.homeC2cCount 1).modTxn la
        (fun t => { t with wait := setDel c t.wait, had := true, needData := t.needData || dirty })).settleLine la := by
  have hwb (r : Reg) (f : Fld) : ¬(wb = true ∧ (s.bumpF r f 1).wbFlying c la = true) := fun ⟨h, hf⟩ => by
    rw [wbFlying_bumpF, hw h] at hf
    cases hf
  simp [State.onSnpAck, ho, ht, hr, hcore, hwb]

end

/-! ## Snoop data -/

/-- Data that no WrNA replaces is stored (R269, R273). -/
theorem onSnpData_stored {s : State} {la : Nat} (d : Line) (hu : s.usable la = true)
    (hk : ∀ t, s.txn? la = some t → ∀ a l x n, t.why ≠ .request ⟨a, l, .wrNA x, n⟩) : s.onSnpData la d =
      ((s.storeLine la (lineBytes d)).modTxn la (fun t => { t with gotData := true })).settleLine la := by
  unfold State.onSnpData
  extract_lets discard t
  have hdiscard : discard = false := by
    unfold discard
    clear t discard
    cases ht : s.txn? la with
    | none => rfl
    | some t =>
      rcases hw : t.why with ⟨a, l, k, n⟩ | b
      · cases k with
        | wrNA x => exact absurd hw (hk t ht a l x n)
        | _ => simp [hw]
      · simp [hw]
  have ht : t = s.storeLine la (lineBytes d) := by simp [t, hdiscard, hu]
  rw [ht]

/-! ## Write-backs -/

/-- No message of a mesh passes a test. -/
theorem popFirst_none {α : Type} {p : α → Bool} {l : List α} (h : ∀ x ∈ l, p x = false) : popFirst p l = none := by
  induction l with
  | nil => rfl
  | cons x l ih =>
    rw [List.forall_mem_cons] at h
    simp [popFirst, h.1, ih h.2]

/-- While no write-back of a line by a core is in flight, no message on the mesh is one. -/
theorem ne_writeBack_of_not_flying {s : State} {c la : Nat} (h : s.wbFlying c la = false) (m : Msg) (hm : m ∈ s.mesh) :
    (∀ d, m ≠ .wbDirty c la d) ∧ m ≠ .wbClean c la := by
  rw [State.wbFlying, List.any_eq_false] at h
  refine ⟨fun d hd => ?_, fun hd => ?_⟩ <;> subst hd <;> simpa using h _ hm

section
variable {s u : State} {c : CoreId} {addr : BitVec 48} {la : Nat} {d : Line}

/-- A dirty line whose write-back has not begun is written back at once (R274). -/
theorem exec_wbDirty_begun (hs : s.runs 4 = true) (hl : lineOf addr.toNat = la) (hw : s.wbFlying c la = false)
    (hc : (s.core c).copy la = some ⟨.modified, d⟩) : exec (.wbDirty c addr) s =
      .next (((s.setCore c ((s.core c).drop la)).absorb c la (some d)).lineMclkEnd la) := by
  subst hl
  refine (show exec (.wbDirty c addr) s = execWbDirty c addr s from rfl).trans ?_
  unfold execWbDirty
  rw [clocked_runs hs]
  refine congrArg Host.Outcome.next ?_
  simp only
  rw [popFirst_none]
  · simp only [hc]
  · intro m hm
    have hne := (ne_writeBack_of_not_flying hw m hm).1
    cases m <;> simp_all

/-- A clean owned line whose write-back has not begun is given back at once (R274). -/
theorem exec_wbClean_begun (hs : s.runs 4 = true) (hl : lineOf addr.toNat = la) (hw : s.wbFlying c la = false)
    (hc : (s.core c).copy la = some ⟨.exclusive, d⟩) : exec (.wbClean c addr) s =
      .next (((s.setCore c ((s.core c).drop la)).absorb c la none).lineMclkEnd la) := by
  subst hl
  refine (show exec (.wbClean c addr) s = execWbClean c addr s from rfl).trans ?_
  unfold execWbClean
  rw [clocked_runs hs]
  refine congrArg Host.Outcome.next ?_
  simp only
  rw [popFirst_none]
  · simp only [hc]
  · intro m hm
    have hne := (ne_writeBack_of_not_flying hw m hm).2
    cases m <;> simp_all

/-- A dirty write-back arrives (R274). -/
theorem exec_wbDirty_arrives (hl : lineOf addr.toNat = la) (h : Arrives s (.wbDirty c la d) u) :
    exec (.wbDirty c addr) s = .next ((u.absorb c la (some d)).lineMclkEnd la) := by
  subst hl
  refine (show exec (.wbDirty c addr) s = execWbDirty c addr s from rfl).trans ?_
  unfold execWbDirty
  rw [clocked_runs (show s.runs 4 = true from h.1)]
  refine congrArg Host.Outcome.next ?_
  simp only
  rw [popFirst_of_arrives h (fun m => by cases m <;> simp [sameWay, BEq.comm]) (by simp [sameWay])]
  exact congrArg (fun x : State => (x.absorb c (lineOf addr.toNat) (some d)).lineMclkEnd (lineOf addr.toNat)) h.frame.symm

/-- A clean write-back arrives (R274). -/
theorem exec_wbClean_arrives (hl : lineOf addr.toNat = la) (h : Arrives s (.wbClean c la) u) :
    exec (.wbClean c addr) s = .next ((u.absorb c la none).lineMclkEnd la) := by
  subst hl
  refine (show exec (.wbClean c addr) s = execWbClean c addr s from rfl).trans ?_
  unfold execWbClean
  rw [clocked_runs (show s.runs 4 = true from h.1)]
  refine congrArg Host.Outcome.next ?_
  simp only
  rw [popFirst_of_arrives h (fun m => by cases m <;> simp [sameWay, BEq.comm]) (by simp [sameWay])]
  exact congrArg (fun x : State => (x.absorb c (lineOf addr.toNat) none).lineMclkEnd (lineOf addr.toNat)) h.frame.symm

end

/-! ## The retry class -/

/-- The oldest request of the retry class is served where way 19 and buffer 15 are free for it (R271). -/
theorem retryGrant_free {s : State} {h c : Nat} {r : HomeReq} {core : CoreId} {since : Nat} {rest : List (HomeReq × Nat)}
    (hr : (s.home h).retry = (r, since) :: rest) (hc : r.agent = .core core) (hmay : s.mayRetry (s.home h) r = true)
    (hp : (s.home h).pickRetry r.line = .free c) : s.retryGrant h =
      ((s.setHome h { s.home h with retry := rest, serving := some r.line }).serveNew r core (.free c)).1 := by
  unfold State.retryGrant
  simp [hr, popFirst, hmay, hp, hc]

/-- Settles O38: the answers by `exec_receives` with what each changes in its transaction, the write-backs by whether they are in flight, and
the bytes of a write by `memByte_storeLine`. -/
theorem homeReceivesAnswers : Obligations.HomeReceivesAnswers := by
  unfold Obligations.HomeReceivesAnswers
  intro s u c la ends
  have hack {m : Msg} {t : State} (hm : m.lineFor = some la) (ht : u.onMsg m = t) : u.atHome m = t.mclkEnd (t.homeOf la) := by
    rw [← ht, State.atHome, hm]
    rfl
  have hsnpAck {had dirty wb : Bool} {t : State} (h : Arrives s (.snpAck c la had dirty wb) u) (ht : u.onSnpAck c la had dirty wb = t) :
      exec (.snpAck c) s = ends t :=
    exec_receives rfl h (fun m => by cases m <;> simp [sameWay, BEq.comm]) (by simp [sameWay]) (hack rfl ht)
  refine ⟨fun h => ?acked, fun dirty wb hw h => hsnpAck h (onSnpAck_absent hw), fun dirty h hw => hsnpAck h (onSnpAck_pending hw),
    fun dirty wb t r h hw ho ht hr ⟨o, hcore⟩ => hsnpAck h (onSnpAck_supplied hw ho ht hr hcore),
    fun dirty t b h ho ht hr => hsnpAck h (onSnpAck_recalled ho ht hr), fun dirty h ho => hsnpAck h (onSnpAck_sharer ho),
    fun d h hu hk => ?stored, fun addr d hl h => exec_wbDirty_arrives hl h, fun addr hl h => exec_wbClean_arrives hl h,
    fun addr d hs hl hw => ⟨exec_wbDirty_begun hs hl hw, exec_wbClean_begun hs hl hw⟩, fun addr hs hl => ?hold,
    fun h r since rest hs hr hl hc ho he hf hb hk hp => ?retry, fun d x h64 => ⟨lineAt_storeLine u h64 d, fun hx => ?store⟩⟩
  case acked =>
    exact exec_receives rfl h (fun m => by cases m <;> simp [sameWay, BEq.comm]) (by simp [sameWay]) (hack rfl rfl)
  case stored =>
    have htxn : u.txn? la = s.txn? la := by rw [h.frame]; rfl
    exact exec_receives rfl h (fun m => by cases m <;> simp [sameWay, BEq.comm]) (by simp [sameWay])
      (hack rfl (onSnpData_stored d ((h.usable la).trans hu) (fun t ht => hk t (htxn ▸ ht))))
  case hold =>
    subst hl
    exact exec_of_clocked (f := fun s => s.expireHold (lineOf addr.toNat)) rfl hs rfl
  case retry =>
    subst hl
    have hmay : s.mayRetry (s.home h) r = true := by simp [State.mayRetry, ho, he, hf, hb, hk]
    exact exec_of_clocked (f := fun s => s.retryGrant h) rfl hs (retryGrant_free hr hc hmay hp)
  case store =>
    rw [memByte_storeLine h64 (length_lineBytes d), if_neg hx]

end Sys2Proof.Machine
end

section
/-! Requests at the home of a quiet line (R256 to R263, R269, R272). -/

namespace Sys2Proof.Machine

/-! ## A request arrives where nothing waits (R258, R259) -/

/-- Which home the next command reaches is in the registers, the mesh and which cores have stopped. -/
theorem moreFor_congr {s t : State} (hp : t.pending = s.pending) (hcsr : t.csr = s.csr) (hfrozen : t.frozen = s.frozen)
    (hmesh : t.mesh = s.mesh) (hstop : ∀ k, (t.core k).stopped = (s.core k).stopped) (h : Nat) : t.moreFor h = s.moreFor h := by
  have hruns (d : Nat) : t.runs d = s.runs d := runs_congr (rget_of_csr hcsr _) hfrozen d
  have hhome (a : Nat) : t.homeOf a = s.homeOf a := homeOf_of_csr hcsr a
  have hacts (a : Agent) : t.agentActs a = s.agentActs a := by
    cases a <;> simp only [State.agentActs, State.coreRuns, hstop, rf_of_csr hcsr]
  have hmsg (f : Msg → Bool) : t.homeOfMsg f = s.homeOfMsg f := by
    simp only [State.homeOfMsg, hmesh, show t.homeOf = s.homeOf from funext hhome]
  have hreach (i : Instr) : t.reaches i = s.reaches i := by
    unfold State.reaches
    simp only [hruns, hhome, hacts, hmsg]
  simp only [State.moreFor, hp, hreach]

/-- A request has arrived and the MCLK in which it came is over. -/
def State.asked (s : State) (a : Agent) (la : Nat) (k : ReqKind) : State := { s.arrive a la k with mclk := s.mclk + 1 }

/-- Nothing waits at a home any more. -/
def State.nothingWaits (s : State) (h : Nat) : State := s.setHome h { s.home h with queue := [] }

section
variable (s : State) (a : Agent) (la : Nat) (k : ReqKind)

/-- A request that arrives changes the queue of its home alone. -/
theorem home_asked (j : Nat) : (s.asked a la k).home j = { s.home j with queue := ((s.asked a la k).home j).queue } := by
  have hj : (s.asked a la k).home j = (s.arrive a la k).home j := rfl
  rw [hj, State.arrive, home_setHome]
  split
  next h => rw [h]
  · rfl

variable {s a la k}

/-- While another message of its MCLK is to come, the request waits. -/
theorem arrive_waits (hmore : s.moreFor (s.homeOf la) = true) : (s.arrive a la k).lineMclkEnd la = s.arrive a la k := by
  have hm : (s.arrive a la k).moreFor (s.homeOf la) = true := (moreFor_congr rfl rfl rfl rfl (fun _ => rfl) _).trans hmore
  refine if_neg ?_
  rw [show (s.arrive a la k).homeOf la = s.homeOf la from rfl, hm]
  simp

variable (hq : (s.home (s.homeOf la)).queue = [])
include hq

theorem queue_arrive : ((s.arrive a la k).home (s.homeOf la)).queue = [⟨a, la, k, s.mclk⟩] := by
  rw [State.arrive, home_setHome_same, hq, queueIns]

/-- Else it is served at once. -/
theorem arrive_served {t : State} (hmore : s.moreFor (s.homeOf la) = false) (ho : (s.home (s.homeOf la)).openOn la = false)
    (hb : s.bankHeld la = false) (hserve : (s.asked a la k).serve ⟨a, la, k, s.mclk⟩ = (t, true)) :
    (s.arrive a la k).lineMclkEnd la = t.nothingWaits (s.homeOf la) := by
  have hm : (s.arrive a la k).moreFor (s.homeOf la) = false := (moreFor_congr rfl rfl rfl rfl (fun _ => rfl) _).trans hmore
  have hqueue := queue_arrive (a := a) (k := k) hq
  have hend : (s.arrive a la k).lineMclkEnd la = (s.asked a la k).drainHome (s.homeOf la) := by
    refine if_pos ?_
    rw [show (s.arrive a la k).homeOf la = s.homeOf la from rfl, hm, hqueue]
    simp [show (s.arrive a la k).mclk = s.mclk from rfl]
  have hopen : ((s.asked a la k).home (s.homeOf la)).openOn la = false := by rw [home_asked]; exact ho
  have hbank : (s.asked a la k).bankHeld la = false := by
    have hslc : (s.asked a la k).slcCopy la = s.slcCopy la := by
      unfold State.slcCopy
      rw [home_asked]
      rfl
    rw [← hb]
    unfold State.bankHeld
    rw [hslc]
    rfl
  have hmclk : (s.asked a la k).mclk = s.mclk + 1 := rfl
  rw [hend, State.drainHome, show ((s.asked a la k).home (s.homeOf la)).queue = _ from hqueue, State.serveQueue]
  simp only [hmclk, hopen, hbank, hserve, List.any_nil, Bool.or_false]
  rw [if_neg (by simp)]
  rfl

end

/-! ## What a home sees of its lines -/

/-- Two states whose homes see the same lines: layout, watermarks, copies in the system-level caches and memory with its errors. -/
structure SeesAlike (s t : State) : Prop where
  pop : t.rget (.lpmcPop 0) = s.rget (.lpmcPop 0)
  status : ∀ k, t.rget (.hbmcStatus k) = s.rget (.hbmcStatus k)
  mcs : t.mcs = s.mcs
  slc : ∀ k, (t.home k).slc = (s.home k).slc
  mem : t.mem = s.mem
  ue : t.ue = s.ue
  ce : t.ce = s.ce

section
variable {s t : State} (h : SeesAlike s t) (la : Nat)
include h

theorem SeesAlike.homeOf : t.homeOf la = s.homeOf la := homeOf_congr h.pop la

theorem SeesAlike.channelLine : t.channelLine la = s.channelLine la := by
  simp only [State.channelLine, State.lpFull, rf_congr h.pop]

theorem SeesAlike.slcCopy : t.slcCopy la = s.slcCopy la := by simp only [State.slcCopy, h.homeOf, h.slc]

theorem SeesAlike.above : t.above la = s.above la := by
  unfold State.above State.aboveMark State.mc
  rw [h.homeOf, h.channelLine, rf_congr (h.status _), h.mcs]

theorem SeesAlike.blank : t.blank la = s.blank la := by simp only [State.blank, h.above, h.slcCopy]

theorem SeesAlike.memByte : t.memByte la = s.memByte la := by simp only [State.memByte, State.byteAt, h.blank, h.mem]

theorem SeesAlike.lineAt (h64 : la % 64 = 0) : t.lineAt la = s.lineAt la := lineAt_congr h64 fun x _ _ => h.memByte x

theorem SeesAlike.lineUe : t.lineUe la = s.lineUe la := by
  unfold State.lineUe State.scrubUe State.checkLost State.ueIn State.mc
  rw [h.slcCopy, h.blank, h.homeOf, h.channelLine, h.mcs, h.ue]

theorem SeesAlike.lineCe : t.lineCe la = s.lineCe la := by
  simp only [State.lineCe, State.ceIn, h.slcCopy, h.blank, h.ce]

end

/-- A request that has arrived changes nothing that homes see of their lines. -/
theorem seesAlike_asked (s : State) (a : Agent) (la : Nat) (k : ReqKind) : SeesAlike s (s.asked a la k) :=
  ⟨rfl, fun _ => rfl, rfl, fun j => (congrArg Home.slc (home_asked s a la k j) :), rfl, rfl, rfl⟩

/-- Nor does the count of the hits and misses of a system-level cache. -/
theorem seesAlike_slcCount (s : State) (la : Nat) : SeesAlike s (s.slcCount la) := by
  have hbump (r : Reg) (f : Fld) (hpop : Reg.lpmcPop 0 ≠ r) (hstatus : ∀ k, Reg.hbmcStatus k ≠ r) : SeesAlike s (s.bumpF r f 1) :=
    ⟨rget_setF_ne _ _ _ _ _ hpop, fun k => rget_setF_ne _ _ _ _ _ (hstatus k), rfl, fun _ => rfl, rfl, rfl, rfl⟩
  unfold State.slcCount
  extract_lets
  split
  · exact hbump _ _ (by simp) (by simp)
  · exact hbump _ _ (by simp) (by simp)

/-! ## A home reads a line without errors (R233, R260) -/

/-- Between two states a home has read a line without errors: the hits and misses of its system-level cache are counted, and its check cache
is used. -/
structure ReadsClean (s t : State) : Prop where
  frame : t = { s with csr := t.csr, ue := t.ue, mcs := t.mcs }
  sees : ∀ la, t.blank la = s.blank la
  homeOf : ∀ la, t.homeOf la = s.homeOf la

/-- Counting hits and misses changes registers alone. -/
theorem slcCount_frame (s : State) (la : Nat) : s.slcCount la = { s with csr := (s.slcCount la).csr } := by
  unfold State.slcCount
  extract_lets
  split <;> rfl

theorem readsClean_frame {s u t : State} (hu : u = { s with csr := u.csr }) (h : ChecksOnly u t) :
    t = { s with csr := t.csr, ue := t.ue, mcs := t.mcs } := by
  rw [h.csr]
  exact h.frame.trans (congrArg (fun x : State => { x with ue := t.ue, mcs := t.mcs }) hu)

/-- A home reads a line without errors. -/
theorem homeRead_clean {s : State} (w : Who) {la : Nat} (h64 : la % 64 = 0) (hue : s.lineUe la = []) (hce : s.lineCe la = []) :
    ∃ t, s.homeRead w la = (t, some (s.lineAt la)) ∧ ReadsClean s t := by
  have hla : lineOf la = la := Nat.div_mul_cancel (Nat.dvd_of_mod_eq_zero h64)
  have hcount := seesAlike_slcCount s la
  let u := s.slcCount la
  let t := if (u.slcCopy la).isSome || u.blank la then u else u.checkAccess la false
  have hchecks : ChecksOnly u t := by
    unfold t
    split
    · exact .refl u
    · exact checksOnly_checkAccess u la false
  have herrors : u.lineErrors w la = (u, true) := by
    unfold State.lineErrors
    simp only [hla, hcount.lineUe, hcount.lineCe, hue, hce, u]
    rfl
  have hread : s.homeRead w la = (t, some (t.lineAt la)) := by
    simp only [State.homeRead, State.readLine, show s.slcCount la = u from rfl, herrors]
    rfl
  have hblank (l : Nat) : t.blank l = s.blank l := (blank_of_wordsOnly hchecks.wordsOnly l).trans (hcount.blank l)
  have hmem (x : Nat) : t.memByte x = s.memByte x := by
    rw [State.memByte, State.memByte, hblank, byteAt_of_wordsOnly hchecks.wordsOnly, State.byteAt, State.byteAt, hcount.mem]
  refine ⟨t, by rw [hread, lineAt_congr h64 fun x _ _ => hmem x], readsClean_frame (slcCount_frame s la) hchecks, hblank,
    fun l => (homeOf_of_csr hchecks.csr l).trans (hcount.homeOf l)⟩

section
variable {s t : State} (h : ReadsClean s t) (la : Nat)
include h

theorem ReadsClean.mem : t.mem = s.mem := (congrArg State.mem h.frame :)
theorem ReadsClean.mesh : t.mesh = s.mesh := (congrArg State.mesh h.frame :)
theorem ReadsClean.cores : t.cores = s.cores := (congrArg State.cores h.frame :)
theorem ReadsClean.homes : t.homes = s.homes := (congrArg State.homes h.frame :)

theorem ReadsClean.home : t.home la = s.home la := congrArg (kget Home.reset · la) h.homes

theorem ReadsClean.slcCopy : t.slcCopy la = s.slcCopy la := by rw [State.slcCopy, State.slcCopy, h.homeOf, h.home]

theorem ReadsClean.memByte : t.memByte la = s.memByte la := by
  rw [State.memByte, State.memByte, h.sees, State.byteAt, State.byteAt, h.mem]

end

/-! ## A home writes a line without errors (R234, R260) -/

/-- A write of a line without errors stores the line with the bytes that the mask names. -/
theorem homeWrite_clean {s : State} (w : Who) {la : Nat} (mask : W64) (d : Line) (hue : s.lineUe la = []) (hce : s.lineCe la = []) :
    s.homeWrite w la mask d = s.storeLine la (lineBytes (mergeLine (s.lineAt la) d mask)) := by
  unfold State.homeWrite
  simp only [hue, hce, List.filter_nil, List.length_nil, ite_self, State.mergeRead, State.keepUe, if_true]

/-- Between two states only memory, its errors and its controllers differ. -/
def MemoryOnly (s t : State) : Prop := t = { s with mem := t.mem, ue := t.ue, ce := t.ce, mcs := t.mcs }

section
variable {s t u : State}

theorem MemoryOnly.trans (h : MemoryOnly s t) (h' : MemoryOnly t u) : MemoryOnly s u :=
  Eq.trans h' (congrArg (fun x : State => { x with mem := u.mem, ue := u.ue, ce := u.ce, mcs := u.mcs }) h)

theorem memoryOnly_of_wordsOnly (h : WordsOnly s t) : MemoryOnly s t :=
  h.frame.trans (congrArg (fun x => { s with mem := x, ue := t.ue, ce := t.ce, mcs := t.mcs }) (congrArg State.mem h.frame :).symm)

theorem memoryOnly_initGroup (s : State) (la : Nat) : MemoryOnly s (s.initGroup la) := by
  unfold State.initGroup
  split <;> rfl

theorem memoryOnly_store (s : State) (a : Nat) (l : List Byte) : MemoryOnly s (s.store a l) := rfl

theorem MemoryOnly.csr (h : MemoryOnly s t) : t.csr = s.csr := (congrArg State.csr h :)
theorem MemoryOnly.homes (h : MemoryOnly s t) : t.homes = s.homes := (congrArg State.homes h :)
theorem MemoryOnly.cores (h : MemoryOnly s t) : t.cores = s.cores := (congrArg State.cores h :)
theorem MemoryOnly.mesh (h : MemoryOnly s t) : t.mesh = s.mesh := (congrArg State.mesh h :)

end

/-- A write to a line that only DRAM holds changes memory, its errors and its controllers. -/
theorem memoryOnly_storeLine {s : State} {la : Nat} (b : List Byte) (h64 : la % 64 = 0) (he : s.slcCopy la = none) :
    MemoryOnly s (s.storeLine la b) :=
  ((memoryOnly_initGroup s la).trans (memoryOnly_store ..)).trans (memoryOnly_of_wordsOnly (storeLine_uncached h64 he))

/-- Changing a copy in a system-level cache changes no more of a home. -/
theorem home_modSlc (s : State) (la k : Nat) (f : SlcLine → SlcLine) :
    (s.modSlc la f).home k = { s.home k with slc := ((s.modSlc la f).home k).slc } := by
  rw [State.modSlc, home_setHome]
  split
  next h => rw [h]
  · rfl

theorem line_of_slcCopy {s : State} {la : Nat} {e : SlcLine} (he : s.slcCopy la = some e) : e.line = la := by
  simpa using List.find?_some he

theorem slcCopy_modSlc {s : State} {la : Nat} {e : SlcLine} (f : SlcLine → SlcLine) (he : s.slcCopy la = some e) (h : (f e).line = e.line) :
    (s.modSlc la f).slcCopy la = some (f e) := by
  have hhome : (s.modSlc la f).homeOf la = s.homeOf la := rfl
  unfold State.slcCopy
  rw [hhome, State.modSlc, home_setHome_same]
  exact find?_modifyFirst (by rw [h, line_of_slcCopy he, beq_self_eq_true]) he

/-- A write of the whole line leaves no error in the copy that the system-level cache holds (R241). -/
theorem written_whole (la : Nat) (e : SlcLine) (h64 : la % 64 = 0) : e.written la 64 = { e with dirty := true, ue := 0, ce := 0 } := by
  have hnone : (markedWords la e.ue).filter (fun w => !coversWord la 64 w) = [] := by
    simp only [List.filter_eq_nil_iff, markedWords, List.mem_map, List.mem_filter, List.mem_range]
    rintro w ⟨i, ⟨hi, -⟩, rfl⟩
    simp [coversWord]
    omega
  have hmask : wordMask la [] = 0 := by simp [wordMask]
  rw [SlcLine.written, hnone, hmask]

/-- What a home's write of a whole line changes beside memory: the copy in its system-level cache, if there is one (R260). -/
structure StoresLine (s t : State) (la : Nat) : Prop where
  csr : t.csr = s.csr
  cores : t.cores = s.cores
  mesh : t.mesh = s.mesh
  home : ∀ k, t.home k = { s.home k with slc := (t.home k).slc }
  uncached : s.slcCopy la = none → ∀ k, t.home k = s.home k
  cached : ∀ e, s.slcCopy la = some e → t.slcCopy la = some { e with dirty := true, ue := 0, ce := 0 }

theorem storesLine_storeLine (s : State) {la : Nat} (d : Line) (h64 : la % 64 = 0) : StoresLine s (s.storeLine la (lineBytes d)) la := by
  cases he : s.slcCopy la with
  | none =>
    have hmem := memoryOnly_storeLine (lineBytes d) h64 he
    have hhome (k : Nat) : (s.storeLine la (lineBytes d)).home k = s.home k := congrArg (kget Home.reset · k) hmem.homes
    exact ⟨hmem.csr, hmem.cores, hmem.mesh, fun k => by rw [hhome], fun _ => hhome, fun e h => by rw [he] at h; cases h⟩
  | some e =>
    rw [storeLine_cached h64 he, length_lineBytes]
    refine ⟨rfl, rfl, rfl, fun k => home_modSlc _ la k _, fun h => ?_, fun e' h => ?_⟩
    · rw [he] at h
      cases h
    · have hcopy := slcCopy_modSlc (s := { s with mem := putCells s.mem la (lineBytes d) }) (SlcLine.written la 64) h rfl
      rw [written_whole la e' h64] at hcopy
      exact hcopy

/-! ## The bytes of a line -/

/-- A byte of a byte string is a digit of its number (R3). -/
theorem leNat_byte (l : List Byte) {i : Nat} (hi : i < l.length) : leNat l / 2 ^ (8 * i) % 256 = l[i].toNat := by
  induction l generalizing i with
  | nil => exact absurd hi (Nat.not_lt_zero _)
  | cons b l ih =>
    have hb := b.isLt
    cases i with
    | zero => simp [leNat]; omega
    | succ i =>
      have hstep : leNat (b :: l) / 2 ^ (8 * (i + 1)) = leNat l / 2 ^ (8 * i) := by
        rw [show 8 * (i + 1) = 8 + 8 * i by ring, pow_add, ← Nat.div_div_eq_div_mul, leNat]
        congr 1
        omega
      rw [hstep, ih (by simpa using hi)]
      rfl

/-- A byte of a bit vector is a digit of the number that it is made of. -/
theorem extract_ofNat (n : Nat) {m W : Nat} (h : m + 8 ≤ W) : ((BitVec.ofNat W n).extractLsb' m 8).toNat = n / 2 ^ m % 2 ^ 8 := by
  obtain ⟨k, rfl⟩ := Nat.exists_eq_add_of_le h
  rw [BitVec.extractLsb'_toNat, BitVec.toNat_ofNat, Nat.shiftRight_eq_div_pow, Nat.add_assoc, pow_add, Nat.mod_mul_right_div_self,
    Nat.mod_mod_of_dvd _ (pow_dvd_pow 2 (Nat.le_add_right ..))]

/-- A line value has the bytes that it is made of. -/
theorem extract_toLine (l : List Byte) (hl : l.length = 64) {i : Nat} (hi : i < 64) : (toLine l).extractLsb' (8 * i) 8 = l[i] := by
  refine BitVec.eq_of_toNat_eq ?_
  rw [toLine, List.take_of_length_le (by omega), extract_ofNat _ (by omega)]
  exact leNat_byte l (by omega)

/-- The bytes of a line whose masked bytes another line has replaced (R234). -/
theorem extract_mergeLine (old new : Line) (mask : W64) {i : Nat} (hi : i < 64) : (mergeLine old new mask).extractLsb' (8 * i) 8 =
    if mask.getLsbD i then new.extractLsb' (8 * i) 8 else old.extractLsb' (8 * i) 8 := by
  rw [mergeLine, extract_toLine _ (by simp) hi]
  simp

/-- Two lines with the same bytes are the same. -/
theorem line_ext {d e : Line} (h : ∀ i < 64, d.extractLsb' (8 * i) 8 = e.extractLsb' (8 * i) 8) : d = e := by
  refine BitVec.eq_of_getLsbD_eq fun j hj => ?_
  have hbit := congrArg (fun x : Byte => x.getLsbD (j % 8)) (h (j / 8) (by omega))
  simpa [BitVec.getLsbD_extractLsb', Nat.mod_lt, Nat.div_add_mod] using hbit

/-- A write of every byte leaves nothing of the old line. -/
theorem mergeLine_whole (old new : Line) : mergeLine old new (BitVec.allOnes 64) = new :=
  line_ext fun i hi => by rw [extract_mergeLine old new _ hi, if_pos (by rw [BitVec.getLsbD_allOnes, decide_eq_true hi])]

/-! ## A line takes a place in the system-level cache (R260) -/

/-- A line that leaves the system-level cache changes memory, its errors and its controllers. -/
theorem memoryOnly_slcEvict (s : State) (e : SlcLine) : MemoryOnly s (s.slcEvict e) := by
  unfold State.slcEvict
  split
  · exact (((memoryOnly_initGroup s e.line).trans (memoryOnly_store ..)).trans (memoryOnly_of_wordsOnly (wordsOnly_freshLine ..))).trans
      (memoryOnly_of_wordsOnly (checksOnly_loseWords ..).wordsOnly)
  · rfl

theorem memoryOnly_evictAll (l : List SlcLine) (s : State) : MemoryOnly s (l.foldl State.slcEvict s) := by
  induction l generalizing s with
  | nil => rfl
  | cons e l ih => exact (memoryOnly_slcEvict s e).trans (ih _)

theorem MemoryOnly.slcCopy {s t : State} (h : MemoryOnly s t) (la : Nat) : t.slcCopy la = s.slcCopy la := slcCopy_congr h.csr h.homes la

/-- The bytes of a line that a system-level cache holds stay as another line leaves it. -/
theorem byteAt_slcEvict {s : State} (e : SlcLine) {x : Nat} (hx : (s.slcCopy (lineOf x)).isSome = true) : (s.slcEvict e).byteAt x = s.byteAt x := by
  have hinit : (s.initGroup e.line).byteAt x = s.byteAt x := by
    by_cases ha : s.above e.line = true
    · rw [byteAt_initGroup ha, if_neg fun h => by rw [h.2] at hx; cases hx]
    · rw [initGroup_of_below (by simpa using ha)]
  unfold State.slcEvict
  split
  · have hwords := (wordsOnly_freshLine ((s.initGroup e.line).store e.line (s.bytesAt e.line 64)) e.line).trans
      (checksOnly_loseWords _ (markedWords e.line e.ue)).wordsOnly
    have hlen : (s.bytesAt e.line 64).length = 64 := by rw [bytesAt_eq]; simp
    refine (byteAt_of_wordsOnly hwords x).trans ?_
    rw [byteAt_store, hinit, hlen]
    split
    next h =>
      rw [List.getD_eq_getElem _ _ (by omega)]
      simp only [bytesAt_eq, List.getElem_map, List.getElem_range, Nat.add_sub_of_le h.1]
    · rfl
  · rfl

theorem memByte_of_cached {s : State} {x : Nat} (hx : (s.slcCopy (lineOf x)).isSome = true) : s.memByte x = s.byteAt x := by
  obtain ⟨e, he⟩ := Option.isSome_iff_exists.mp hx
  simp [State.memByte, State.blank, he]

theorem memByte_evictAll (l : List SlcLine) {s : State} {x : Nat} (hx : (s.slcCopy (lineOf x)).isSome = true) :
    (l.foldl State.slcEvict s).memByte x = s.memByte x := by
  have hkept : (l.foldl State.slcEvict s).byteAt x = s.byteAt x := by
    induction l generalizing s with
    | nil => rfl
    | cons e l ih =>
      have hx' : ((s.slcEvict e).slcCopy (lineOf x)).isSome = true := by rw [(memoryOnly_slcEvict s e).slcCopy, hx]
      exact (ih hx').trans (byteAt_slcEvict e hx)
  rw [memByte_of_cached hx, memByte_of_cached (by rw [(memoryOnly_evictAll l s).slcCopy, hx]), hkept]

/-- The lines of a system-level cache once a line has come first in it, before any leaves. -/
def State.slcWith (s : State) (la : Nat) : List SlcLine :=
  (s.slcCopy la).getD ⟨la, false, 0, 0⟩ :: (s.home (s.homeOf la)).slc.filter (fun e => e.line != la)

/-- A line is first in the system-level cache, and the lines that it displaces have yet to be written back. -/
def State.slcFirst (s : State) (la : Nat) : State :=
  ({ s with mem := if s.blank la then s.mem.filter (fun c => lineOf c.1 != la) else s.mem } : State).setHome (s.homeOf la)
    { s.home (s.homeOf la) with slc := (s.slcWith la).take (slcLines (s.homeOf la)) }

theorem slcFill_eq (s : State) (la : Nat) :
    s.slcFill la = ((s.slcWith la).drop (slcLines (s.homeOf la))).foldl State.slcEvict (s.slcFirst la) := by
  unfold State.slcFill State.slcFirst
  split <;> rfl

section
variable (s : State) (la : Nat)

theorem home_slcFirst (k : Nat) : (s.slcFirst la).home k = { s.home k with slc := ((s.slcFirst la).home k).slc } := by
  rw [State.slcFirst, home_setHome]
  split
  next h => rw [h]
  · rfl

theorem home_slcFill (k : Nat) : (s.slcFill la).home k = { s.home k with slc := ((s.slcFill la).home k).slc } := by
  have hhomes : (s.slcFill la).homes = (s.slcFirst la).homes := by rw [slcFill_eq]; exact (memoryOnly_evictAll _ _).homes
  have hhome : (s.slcFill la).home k = (s.slcFirst la).home k := congrArg (kget Home.reset · k) hhomes
  rw [hhome]
  exact home_slcFirst s la k

theorem slcFill_beside_memory : (s.slcFill la).csr = s.csr ∧ (s.slcFill la).cores = s.cores ∧ (s.slcFill la).mesh = s.mesh := by
  have hmem := memoryOnly_evictAll ((s.slcWith la).drop (slcLines (s.homeOf la))) (s.slcFirst la)
  rw [← slcFill_eq] at hmem
  exact ⟨hmem.csr, hmem.cores, hmem.mesh⟩

theorem line_slcWith_head : ((s.slcCopy la).getD ⟨la, false, 0, 0⟩).line = la := by
  cases he : s.slcCopy la with
  | none => rfl
  | some e => exact line_of_slcCopy he

/-- The line is in its place. -/
theorem slcCopy_slcFirst : (s.slcFirst la).slcCopy la = some ((s.slcCopy la).getD ⟨la, false, 0, 0⟩) := by
  have hpos : slcLines (s.homeOf la) = slcLines (s.homeOf la) - 1 + 1 := by unfold slcLines; split <;> rfl
  have hhome : (s.slcFirst la).homeOf la = s.homeOf la := rfl
  rw [State.slcCopy, hhome, State.slcFirst, home_setHome_same]
  rw [hpos, State.slcWith, List.take_succ_cons]
  exact List.find?_cons_of_pos (beq_iff_eq.mpr (line_slcWith_head s la))

theorem isSome_slcCopy_slcFill : ((s.slcFill la).slcCopy la).isSome = true := by
  rw [slcFill_eq, (memoryOnly_evictAll _ _).slcCopy, slcCopy_slcFirst]
  rfl

/-- The line has the value that it had: zero bytes are in memory for one that was blank (R239). -/
theorem memByte_slcFirst {x : Nat} (hx : lineOf x = la) : (s.slcFirst la).memByte x = s.memByte x := by
  rw [memByte_of_cached (by rw [hx, slcCopy_slcFirst]; rfl), State.memByte, hx]
  have hmem : (s.slcFirst la).mem = if s.blank la then s.mem.filter (fun c => lineOf c.1 != la) else s.mem := rfl
  rw [State.byteAt, hmem]
  split
  · rw [kget_filter_keys 0 (fun k => lineOf k != la), if_neg (by simp [hx])]
  · rfl

theorem memByte_slcFill {x : Nat} (hx : lineOf x = la) : (s.slcFill la).memByte x = s.memByte x := by
  rw [slcFill_eq, memByte_evictAll _ (by rw [hx, slcCopy_slcFirst]; rfl), memByte_slcFirst s la hx]

theorem lineAt_slcFill (h64 : la % 64 = 0) : (s.slcFill la).lineAt la = s.lineAt la :=
  lineAt_congr h64 fun x hlo hhi => memByte_slcFill s la (by unfold lineOf; omega)

variable {s la}

/-- The other lines of the cache are still in it. -/
theorem find?_slcWith {l : Nat} (hl : l ≠ la) : (s.slcWith la).find? (fun e => e.line == l) =
    (s.home (s.homeOf la)).slc.find? (fun e => e.line == l) := by
  rw [State.slcWith, List.find?_cons_of_neg (by rw [line_slcWith_head]; simpa using Ne.symm hl), List.find?_filter]
  refine congrArg (fun p => List.find? p _) (funext fun e => ?_)
  by_cases he : e.line = l
  · simp [he, hl]
  · simp [he]

/-- While the cache has room for one line more, no other line leaves it, and no memory value changes. -/
theorem memByte_slcFill_of_room (hroom : (s.home (s.homeOf la)).slc.length < slcLines (s.homeOf la)) (x : Nat) :
    (s.slcFill la).memByte x = s.memByte x := by
  by_cases hx : lineOf x = la
  · exact memByte_slcFill s la hx
  · have hlen : (s.slcWith la).length ≤ slcLines (s.homeOf la) := by
      have hfilter := List.length_filter_le (fun e : SlcLine => e.line != la) (s.home (s.homeOf la)).slc
      simp only [State.slcWith, List.length_cons]
      omega
    have hslc : (s.slcFirst la).slcCopy (lineOf x) = s.slcCopy (lineOf x) := by
      have hhome : (s.slcFirst la).homeOf (lineOf x) = s.homeOf (lineOf x) := rfl
      rw [State.slcCopy, State.slcCopy, hhome, State.slcFirst, home_setHome, List.take_of_length_le hlen]
      split
      next hk => rw [hk]; exact find?_slcWith hx
      · rfl
    have habove : (s.slcFirst la).above (lineOf x) = s.above (lineOf x) :=
      above_congr (s := s) (t := s.slcFirst la) rfl (fun _ => rfl) (fun _ => rfl) _
    have hbyte : (s.slcFirst la).byteAt x = s.byteAt x := by
      have hmem : (s.slcFirst la).mem = if s.blank la then s.mem.filter (fun c => lineOf c.1 != la) else s.mem := rfl
      rw [State.byteAt, hmem]
      split
      · rw [kget_filter_keys 0 (fun k => lineOf k != la), if_pos (by simpa using hx)]
        rfl
      · rfl
    rw [slcFill_eq, List.drop_eq_nil_of_le hlen, List.foldl_nil, State.memByte, State.memByte, State.blank, State.blank, habove, hslc, hbyte]

end

/-! ## A home grants a line that nothing holds (R269) -/

theorem SeesAlike.trans {s t u : State} (h : SeesAlike s t) (h' : SeesAlike t u) : SeesAlike s u :=
  ⟨h'.pop.trans h.pop, fun k => (h'.status k).trans (h.status k), h'.mcs.trans h.mcs, fun k => (h'.slc k).trans (h.slc k),
    h'.mem.trans h.mem, h'.ue.trans h.ue, h'.ce.trans h.ce⟩

/-- A change of a home that leaves its system-level cache. -/
theorem seesAlike_setHome {s : State} {j : Nat} {x : Home} (h : x.slc = (s.home j).slc) : SeesAlike s (s.setHome j x) := by
  refine ⟨rfl, fun _ => rfl, rfl, fun k => ?_, rfl, rfl, rfl⟩
  rw [home_setHome]
  split
  next hk => rw [hk, h]
  · rfl

theorem seesAlike_openTxn (s : State) (la : Nat) (why : TxnWhy) (wait : List Nat) (g : Bool) : SeesAlike s (s.openTxn la why wait g) :=
  seesAlike_setHome rfl

theorem seesAlike_modTxn (s : State) (la : Nat) (f : Txn → Txn) : SeesAlike s (s.modTxn la f) := seesAlike_setHome rfl

theorem seesAlike_nothingWaits (s : State) (h : Nat) : SeesAlike s (s.nothingWaits h) := seesAlike_setHome rfl

theorem seesAlike_mesh (s : State) (m : Msg) : SeesAlike s (s.mesh! m) := ⟨rfl, fun _ => rfl, rfl, fun _ => rfl, rfl, rfl, rfl⟩

theorem seesAlike_setCore (s : State) (c : Nat) (x : HostCore) : SeesAlike s (s.setCore c x) := ⟨rfl, fun _ => rfl, rfl, fun _ => rfl, rfl, rfl, rfl⟩

/-- The entry of a line that a home has put. -/
theorem entry_put (x : Home) (la : Nat) (st : DirState) (way : Nat) :
    ∃ e, (x.put la st way).entry la = some e ∧ e.st = st ∧ (x.entry la = none → e.way = way) := by
  have hline : ((x.entry la).getD ⟨la, st, way, false, 0⟩).line = la := by
    cases he : x.entry la with
    | none => rfl
    | some e => simpa using List.find?_some he
  have hnone : (x.dir.filter (fun d => d.line != la)).find? (fun e => e.line == la) = none := by
    rw [List.find?_eq_none]
    intro e he
    simpa using (List.mem_filter.mp he).2
  refine ⟨{ (x.entry la).getD ⟨la, st, way, false, 0⟩ with st := st, used := x.stamp + 1 }, ?_, rfl, fun h => by rw [h]; rfl⟩
  rw [Home.entry, Home.put, List.find?_append, hnone, Option.none_or]
  exact List.find?_cons_of_pos (beq_iff_eq.mpr hline)

/-- Changing open transactions closes none. -/
theorem openOn_modTxn {s : State} {la : Nat} (f : Txn → Txn) (hf : ∀ t, (f t).line = t.line)
    (h : (s.home (s.homeOf la)).openOn la = true) : ((s.modTxn la f).home (s.homeOf la)).openOn la = true := by
  have hany (l : List Txn) (hl : l.any (fun t => t.line == la) = true) :
      (modifyFirst (fun t => t.line == la) f l).any (fun t => t.line == la) = true := by
    have hsome (l : List Txn) : l.any (fun t => t.line == la) = (l.find? (fun t => t.line == la)).isSome := by
      rw [Bool.eq_iff_iff, List.any_eq_true, List.find?_isSome]
    rw [hsome, isSome_find?_modifyFirst (fun x => by rw [hf]), ← hsome, hl]
  rw [State.modTxn, home_setHome_same]
  exact hany _ h

theorem openOn_openTxn (s : State) (la : Nat) (why : TxnWhy) (wait : List Nat) (g : Bool) :
    ((s.openTxn la why wait g).home (s.homeOf la)).openOn la = true := by
  rw [State.openTxn, home_setHome_same, Home.openOn, List.any_append]
  simp

/-- Opening a transaction leaves the directories. -/
theorem entry_openTxn (s : State) (la : Nat) (why : TxnWhy) (wait : List Nat) (g : Bool) (k l : Nat) :
    ((s.openTxn la why wait g).home k).entry l = (s.home k).entry l := by
  rw [State.openTxn, home_setHome]
  split
  next h => rw [h]; rfl
  · rfl

/-- A home sends the data of a line and its grant. -/
def State.sendGrant (s : State) (c : CoreId) (la : Nat) (d : Line) (g : LineState) : State :=
  ((s.mesh! (.data (.core c) la d)).mesh! (.cmp g c la)).modTxn la (fun t => { t with granted := true })

/-- What a home does in granting a line whose data it sends. -/
def State.grantSent (s : State) (c : CoreId) (la : Nat) (d : Line) (st : DirState) (g : LineState) (way : Nat) : State :=
  ((s.setHome (s.homeOf la) ((s.home (s.homeOf la)).put la st way)).slcFill la).sendGrant c la d g

theorem grantData_read {s t : State} {c : CoreId} {la : Nat} {d : Line} (hr : s.homeRead (coreWho c) la = (t, some d))
    (hh : t.homeOf la = s.homeOf la) (st : DirState) (g : LineState) (way : Nat) (f : Option DirState) :
    s.grantData c la st g way f = t.grantSent c la d st g way := by
  have hc : Fin.ofNat 96 c.val = c := Fin.ofNat_val_eq_self c
  simp only [State.grantData, hr, hc, State.grantSent, State.sendGrant, hh]

/-- Changing an open transaction leaves the directory of its home. -/
theorem entry_modTxn (s : State) (la k l : Nat) (f : Txn → Txn) : ((s.modTxn la f).home k).entry l = (s.home k).entry l := by
  rw [State.modTxn, home_setHome]
  split
  next h => rw [h]; rfl
  · rfl

section
variable (s : State) (c : CoreId) (la : Nat) (d : Line) (g : LineState)

theorem seesAlike_sendGrant : SeesAlike s (s.sendGrant c la d g) := ((seesAlike_mesh ..).trans (seesAlike_mesh ..)).trans (seesAlike_modTxn ..)

theorem mesh_sendGrant : (s.sendGrant c la d g).mesh = s.mesh ++ [.data (.core c) la d, .cmp g c la] := List.append_assoc s.mesh [_] [_]

theorem cores_sendGrant : (s.sendGrant c la d g).cores = s.cores := rfl

theorem entry_sendGrant (k l : Nat) : ((s.sendGrant c la d g).home k).entry l = (s.home k).entry l := entry_modTxn _ la k l _

theorem openOn_sendGrant (h : (s.home (s.homeOf la)).openOn la = true) : ((s.sendGrant c la d g).home (s.homeOf la)).openOn la = true :=
  openOn_modTxn (s := (s.mesh! (.data (.core c) la d)).mesh! (.cmp g c la)) _ (fun _ => rfl) h

end

/-- What holds once a home has granted a line with its data. -/
structure Granted (s t : State) (c : CoreId) (la : Nat) (d : Line) (st : DirState) (g : LineState) (way : Nat) : Prop where
  cores : t.cores = s.cores
  mesh : t.mesh = s.mesh ++ [.data (.core c) la d, .cmp g c la]
  cached : (t.slcCopy la).isSome = true
  value : t.lineAt la = s.lineAt la
  others : (s.home (s.homeOf la)).slc.length < slcLines (s.homeOf la) → ∀ x, t.memByte x = s.memByte x
  entry : ∃ e, (t.home (s.homeOf la)).entry la = some e ∧ e.st = st ∧ ((s.home (s.homeOf la)).entry la = none → e.way = way)
  openOn : (s.home (s.homeOf la)).openOn la = true → (t.home (s.homeOf la)).openOn la = true

/-- A home that takes a line into its system-level cache and sends it. -/
theorem granted_of_fill {s u w : State} {la : Nat} (c : CoreId) (d : Line) {st : DirState} (g : LineState) {way : Nat} (h64 : la % 64 = 0)
    (hu : u = s.setHome (s.homeOf la) ((s.home (s.homeOf la)).put la st way)) (hw : w = u.slcFill la) :
    Granted s (w.sendGrant c la d g) c la d st g way := by
  have hsees : SeesAlike s u := hu ▸ seesAlike_setHome rfl
  have hput : u.home (s.homeOf la) = (s.home (s.homeOf la)).put la st way := by rw [hu, home_setHome_same]
  have hbeside : u.cores = s.cores ∧ u.mesh = s.mesh := by rw [hu]; exact ⟨rfl, rfl⟩
  obtain ⟨hcsr, hcores, hmesh⟩ := slcFill_beside_memory u la
  rw [← hw] at hcsr hcores hmesh
  have hwhome : w.home (s.homeOf la) = { (s.home (s.homeOf la)).put la st way with slc := (w.home (s.homeOf la)).slc } := by
    rw [← hput, hw]
    exact home_slcFill u la _
  have hhomeOf : w.homeOf la = s.homeOf la := (homeOf_of_csr hcsr la).trans (hsees.homeOf la)
  have hsent := seesAlike_sendGrant w c la d g
  exact {
    cores := (cores_sendGrant ..).trans (hcores.trans hbeside.1)
    mesh := by rw [mesh_sendGrant, hmesh, hbeside.2]
    cached := by rw [hsent.slcCopy, hw]; exact isSome_slcCopy_slcFill u la
    value := by rw [hsent.lineAt la h64, hw, lineAt_slcFill u la h64, hsees.lineAt la h64]
    others := fun hroom x => by
      have hroom' : (u.home (u.homeOf la)).slc.length < slcLines (u.homeOf la) := by rw [hsees.homeOf, hsees.slc]; exact hroom
      rw [hsent.memByte, hw, memByte_slcFill_of_room hroom', hsees.memByte]
    entry := by
      rw [entry_sendGrant, hwhome]
      exact entry_put ..
    openOn := fun h => by
      rw [← hhomeOf]
      refine openOn_sendGrant w c la d g ?_
      rw [hhomeOf, hwhome]
      exact h }

theorem granted_grantSent (s : State) (c : CoreId) {la : Nat} (d : Line) (st : DirState) (g : LineState) (way : Nat) (h64 : la % 64 = 0) :
    Granted s (s.grantSent c la d st g way) c la d st g way := granted_of_fill c d g h64 rfl rfl

end Sys2Proof.Machine
end

section
/-! Requests that are served at the home of a quiet line (R261, R263, R269), and what the six kinds of them leave. -/

namespace Sys2Proof.Machine

/-! ## A request is served at its home (R261, R263, R269) -/

/-- A request of a non-caching agent to a line of the windows reaches its home. -/
theorem agentRequest_window (s : State) (a : Agent) {la : Nat} (k : ReqKind) (h64 : la % 64 = 0) (hw : isWindow la = true) :
    s.agentRequest a la k = s.arrive a la k ∧ lineOf la = la := by
  have hla : lineOf la = la := Nat.div_mul_cancel (Nat.dvd_of_mod_eq_zero h64)
  exact ⟨by rw [State.agentRequest, if_pos hw, hla], hla⟩

/-- A core has begun its one miss. -/
def State.withMiss (s : State) (c : CoreId) (m : Miss) : State := s.setCore c { s.core c with misses := [m] }

/-- What a core may ask for (R269): a line that it does not hold, or to own one that it shares. -/
def MayAsk (x : HostCore) (la : Nat) (k : ReqKind) : Prop :=
  (k = .rdShared ∨ k = .rdOwn) ∧ x.copy la = none ∨ k = .upgrade ∧ ∃ d, x.copy la = some ⟨.shared, d⟩

/-- A core without a miss asks for a line of the windows. -/
theorem coreRequest_window {s : State} {c : CoreId} {la : Nat} {k : ReqKind} (retires : Bool) (h64 : la % 64 = 0) (hw : isWindow la = true)
    (hr : s.coreRuns c = true) (hm : (s.core c).misses = []) (hk : MayAsk (s.core c) la k) : s.coreRequest c la retires k =
      (s.withMiss c ⟨la, k == .upgrade, retires, none, false, none, 0, 0⟩).arrive (.core c) la k := by
  have hla : lineOf la = la := Nat.div_mul_cancel (Nat.dvd_of_mod_eq_zero h64)
  have hlt : ¬2 ^ 48 ≤ la := by simp only [isWindow, decide_eq_true_eq] at hw; omega
  rw [State.coreRequest, if_neg hlt, if_pos hw]
  unfold State.coreAsk
  rcases hk with ⟨rfl | rfl, hcopy⟩ | ⟨rfl, d, hcopy⟩ <;> simp [hla, hr, hm, hcopy, State.withMiss]

section
variable {s : State} {r : HomeReq} {c : CoreId}

/-- A core's request to a page of DEVICE bias is denied and counted (R263). -/
theorem serveCore_denied (hf : s.flips r.line = false) (hw : s.wbFlying c r.line = false) (hd : s.deviceBias r.line = true) :
    s.serveCore r c = ((s.bumpF (.homeBiasDenied (s.homeOf r.line)) Fld.homeBiasDeniedCount 1).mesh! (.deny c r.line), true) := by
  simp [State.serveCore, hf, hw, hd]

/-- A core's request for a line without an entry takes the free way that it finds (R270). -/
theorem serveCore_new {w : Nat} (hf : s.flips r.line = false) (hw : s.wbFlying c r.line = false) (hd : s.deviceBias r.line = false)
    (hu : s.usable r.line = true) (he : (s.home (s.homeOf r.line)).entry r.line = none)
    (hp : (s.home (s.homeOf r.line)).pick r.line = .free w) :
    s.serveCore r c = ((s.openTxn r.line (.request r) [] false).grant r c false w, true) := by
  simp [State.serveCore, State.serveNew, hf, hw, hd, hu, he, hp]

/-- A core that asks for a line without an entry becomes its owner (R269). -/
theorem grant_new {g : LineState} (hk : r.kind = .rdShared ∧ g = .exclusive ∨ r.kind = .rdOwn ∧ g = .modified)
    (he : (s.home (s.homeOf r.line)).entry r.line = none) (w : Nat) :
    s.grant r c false w = s.grantData c r.line (.owned c) g w none := by
  rcases hk with ⟨hk, rfl⟩ | ⟨hk, rfl⟩ <;> simp [State.grant, hk, he]

/-- The sharer vector of one core names that core. -/
theorem getLsbD_oneCore (c k : CoreId) : (oneCore c).getLsbD k = decide (k = c) := by
  have hc := c.isLt
  rw [oneCore, BitVec.getLsbD_ofNat, Nat.testBit_two_pow, decide_eq_true k.isLt, Bool.true_and]
  simp [Fin.ext_iff, eq_comm]

/-- The one sharer of a line asks to own it: no core is snooped (R269). -/
theorem serveCore_upgrade {e : DirEntry} (hk : r.kind = .upgrade) (hf : s.flips r.line = false) (hw : s.wbFlying c r.line = false)
    (hd : s.deviceBias r.line = false) (hu : s.usable r.line = true) (he : (s.home (s.homeOf r.line)).entry r.line = some e)
    (hst : e.st = .shared (oneCore c)) :
    s.serveCore r c = ((s.openTxn r.line (.request r) [] false).grant r c false e.way, true) := by
  have hothers : (DirState.shared (oneCore c)).cores.filter (fun k => k != c.val) = [] := by
    simp only [List.filter_eq_nil_iff, DirState.cores, List.mem_filter, List.mem_range]
    rintro k ⟨hk, hbit⟩
    have := (getLsbD_oneCore c ⟨k, hk⟩).symm.trans hbit
    simpa [Fin.ext_iff] using this
  simp [State.serveCore, hf, hw, hd, hu, he, hst, hk, hothers]

/-- A sharer that asks to own a line is granted it without data (R269). -/
theorem grant_upgrade {e : DirEntry} (hk : r.kind = .upgrade) (he : (s.home (s.homeOf r.line)).entry r.line = some e)
    (hst : e.st = .shared (oneCore c)) (w : Nat) : s.grant r c false w =
      ((s.setHome (s.homeOf r.line) ((s.home (s.homeOf r.line)).put r.line (.owned c) w)).mesh! (.cmp .modified c r.line)).modTxn r.line
        (fun t => { t with granted := true }) := by
  have hbit : (oneCore c).getLsbD c = true := by rw [getLsbD_oneCore]; simp
  simp [State.grant, hk, he, hst, hbit]

/-- A non-caching read of a page of DEVICE bias (R261). -/
theorem serve_read {t : State} {d : Line} (hk : r.kind = .rdNA) (hu : s.usable r.line = true) (hd : s.deviceBias r.line = true)
    (hread : s.homeRead (Agent.who r.agent) r.line = (t, some d)) : s.serve r = (t.mesh! (.data r.agent r.line d), true) := by
  simp [State.serve, State.serveAgent, hk, hu, hd, hread]

/-- A non-caching write of a whole line of a page of DEVICE bias (R261). -/
theorem serve_write {d : Line} (hk : r.kind = .wrNA d) (hu : s.usable r.line = true) (hd : s.deviceBias r.line = true) :
    s.serve r = ((s.homeWrite (Agent.who r.agent) r.line (BitVec.allOnes 64) d).mesh! (.wrAck r.agent r.line), true) := by
  simp [State.serve, State.serveAgent, hk, hu, hd]

/-- A non-caching write of some bytes of a page of DEVICE bias (R261). -/
theorem serve_writePart {m : W64} {d : Line} (hk : r.kind = .wrPart m d) (hu : s.usable r.line = true) (hd : s.deviceBias r.line = true) :
    s.serve r = ((s.homeWrite (Agent.who r.agent) r.line m d).mesh! (.wrAck r.agent r.line), true) := by
  simp [State.serve, State.serveAgent, hk, hu, hd]

end

/-! ## What a home asks before it serves a request -/

section
variable {s t : State}

theorem flips_congr (h : t.flip = s.flip) (la : Nat) : t.flips la = s.flips la := by simp only [State.flips, h]

theorem wbFlying_congr (h : t.mesh = s.mesh) (c la : Nat) : t.wbFlying c la = s.wbFlying c la := by simp only [State.wbFlying, h]

theorem deviceBias_congr (h : t.bias = s.bias) (la : Nat) : t.deviceBias la = s.deviceBias la := by simp only [State.deviceBias, h]

/-- Whether an offset is usable is in the registers (R231). -/
theorem usable_of_csr (h : t.csr = s.csr) (la : Nat) : t.usable la = s.usable la := by
  unfold State.usable State.hbmSize State.lpSize
  rw [rf_of_csr h, rf_of_csr h]

end

/-- A request that has come changes no register, no page bias, no core, no message and no byte of memory. -/
theorem asked_keeps (s : State) (a : Agent) (la : Nat) (k : ReqKind) : (s.asked a la k).csr = s.csr ∧ (s.asked a la k).bias = s.bias
    ∧ (s.asked a la k).cores = s.cores ∧ (s.asked a la k).mesh = s.mesh ∧ (s.asked a la k).mem = s.mem := ⟨rfl, rfl, rfl, rfl, rfl⟩

/-! ## What is left when a request has been served -/

/-- The homes once a request that found nothing waiting has been served, its queue being empty again. -/
theorem home_nothingWaits {s t : State} {a : Agent} {la : Nat} {k : ReqKind} (hq : (s.home (s.homeOf la)).queue = [])
    (ht : ∀ j, t.home j = { (s.asked a la k).home j with slc := (t.home j).slc }) (j : Nat) :
    (t.nothingWaits (s.homeOf la)).home j = { s.home j with slc := (t.home j).slc } := by
  rw [State.nothingWaits, home_setHome]
  split
  next h => rw [h, ht, home_asked, ← hq]
  next h =>
    have hj : (s.asked a la k).home j = s.home j := home_setHome_ne s _ _ _ h
    rw [ht, hj]

/-- A command of an agent that acts, whose domain runs. -/
theorem exec_of_agentDo {i : Instr} {s t : State} {d : Nat} {a : Agent} {f : State → State} (hi : exec i s = agentDo d a s f)
    (hs : s.runs (max d (Agent.domain a)) = true) (ha : s.agentActs a = true) (h : f s = t) : exec i s = .next t := by
  rw [hi, agentDo, clocked_runs hs, if_pos ha, h]

/-- A request of an agent on a quiet line, with no other message of its MCLK to come, is served at once. -/
theorem agentRequest_served {s t : State} {a : Agent} {la : Nat} {k : ReqKind} (hquiet : QuietLine s la)
    (hmore : s.moreFor (s.homeOf la) = false) (hserve : (s.asked a la k).serve ⟨a, la, k, s.mclk⟩ = (t, true)) :
    (s.agentRequest a la k).lineMclkEnd (lineOf la) = t.nothingWaits (s.homeOf la) := by
  obtain ⟨-, h64, hw, -, hq, ho, -, hb, -, -⟩ := hquiet
  obtain ⟨harrive, hla⟩ := agentRequest_window s a k h64 hw
  rw [harrive, hla, arrive_served hq hmore ho hb hserve]

section
variable {s : State} {a : Agent} {la : Nat} (hquiet : QuietLine s la) (hmore : s.moreFor (s.homeOf la) = false)
include hquiet hmore

/-- A non-caching read of a page of DEVICE bias is answered with the line (R261). -/
theorem agentRead_done (hd : s.deviceBias la = true) : ∃ t, (s.agentRequest a la .rdNA).lineMclkEnd (lineOf la) = t
    ∧ t.mesh = s.mesh ++ [.data a la (s.lineAt la)]
    ∧ t.mem = s.mem ∧ t.cores = s.cores ∧ ∀ j, t.home j = s.home j := by
  obtain ⟨-, h64, -, hu, hq, -, -, -, hue, hce⟩ := id hquiet
  have hsees := seesAlike_asked s a la .rdNA
  obtain ⟨hcsr, hbias, hcores, hmesh, hmem⟩ := asked_keeps s a la .rdNA
  obtain ⟨t, hread, hclean⟩ := homeRead_clean (s := s.asked a la .rdNA) (Agent.who a) h64 ((hsees.lineUe la).trans hue)
    ((hsees.lineCe la).trans hce)
  rw [hsees.lineAt la h64] at hread
  have hserve := serve_read (r := ⟨a, la, .rdNA, s.mclk⟩) rfl ((usable_of_csr hcsr la).trans hu) ((deviceBias_congr hbias la).trans hd) hread
  refine ⟨_, agentRequest_served hquiet hmore hserve, ?_, hclean.mem.trans hmem, hclean.cores.trans hcores, fun j => ?_⟩
  · exact congrArg (· ++ [Msg.data a la (s.lineAt la)]) (hclean.mesh.trans hmesh)
  · have hhome (j : Nat) : (t.mesh! (.data a la (s.lineAt la))).home j = (s.asked a la .rdNA).home j := hclean.home j
    rw [home_nothingWaits hq (fun j => by rw [hhome]) j, hhome, hsees.slc]

/-- What a non-caching write of a page of DEVICE bias leaves (R261). -/
theorem agentWrite_done {k : ReqKind} {mask : W64} {d : Line}
    (hserve : (s.asked a la k).serve ⟨a, la, k, s.mclk⟩ = (((s.asked a la k).homeWrite (Agent.who a) la mask d).mesh! (.wrAck a la), true)) :
    ∃ t, (s.agentRequest a la k).lineMclkEnd (lineOf la) = t ∧ t.mesh = s.mesh ++ [.wrAck a la]
      ∧ t.lineAt la = mergeLine (s.lineAt la) d mask ∧ (∀ x, ¬(la ≤ x ∧ x < la + 64) → t.memByte x = s.memByte x) ∧ t.cores = s.cores
      ∧ (∀ j, t.home j = { s.home j with slc := (t.home j).slc }) ∧ (s.slcCopy la = none → ∀ j, t.home j = s.home j)
      ∧ (∀ e, s.slcCopy la = some e → t.slcCopy la = some { e with dirty := true, ue := 0, ce := 0 }) ∧ t.csr = s.csr := by
  obtain ⟨-, h64, -, -, hq, -, -, -, hue, hce⟩ := id hquiet
  have hsees := seesAlike_asked s a la k
  rw [homeWrite_clean _ _ _ ((hsees.lineUe la).trans hue) ((hsees.lineCe la).trans hce), hsees.lineAt la h64] at hserve
  have hstored := storesLine_storeLine (s.asked a la k) (mergeLine (s.lineAt la) d mask) h64
  have hvalue := lineAt_storeLine (s.asked a la k) h64 (mergeLine (s.lineAt la) d mask)
  have hother (x : Nat) (hx : ¬(la ≤ x ∧ x < la + 64)) : ((s.asked a la k).storeLine la (lineBytes (mergeLine (s.lineAt la) d mask))).memByte x
      = s.memByte x := by
    rw [memByte_storeLine h64 (length_lineBytes _), if_neg hx, hsees.memByte]
  generalize (s.asked a la k).storeLine la (lineBytes (mergeLine (s.lineAt la) d mask)) = u at hserve hstored hvalue hother
  have hlast : SeesAlike u ((u.mesh! (.wrAck a la)).nothingWaits (s.homeOf la)) := (seesAlike_mesh ..).trans (seesAlike_nothingWaits ..)
  have hhome (j : Nat) : ((u.mesh! (.wrAck a la)).nothingWaits (s.homeOf la)).home j = { s.home j with slc := (u.home j).slc } :=
    home_nothingWaits (t := u.mesh! (.wrAck a la)) hq hstored.home j
  refine ⟨_, agentRequest_served hquiet hmore hserve, congrArg (· ++ [Msg.wrAck a la]) hstored.mesh, (hlast.lineAt la h64).trans hvalue,
    fun x hx => (hlast.memByte x).trans (hother x hx), hstored.cores, fun j => ?_, fun hnone j => ?_, fun e he => ?_, hstored.csr⟩
  · rw [hhome]
  · rw [hhome, hstored.uncached ((hsees.slcCopy la).trans hnone), hsees.slc]
  · exact (hlast.slcCopy la).trans (hstored.cached e ((hsees.slcCopy la).trans he))

end

/-! ## A home serves a core's request for a line that nothing holds -/

/-- A grant is one as it is seen from an earlier state, from which nothing that it speaks of has changed. -/
theorem Granted.of_before {s t v : State} {c : CoreId} {la : Nat} {d : Line} {st : DirState} {g : LineState} {way : Nat}
    (h : Granted t v c la d st g way) (h64 : la % 64 = 0) (hhome : t.homeOf la = s.homeOf la) (hbyte : ∀ x, t.memByte x = s.memByte x)
    (hslc : (t.home (s.homeOf la)).slc = (s.home (s.homeOf la)).slc)
    (hentry : (t.home (s.homeOf la)).entry la = (s.home (s.homeOf la)).entry la) (hcores : t.cores = s.cores) (hmesh : t.mesh = s.mesh)
    (hopen : (s.home (s.homeOf la)).openOn la = true → (t.home (s.homeOf la)).openOn la = true) : Granted s v c la d st g way where
  cores := h.cores.trans hcores
  mesh := by rw [h.mesh, hmesh]
  cached := h.cached
  value := h.value.trans (lineAt_congr h64 fun x _ _ => hbyte x)
  others hroom x := (h.others (by rw [hhome, hslc]; exact hroom) x).trans (hbyte x)
  entry := by
    have he := h.entry
    rw [hhome, hentry] at he
    exact he
  openOn ho := by
    rw [← hhome]
    exact h.openOn (by rw [hhome]; exact hopen ho)

/-- A home that reads a line without errors grants it with its data. -/
theorem grantData_clean (s : State) {c : CoreId} {la : Nat} (st : DirState) (g : LineState) (way : Nat) (f : Option DirState)
    (h64 : la % 64 = 0) (hue : s.lineUe la = []) (hce : s.lineCe la = []) : Granted s (s.grantData c la st g way f) c la (s.lineAt la) st g way := by
  obtain ⟨t, hread, hclean⟩ := homeRead_clean (coreWho c) h64 hue hce
  rw [grantData_read hread (hclean.homeOf la)]
  exact (granted_grantSent t c (s.lineAt la) st g way h64).of_before h64 (hclean.homeOf la) hclean.memByte (by rw [hclean.home])
    (by rw [hclean.home]) hclean.cores hclean.mesh (by rw [hclean.home]; exact id)

/-- A core's request to a page of DEVICE bias is denied and counted (R263). -/
theorem serveCore_denies {s : State} {r : HomeReq} {c : CoreId} (hf : s.flips r.line = false) (hw : s.wbFlying c r.line = false)
    (hd : s.deviceBias r.line = true) : ∃ v, s.serveCore r c = (v, true) ∧ v.cores = s.cores ∧ v.mesh = s.mesh ++ [.deny c r.line] ∧ v.mem = s.mem
      ∧ v.rf (.homeBiasDenied (s.homeOf r.line)) Fld.homeBiasDeniedCount
        = satAdd Fld.homeBiasDeniedCount.width (s.rf (.homeBiasDenied (s.homeOf r.line)) Fld.homeBiasDeniedCount) 1 := by
  refine ⟨_, serveCore_denied hf hw hd, rfl, rfl, rfl, ?_⟩
  exact rf_bumpF_same s (.homeBiasDenied (s.homeOf r.line)) _ 1 (by decide)

/-- A core's request for a line without an entry opens a transaction and is granted (R269). -/
theorem serveCore_grants {s : State} {r : HomeReq} {c : CoreId} {g : LineState} {w : Nat} (h64 : r.line % 64 = 0)
    (hf : s.flips r.line = false) (hw : s.wbFlying c r.line = false) (hd : s.deviceBias r.line = false) (hu : s.usable r.line = true)
    (he : (s.home (s.homeOf r.line)).entry r.line = none) (hp : (s.home (s.homeOf r.line)).pick r.line = .free w)
    (hue : s.lineUe r.line = []) (hce : s.lineCe r.line = []) (hg : r.kind = .rdShared ∧ g = .exclusive ∨ r.kind = .rdOwn ∧ g = .modified) :
    ∃ v, s.serveCore r c = (v, true) ∧ Granted s v c r.line (s.lineAt r.line) (.owned c) g w
      ∧ (v.home (s.homeOf r.line)).openOn r.line = true := by
  have hsees := seesAlike_openTxn s r.line (.request r) [] false
  have hentry := entry_openTxn s r.line (.request r) [] false (s.homeOf r.line) r.line
  have hopen := openOn_openTxn s r.line (.request r) [] false
  have hserve := serveCore_new hf hw hd hu he hp
  have hbeside : (s.openTxn r.line (.request r) [] false).cores = s.cores ∧ (s.openTxn r.line (.request r) [] false).mesh = s.mesh := ⟨rfl, rfl⟩
  generalize s.openTxn r.line (.request r) [] false = t at hsees hentry hopen hserve hbeside
  have hnone : (t.home (t.homeOf r.line)).entry r.line = none := by rw [hsees.homeOf, hentry, he]
  rw [grant_new hg hnone] at hserve
  have hgrant := grantData_clean t (c := c) (.owned c) g w none h64 ((hsees.lineUe _).trans hue) ((hsees.lineCe _).trans hce)
  rw [hsees.lineAt _ h64] at hgrant
  refine ⟨_, hserve, hgrant.of_before h64 (hsees.homeOf _) hsees.memByte (hsees.slc _) hentry hbeside.1 hbeside.2 (fun _ => hopen), ?_⟩
  have hfinal := hgrant.openOn
  rw [hsees.homeOf] at hfinal
  exact hfinal hopen

/-- What a home does in granting ownership without data. -/
theorem serveCore_upgrades {s : State} {r : HomeReq} {c : CoreId} {e : DirEntry} (hk : r.kind = .upgrade) (hf : s.flips r.line = false)
    (hw : s.wbFlying c r.line = false) (hd : s.deviceBias r.line = false) (hu : s.usable r.line = true)
    (he : (s.home (s.homeOf r.line)).entry r.line = some e) (hst : e.st = .shared (oneCore c)) :
    ∃ v, s.serveCore r c = (v, true) ∧ v.cores = s.cores ∧ v.mesh = s.mesh ++ [.cmp .modified c r.line] ∧ v.mem = s.mem
      ∧ (∃ e', (v.home (s.homeOf r.line)).entry r.line = some e' ∧ e'.st = .owned c) ∧ (v.home (s.homeOf r.line)).openOn r.line = true := by
  have hhome : (s.openTxn r.line (.request r) [] false).homeOf r.line = s.homeOf r.line := rfl
  have hentry := (entry_openTxn s r.line (.request r) [] false (s.homeOf r.line) r.line).trans he
  have hopen := openOn_openTxn s r.line (.request r) [] false
  have hserve := serveCore_upgrade hk hf hw hd hu he hst
  have hbeside : (s.openTxn r.line (.request r) [] false).cores = s.cores ∧ (s.openTxn r.line (.request r) [] false).mesh = s.mesh
      ∧ (s.openTxn r.line (.request r) [] false).mem = s.mem := ⟨rfl, rfl, rfl⟩
  generalize s.openTxn r.line (.request r) [] false = t at hhome hentry hopen hserve hbeside
  obtain ⟨hcores, hmesh, hmem⟩ := hbeside
  rw [← hhome] at hentry hopen
  rw [grant_upgrade hk hentry hst] at hserve
  refine ⟨_, hserve, by simp only [State.modTxn, setHome_cores, mesh_cores, hcores],
    by simp only [State.modTxn, setHome_mesh, mesh_mesh, hmesh], by simp only [State.modTxn, setHome_mem, mesh_mem, hmem], ?_, ?_⟩
  · obtain ⟨e', he', hst', -⟩ := entry_put (t.home (t.homeOf r.line)) r.line (.owned c) e.way
    refine ⟨e', ?_, hst'⟩
    rw [entry_modTxn, ← hhome]
    exact (congrArg (Home.entry · r.line) (home_setHome_same t (t.homeOf r.line) _)).trans he'
  · rw [← hhome]
    refine openOn_modTxn (s := (t.setHome (t.homeOf r.line) _).mesh! (.cmp .modified c r.line)) _ (fun _ => rfl) ?_
    exact (congrArg (Home.openOn · r.line) (home_setHome_same t (t.homeOf r.line) _)).trans hopen

/-! ## A core's request (R263, R269) -/

theorem core_of_cores {s t : State} (h : t.cores = s.cores) (k : Nat) : t.core k = s.core k := congrArg (kget HostCore.reset · k) h

/-- A core's one miss changes no other core and no line that it holds. -/
theorem core_withMiss (s : State) (c : CoreId) (m : Miss) : ((s.withMiss c m).core c).misses = [m]
    ∧ ((s.withMiss c m).core c).lines = (s.core c).lines ∧ ∀ k, k ≠ c.val → (s.withMiss c m).core k = s.core k := by
  refine ⟨?_, ?_, fun k hk => core_setCore_ne s _ _ _ hk⟩ <;> rw [State.withMiss, core_setCore_same]

theorem moreFor_withMiss (s : State) (c : CoreId) (m : Miss) (h : Nat) : (s.withMiss c m).moreFor h = s.moreFor h := by
  refine moreFor_congr (s := s) (t := s.withMiss c m) rfl rfl rfl rfl (fun k => ?_) h
  rw [State.withMiss, core_setCore]
  split
  next hk => rw [hk]
  · rfl

/-- What a home sees of a core's request that has come: the state in which it serves it. -/
def State.coreAsked (s : State) (c : CoreId) (la : Nat) (k : ReqKind) (retires : Bool) : State :=
  (s.withMiss c ⟨la, k == .upgrade, retires, none, false, none, 0, 0⟩).asked (.core c) la k

theorem seesAlike_coreAsked (s : State) (c : CoreId) (la : Nat) (k : ReqKind) (retires : Bool) : SeesAlike s (s.coreAsked c la k retires) :=
  (seesAlike_setCore ..).trans (seesAlike_asked ..)

/-- A core's request that has come changes no register, no page bias, no flip and no message. -/
theorem coreAsked_keeps (s : State) (c : CoreId) (la : Nat) (k : ReqKind) (retires : Bool) :
    (s.coreAsked c la k retires).csr = s.csr ∧ (s.coreAsked c la k retires).bias = s.bias ∧ (s.coreAsked c la k retires).flip = s.flip
      ∧ (s.coreAsked c la k retires).mesh = s.mesh ∧ (s.coreAsked c la k retires).mem = s.mem := by
  simp only [State.coreAsked, State.asked, State.arrive, State.withMiss, setHome_csr, setHome_bias, setHome_flip, setHome_mesh, setHome_mem,
    setCore_csr, setCore_bias, setCore_flip, setCore_mesh, setCore_mem, and_self]

/-- What a home asks before it serves a core is as it was. -/
theorem coreAsked_checks (s : State) (c : CoreId) (la : Nat) (k : ReqKind) (retires : Bool) (j l : Nat) :
    (s.coreAsked c la k retires).flips l = s.flips l ∧ (s.coreAsked c la k retires).wbFlying j l = s.wbFlying j l
      ∧ (s.coreAsked c la k retires).deviceBias l = s.deviceBias l ∧ (s.coreAsked c la k retires).usable l = s.usable l := by
  obtain ⟨hcsr, hbias, hflip, hmesh, -⟩ := coreAsked_keeps s c la k retires
  exact ⟨flips_congr hflip l, wbFlying_congr hmesh j l, deviceBias_congr hbias l, usable_of_csr hcsr l⟩

/-- The homes are as they were, but for the request in its queue. -/
theorem home_coreAsked (s : State) (c : CoreId) (la : Nat) (k : ReqKind) (retires : Bool) (j : Nat) :
    (s.coreAsked c la k retires).home j = { s.home j with queue := ((s.coreAsked c la k retires).home j).queue } :=
  home_asked (s.withMiss c ⟨la, k == .upgrade, retires, none, false, none, 0, 0⟩) (.core c) la k j

section
variable {s : State} {c : CoreId} {la : Nat} {k : ReqKind} {retires : Bool}

/-- A core's request on a quiet line, with no other message of its MCLK to come, is served at once. -/
theorem coreRequest_served {t : State} (hquiet : QuietLine s la) (hmore : s.moreFor (s.homeOf la) = false)
    (hr : s.coreRuns c = true) (hm : (s.core c).misses = []) (hk : MayAsk (s.core c) la k)
    (hserve : (s.coreAsked c la k retires).serveCore ⟨.core c, la, k, s.mclk⟩ c = (t, true)) :
    (s.coreRequest c la retires k).lineMclkEnd (lineOf la) = t.nothingWaits (s.homeOf la) := by
  obtain ⟨-, h64, hw, -, hq, ho, -, hb, -, -⟩ := hquiet
  have hla : lineOf la = la := Nat.div_mul_cancel (Nat.dvd_of_mod_eq_zero h64)
  have hserve' : (s.coreAsked c la k retires).serve ⟨.core c, la, k, s.mclk⟩ = (t, true) := by
    rw [← hserve]
    rcases hk with ⟨rfl | rfl, -⟩ | ⟨rfl, -⟩ <;> rfl
  rw [coreRequest_window retires h64 hw hr hm hk, hla]
  exact arrive_served (s := s.withMiss c ⟨la, k == .upgrade, retires, none, false, none, 0, 0⟩) hq ((moreFor_withMiss ..).trans hmore) ho hb hserve'

/-- The miss of a core whose request has been served as no change of cores but its own. -/
theorem asks_of_cores {t : State} (h : t.cores = (s.coreAsked c la k retires).cores) :
    (t.core c).misses = [⟨la, k == .upgrade, retires, none, false, none, 0, 0⟩] ∧ (t.core c).lines = (s.core c).lines
      ∧ ∀ j, j ≠ c.val → t.core j = s.core j := by
  have hcore (j : Nat) : t.core j = (s.withMiss c ⟨la, k == .upgrade, retires, none, false, none, 0, 0⟩).core j := core_of_cores h j
  obtain ⟨hmisses, hlines, hothers⟩ := core_withMiss s c ⟨la, k == .upgrade, retires, none, false, none, 0, 0⟩
  exact ⟨by rw [hcore, hmisses], by rw [hcore, hlines], fun j hj => by rw [hcore, hothers j hj]⟩

end

/-- A home that has emptied its queue keeps its entries and its open transactions. -/
theorem entry_nothingWaits (s : State) (h k l : Nat) : ((s.nothingWaits h).home k).entry l = (s.home k).entry l := by
  rw [State.nothingWaits, home_setHome]
  split
  next hk => rw [hk]; rfl
  · rfl

theorem openOn_nothingWaits (s : State) (h k l : Nat) : ((s.nothingWaits h).home k).openOn l = (s.home k).openOn l := by
  rw [State.nothingWaits, home_setHome]
  split
  next hk => rw [hk]; rfl
  · rfl

section
variable {s : State} {c : CoreId} {la : Nat} {k : ReqKind} {retires : Bool} (hquiet : QuietLine s la)
  (hmore : s.moreFor (s.homeOf la) = false) (hr : s.coreRuns c = true) (hm : (s.core c).misses = []) (hk : MayAsk (s.core c) la k)
  (hfly : s.wbFlying c la = false)
include hquiet hmore hr hm hk hfly

/-- A core's request to a page of DEVICE bias is denied (R263). -/
theorem coreRequest_denied (hd : s.deviceBias la = true) : ∃ t, (s.coreRequest c la retires k).lineMclkEnd (lineOf la) = t
    ∧ t.cores = (s.coreAsked c la k retires).cores ∧ t.mesh = s.mesh ++ [.deny c la] ∧ t.mem = s.mem
    ∧ t.rf (.homeBiasDenied (s.homeOf la)) Fld.homeBiasDeniedCount
      = satAdd Fld.homeBiasDeniedCount.width (s.rf (.homeBiasDenied (s.homeOf la)) Fld.homeBiasDeniedCount) 1 := by
  obtain ⟨-, -, -, -, -, -, hf, -, -, -⟩ := id hquiet
  obtain ⟨hcsr, -, -, hmesh, hmem⟩ := coreAsked_keeps s c la k retires
  obtain ⟨hf', hfly', hd', -⟩ := coreAsked_checks s c la k retires c la
  have hhomeOf := homeOf_of_csr hcsr la
  have hreg := rf_of_csr hcsr (.homeBiasDenied (s.homeOf la)) Fld.homeBiasDeniedCount
  have hserved := fun t => coreRequest_served (t := t) (retires := retires) hquiet hmore hr hm hk
  generalize s.coreAsked c la k retires = x at hmesh hmem hf' hfly' hd' hhomeOf hreg hserved
  obtain ⟨v, hserve, hcores, hsent, hsame, hcount⟩ := serveCore_denies (s := x) (r := ⟨.core c, la, k, s.mclk⟩) (hf'.trans hf) (hfly'.trans hfly)
    (hd'.trans hd)
  rw [hhomeOf, hreg] at hcount
  rw [hmesh] at hsent
  refine ⟨_, hserved v hserve, hcores, hsent, hsame.trans hmem, hcount⟩

/-- A core that asks for a line without an entry is sent it, and owns it (R269). -/
theorem coreRequest_granted {g : LineState} {w : Nat} (hg : k = .rdShared ∧ g = .exclusive ∨ k = .rdOwn ∧ g = .modified)
    (hd : s.deviceBias la = false) (he : (s.home (s.homeOf la)).entry la = none) (hp : (s.home (s.homeOf la)).pick la = .free w) :
    ∃ t, (s.coreRequest c la retires k).lineMclkEnd (lineOf la) = t ∧ t.cores = (s.coreAsked c la k retires).cores
      ∧ ((t.slcCopy la).isSome = true ∧ t.lineAt la = s.lineAt la
        ∧ ((s.home (s.homeOf la)).slc.length < slcLines (s.homeOf la) → ∀ x, t.memByte x = s.memByte x))
      ∧ t.mesh = s.mesh ++ [.data (.core c) la (s.lineAt la), .cmp g c la]
      ∧ (∃ e, (t.home (s.homeOf la)).entry la = some e ∧ e.st = .owned c ∧ e.way = w) ∧ (t.home (s.homeOf la)).openOn la = true := by
  obtain ⟨-, h64, -, hu, -, -, hf, -, hue, hce⟩ := id hquiet
  have hsees := seesAlike_coreAsked s c la k retires
  obtain ⟨-, -, -, hmesh, -⟩ := coreAsked_keeps s c la k retires
  obtain ⟨hf', hfly', hd', hu'⟩ := coreAsked_checks s c la k retires c la
  have hserved := fun t => coreRequest_served (t := t) (retires := retires) hquiet hmore hr hm hk
  have hhome := home_coreAsked s c la k retires (s.homeOf la)
  have hentry := (congrArg (Home.entry · la) hhome).trans he
  have hpick := (congrArg (Home.pick · la) hhome).trans hp
  generalize s.coreAsked c la k retires = x at hsees hmesh hf' hfly' hd' hu' hserved hentry hpick
  rw [← hsees.homeOf] at hentry hpick
  obtain ⟨v, hserve, hdone, hopen⟩ := serveCore_grants (s := x) (r := ⟨.core c, la, k, s.mclk⟩) h64 (hf'.trans hf) (hfly'.trans hfly)
    (hd'.trans hd) (hu'.trans hu) hentry hpick ((hsees.lineUe la).trans hue) ((hsees.lineCe la).trans hce) hg
  have hlast := seesAlike_nothingWaits v (s.homeOf la)
  refine ⟨_, hserved v hserve, hdone.cores, ⟨?_, ?_, fun hroom x => ?_⟩, ?_, ?_, ?_⟩
  · rw [hlast.slcCopy, hdone.cached]
  · rw [hlast.lineAt la h64, hdone.value, hsees.lineAt la h64]
  · rw [hlast.memByte, hdone.others (by rw [hsees.homeOf, hsees.slc]; exact hroom), hsees.memByte]
  · rw [← hsees.lineAt la h64, ← hmesh]
    exact hdone.mesh
  · obtain ⟨e, hput, hst, hway⟩ := hdone.entry
    exact ⟨e, (entry_nothingWaits ..).trans (hsees.homeOf la ▸ hput), hst, hway hentry⟩
  · exact (openOn_nothingWaits ..).trans (hsees.homeOf la ▸ hopen)

/-- The one sharer of a line that asks to own it is granted it, without data (R269). -/
theorem coreRequest_upgraded {e : DirEntry} (hup : k = .upgrade) (hd : s.deviceBias la = false)
    (he : (s.home (s.homeOf la)).entry la = some e) (hst : e.st = .shared (oneCore c)) :
    ∃ t, (s.coreRequest c la retires k).lineMclkEnd (lineOf la) = t ∧ t.cores = (s.coreAsked c la k retires).cores
      ∧ t.mesh = s.mesh ++ [.cmp .modified c la] ∧ t.mem = s.mem
      ∧ (∃ e', (t.home (s.homeOf la)).entry la = some e' ∧ e'.st = .owned c) ∧ (t.home (s.homeOf la)).openOn la = true := by
  obtain ⟨-, -, -, hu, -, -, hf, -, -, -⟩ := id hquiet
  obtain ⟨hcsr, -, -, hmesh, hmem⟩ := coreAsked_keeps s c la k retires
  obtain ⟨hf', hfly', hd', hu'⟩ := coreAsked_checks s c la k retires c la
  have hhomeOf := homeOf_of_csr hcsr la
  have hserved := fun t => coreRequest_served (t := t) (retires := retires) hquiet hmore hr hm hk
  have hentry := (congrArg (Home.entry · la) (home_coreAsked s c la k retires (s.homeOf la))).trans he
  generalize s.coreAsked c la k retires = x at hmesh hmem hf' hfly' hd' hu' hhomeOf hserved hentry
  rw [← hhomeOf] at hentry
  obtain ⟨v, hserve, hcores, hsent, hsame, ⟨e', hput, hst'⟩, hopen⟩ := serveCore_upgrades (s := x) (r := ⟨.core c, la, k, s.mclk⟩) hup
    (hf'.trans hf) (hfly'.trans hfly) (hd'.trans hd) (hu'.trans hu) hentry hst
  rw [hmesh] at hsent
  rw [hhomeOf] at hput hopen
  exact ⟨_, hserved v hserve, hcores, hsent, hsame.trans hmem, ⟨e', (entry_nothingWaits ..).trans hput, hst'⟩,
    (openOn_nothingWaits ..).trans hopen⟩

end

/-! ## The commands -/

section
variable {s t : State} {a : Agent} {c : CoreId} {addr : BitVec 48} {d : Line} {m : W64} {retires : Bool}

theorem exec_rdNa (hs : s.runs (max 4 (Agent.domain a)) = true) (ha : s.agentActs a = true)
    (h : (s.agentRequest a addr.toNat .rdNA).lineMclkEnd (lineOf addr.toNat) = t) : exec (.rdNa a addr) s = .next t :=
  exec_of_agentDo (f := fun s => (s.agentRequest a addr.toNat .rdNA).lineMclkEnd (lineOf addr.toNat)) rfl hs ha h

theorem exec_wrNa (hs : s.runs (max 4 (Agent.domain a)) = true) (ha : s.agentActs a = true)
    (h : (s.agentRequest a addr.toNat (.wrNA d)).lineMclkEnd (lineOf addr.toNat) = t) : exec (.wrNa a addr d) s = .next t :=
  exec_of_agentDo (f := fun s => (s.agentRequest a addr.toNat (.wrNA d)).lineMclkEnd (lineOf addr.toNat)) rfl hs ha h

theorem exec_wrPart (hs : s.runs (max 4 (Agent.domain a)) = true) (ha : s.agentActs a = true)
    (h : (s.agentRequest a addr.toNat (.wrPart m d)).lineMclkEnd (lineOf addr.toNat) = t) : exec (.wrPart a addr m d) s = .next t :=
  exec_of_agentDo (f := fun s => (s.agentRequest a addr.toNat (.wrPart m d)).lineMclkEnd (lineOf addr.toNat)) rfl hs ha h

/-- A local offset as a physical address of a core. -/
theorem toNat_physical (addr : BitVec 48) : (addr.setWidth 64).toNat = addr.toNat := by
  have hlt := addr.isLt
  rw [BitVec.toNat_setWidth, Nat.mod_eq_of_lt (by omega)]

theorem exec_rdShared (hs : s.runs 5 = true) (h : (s.coreRequest c addr.toNat retires .rdShared).lineMclkEnd (lineOf addr.toNat) = t) :
    exec (.rdShared c (addr.setWidth 64) retires) s = .next t :=
  exec_of_clocked (f := fun s => (s.coreRequest c (addr.setWidth 64).toNat retires .rdShared).lineMclkEnd (lineOf (addr.setWidth 64).toNat)) rfl hs
    (by rw [toNat_physical, h])

theorem exec_rdOwn (hs : s.runs 5 = true) (h : (s.coreRequest c addr.toNat retires .rdOwn).lineMclkEnd (lineOf addr.toNat) = t) :
    exec (.rdOwn c (addr.setWidth 64) retires) s = .next t :=
  exec_of_clocked (f := fun s => (s.coreRequest c (addr.setWidth 64).toNat retires .rdOwn).lineMclkEnd (lineOf (addr.setWidth 64).toNat)) rfl hs
    (by rw [toNat_physical, h])

theorem exec_upgrade (hs : s.runs 5 = true) (h : (s.coreRequest c addr.toNat retires .upgrade).lineMclkEnd (lineOf addr.toNat) = t) :
    exec (.upgrade c (addr.setWidth 64) retires) s = .next t :=
  exec_of_clocked (f := fun s => (s.coreRequest c (addr.setWidth 64).toNat retires .upgrade).lineMclkEnd (lineOf (addr.setWidth 64).toNat)) rfl hs
    (by rw [toNat_physical, h])

end

/-- A home that differs in its system-level cache alone. -/
theorem homeParts_of_slc {x y : Home} (h : y = { x with slc := y.slc }) :
    y.dir = x.dir ∧ y.txns = x.txns ∧ y.queue = x.queue ∧ y.retry = x.retry := by
  rw [h]
  exact ⟨rfl, rfl, rfl, rfl⟩

/-- Settles O35: a request that has to wait by `arrive_waits`, those of agents by `agentRead_done` and `agentWrite_done`, those of cores by
`coreRequest_denied`, `coreRequest_granted` and `coreRequest_upgraded`. -/
theorem coherentRequestsComplete : Obligations.CoherentRequestsComplete := by
  unfold Obligations.CoherentRequestsComplete
  intro s addr hquiet la h same
  obtain ⟨-, h64, hw, hu, hq, -, -, -, -, -⟩ := id hquiet
  refine ⟨fun hmore a hs ha => ?waits, fun hmore => ⟨fun a hs ha hd => ⟨?read, fun d => ?write, fun m d => ?part⟩,
    fun c retires hs hr hfly hm => ⟨fun hd hcopy => ?denied, fun w hd hcopy he hp => ⟨?shared, ?own⟩, fun l e hd hcopy he hst => ?upgraded⟩⟩⟩
  case waits =>
    obtain ⟨harrive, hla⟩ := agentRequest_window s a .rdNA h64 hw
    have hend : (s.agentRequest a addr.toNat .rdNA).lineMclkEnd (lineOf addr.toNat) = s.arrive a la .rdNA := by
      rw [harrive, hla, arrive_waits hmore]
    exact ⟨_, exec_rdNa hs ha hend, queue_arrive hq, fun k hk => home_setHome_ne s _ _ _ hk, rfl⟩
  case read =>
    obtain ⟨t, hend, hdone⟩ := agentRead_done hquiet hmore hd
    exact ⟨t, exec_rdNa hs ha hend, hdone⟩
  case write =>
    obtain ⟨t, hend, hmesh, hline, hsame, hcores, hhome, hnone, hsome, hcsr⟩ := agentWrite_done hquiet hmore (serve_write rfl hu hd)
    rw [mergeLine_whole] at hline
    exact ⟨t, exec_wrNa hs ha hend, hmesh, hline, hsame, hcores, ⟨fun k => homeParts_of_slc (hhome k), hnone, hsome⟩, hcsr⟩
  case part =>
    obtain ⟨t, hend, hmesh, hline, hsame, hcores, hhome, hnone, hsome, -⟩ := agentWrite_done hquiet hmore (serve_writePart rfl hu hd)
    refine ⟨t, exec_wrPart hs ha hend, hmesh, fun i hi => ?_, hsame, hcores, ⟨fun k => homeParts_of_slc (hhome k), hnone, hsome⟩⟩
    rw [hline]
    exact extract_mergeLine _ d m hi
  case denied =>
    obtain ⟨t, hend, hcores, hmesh, hmem, hcount⟩ := coreRequest_denied hquiet hmore hr hm (.inl ⟨.inl rfl, hcopy⟩) hfly hd
    exact ⟨t, exec_rdShared hs hend, asks_of_cores hcores, hmesh, hmem, hcount⟩
  case shared =>
    obtain ⟨t, hend, hcores, hdone⟩ := coreRequest_granted hquiet hmore hr hm (.inl ⟨.inl rfl, hcopy⟩) hfly (.inl ⟨rfl, rfl⟩) hd he hp
    exact ⟨t, exec_rdShared hs hend, asks_of_cores hcores, hdone⟩
  case own =>
    obtain ⟨t, hend, hcores, hdone⟩ := coreRequest_granted hquiet hmore hr hm (.inl ⟨.inr rfl, hcopy⟩) hfly (.inr ⟨rfl, rfl⟩) hd he hp
    exact ⟨t, exec_rdOwn hs hend, asks_of_cores hcores, hdone⟩
  case upgraded =>
    obtain ⟨t, hend, hcores, hdone⟩ := coreRequest_upgraded hquiet hmore hr hm (.inr ⟨rfl, l, hcopy⟩) hfly rfl hd he hst
    exact ⟨t, exec_upgrade hs hend, asks_of_cores hcores, hdone⟩

end Sys2Proof.Machine
end
